-- ==== Sys2Proof/Word.lean ====
section
/-! DEFINITION. The word types of the model: the 64-bit word, the 32-bit register and the byte, the 160-bit flit
of R27, and the ranges of the numbers that name the parts of the device (R13, R14, R20). -/

namespace Sys2Proof

/-- A 64-bit word of an engine, the granary or a token's data field. -/
abbrev Word := BitVec 64

/-- A 32-bit register (R6). -/
abbrev Reg32 := BitVec 32

/-- A byte of memory. -/
abbrev Byte := BitVec 8

/-- A token: one 160-bit flit (R27). -/
abbrev Flit := BitVec 160

/-- A 128-bit matching-store entry (R60) or sheaf payload (R46). -/
abbrev Entry := BitVec 128

/-- A physical engine number, 17·P + s (R14). -/
abbrev EngNo := Fin 1088

/-- A plot number (R13). -/
abbrev PlotNo := Fin 64

/-- A Runner link number. -/
abbrev LinkNo := Fin 8

/-- A granary quadrant (R278). -/
abbrev QuadNo := Fin 4

/-- A mesh port of a quadrant (R254). -/
abbrev PortNo := Fin 4

/-- A strand descriptor (R302). -/
abbrev DescNo := Fin 16384

end Sys2Proof
end

