-- ==== Sys2Proof/Syntax.lean ====
section
/-! DEFINITION. The commands the block takes: one constructor for each row of opcode_table.json, with the row's
operands. An operand is what comes from outside the device or names the unit that acts; everything else a
command uses is read from the state. -/

namespace Sys2Proof

/-- Who makes a register access: each has its own latches and staging registers (R7). -/
inductive Requester where
  | host
  | mc
  | smbus
  /-- the relay of the RUN block, for MGMT requests (R374) -/
  | relay
  /-- a K-level strand of the plot -/
  | plot (p : PlotNo)
  deriving DecidableEq, Repr

/-- A radiation upset that a command can bring with it: none, a single-bit error, or an uncorrectable one. -/
inductive Upset where
  | clean
  | single
  | double
  deriving DecidableEq, Repr

/-- A detection as it reaches a collector (R451, R456). -/
structure Detection where
  /-- code of R451 -/
  code : BitVec 8
  /-- the plot whose collector takes it, for the codes of the plot collectors; the target plot of a device code -/
  plot : Option PlotNo
  /-- physical engine, when there is one -/
  phys : Option EngNo
  locus : BitVec 16
  a : BitVec 64
  b : BitVec 16
  c : BitVec 64
  /-- opened by factory injection (R470) -/
  inj : Bool
  deriving DecidableEq, Repr

/-- What a boot step that ends finds outside the model's state: whether the step's own test failed, the slots
whose self-test failed, and the copies of fuse words that voting corrected (R402, R403). -/
structure BootResult where
  fails : Bool
  /-- physical slots that failed the self-test of step SELFTEST -/
  failedSlots : List EngNo
  /-- fuse copies corrected in step FUSES -/
  voteCe : BitVec 8
  /-- levels of EVIN_0 to EVIN_63 and of PPS_IN at the first sample after PD_CTRL is released (R480) -/
  lands : BitVec 65
  deriving DecidableEq, Repr

/-- What upsets have made of the copies of a queue's or a router FIFO's pointer (R270): the write pointer or the read pointer,
the bits by which the two local copies, the two synchronised copies and what those were a cycle before differ from the pointer's
Gray code, and for how many cycles the synchronised copies have differed by one step. An upset alone can make copies differ, so
this comes with the command. -/
structure PtrView where
  write : Bool
  local0 : BitVec 6
  local1 : BitVec 6
  sync0 : BitVec 6
  sync1 : BitVec 6
  before0 : BitVec 6
  before1 : BitVec 6
  cycles : BitVec 3
  deriving DecidableEq, Repr

/-- What the load of an image finds outside the model's state: the step of 0x5 to 0xB that times out, if one does, the
slots whose microcode CRC-32 differs, and the customer entry words that an engine finds uncorrectable as it latches them
(R208, R217, R402). -/
structure LoadResult where
  timeout : Option (BitVec 4)
  crcBadSlots : List EngNo
  badEntries : List (EngNo × BitVec 4)
  deriving DecidableEq, Repr

/-- The reasons with which a strand leaves an engine (R307, R313). -/
inductive LeaveReason where
  | preempt | quantum | await | yield | exit | trap | stop
  deriving DecidableEq, Repr

/-- How a long command ended: whole, by an error, or stopped early. -/
inductive Ending where
  | done
  | error
  | aborted
  deriving DecidableEq, Repr

/-- What the partner of a link sends in CONFIG (R359). -/
structure Peer where
  uid : BitVec 64
  id : BitVec 12
  port : BitVec 3
  root : Bool
  deriving DecidableEq, Repr

/-- A detector of R424 and the event it reports. -/
inductive PowerDetector where
  /-- a rail of the rail table, by index from VAON = 0, with the voltage measured -/
  | rail (index : BitVec 6) (mv : BitVec 16)
  /-- a plot LDO, with the voltage measured -/
  | ldo (p : PlotNo) (mv : BitVec 16)
  /-- REFCLK lost -/
  | refLoss
  /-- PLL_M unlocked -/
  | pllm
  deriving DecidableEq, Repr

/-- A queue end that the dual-clock queue commands name: the site code of R276, the direction and the channel. -/
structure QueueKey where
  site : BitVec 8
  /-- false: the mesh is the writer; true: the mesh side is the reader (MESH_QRST.DIR) -/
  toMesh : Bool
  chan : BitVec 3
  /-- the input of a router FIFO: local, west, east, south, north, then the edges (R258) -/
  input : Fin 7
  deriving DecidableEq, Repr

/-- A queue or router FIFO with what upsets have made of the copies of one of its pointers (R270). -/
structure PtrCheck where
  queue : QueueKey
  view : PtrView
  deriving DecidableEq, Repr

/-- The site of a device FIFO in the encoding of SIEVE_FIFO.SITE (R469). -/
abbrev FifoSite := Fin 9

/-- Where a vote finds one copy that differs, or none alike (R468). -/
structure VoteUpset where
  /-- configuration site of R468 -/
  site : BitVec 8
  /-- address of the word -/
  addr : BitVec 40
  /-- the copies that differ or are uncorrectable -/
  copies : BitVec 3
  deriving DecidableEq, Repr

/-- A monitor's sample of a period (R435): its plot, the PCLK cycles in which its path switched, and the least slack. -/
structure Monitor where
  plot : PlotNo
  cycles : BitVec 20
  slack : BitVec 6
  deriving DecidableEq, Repr

/-- A read of the march test that differs from the pattern it expects (R441, R443): whether under the checkerboard background,
the reading element of March C−, and the row in the stripe. -/
structure MarchRead where
  checker : Bool
  element : Fin 5
  row : BitVec 9
  deriving DecidableEq, Repr

/-- What an aborted march brings (R443, R444): the wait of the access that ends it, in GCLK cycles, and the reads before it that
differ. -/
structure MarchAbort where
  wait : BitVec 8
  fails : List MarchRead
  deriving DecidableEq, Repr

/-- The lands in boundary scan (R489): what is shifted in, the first bit lowest, where the boundary register is scanned too, and
the levels that the board gives the lands. -/
structure LandScan where
  tdi : Option (BitVec 250)
  lands : BitVec 250
  deriving DecidableEq, Repr

/-- One memory word that a scrub visit finds upset (R439). -/
structure ScrubUpset where
  addr : BitVec 40
  upset : Upset
  deriving DecidableEq, Repr

/-- A command: one row of the opcode table with its operands. -/
inductive Instr where
  -- power, boot and host (chapters 14, 15)
  | powerGood (rootSel testMode : Bool)
  | resetN (rootSel testMode : Bool)
  | vinRise (mv : BitVec 16)
  | vinLoss (mv : BitVec 16)
  | powerStop (mv : BitVec 16)
  | overVoltageStop (mv : BitVec 16)
  | bootStepComplete (r : BootResult)
  | bootStepTimeout
  | fabricBootStart (r : LoadResult)
  | loadImage
  | loadImageComplete (how : Ending) (data : List Byte)
  | verifyAndStart (r : LoadResult)
  | plotReset
  | plotResetComplete (p : PlotNo)
  | granaryClear
  | granaryClearComplete (units : BitVec 11)
  | selfTest
  | selfTestComplete (plots : BitVec 7) (failedSlots : List EngNo) (failedBanks : List (Fin 512 × BitVec 14))
  | setService
  | deviceReset (rootSel testMode : Bool)
  | plotDump
  | hostCmdAbort (v : Reg32)
  | hostLinkReset (down : Bool)
  | bar2Access (off : BitVec 26) (len : BitVec 13) (wr : Option (List (Option Byte)))
  | hostDb (d : Fin 256) (v : Reg32)
  | msixPendingSend
  | version
  | mgmtPost
  | mgmtGet
  | lockForce
  | mgmtTimeout
  -- registers (chapters 0, 9)
  | registerWrite (req : Requester) (addr : BitVec 40) (size : BitVec 4) (v : Word)
  | registerPathAccess (req : Requester) (addr : BitVec 40) (size : BitVec 4) (wr : Option Word)
  | rpathTimeout (req : Requester) (addr : BitVec 40)
  -- the engine (chapter 3)
  | tokenIn (e : EngNo) (u : Upset)
  | matchToken (e : EngNo) (u : Upset)
  | spillDownSpill (e : EngNo)
  | spillDrain (p : PlotNo)
  | refillLookup (e : EngNo) (u : Upset)
  | refillAnswer (e : EngNo)
  | contextSweepVisit (e : EngNo)
  | overflowPurge (p : PlotNo)
  | contextReturn (p : PlotNo) (ctx : BitVec 16)
  | msDebugRead (req : Requester) (e : EngNo) (off : BitVec 16)
  | msDebugWrite (req : Requester) (e : EngNo) (off : BitVec 16) (v : Reg32)
  | engCtrlWrite (req : Requester) (e : EngNo) (v : Reg32)
  | engMatchCfgWrite (req : Requester) (e : EngNo) (v : Reg32)
  | engArbWrite (req : Requester) (e : EngNo) (v : Reg32)
  | execIssue (e : EngNo)
  | emitResult (e : EngNo)
  | crossbarTransfer (p : PlotNo)
  | grnAckIntake (e : EngNo)
  | sheafRspWrite (e : EngNo)
  | strandReply (e : EngNo)
  -- node operations (chapter 4)
  | add (e : EngNo) | sub (e : EngNo) | neg (e : EngNo) | mul (e : EngNo) | mulhs (e : EngNo) | mulhu (e : EngNo)
  | divs (e : EngNo) | divu (e : EngNo) | rems (e : EngNo) | remu (e : EngNo) | abs (e : EngNo)
  | mins (e : EngNo) | maxs (e : EngNo) | minu (e : EngNo) | maxu (e : EngNo)
  | and (e : EngNo) | or (e : EngNo) | xor (e : EngNo) | not (e : EngNo)
  | shl (e : EngNo) | shr (e : EngNo) | sar (e : EngNo) | rol (e : EngNo)
  | adds (e : EngNo) | subs (e : EngNo) | clz (e : EngNo) | popc (e : EngNo) | sext (e : EngNo)
  | eq (e : EngNo) | ne (e : EngNo) | lts (e : EngNo) | les (e : EngNo) | ltu (e : EngNo) | leu (e : EngNo)
  | fadd (e : EngNo) | fsub (e : EngNo) | fmul (e : EngNo) | fma (e : EngNo) | fdiv (e : EngNo) | fsqrt (e : EngNo)
  | fmin (e : EngNo) | fmax (e : EngNo) | feq (e : EngNo) | flt (e : EngNo) | fle (e : EngNo)
  | fcvtsl (e : EngNo) | fcvtls (e : EngNo) | fabs (e : EngNo) | fneg (e : EngNo)
  | dadd (e : EngNo) | dsub (e : EngNo) | dmul (e : EngNo) | dfma (e : EngNo) | ddiv (e : EngNo) | dsqrt (e : EngNo)
  | dmin (e : EngNo) | dmax (e : EngNo) | deq (e : EngNo) | dlt (e : EngNo) | dle (e : EngNo)
  | dcvtdl (e : EngNo) | dcvtld (e : EngNo) | dcvtds (e : EngNo) | dcvtsd (e : EngNo)
  | b64Grant (p : PlotNo)
  | steer (e : EngNo) | gate (e : EngNo) | merge (e : EngNo) | fan (e : EngNo) | sink (e : EngNo)
  | ctxNew (e : EngNo) | ctxFree (e : EngNo) | ctxGet (e : EngNo) | iterGet (e : EngNo) | iterNext (e : EngNo)
  | iterReset (e : EngNo) | iterDone (e : EngNo) | tagsend (e : EngNo) | mktag (e : EngNo)
  | gld (e : EngNo) | gldt (e : EngNo) | gpres (e : EngNo) | gst (e : EngNo) | gstr (e : EngNo) | gclr (e : EngNo)
  | send (e : EngNo) | blk (e : EngNo) | fence (e : EngNo) | customerNode (e : EngNo)
  -- strand instructions (chapter 5); an upset is of the memory word the instruction reads
  | opr (e : EngNo) | cmp (e : EngNo)
  | addi (e : EngNo) | andi (e : EngNo) | ori (e : EngNo) | xori (e : EngNo) | shi (e : EngNo) | movw (e : EngNo)
  | cmpi (e : EngNo) | bc (e : EngNo) | jmp (e : EngNo) | call (e : EngNo) | jr (e : EngNo) | callr (e : EngNo)
  | ret (e : EngNo)
  | ld (e : EngNo) (u : Upset) | lds (e : EngNo) (u : Upset) | st (e : EngNo)
  | ladd (e : EngNo) (u : Upset) | lfadd (e : EngNo) (u : Upset)
  | lr (e : EngNo) (u : Upset) | sc (e : EngNo) | tas (e : EngNo) (u : Upset)
  | gmemTake (e : EngNo) | gmemQuery (e : EngNo) | gmemStore (e : EngNo) | gmemClear (e : EngNo)
  | rep (e : EngNo) | await (e : EngNo)
  | strandSend (e : EngNo) | bsend (e : EngNo) | shf (e : EngNo) | strandFence (e : EngNo) | syncI (e : EngNo)
  | mff (e : EngNo) | mtf (e : EngNo) | mfc (e : EngNo) | mtc (e : EngNo) | trap (e : EngNo) | yield (e : EngNo)
  | exit (e : EngNo) | ctxn (e : EngNo) | ctxf (e : EngNo) | customerInstr (e : EngNo)
  | storeDrain (e : EngNo)
  -- microwords (chapter 7)
  | oper (e : EngNo) (u : Upset) | lit (e : EngNo) (u : Upset)
  | microJmp (e : EngNo) (u : Upset) | microCall (e : EngNo) (u : Upset) | microRet (e : EngNo) (u : Upset)
  | microFma (e : EngNo) (u : Upset) | microMul (e : EngNo) (u : Upset) | microDiv (e : EngNo) (u : Upset)
  | ldf (e : EngNo) (u : Upset) | stf (e : EngNo) (u : Upset)
  | poll (e : EngNo) (u : Upset) | microEnd (e : EngNo) (u : Upset)
  | routineResume (e : EngNo)
  | ucodeWindowRead (req : Requester) (e : EngNo) (off : BitVec 13) (u : Upset)
  -- the Pruner (chapter 8)
  | depositModeEnter (p : PlotNo) | depositMove (p : PlotNo) | reinject (p : PlotNo)
  | windowEntryFree (p : PlotNo)
  | plotQuiescent (p : PlotNo) | deviceQuiescent | auditPass | prunerExhausted (p : PlotNo)
  -- the mesh (chapter 9)
  | routerFlit (p : PlotNo) (out : Fin 5)
  | queueTransfer (q : QueueKey) (upset : Flit)
  | queueFlush (q : QueueKey)
  | queueReset (q : PtrCheck)
  | meshLinkselWrite (req : Requester) (v : Reg32)
  -- the granary (chapter 10)
  | grnRead (q : QuadNo) (j : PortNo) (u : Upset) | grnTake (q : QuadNo) (j : PortNo) (u : Upset)
  | pres (q : QuadNo) (j : PortNo) (u : Upset) | grnTas (q : QuadNo) (j : PortNo) (u : Upset)
  | peek (req : Requester) (addr : BitVec 26) (len : BitVec 4) (u : Upset)
  | keep (q : QuadNo) (j : PortNo) (u : Upset) | fill (q : QuadNo) (j : PortNo) (u : Upset)
  | clear (q : QuadNo) (j : PortNo) (u : Upset)
  | sheafReq (q : QuadNo) (j : PortNo) (u : Upset) | blkRead (q : QuadNo) (j : PortNo) (u : Upset)
  | deferredReplayPass (q : QuadNo)
  | grnEccWriteback (waddr : BitVec 23)
  | presencePortGo (req : Requester) (v : Reg32) (u : Upset)
  | bankRequest (req : Requester) (k : Fin 32) (v : Reg32)
  | bankWakeComplete (b : Fin 512)
  | bankSleep (b : Fin 512)
  -- the Dibber and EVIO (chapters 11, 18)
  | noticeRun (p : PlotNo) | loaded (p : PlotNo) | recalled (p : PlotNo) | leave (p : PlotNo)
  | accessDone (p : PlotNo) | halt (p : PlotNo)
  | wake | cancel | resume | dibInit | release | setpri | setaff | migrate
  | migrateCopyDone
  | query | findfree | raise
  | inheritanceUpdate
  | selectDispatch (p : PlotNo)
  | dispatch (e : EngNo)
  | switchStart (e : EngNo)
  | quantumExpiry (e : EngNo)
  | deadlineExpiry
  | eventServe
  | dibCmdGo (req : Requester) (v : Reg32)
  | dibSwevWrite (req : Requester) (v : Reg32)
  | evpendClear (req : Requester) (k : Fin 64) (v : Reg32)
  | outHigh | outLow | outFlush | tmrAt | tmrEvery | tmrStop | time | stamp
  | timerExpiry (t : Fin 256)
  | scheduleApply (n : Fin 32)
  | evinEdge (n : Fin 64)
  | evinCfgWrite (req : Requester) (n : Fin 64) (v : Reg32)
  | ppsEdge
  | ppsLoss
  -- locks (chapter 12)
  | acquire | lockTry | lockWait | lockRelease | withdraw
  | force (lock : BitVec 12)
  | lckCmdGo (req : Requester) (v : Reg32)
  | resetNotice
  | inhDisable (req : Requester)
  -- the Runner fabric (chapter 13)
  | linkDetect (n : LinkNo)
  | linkTrainStep (n : LinkNo) (peer : Peer)
  | linkStateTimeout (n : LinkNo)
  | linkDownRestart (n : LinkNo)
  | linkRetrain (n : LinkNo)
  | runCtlWrite (req : Requester) (n : LinkNo) (v : Reg32)
  | frameSlot (n : LinkNo)
  | idleFrame (n : LinkNo) (frame : BitVec 256)
  | flitFrame (n : LinkNo) (frame : BitVec 256)
  | nak (n : LinkNo) (frame : BitVec 256)
  | badFrame (n : LinkNo)
  | replayTimeout (n : LinkNo)
  | tsync (n : LinkNo) (frame : BitVec 256)
  | tsyncExchange
  | probe (n : LinkNo) (frame : BitVec 256) | rd (n : LinkNo) (frame : BitVec 256)
  | wr (n : LinkNo) (frame : BitVec 256) | img (n : LinkNo) (frame : BitVec 256)
  | mgmtForward (n : LinkNo) (frame : BitVec 256)
  | notice (n : LinkNo) (frame : BitVec 256)
  | runRtWrite (req : Requester) (k : Fin 1024) (v : Reg32)
  | linkEyeCheck (eyes : List (LinkNo × Reg32))
  | pdreqLinkWrite (req : Requester) (v : Reg32)
  -- power and clocks (chapter 15)
  | clkPlotReqWrite (req : Requester) (p : PlotNo) (v : Reg32)
  | dvfsStep (p : PlotNo)
  | ldoSettled (p : PlotNo)
  | ppllUnlock (p : PlotNo)
  | ppllRelock (p : PlotNo)
  | ceilingEval (watts : BitVec 16)
  | thermalSample (tj tcase : BitVec 12)
  | vinLowChange (mv : BitVec 16)
  | powerDetectorFault (d : PowerDetector)
  -- upkeep (chapter 16)
  | calEval (samples : List Monitor)
  | scrubTick (ups : List ScrubUpset)
  | scrubBurst (q : QuadNo) (ups : List ScrubUpset) (deferred : List Upset)
  | borrowStart (q : QuadNo)
  | borrowComplete (q : QuadNo) (fails : List MarchRead)
  | borrowAbort (q : QuadNo) (a : MarchAbort)
  | epochAdvance (req : Requester) (v : Reg32)
  | epochSwitch (p : PlotNo)
  | epochRetire
  | epochTimeout (p : PlotNo)
  -- the Sieve (chapter 17)
  | faultDetect (d : Detection)
  | recordArrival
  | recordClose (col : Fin 66)
  | reactionStart
  | engineRetire
  | plotResetReaction
  | plotQuarantine
  | deviceSafe
  | reactionComplete
  | sieveHistPop (req : Requester) (v : Reg32)
  | swSafe (req : Requester) (v : Reg32)
  | votePass (u : Option VoteUpset)
  | fifoPtr (site : FifoSite)
  | mcWdog
  -- SMBus and boundary scan (chapter 18)
  | smbAddr (addr : BitVec 40) (pecOk : Bool)
  | smbRead
  | smbStatus
  | tapReset
  | extest (scan : LandScan) | samplePreload (tdi lands : BitVec 250) | idcode | highz | clamp
  | extestPulse (scan : LandScan) | extestTrain (scan : LandScan) | bypass
  | hostLinkUp (width : BitVec 4) (speed : BitVec 3)
  | d3hotEntry
  | pdLinkPowerOn (n : LinkNo)
  | evinGlitch (n : Fin 65)
  deriving DecidableEq, Repr

end Sys2Proof
end

