-- ==== Sys2Proof/Machine/Bits.lean ====
section
/-! DEFINITION. Bit fields, the fields of a flit (R27, R28, R36, R42, R43, R44, R48) and its check code (R49). -/

namespace Sys2Proof.Machine

/-- Bits [lo + len − 1 : lo]. -/
def bits {n : Nat} (v : BitVec n) (lo len : Nat) : BitVec len := v.extractLsb' lo len

/-- One bit. -/
def bit {n : Nat} (v : BitVec n) (i : Nat) : Bool := v.getLsbD i

/-- The value with a field replaced. -/
def put {n len : Nat} (v : BitVec n) (lo : Nat) (x : BitVec len) : BitVec n :=
  (v &&& ~~~((BitVec.allOnes len).setWidth n <<< lo)) ||| (x.setWidth n <<< lo)

/-- The value with one bit set to a Boolean. -/
def putBit {n : Nat} (v : BitVec n) (i : Nat) (b : Bool) : BitVec n := put v i (BitVec.ofBool b)

/-- Zero or one as a word. -/
def boolW (b : Bool) : Word := if b then 1 else 0

/-- The XOR of the bits of a value. -/
def parity {n : Nat} (v : BitVec n) : Bool :=
  (List.range n).foldl (fun p i => p ^^ v.getLsbD i) false

/-- The number of one bits. -/
def popcount {n : Nat} (v : BitVec n) : Nat :=
  (List.range n).foldl (fun c i => c + (v.getLsbD i).toNat) 0

/-- Leading zeros of a value over `n` bits, from the top. -/
def leadingZeros {n : Nat} (v : BitVec n) : Nat :=
  if v.toNat = 0 then n else n - 1 - v.toNat.log2

end Sys2Proof.Machine

namespace Sys2Proof

open Machine

/-! ## The flit -/

/-- Header bits [159:144]. -/
def Flit.hdr (f : Flit) : BitVec 16 := bits f 144 16
/-- KIND (R29). -/
def Flit.kind (f : Flit) : BitVec 4 := bits f 156 4
/-- PRI. -/
def Flit.pri (f : Flit) : BitVec 2 := bits f 154 2
/-- EPOCH. -/
def Flit.epoch (f : Flit) : Bool := bit f 153
/-- VC. -/
def Flit.vc (f : Flit) : Bool := bit f 152
/-- LEN. -/
def Flit.len (f : Flit) : BitVec 4 := bits f 148 4
/-- SEQ. -/
def Flit.seq (f : Flit) : BitVec 4 := bits f 144 4
/-- The tag, bits [143:80]. -/
def Flit.tag (f : Flit) : BitVec 64 := bits f 80 64
/-- The data word, bits [79:16]. -/
def Flit.data (f : Flit) : Word := bits f 16 64
/-- The payload of a sheaf data flit, bits [143:16]. -/
def Flit.payload (f : Flit) : Entry := bits f 16 128
/-- LAST. -/
def Flit.last (f : Flit) : Bool := bit f 6
/-- POISON. -/
def Flit.poison (f : Flit) : Bool := bit f 5
/-- HOPS. -/
def Flit.hops (f : Flit) : BitVec 5 := bits f 0 5
/-- DEV of the tag. -/
def Flit.dev (f : Flit) : BitVec 12 := bits f 132 12
/-- ENG of the tag (R36, R42, R45). -/
def Flit.engOf (f : Flit) : BitVec 10 := bits f 122 10

end Sys2Proof

namespace Sys2Proof.Machine

/-- DEV of a tag. -/
def tagDev (t : BitVec 64) : BitVec 12 := bits t 52 12
/-- ENG of a tag. -/
def tagEng (t : BitVec 64) : BitVec 10 := bits t 42 10
/-- NODE of an operand tag (R36). -/
def tagNode (t : BitVec 64) : BitVec 12 := bits t 30 12
/-- PORT of an operand tag. -/
def tagPort (t : BitVec 64) : BitVec 2 := bits t 28 2
/-- CTX of a tag. -/
def tagCtx (t : BitVec 64) : BitVec 16 := bits t 12 16
/-- ITER of a tag. -/
def tagIter (t : BitVec 64) : BitVec 12 := bits t 0 12
/-- ADDR of an address tag (R42). -/
def tagAddr (t : BitVec 64) : BitVec 23 := bits t 19 23
/-- SPACE of an address tag. -/
def tagSpace (t : BitVec 64) : BitVec 3 := bits t 16 3
/-- MASK of an address tag. -/
def tagMask (t : BitVec 64) : BitVec 8 := bits t 8 8
/-- OP of an address tag. -/
def tagOp (t : BitVec 64) : BitVec 3 := bits t 5 3
/-- XID of an address tag. -/
def tagXid (t : BitVec 64) : BitVec 5 := bits t 0 5
/-- BLK of a block tag (R44). -/
def tagBlk (t : BitVec 64) : BitVec 4 := bits t 48 4
/-- FN of a block tag. -/
def tagFn (t : BitVec 64) : BitVec 6 := bits t 42 6
/-- UNIT of a block tag. -/
def tagUnit (t : BitVec 64) : BitVec 14 := bits t 28 14
/-- DESC of a dispatch tag (R45). -/
def tagDesc (t : BitVec 64) : BitVec 14 := bits t 28 14
/-- OP of a read descriptor (R43). -/
def rdOp (d : Word) : BitVec 3 := bits d 28 3
/-- LEN of a read descriptor. -/
def rdLen (d : Word) : BitVec 4 := bits d 24 4
/-- ADDR of a read descriptor. -/
def rdAddr (d : Word) : BitVec 23 := bits d 0 23

/-- An operand tag (R36). -/
def operandTag (dev : BitVec 12) (eng : BitVec 10) (node : BitVec 12) (port : BitVec 2) (ctx : BitVec 16)
    (iter : BitVec 12) : BitVec 64 :=
  dev ++ eng ++ node ++ port ++ ctx ++ iter

/-- An address tag (R42). -/
def addrTag (dev : BitVec 12) (eng : BitVec 10) (addr : BitVec 23) (space : BitVec 3) (mask : BitVec 8)
    (op : BitVec 3) (xid : BitVec 5) : BitVec 64 :=
  dev ++ eng ++ addr ++ space ++ mask ++ op ++ xid

/-- A block tag (R44). -/
def blockTag (dev : BitVec 12) (blk : BitVec 4) (fn : BitVec 6) (unit : BitVec 14) (ctx : BitVec 16)
    (iter : BitVec 12) : BitVec 64 :=
  dev ++ blk ++ fn ++ unit ++ ctx ++ iter

/-- A read descriptor (R43). -/
def readDesc (op : BitVec 3) (len : BitVec 4) (addr : BitVec 23) : Word :=
  (0 : BitVec 33) ++ op ++ len ++ (0 : BitVec 1) ++ addr

/-- KIND values (R29). -/
def kOperand : BitVec 4 := 0x0
def kGrnRead : BitVec 4 := 0x1
def kGrnWrite : BitVec 4 := 0x2
def kBlkRead : BitVec 4 := 0x3
def kGrnReply : BitVec 4 := 0x4
def kGrnAck : BitVec 4 := 0x5
def kSheafReq : BitVec 4 := 0x6
def kSheafRsp : BitVec 4 := 0x7
def kSheafData : BitVec 4 := 0x8
def kBlock : BitVec 4 := 0x9
def kDispatch : BitVec 4 := 0xA

end Sys2Proof.Machine

namespace Sys2Proof

/-- Whether a flit is the head of a sheaf (R46). -/
def Flit.heads (f : Flit) : Bool := f.kind == Machine.kSheafReq || f.kind == Machine.kSheafRsp

/-- The flits that a token still owes after its first: a sheaf's data flits, as its head counts them (R46). -/
def Flit.follow (f : Flit) : Nat := if f.heads then f.len.toNat + 1 else 0

end Sys2Proof

namespace Sys2Proof.Machine

/-! ## The check field (R48, R49) -/

/-- The codes c0 to c150 of R49: the 8-bit values with at least two bits set, in ascending order. -/
def eccCodes : List (BitVec 8) :=
  (((List.range 256).map (BitVec.ofNat 8)).filter (fun v => decide (2 ≤ popcount v))).take 151

/-- The position in the flit of protected bit dj. -/
def eccPos (j : Nat) : Nat := if j < 144 then j + 16 else j - 144

/-- The XOR of the codes of the protected bits that are one, and their parity. -/
def eccSum (f : Flit) : BitVec 8 × Bool :=
  eccCodes.zipIdx.foldl (fun acc p => if bit f (eccPos p.2) then (acc.1 ^^^ p.1, !acc.2) else acc) (0, false)

/-- The nine ECC bits of a flit. -/
def eccBits (f : Flit) : BitVec 9 :=
  let s := eccSum f
  BitVec.ofBool (s.2 ^^ parity s.1) ++ s.1

/-- The flit with its ECC field regenerated. -/
def sealFlit (f : Flit) : Flit := put f 7 (eccBits f)

/-- What a check point finds (R49). -/
inductive Check where
  | clean
  | corrected (f : Flit)
  | bad (syndrome : BitVec 8)
  deriving DecidableEq, Repr

/-- The index of a code among c0 to c150. -/
def eccIndex (s : BitVec 8) : Option Nat := (eccCodes.zipIdx.find? (fun p => p.1 == s)).map (·.2)

/-- The check of a received flit (R49). -/
def checkFlit (f : Flit) : Check :=
  let s := eccSum f
  let got := bits f 7 9
  let syn := s.1 ^^^ bits got 0 8
  let wrong := s.2 ^^ parity (bits got 0 8) ^^ bit got 8
  if !wrong then (if syn = 0 then .clean else .bad syn)
  else
    match eccIndex syn with
    | some j => .corrected (f ^^^ ((1 : Flit) <<< eccPos j))
    | none => if popcount syn ≤ 1 then .corrected (sealFlit f) else .bad syn

/-- A flit from its fields, with VC 0, HOPS 0 and ECC formed. -/
def mkFlit (kind : BitVec 4) (pri : BitVec 2) (epoch : Bool) (len seq : BitVec 4) (body : BitVec 128)
    (last poison : Bool) : Flit :=
  sealFlit (kind ++ pri ++ BitVec.ofBool epoch ++ (0 : BitVec 1) ++ len ++ seq ++ body ++ (0 : BitVec 9) ++
    BitVec.ofBool last ++ BitVec.ofBool poison ++ (0 : BitVec 5))

/-- A single-flit token. -/
def mkToken (kind : BitVec 4) (pri : BitVec 2) (epoch : Bool) (seq : BitVec 4) (tag : BitVec 64) (data : Word)
    (poison : Bool := false) : Flit :=
  mkFlit kind pri epoch 0 seq (tag ++ data) true poison

/-- The flits of a sheaf (R46). -/
def mkSheaf (kind : BitVec 4) (pri : BitVec 2) (epoch : Bool) (seq : BitVec 4) (tag : BitVec 64) (data : Word)
    (payloads : List (Entry × Bool)) : List Flit :=
  let n := payloads.length
  mkFlit kind pri epoch (BitVec.ofNat 4 (n - 1)) seq (tag ++ data) false false ::
    payloads.zipIdx.map (fun p =>
      mkFlit kSheafData pri epoch (BitVec.ofNat 4 p.2) seq p.1.1 (decide (p.2 + 1 = n)) p.1.2)

/-- The parts of a list of flits that travel as one, a sheaf or one token, and the flits behind them; none of a sheaf that
has not arrived whole (R47). -/
def takePacket : List Flit → List Flit × List Flit
  | [] => ([], [])
  | f :: fs =>
    if fs.length < Flit.follow f then ([], f :: fs) else (f :: fs.take (Flit.follow f), fs.drop (Flit.follow f))

end Sys2Proof.Machine
end

