-- ==== Sys2Proof/Machine/Flags.lean ====
section
/-! DEFINITION. FLAGS of a strand (R117): what CMP and CMPI set (R122), the conditions of R122, and what MTF writes. -/

namespace Sys2Proof.Machine

/-- Z, N, C and V after a compare of `a` with `b` (R122), in the order of FLAGS[3:0]. -/
def compareFlags (a b : Word) : BitVec 4 :=
  let d := a - b
  BitVec.ofBool ((bit a 63 != bit b 63) && (bit d 63 != bit a 63)) ++ BitVec.ofBool (decide (a.toNat < b.toNat)) ++
    BitVec.ofBool (bit d 63) ++ BitVec.ofBool (a == b)

/-- Whether a condition of R122 holds. -/
def condHolds (cond : BitVec 4) (flags : Word) : Bool :=
  let z := bit flags 0
  let n := bit flags 1
  let c := bit flags 2
  let v := bit flags 3
  match cond.toNat with
  | 0x0 => z
  | 0x1 => !z
  | 0x2 => n != v
  | 0x3 => n == v
  | 0x4 => c
  | 0x5 => !c
  | 0x6 => z || n != v
  | 0x7 => !z && n == v
  | 0x8 => n
  | 0x9 => !n
  | 0xA => v
  | 0xB => !v
  | _ => false

/-- FLAGS after MTF: only the RW fields MP, RSX, V, C, N and Z take the value (R117, R147). -/
def mtfFlags (old v : Word) : Word := (old &&& ~~~(0xE0F : Word)) ||| (v &&& 0xE0F)

/-- FLAGS.MP. -/
def flagsMP (fl : Word) : BitVec 2 := bits fl 10 2

end Sys2Proof.Machine
end

