-- ==== Sys2Proof/Machine/Float.lean ====
section
/-! DEFINITION. IEEE 754 binary32 and binary64 arithmetic as R171 to R184 give it: exact values of naturals and powers
of two, one rounding at the end, flush-to-zero, and the flags in the order of ENG_FPX[5:0] (DZ, NV, FDZ, OF, UF, NX). -/

namespace Sys2Proof.Machine

/-- A format: the bits of a fraction and of an exponent. -/
structure Fmt where
  frac : Nat
  ex : Nat
  deriving DecidableEq, Repr

/-- binary32 (R171). -/
def f32 : Fmt := { frac := 23, ex := 8 }
/-- binary64 (R171). -/
def f64 : Fmt := { frac := 52, ex := 11 }

/-- The exponent bias. -/
def Fmt.bias (f : Fmt) : Nat := 2 ^ (f.ex - 1) - 1
/-- The exponent of the smallest normal value. -/
def Fmt.emin (f : Fmt) : Int := 1 - (f.bias : Int)
/-- The exponent of the largest finite value. -/
def Fmt.emax (f : Fmt) : Int := f.bias
/-- The exponent field of infinities and NaNs. -/
def Fmt.top (f : Fmt) : Nat := 2 ^ f.ex - 1

/-- The flags an operation raises. -/
abbrev FFlags := BitVec 6
/-- No flag. -/
def fNone : FFlags := 0
/-- NV, invalid operation. -/
def fNV : FFlags := 0x10
/-- FDZ, floating-point division by zero. -/
def fDZ : FFlags := 0x08
/-- OF, with NX. -/
def fOX : FFlags := 0x05
/-- UF, with NX. -/
def fUX : FFlags := 0x03
/-- NX, inexact. -/
def fNX : FFlags := 0x01
/-- DZ, integer divide by zero (R100). -/
def fIntDZ : FFlags := 0x20

/-- What an encoding stands for: a NaN, an infinity, or the value m·2^e with a sign. -/
inductive FVal where
  | nan (signalling : Bool)
  | inf (s : Bool)
  | fin (s : Bool) (m : Nat) (e : Int)
  deriving DecidableEq, Repr

/-- Encode from sign, exponent field and fraction. -/
def Fmt.pack (f : Fmt) (s : Bool) (ex fr : Nat) : Nat := s.toNat * 2 ^ (f.ex + f.frac) + ex * 2 ^ f.frac + fr
/-- The default NaN (R171). -/
def Fmt.dn (f : Fmt) : Nat := f.pack false f.top (2 ^ (f.frac - 1))
/-- An infinity. -/
def Fmt.infBits (f : Fmt) (s : Bool) : Nat := f.pack s f.top 0
/-- The largest finite value. -/
def Fmt.maxBits (f : Fmt) (s : Bool) : Nat := f.pack s (f.top - 1) (2 ^ f.frac - 1)
/-- A zero. -/
def Fmt.zeroBits (f : Fmt) (s : Bool) : Nat := f.pack s 0 0

/-- The sign bit of an encoding. -/
def Fmt.sign (f : Fmt) (x : Nat) : Bool := x.testBit (f.ex + f.frac)
/-- The exponent field of an encoding. -/
def Fmt.exField (f : Fmt) (x : Nat) : Nat := x / 2 ^ f.frac % 2 ^ f.ex
/-- The fraction of an encoding. -/
def Fmt.frField (f : Fmt) (x : Nat) : Nat := x % 2 ^ f.frac
/-- Whether an encoding is subnormal. -/
def Fmt.subnormal (f : Fmt) (x : Nat) : Bool := f.exField x == 0 && f.frField x != 0

/-- An input with flush-to-zero applied (R175). -/
def Fmt.flush (f : Fmt) (ftz : Bool) (x : Nat) : Nat := if ftz && f.subnormal x then f.zeroBits (f.sign x) else x

/-- What an encoding stands for. -/
def Fmt.unpack (f : Fmt) (x : Nat) : FVal :=
  let s := f.sign x
  let e := f.exField x
  let m := f.frField x
  if e = f.top then (if m = 0 then .inf s else .nan (!m.testBit (f.frac - 1)))
  else if e = 0 then .fin s m (f.emin - f.frac)
  else .fin s (m + 2 ^ f.frac) ((e : Int) - f.bias - f.frac)

/-- Whether a rounding adds one to the magnitude (R172): the part cut off is above, at, or below one half. -/
def roundsUp (rm : BitVec 3) (s odd above tie inexact : Bool) : Bool :=
  match rm.toNat with
  | 0 => above || (tie && odd)
  | 1 => false
  | 2 => inexact && !s
  | 3 => inexact && s
  | _ => above || tie

/-- m·2^e with a sticky bit below it, rounded to a multiple of 2^q: the multiple, and whether it is inexact. -/
def roundTo (rm : BitVec 3) (s : Bool) (m : Nat) (e q : Int) (sticky : Bool) : Nat × Bool :=
  if q ≤ e then (m * 2 ^ (e - q).toNat, sticky)
  else
    let d := (q - e).toNat
    let n := m / 2 ^ d
    let rem := m % 2 ^ d
    let half := 2 ^ (d - 1)
    let above := decide (half < rem) || (rem == half && sticky)
    let tie := rem == half && !sticky
    let inexact := rem != 0 || sticky
    (if roundsUp rm s (n % 2 == 1) above tie inexact then n + 1 else n, inexact)

/-- The overflow result (R178, R179): infinity, or the largest finite value. -/
def Fmt.overflow (f : Fmt) (rm : BitVec 3) (s : Bool) : Nat :=
  match rm.toNat with
  | 1 => f.maxBits s
  | 2 => if s then f.maxBits s else f.infBits s
  | 3 => if s then f.infBits s else f.maxBits s
  | _ => f.infBits s

/-- The nonzero value m·2^e, with a sticky bit below it, rounded into the format (R172, R175, R176). -/
def Fmt.round (f : Fmt) (rm : BitVec 3) (ftz s : Bool) (m : Nat) (e : Int) (sticky : Bool) : Nat × FFlags :=
  let q : Int := (m.log2 : Int) + e - f.frac
  let r := roundTo rm s m e q sticky
  -- the leading exponent of the result rounded with an unbounded exponent range
  let lead : Int := (r.1.log2 : Int) + q
  if f.emax < lead then (f.overflow rm s, fOX)
  else if f.emin ≤ lead then
    let fr := r.1 * 2 ^ f.frac / 2 ^ r.1.log2 - 2 ^ f.frac
    (f.pack s (lead + f.bias).toNat fr, if r.2 then fNX else fNone)
  else if ftz then (f.zeroBits s, fUX)
  else
    let t := roundTo rm s m e (f.emin - f.frac) sticky
    (f.pack s 0 t.1, if t.2 then fUX else fNone)

/-- The sum of two exact values: sign, magnitude and exponent. A zero sum is left to the caller. -/
def exactSum (s1 : Bool) (m1 : Nat) (e1 : Int) (s2 : Bool) (m2 : Nat) (e2 : Int) : Bool × Nat × Int :=
  let e := min e1 e2
  let a : Int := (m1 * 2 ^ (e1 - e).toNat : Nat)
  let b : Int := (m2 * 2 ^ (e2 - e).toNat : Nat)
  let t := (if s1 then -a else a) + (if s2 then -b else b)
  (decide (t < 0), t.natAbs, e)

/-- L × R + A with one rounding (R180). -/
def Fmt.fmaRaw (f : Fmt) (rm : BitVec 3) (ftz : Bool) (l r a : FVal) : Nat × FFlags :=
  match l, r, a with
  | .nan true, _, _ => (f.dn, fNV)
  | _, .nan true, _ => (f.dn, fNV)
  | _, _, .nan true => (f.dn, fNV)
  | .inf s1, .fin s2 m2 _, a => if m2 = 0 then (f.dn, fNV) else infProd f (s1 ^^ s2) a
  | .fin s1 m1 _, .inf s2, a => if m1 = 0 then (f.dn, fNV) else infProd f (s1 ^^ s2) a
  | .inf s1, .inf s2, a => infProd f (s1 ^^ s2) a
  | .nan _, _, _ => (f.dn, fNone)
  | _, .nan _, _ => (f.dn, fNone)
  | _, _, .nan _ => (f.dn, fNone)
  | .fin _ _ _, .fin _ _ _, .inf s => (f.infBits s, fNone)
  | .fin s1 m1 e1, .fin s2 m2 e2, .fin s3 m3 e3 =>
    let sp := s1 ^^ s2
    let t := exactSum sp (m1 * m2) (e1 + e2) s3 m3 e3
    if t.2.1 = 0 then
      if m1 * m2 = 0 ∧ m3 = 0 ∧ sp = s3 then (f.zeroBits sp, fNone) else (f.zeroBits (rm = 3), fNone)
    else f.round rm ftz t.1 t.2.1 t.2.2 false
where
  /-- An infinite product and A (R180). -/
  infProd (f : Fmt) (s : Bool) : FVal → Nat × FFlags
    | .nan _ => (f.dn, fNone)
    | .inf t => if t = s then (f.infBits s, fNone) else (f.dn, fNV)
    | .fin _ _ _ => (f.infBits s, fNone)

/-- L × R + A on encodings (R180). -/
def Fmt.fma (f : Fmt) (rm : BitVec 3) (ftz : Bool) (l r a : Nat) : Nat × FFlags :=
  f.fmaRaw rm ftz (f.unpack (f.flush ftz l)) (f.unpack (f.flush ftz r)) (f.unpack (f.flush ftz a))

/-- L + R: FMA with a multiplier of one (R167, R178). -/
def Fmt.add (f : Fmt) (rm : BitVec 3) (ftz : Bool) (l r : Nat) : Nat × FFlags :=
  f.fmaRaw rm ftz (f.unpack (f.flush ftz l)) (.fin false 1 0) (f.unpack (f.flush ftz r))

/-- An encoding with its sign inverted (R171). -/
def Fmt.negate (f : Fmt) (x : Nat) : Nat :=
  if f.sign x then x - 2 ^ (f.ex + f.frac) else x + 2 ^ (f.ex + f.frac)

/-- L − R = L + (−R) (R178); a NaN's sign does not count. -/
def Fmt.sub (f : Fmt) (rm : BitVec 3) (ftz : Bool) (l r : Nat) : Nat × FFlags := f.add rm ftz l (f.negate r)

/-- L × R (R167, R179): an exact zero product keeps the exclusive OR of the signs. -/
def Fmt.mul (f : Fmt) (rm : BitVec 3) (ftz : Bool) (l r : Nat) : Nat × FFlags :=
  match f.unpack (f.flush ftz l), f.unpack (f.flush ftz r) with
  | .fin s1 m1 e1, .fin s2 m2 e2 =>
    if m1 * m2 = 0 then (f.zeroBits (s1 ^^ s2), fNone)
    else f.round rm ftz (s1 ^^ s2) (m1 * m2) (e1 + e2) false
  | x, y => f.fmaRaw rm ftz x y (.fin true 0 0)

/-- L ÷ R (R181). -/
def Fmt.div (f : Fmt) (rm : BitVec 3) (ftz : Bool) (l r : Nat) : Nat × FFlags :=
  match f.unpack (f.flush ftz l), f.unpack (f.flush ftz r) with
  | .nan true, _ => (f.dn, fNV)
  | _, .nan true => (f.dn, fNV)
  | .nan _, _ => (f.dn, fNone)
  | _, .nan _ => (f.dn, fNone)
  | .inf _, .inf _ => (f.dn, fNV)
  | .inf s1, .fin s2 _ _ => (f.infBits (s1 ^^ s2), fNone)
  | .fin s1 _ _, .inf s2 => (f.zeroBits (s1 ^^ s2), fNone)
  | .fin s1 m1 e1, .fin s2 m2 e2 =>
    if m2 = 0 then (if m1 = 0 then (f.dn, fNV) else (f.infBits (s1 ^^ s2), fDZ))
    else if m1 = 0 then (f.zeroBits (s1 ^^ s2), fNone)
    else
      let k := f.frac + 6 + m2.log2
      let n := m1 * 2 ^ k
      f.round rm ftz (s1 ^^ s2) (n / m2) (e1 - e2 - k) (n % m2 != 0)

/-- The integer square root, bit by bit. -/
def isqrt (n : Nat) : Nat :=
  ((List.range 90).reverse).foldl (fun r i => if (r + 2 ^ i) * (r + 2 ^ i) ≤ n then r + 2 ^ i else r) 0

/-- √L (R182). -/
def Fmt.sqrt (f : Fmt) (rm : BitVec 3) (ftz : Bool) (l : Nat) : Nat × FFlags :=
  match f.unpack (f.flush ftz l) with
  | .nan true => (f.dn, fNV)
  | .nan false => (f.dn, fNone)
  | .inf s => if s then (f.dn, fNV) else (f.infBits false, fNone)
  | .fin s m e =>
    if m = 0 then (f.zeroBits s, fNone)
    else if s then (f.dn, fNV)
    else
      -- an even exponent, and enough bits for one rounding
      let odd : Bool := e % 2 != 0
      let m' := if odd then 2 * m else m
      let e' : Int := if odd then e - 1 else e
      let n := m' * 4 ^ (f.frac + 4)
      let r := isqrt n
      f.round rm ftz false r (e' / 2 - (f.frac + 4)) (r * r != n)

/-- The order of two values that are not NaN: less, equal. -/
def fLess : FVal → FVal → Bool × Bool
  | .inf s1, .inf s2 => (s1 && !s2, s1 == s2)
  | .inf s1, _ => (s1, false)
  | _, .inf s2 => (!s2, false)
  | .fin s1 m1 e1, .fin s2 m2 e2 =>
    let e := min e1 e2
    let a : Int := (m1 * 2 ^ (e1 - e).toNat : Nat)
    let b : Int := (m2 * 2 ^ (e2 - e).toNat : Nat)
    let x := if s1 then -a else a
    let y := if s2 then -b else b
    (decide (x < y), x == y)
  | _, _ => (false, false)

/-- The compare operations (R183): `0` EQ, `1` LT, `2` LE. -/
def Fmt.compare (f : Fmt) (ftz : Bool) (op : Nat) (l r : Nat) : Bool × FFlags :=
  match f.unpack (f.flush ftz l), f.unpack (f.flush ftz r) with
  | .nan true, _ => (false, fNV)
  | _, .nan true => (false, fNV)
  | .nan _, _ => (false, if op = 0 then fNone else fNV)
  | _, .nan _ => (false, if op = 0 then fNone else fNV)
  | x, y =>
    let o := fLess x y
    (if op = 0 then o.2 else if op = 1 then o.1 else o.1 || o.2, fNone)

/-- MIN and MAX (R183). −0 is below +0, and otherwise the operand is returned bit-exact. -/
def Fmt.minMax (f : Fmt) (ftz mx : Bool) (l r : Nat) : Nat × FFlags :=
  let l := f.flush ftz l
  let r := f.flush ftz r
  match f.unpack l, f.unpack r with
  | .nan true, _ => (f.dn, fNV)
  | _, .nan true => (f.dn, fNV)
  | .nan _, .nan _ => (f.dn, fNone)
  | .nan _, _ => (r, fNone)
  | _, .nan _ => (l, fNone)
  | x, y =>
    let o := fLess x y
    let lLess := o.1 || (o.2 && f.sign l)
    (if lLess ^^ mx then l else r, fNone)

/-- To a signed 64-bit integer (R184). -/
def Fmt.toInt (f : Fmt) (rm : BitVec 3) (ftz : Bool) (l : Nat) : Word × FFlags :=
  match f.unpack (f.flush ftz l) with
  | .nan _ => (0x8000000000000000, fNV)
  | .inf s => (if s then 0x8000000000000000 else 0x7FFFFFFFFFFFFFFF, fNV)
  | .fin s m e =>
    let r := roundTo rm s m e 0 false
    if s then (if 2 ^ 63 < r.1 then (0x8000000000000000, fNV)
               else (BitVec.ofInt 64 (-(r.1 : Int)), if r.2 then fNX else fNone))
    else (if 2 ^ 63 ≤ r.1 then (0x7FFFFFFFFFFFFFFF, fNV)
          else (BitVec.ofNat 64 r.1, if r.2 then fNX else fNone))

/-- From a signed 64-bit integer (R184). -/
def Fmt.ofInt (f : Fmt) (rm : BitVec 3) (x : Word) : Nat × FFlags :=
  if x = 0 then (f.zeroBits false, fNone)
  else f.round rm false x.msb x.toInt.natAbs 0 false

/-- From one format to another (R184): exact when widening, rounded by R176 when narrowing. -/
def Fmt.convert (f g : Fmt) (rm : BitVec 3) (ftz : Bool) (l : Nat) : Nat × FFlags :=
  match f.unpack (f.flush ftz l) with
  | .nan sg => (g.dn, if sg then fNV else fNone)
  | .inf s => (g.infBits s, fNone)
  | .fin s m e => if m = 0 then (g.zeroBits s, fNone) else g.round rm ftz s m e false

/-- Subnormal inputs after flush-to-zero, which lengthen divide and square root (R168, R169). -/
def Fmt.subCount (f : Fmt) (ftz : Bool) (l : List Nat) : Nat :=
  if ftz then 0 else (l.filter f.subnormal).length

end Sys2Proof.Machine
end

