-- ==== Sys2Proof/Machine/RegTable.lean ====
section
/-! DEFINITION. The register tables of the chapters as data: every register's block, offset, repetition, fields,
access types, reset values and reserved values (R6 to R11 and the register sections of each chapter). -/

namespace Sys2Proof.Machine

/-- The access types of the table before R6. A reserved field is one that no row lists. -/
inductive Acc where
  | ro | rw | w1c | w1s | wo
  deriving DecidableEq, Repr

/-- Which written values of a field its Meaning column leaves open to writing (R10). -/
inductive Allowed where
  /-- every value -/
  | any
  /-- values under the bound -/
  | below (n : Nat)
  /-- values from the first to the second, both included -/
  | within (a b : Nat)
  /-- every value but one -/
  | not (n : Nat)
  /-- zero, or a value from the first to the second -/
  | zeroOr (a b : Nat)
  /-- a routing entry, whose bits 6 to 4 are zero (R369) -/
  | rtEntry
  deriving DecidableEq, Repr

/-- Whether a value may be written (R10). -/
def Allowed.admits : Allowed → Nat → Bool
  | .any, _ => true
  | .below n, v => decide (v < n)
  | .within a b, v => decide (a ≤ v) && decide (v ≤ b)
  | .not n, v => v != n
  | .zeroOr a b, v => v == 0 || (decide (a ≤ v) && decide (v ≤ b))
  | .rtEntry, v => v / 16 % 8 == 0

/-- One field: its name, its bits, its access type, its reset value and the values it takes. -/
structure RField where
  name : String
  hi : Nat
  lo : Nat
  acc : Acc
  reset : Nat
  ok : Allowed
  deriving DecidableEq, Repr

/-- The width of a field. -/
def RField.len (f : RField) : Nat := f.hi + 1 - f.lo

/-- The profiles under which a layout stands: all, the two native ones, or 0x0100. -/
inductive RProf where
  | all | native | p0100
  deriving DecidableEq, Repr

/-- Whether a register is half of a 64-bit pair (R7). -/
inductive RPair where
  | none | lo | hi
  deriving DecidableEq, Repr

/-- One register heading: its name, first offset in the block, distance between repetitions, their number, the
profiles it stands under, its half of a pair and its fields. -/
structure RRow where
  name : String
  off : Nat
  stride : Nat
  cnt : Nat
  prof : RProf
  pair : RPair
  fields : List RField
  deriving DecidableEq, Repr

/-- The blocks that hold registers. -/
inductive Blk where
  | dev | plot | eng | mesh | grn | dib | lck | run | bar4 | mc | host | pwr | clk | upk | sieve | evio
  deriving DecidableEq, Repr

/-- Registers of the DEV block (R1, R221, R408; 00_scope.md, 07_microcode.md, 14_host_and_boot.md). -/
def rowsDev0 : List RRow := [
  { name := "DEV_ID", off := 0x0, stride := 4, cnt := 1, prof := .all, pair := .none, fields := [
    ⟨"PART", 31, 16, .ro, 0x1024, .any⟩,
    ⟨"STEPPING", 15, 8, .ro, 0xB1, .any⟩] },
  { name := "DEV_UCODE_VER", off := 0x20, stride := 4, cnt := 1, prof := .all, pair := .none, fields := [
    ⟨"CSTATE", 31, 30, .ro, 0x0, .any⟩,
    ⟨"CVER", 15, 0, .ro, 0x0, .any⟩] },
  { name := "DEV_STATUS", off := 0x4, stride := 4, cnt := 1, prof := .all, pair := .none, fields := [
    ⟨"REACT", 9, 9, .ro, 0x0, .any⟩,
    ⟨"SAFE", 8, 8, .ro, 0x0, .any⟩,
    ⟨"STATE", 2, 0, .ro, 0x1, .any⟩] },
  { name := "DEV_RSVD_ACCESS", off := 0x10, stride := 4, cnt := 1, prof := .all, pair := .none, fields := [
    ⟨"COUNT", 31, 0, .ro, 0x0, .any⟩] },
  { name := "DEV_PROFILE", off := 0x14, stride := 4, cnt := 1, prof := .all, pair := .none, fields := [
    ⟨"FLOOR", 31, 16, .ro, 0x100, .any⟩,
    ⟨"ACTIVE", 15, 0, .ro, 0x210, .any⟩] },
  { name := "DEV_FUSE", off := 0x18, stride := 4, cnt := 1, prof := .all, pair := .none, fields := [
    ⟨"CKEY", 31, 31, .ro, 0x0, .any⟩,
    ⟨"VOTE_CE", 7, 0, .ro, 0x0, .any⟩] },
  { name := "DEV_BOOT", off := 0x1C, stride := 4, cnt := 1, prof := .all, pair := .none, fields := [
    ⟨"STEP", 31, 28, .ro, 0x0, .any⟩,
    ⟨"FAIL", 23, 16, .ro, 0x0, .any⟩,
    ⟨"DETAIL", 15, 8, .ro, 0x0, .any⟩,
    ⟨"SKIPPED", 7, 0, .ro, 0x0, .any⟩] },
  { name := "DEV_UID_LO", off := 0x8, stride := 4, cnt := 1, prof := .all, pair := .lo, fields := [
    ⟨"VALUE", 31, 0, .ro, 0x0, .any⟩] }]

/-- Registers of the DEV block (R408, R221; 07_microcode.md, 14_host_and_boot.md). -/
def rowsDev1 : List RRow := [
  { name := "DEV_UID_HI", off := 0xC, stride := 4, cnt := 1, prof := .all, pair := .hi, fields := [
    ⟨"VALUE", 31, 0, .ro, 0x0, .any⟩] },
  { name := "DEV_UCODE_ID_LO", off := 0x24, stride := 4, cnt := 1, prof := .all, pair := .lo, fields := [
    ⟨"VALUE", 31, 0, .ro, 0x0, .any⟩] },
  { name := "DEV_UCODE_ID_HI", off := 0x28, stride := 4, cnt := 1, prof := .all, pair := .hi, fields := [
    ⟨"VALUE", 31, 0, .ro, 0x0, .any⟩] },
  { name := "DEV_IMAGE_ID_LO", off := 0x2C, stride := 4, cnt := 1, prof := .all, pair := .lo, fields := [
    ⟨"VALUE", 31, 0, .ro, 0x0, .any⟩] },
  { name := "DEV_IMAGE_ID_HI", off := 0x30, stride := 4, cnt := 1, prof := .all, pair := .hi, fields := [
    ⟨"VALUE", 31, 0, .ro, 0x0, .any⟩] }]

/-- Every register of the DEV block. -/
def rowsDev : List RRow := rowsDev0 ++ rowsDev1

/-- Registers of the PLOT block (R17, R191, R249; 01_architecture.md, 06_arithmetic.md, 08_flow_and_deadlock.md). -/
def rowsPlot0 : List RRow := [
  { name := "PLOT_SLOT_MAP", off := 0x0, stride := 4, cnt := 1, prof := .all, pair := .none, fields := [
    ⟨"REMAPPED", 31, 31, .ro, 0x0, .any⟩,
    ⟨"SPARE_OK", 30, 30, .ro, 0x1, .any⟩,
    ⟨"OUT_SLOT", 25, 21, .ro, 0x10, .any⟩,
    ⟨"RETIRED", 16, 0, .ro, 0x0, .any⟩] },
  { name := "PLOT_CTXMODE_j", off := 0x10000, stride := 4, cnt := 8192, prof := .all, pair := .none, fields := [
    ⟨"FTZ_7", 31, 31, .rw, 0x0, .any⟩,
    ⟨"RM_7", 30, 28, .rw, 0x0, (.below 5)⟩,
    ⟨"FTZ_6", 27, 27, .rw, 0x0, .any⟩,
    ⟨"RM_6", 26, 24, .rw, 0x0, (.below 5)⟩,
    ⟨"FTZ_5", 23, 23, .rw, 0x0, .any⟩,
    ⟨"RM_5", 22, 20, .rw, 0x0, (.below 5)⟩,
    ⟨"FTZ_4", 19, 19, .rw, 0x0, .any⟩,
    ⟨"RM_4", 18, 16, .rw, 0x0, (.below 5)⟩,
    ⟨"FTZ_3", 15, 15, .rw, 0x0, .any⟩,
    ⟨"RM_3", 14, 12, .rw, 0x0, (.below 5)⟩,
    ⟨"FTZ_2", 11, 11, .rw, 0x0, .any⟩,
    ⟨"RM_2", 10, 8, .rw, 0x0, (.below 5)⟩,
    ⟨"FTZ_1", 7, 7, .rw, 0x0, .any⟩,
    ⟨"RM_1", 6, 4, .rw, 0x0, (.below 5)⟩,
    ⟨"FTZ_0", 3, 3, .rw, 0x0, .any⟩,
    ⟨"RM_0", 2, 0, .rw, 0x0, (.below 5)⟩] },
  { name := "PLOT_PRN_CTL", off := 0x100, stride := 4, cnt := 1, prof := .all, pair := .none, fields := [
    ⟨"QEV", 8, 8, .rw, 0x0, .any⟩,
    ⟨"AEV", 7, 7, .rw, 0x1, .any⟩,
    ⟨"PROBES", 1, 0, .rw, 0x1, .any⟩] },
  { name := "PLOT_PRN_OVF", off := 0x104, stride := 4, cnt := 1, prof := .all, pair := .none, fields := [
    ⟨"POOL", 23, 20, .rw, 0x0, (.zeroOr 8 12)⟩,
    ⟨"BUCKETS", 19, 16, .rw, 0x0, (.zeroOr 10 14)⟩,
    ⟨"BASE", 9, 0, .rw, 0x0, .any⟩] },
  { name := "PLOT_PRN_MSWM", off := 0x108, stride := 4, cnt := 1, prof := .all, pair := .none, fields := [
    ⟨"HI", 28, 16, .rw, 0xC00, .any⟩,
    ⟨"LO", 12, 0, .rw, 0xA00, .any⟩] },
  { name := "PLOT_PRN_REFWM", off := 0x10C, stride := 4, cnt := 1, prof := .all, pair := .none, fields := [
    ⟨"OVF_P2", 11, 8, .rw, 0xE, .any⟩,
    ⟨"OVF_P1", 7, 4, .rw, 0xC, .any⟩,
    ⟨"OVF_P0", 3, 0, .rw, 0x8, .any⟩] },
  { name := "PLOT_PRN_WIN", off := 0x110, stride := 4, cnt := 1, prof := .all, pair := .none, fields := [
    ⟨"SIZE", 3, 0, .rw, 0x8, (.below 12)⟩] },
  { name := "PLOT_PRN_TIME", off := 0x114, stride := 4, cnt := 1, prof := .all, pair := .none, fields := [
    ⟨"EXH", 31, 24, .rw, 0x40, .any⟩,
    ⟨"QTIME", 15, 8, .rw, 0x10, (.not 0)⟩,
    ⟨"DEP", 7, 0, .rw, 0x10, (.not 0)⟩] }]

/-- Registers of the PLOT block (R249, R472; 08_flow_and_deadlock.md, 17_faults.md). -/
def rowsPlot1 : List RRow := [
  { name := "PLOT_PRN_STATUS", off := 0x118, stride := 4, cnt := 1, prof := .all, pair := .none, fields := [
    ⟨"WIN_USED", 13, 8, .ro, 0x0, .any⟩,
    ⟨"CFG_DROP", 7, 7, .w1c, 0x0, .any⟩,
    ⟨"EXHAUSTED", 6, 6, .w1c, 0x0, .any⟩,
    ⟨"WIN_FULL", 5, 5, .ro, 0x0, .any⟩,
    ⟨"DEPOSIT", 4, 4, .ro, 0x0, .any⟩,
    ⟨"REFUSE_P2", 3, 3, .ro, 0x0, .any⟩,
    ⟨"REFUSE_P1", 2, 2, .ro, 0x0, .any⟩,
    ⟨"REFUSE_P0", 1, 1, .ro, 0x0, .any⟩,
    ⟨"QUIET", 0, 0, .ro, 0x0, .any⟩] },
  { name := "PLOT_PRN_FILL", off := 0x11C, stride := 4, cnt := 1, prof := .all, pair := .none, fields := [
    ⟨"POOL_USED", 29, 17, .ro, 0x0, .any⟩,
    ⟨"SLOTS_USED", 16, 0, .ro, 0x0, .any⟩] },
  { name := "PLOT_PRN_REFUSED", off := 0x120, stride := 4, cnt := 1, prof := .all, pair := .none, fields := [
    ⟨"P2", 29, 20, .ro, 0x0, .any⟩,
    ⟨"P1", 19, 10, .ro, 0x0, .any⟩,
    ⟨"P0", 9, 0, .ro, 0x0, .any⟩] },
  { name := "PLOT_PRN_COUNT", off := 0x124, stride := 4, cnt := 1, prof := .all, pair := .none, fields := [
    ⟨"SPILLBLK", 31, 16, .ro, 0x0, .any⟩,
    ⟨"DEPOSITED", 15, 0, .ro, 0x0, .any⟩] },
  { name := "PLOT_PRN_DROP", off := 0x128, stride := 4, cnt := 1, prof := .all, pair := .none, fields := [
    ⟨"PURGED", 31, 16, .ro, 0x0, .any⟩,
    ⟨"DONE_IGN", 15, 8, .ro, 0x0, .any⟩,
    ⟨"OVF_ECC", 7, 0, .ro, 0x0, .any⟩] },
  { name := "PLOT_FC_STATUS", off := 0x200, stride := 4, cnt := 1, prof := .all, pair := .none, fields := [
    ⟨"VALID", 31, 31, .w1c, 0x0, .any⟩,
    ⟨"OVF", 30, 30, .w1c, 0x0, .any⟩,
    ⟨"OPEN", 29, 29, .ro, 0x0, .any⟩,
    ⟨"OVFCNT", 15, 0, .ro, 0x0, .any⟩] },
  { name := "PLOT_FC_REC_w", off := 0x240, stride := 4, cnt := 16, prof := .all, pair := .none, fields := [
    ⟨"VALUE", 31, 0, .ro, 0x0, .any⟩] }]

/-- Every register of the PLOT block. -/
def rowsPlot : List RRow := rowsPlot0 ++ rowsPlot1

/-- Registers of the ENG block (R81, R82, R83; 03_engine.md). -/
def rowsEng0 : List RRow := [
  { name := "ENG_ID", off := 0x0, stride := 4, cnt := 1, prof := .all, pair := .none, fields := [
    ⟨"OOS", 31, 31, .ro, 0x0, .any⟩,
    ⟨"LOGICAL", 25, 16, .ro, 0x0, .any⟩,
    ⟨"PHYS", 10, 0, .ro, 0x0, .any⟩] },
  { name := "ENG_CTRL", off := 0x4, stride := 4, cnt := 1, prof := .all, pair := .none, fields := [
    ⟨"LOOP_DIS", 2, 2, .rw, 0x0, .any⟩,
    ⟨"STR_HALT", 1, 1, .rw, 0x1, .any⟩,
    ⟨"TOK_HALT", 0, 0, .rw, 0x1, .any⟩] },
  { name := "ENG_STATUS", off := 0x8, stride := 4, cnt := 1, prof := .all, pair := .none, fields := [
    ⟨"CFG_DROP", 11, 11, .w1c, 0x0, .any⟩,
    ⟨"DUP_SEEN", 10, 10, .w1c, 0x0, .any⟩,
    ⟨"P3OVF_SEEN", 9, 9, .w1c, 0x0, .any⟩,
    ⟨"NOSTICKY_SEEN", 8, 8, .w1c, 0x0, .any⟩,
    ⟨"SWEEP", 5, 5, .ro, 0x0, .any⟩,
    ⟨"SPILLQ_FULL", 4, 4, .ro, 0x0, .any⟩,
    ⟨"MPB_FULL", 3, 3, .ro, 0x0, .any⟩,
    ⟨"STANDBY", 2, 2, .ro, 0x0, .any⟩,
    ⟨"STRAND", 1, 1, .ro, 0x0, .any⟩,
    ⟨"QUIET", 0, 0, .ro, 0x1, .any⟩] },
  { name := "ENG_ARB", off := 0x10, stride := 4, cnt := 1, prof := .all, pair := .none, fields := [
    ⟨"PTHRESH", 12, 8, .rw, 0x18, .any⟩,
    ⟨"SW", 7, 4, .rw, 0x4, .any⟩,
    ⟨"TW", 3, 0, .rw, 0x4, .any⟩] },
  { name := "ENG_MATCH_CFG", off := 0x14, stride := 4, cnt := 1, prof := .all, pair := .none, fields := [
    ⟨"SALT", 9, 0, .rw, 0x0, .any⟩] },
  { name := "ENG_MS_OCC", off := 0x18, stride := 4, cnt := 1, prof := .all, pair := .none, fields := [
    ⟨"PROT", 28, 16, .ro, 0x0, .any⟩,
    ⟨"TOTAL", 12, 0, .ro, 0x0, .any⟩] },
  { name := "ENG_MS_HWM", off := 0x1C, stride := 4, cnt := 1, prof := .all, pair := .none, fields := [
    ⟨"HWM", 12, 0, .rw, 0x0, .any⟩] },
  { name := "ENG_DROP", off := 0x40, stride := 4, cnt := 1, prof := .all, pair := .none, fields := [
    ⟨"PROT", 31, 24, .ro, 0x0, .any⟩,
    ⟨"DUP", 23, 16, .ro, 0x0, .any⟩,
    ⟨"CTX", 15, 0, .ro, 0x0, .any⟩] }]

/-- Registers of the ENG block (R83, R161; 03_engine.md, 05_strands.md). -/
def rowsEng1 : List RRow := [
  { name := "ENG_ROW", off := 0x44, stride := 4, cnt := 1, prof := .all, pair := .none, fields := [
    ⟨"OUT_MAIN", 24, 20, .ro, 0x0, .any⟩,
    ⟨"OUT_P3", 18, 16, .ro, 0x0, .any⟩,
    ⟨"IN_P0", 14, 11, .ro, 0x0, .any⟩,
    ⟨"IN_P1", 10, 7, .ro, 0x0, .any⟩,
    ⟨"IN_P2", 6, 3, .ro, 0x0, .any⟩,
    ⟨"IN_P3", 2, 0, .ro, 0x0, .any⟩] },
  { name := "ENG_BUF", off := 0x48, stride := 4, cnt := 1, prof := .all, pair := .none, fields := [
    ⟨"P3OVF", 19, 16, .ro, 0x0, .any⟩,
    ⟨"SPILLQ", 11, 8, .ro, 0x0, .any⟩,
    ⟨"MPB", 3, 0, .ro, 0x0, .any⟩] },
  { name := "ENG_SRUN", off := 0x100, stride := 4, cnt := 1, prof := .all, pair := .none, fields := [
    ⟨"VALID", 31, 31, .ro, 0x0, .any⟩,
    ⟨"K", 30, 30, .ro, 0x0, .any⟩,
    ⟨"STATE", 29, 27, .ro, 0x0, .any⟩,
    ⟨"DESC", 13, 0, .ro, 0x0, .any⟩] },
  { name := "ENG_SPC", off := 0x104, stride := 4, cnt := 1, prof := .all, pair := .none, fields := [
    ⟨"PC", 14, 0, .ro, 0x0, .any⟩] },
  { name := "ENG_SSBY", off := 0x108, stride := 4, cnt := 1, prof := .all, pair := .none, fields := [
    ⟨"VALID", 31, 31, .ro, 0x0, .any⟩,
    ⟨"DESC", 13, 0, .ro, 0x0, .any⟩] },
  { name := "ENG_SRS", off := 0x10C, stride := 4, cnt := 1, prof := .all, pair := .none, fields := [
    ⟨"WRAPS", 15, 8, .ro, 0x0, .any⟩,
    ⟨"RSP", 6, 4, .ro, 0x0, .any⟩,
    ⟨"RSD", 3, 0, .ro, 0x0, .any⟩] },
  { name := "ENG_STRAP", off := 0x110, stride := 4, cnt := 1, prof := .all, pair := .none, fields := [
    ⟨"VALID", 31, 31, .w1c, 0x0, .any⟩,
    ⟨"MORE", 30, 30, .w1c, 0x0, .any⟩,
    ⟨"CAUSE", 23, 16, .ro, 0x0, .any⟩,
    ⟨"DESC", 13, 0, .ro, 0x0, .any⟩] },
  { name := "ENG_STRAP_PC", off := 0x114, stride := 4, cnt := 1, prof := .all, pair := .none, fields := [
    ⟨"PC", 14, 0, .ro, 0x0, .any⟩] }]

/-- Registers of the ENG block (R161, R190; 05_strands.md, 06_arithmetic.md). -/
def rowsEng2 : List RRow := [
  { name := "ENG_SACC", off := 0x120, stride := 4, cnt := 1, prof := .all, pair := .none, fields := [
    ⟨"SEQ", 27, 16, .ro, 0x0, .any⟩,
    ⟨"FULLWAIT", 15, 8, .ro, 0x0, .any⟩,
    ⟨"ENTRIES", 3, 0, .ro, 0x0, .any⟩] },
  { name := "ENG_SRES", off := 0x124, stride := 4, cnt := 1, prof := .all, pair := .none, fields := [
    ⟨"VALID", 31, 31, .ro, 0x0, .any⟩,
    ⟨"GRANULE", 14, 6, .ro, 0x0, .any⟩] },
  { name := "ENG_SSB", off := 0x128, stride := 4, cnt := 1, prof := .all, pair := .none, fields := [
    ⟨"PSTALL", 15, 8, .ro, 0x0, .any⟩,
    ⟨"LEVEL", 2, 0, .ro, 0x0, .any⟩] },
  { name := "ENG_SWC", off := 0x12C, stride := 4, cnt := 1, prof := .all, pair := .none, fields := [
    ⟨"WCNT", 31, 16, .ro, 0x0, .any⟩,
    ⟨"ACNT", 15, 0, .ro, 0x0, .any⟩] },
  { name := "ENG_SSTALE", off := 0x130, stride := 4, cnt := 1, prof := .all, pair := .none, fields := [
    ⟨"COUNT", 15, 0, .ro, 0x0, .any⟩] },
  { name := "ENG_FPX", off := 0x80, stride := 4, cnt := 1, prof := .all, pair := .none, fields := [
    ⟨"PRECISE", 31, 31, .rw, 0x0, .any⟩,
    ⟨"PEND", 30, 30, .w1c, 0x0, .any⟩,
    ⟨"CAP", 21, 16, .rw, 0x3C, .any⟩,
    ⟨"EN_NV", 12, 12, .rw, 0x0, .any⟩,
    ⟨"EN_FDZ", 11, 11, .rw, 0x0, .any⟩,
    ⟨"EN_OF", 10, 10, .rw, 0x0, .any⟩,
    ⟨"EN_UF", 9, 9, .rw, 0x0, .any⟩,
    ⟨"EN_NX", 8, 8, .rw, 0x0, .any⟩,
    ⟨"DZ", 5, 5, .w1c, 0x0, .any⟩,
    ⟨"NV", 4, 4, .w1c, 0x0, .any⟩,
    ⟨"FDZ", 3, 3, .w1c, 0x0, .any⟩,
    ⟨"OF", 2, 2, .w1c, 0x0, .any⟩,
    ⟨"UF", 1, 1, .w1c, 0x0, .any⟩,
    ⟨"NX", 0, 0, .w1c, 0x0, .any⟩] },
  { name := "ENG_FPX_FIRST", off := 0x84, stride := 4, cnt := 1, prof := .all, pair := .none, fields := [
    ⟨"VALID", 31, 31, .w1c, 0x0, .any⟩,
    ⟨"SRC", 30, 30, .ro, 0x0, .any⟩,
    ⟨"PHYS", 29, 19, .ro, 0x0, .any⟩,
    ⟨"ADDR", 14, 0, .ro, 0x0, .any⟩] },
  { name := "ENG_FPX_WHERE", off := 0x88, stride := 4, cnt := 1, prof := .all, pair := .none, fields := [
    ⟨"CTX", 31, 16, .ro, 0x0, .any⟩,
    ⟨"DESC", 13, 0, .ro, 0x0, .any⟩] }]

/-- Registers of the ENG block (R190, R220; 06_arithmetic.md, 07_microcode.md). -/
def rowsEng3 : List RRow := [
  { name := "ENG_FPX_WHAT", off := 0x8C, stride := 4, cnt := 1, prof := .all, pair := .none, fields := [
    ⟨"RAISED", 29, 24, .ro, 0x0, .any⟩,
    ⟨"ITER", 11, 0, .ro, 0x0, .any⟩] },
  { name := "ENG_FPCTL", off := 0x90, stride := 4, cnt := 1, prof := .native, pair := .none, fields := [
    ⟨"CFTZ", 7, 7, .rw, 0x0, .any⟩,
    ⟨"CRM", 6, 4, .rw, 0x0, (.below 5)⟩,
    ⟨"SFTZ", 3, 3, .rw, 0x0, .any⟩,
    ⟨"SRM", 2, 0, .rw, 0x0, (.below 5)⟩] },
  { name := "ENG_FPCTL", off := 0x90, stride := 4, cnt := 1, prof := .p0100, pair := .none, fields := [
    ⟨"SFTZ", 3, 3, .rw, 0x0, .any⟩,
    ⟨"SRM", 2, 0, .rw, 0x0, (.below 5)⟩] },
  { name := "ENG_FPDLV", off := 0x94, stride := 4, cnt := 1, prof := .all, pair := .none, fields := [
    ⟨"VALID", 31, 31, .w1c, 0x0, .any⟩,
    ⟨"MORE", 30, 30, .w1c, 0x0, .any⟩,
    ⟨"KIND", 29, 29, .ro, 0x0, .any⟩,
    ⟨"NODE", 27, 16, .ro, 0x0, .any⟩,
    ⟨"CTX", 15, 0, .ro, 0x0, .any⟩] },
  { name := "ENG_B64WAIT", off := 0x98, stride := 4, cnt := 1, prof := .all, pair := .none, fields := [
    ⟨"COUNT", 31, 0, .ro, 0x0, .any⟩] },
  { name := "ENG_UCODE_VER", off := 0x200, stride := 4, cnt := 1, prof := .all, pair := .none, fields := [
    ⟨"MAJOR", 31, 24, .ro, 0x0, .any⟩,
    ⟨"MINOR", 23, 16, .ro, 0x0, .any⟩,
    ⟨"BUILD", 15, 0, .ro, 0x0, .any⟩] },
  { name := "ENG_USEQ", off := 0x204, stride := 4, cnt := 1, prof := .all, pair := .none, fields := [
    ⟨"BUSY", 31, 31, .ro, 0x0, .any⟩,
    ⟨"SRC", 30, 30, .ro, 0x0, .any⟩,
    ⟨"SUSP", 29, 29, .ro, 0x0, .any⟩,
    ⟨"SUPC", 26, 16, .ro, 0x0, .any⟩,
    ⟨"UPC", 10, 0, .ro, 0x0, .any⟩] },
  { name := "ENG_UABORT", off := 0x208, stride := 4, cnt := 1, prof := .all, pair := .none, fields := [
    ⟨"VALID", 31, 31, .w1c, 0x0, .any⟩,
    ⟨"MORE", 30, 30, .w1c, 0x0, .any⟩,
    ⟨"SRC", 29, 29, .ro, 0x0, .any⟩,
    ⟨"CAUSE", 27, 24, .ro, 0x0, .any⟩,
    ⟨"UPC", 10, 0, .ro, 0x0, .any⟩] },
  { name := "ENG_UCOUNT", off := 0x20C, stride := 4, cnt := 1, prof := .all, pair := .none, fields := [
    ⟨"LATE", 31, 16, .ro, 0x0, .any⟩,
    ⟨"EXITS", 15, 0, .ro, 0x0, .any⟩] }]

/-- Registers of the ENG block (R220, R83; 03_engine.md, 07_microcode.md). -/
def rowsEng4 : List RRow := [
  { name := "ENG_UENTRY_k", off := 0x240, stride := 4, cnt := 16, prof := .all, pair := .none, fields := [
    ⟨"PRES", 31, 31, .ro, 0x0, .any⟩,
    ⟨"NODE", 30, 30, .ro, 0x0, .any⟩,
    ⟨"STRAND", 29, 29, .ro, 0x0, .any⟩,
    ⟨"SHAPE", 28, 28, .ro, 0x0, .any⟩,
    ⟨"FMA", 27, 27, .ro, 0x0, .any⟩,
    ⟨"DIV", 26, 26, .ro, 0x0, .any⟩,
    ⟨"ENTRY", 10, 0, .ro, 0x0, .any⟩] },
  { name := "ENG_SPILL_LO", off := 0x20, stride := 4, cnt := 1, prof := .all, pair := .lo, fields := [
    ⟨"VALUE", 31, 0, .ro, 0x0, .any⟩] },
  { name := "ENG_SPILL_HI", off := 0x24, stride := 4, cnt := 1, prof := .all, pair := .hi, fields := [
    ⟨"VALUE", 31, 0, .ro, 0x0, .any⟩] },
  { name := "ENG_REFILL_LO", off := 0x28, stride := 4, cnt := 1, prof := .all, pair := .lo, fields := [
    ⟨"VALUE", 31, 0, .ro, 0x0, .any⟩] },
  { name := "ENG_REFILL_HI", off := 0x2C, stride := 4, cnt := 1, prof := .all, pair := .hi, fields := [
    ⟨"VALUE", 31, 0, .ro, 0x0, .any⟩] },
  { name := "ENG_FIRE_LO", off := 0x30, stride := 4, cnt := 1, prof := .all, pair := .lo, fields := [
    ⟨"VALUE", 31, 0, .ro, 0x0, .any⟩] },
  { name := "ENG_FIRE_HI", off := 0x34, stride := 4, cnt := 1, prof := .all, pair := .hi, fields := [
    ⟨"VALUE", 31, 0, .ro, 0x0, .any⟩] },
  { name := "ENG_SISSUE_LO", off := 0x38, stride := 4, cnt := 1, prof := .all, pair := .lo, fields := [
    ⟨"VALUE", 31, 0, .ro, 0x0, .any⟩] }]

/-- Registers of the ENG block (R83, R161; 03_engine.md, 05_strands.md). -/
def rowsEng5 : List RRow := [
  { name := "ENG_SISSUE_HI", off := 0x3C, stride := 4, cnt := 1, prof := .all, pair := .hi, fields := [
    ⟨"VALUE", 31, 0, .ro, 0x0, .any⟩] },
  { name := "ENG_STRAP_ADDR_LO", off := 0x118, stride := 4, cnt := 1, prof := .all, pair := .lo, fields := [
    ⟨"VALUE", 31, 0, .ro, 0x0, .any⟩] },
  { name := "ENG_STRAP_ADDR_HI", off := 0x11C, stride := 4, cnt := 1, prof := .all, pair := .hi, fields := [
    ⟨"VALUE", 31, 0, .ro, 0x0, .any⟩] }]

/-- Every register of the ENG block. -/
def rowsEng : List RRow := rowsEng0 ++ rowsEng1 ++ rowsEng2 ++ rowsEng3 ++ rowsEng4 ++ rowsEng5

/-- Registers of the MESH block (R250, R276; 08_flow_and_deadlock.md, 09_mesh_and_queues.md). -/
def rowsMesh0 : List RRow := [
  { name := "MESH_PRN_AUDIT", off := 0x4000, stride := 4, cnt := 1, prof := .all, pair := .none, fields := [
    ⟨"PASSES", 27, 24, .rw, 0x4, (.not 0)⟩,
    ⟨"RESMAX", 23, 16, .rw, 0x8, .any⟩,
    ⟨"PERIOD", 15, 0, .rw, 0x3E8, .any⟩] },
  { name := "MESH_PRN_LOG", off := 0x4004, stride := 4, cnt := 1, prof := .all, pair := .none, fields := [
    ⟨"BASE", 25, 16, .rw, 0x0, .any⟩,
    ⟨"EN", 15, 15, .rw, 0x0, .any⟩,
    ⟨"WP", 10, 0, .ro, 0x0, .any⟩] },
  { name := "MESH_PRN_QUIET", off := 0x4008, stride := 4, cnt := 1, prof := .all, pair := .none, fields := [
    ⟨"DQUIET", 16, 16, .ro, 0x0, .any⟩,
    ⟨"QTIME", 15, 0, .rw, 0x400, (.not 0)⟩] },
  { name := "MESH_PRN_STATUS", off := 0x400C, stride := 4, cnt := 1, prof := .all, pair := .none, fields := [
    ⟨"STALLED", 26, 16, .ro, 0x0, .any⟩,
    ⟨"PASS", 15, 0, .ro, 0x0, .any⟩] },
  { name := "MESH_CFG", off := 0x0, stride := 4, cnt := 1, prof := .all, pair := .none, fields := [
    ⟨"QEV", 9, 9, .rw, 0x1, .any⟩,
    ⟨"P3EV", 8, 8, .rw, 0x0, .any⟩,
    ⟨"CT", 4, 0, .rw, 0x0, (.zeroOr 2 17)⟩] },
  { name := "MESH_P3LIM", off := 0x4, stride := 4, cnt := 1, prof := .all, pair := .none, fields := [
    ⟨"LIMIT", 7, 0, .rw, 0x2, (.not 0)⟩] },
  { name := "MESH_P3STAT", off := 0x8, stride := 4, cnt := 1, prof := .all, pair := .none, fields := [
    ⟨"MAXWAIT", 23, 16, .rw, 0x0, .any⟩,
    ⟨"OVER", 15, 0, .ro, 0x0, .any⟩] },
  { name := "MESH_QRST", off := 0xC, stride := 4, cnt := 1, prof := .all, pair := .none, fields := [
    ⟨"COUNT", 31, 24, .ro, 0x0, .any⟩,
    ⟨"SITE", 15, 8, .ro, 0x0, .any⟩,
    ⟨"DIR", 7, 7, .ro, 0x0, .any⟩,
    ⟨"CH", 6, 4, .ro, 0x0, .any⟩] }]

/-- Registers of the MESH block (R276; 09_mesh_and_queues.md). -/
def rowsMesh1 : List RRow := [
  { name := "MESH_QDISC", off := 0x10, stride := 4, cnt := 1, prof := .all, pair := .none, fields := [
    ⟨"COUNT", 31, 0, .ro, 0x0, .any⟩] },
  { name := "MESH_ECC", off := 0x14, stride := 4, cnt := 1, prof := .all, pair := .none, fields := [
    ⟨"CE", 31, 16, .ro, 0x0, .any⟩,
    ⟨"UC", 15, 0, .ro, 0x0, .any⟩] },
  { name := "MESH_LINKSEL", off := 0x18, stride := 4, cnt := 1, prof := .all, pair := .none, fields := [
    ⟨"ROUTER", 13, 8, .rw, 0x0, .any⟩,
    ⟨"CH", 6, 4, .rw, 0x0, (.below 3)⟩,
    ⟨"OUT", 2, 0, .rw, 0x0, (.below 5)⟩] },
  { name := "MESH_RPCFG", off := 0x24, stride := 4, cnt := 1, prof := .all, pair := .none, fields := [
    ⟨"TIMEOUT", 15, 0, .rw, 0x64, .any⟩] },
  { name := "MESH_RPSTAT", off := 0x28, stride := 4, cnt := 1, prof := .all, pair := .none, fields := [
    ⟨"TIMEOUTS", 31, 16, .ro, 0x0, .any⟩,
    ⟨"LASTSITE", 7, 0, .ro, 0x0, .any⟩] },
  { name := "MESH_LINKCNT_LO", off := 0x1C, stride := 4, cnt := 1, prof := .all, pair := .lo, fields := [
    ⟨"VALUE", 31, 0, .ro, 0x0, .any⟩] },
  { name := "MESH_LINKCNT_HI", off := 0x20, stride := 4, cnt := 1, prof := .all, pair := .hi, fields := [
    ⟨"VALUE", 31, 0, .ro, 0x0, .any⟩] }]

/-- Every register of the MESH block. -/
def rowsMesh : List RRow := rowsMesh0 ++ rowsMesh1

/-- Registers of the GRN block (R300; 10_granary.md). -/
def rowsGrn0 : List RRow := [
  { name := "GRN_CTL", off := 0x0, stride := 4, cnt := 1, prof := .all, pair := .none, fields := [
    ⟨"LOCK", 7, 7, .w1s, 0x0, .any⟩,
    ⟨"BEV", 2, 2, .rw, 0x1, .any⟩,
    ⟨"DEV", 1, 1, .rw, 0x1, .any⟩,
    ⟨"CEV", 0, 0, .rw, 0x0, .any⟩] },
  { name := "GRN_STATUS", off := 0x4, stride := 4, cnt := 1, prof := .all, pair := .none, fields := [
    ⟨"CFG_DROP", 7, 7, .w1c, 0x0, .any⟩,
    ⟨"RING_NE", 3, 0, .ro, 0x0, .any⟩] },
  { name := "GRN_COLLIDE", off := 0x8, stride := 4, cnt := 1, prof := .all, pair := .none, fields := [
    ⟨"COUNT", 31, 24, .ro, 0x0, .any⟩,
    ⟨"WADDR", 22, 0, .ro, 0x0, .any⟩] },
  { name := "GRN_CONFLICT_q", off := 0x10, stride := 4, cnt := 4, prof := .all, pair := .none, fields := [
    ⟨"COUNT", 31, 0, .ro, 0x0, .any⟩] },
  { name := "GRN_ECC", off := 0x20, stride := 4, cnt := 1, prof := .all, pair := .none, fields := [
    ⟨"CE", 31, 16, .ro, 0x0, .any⟩,
    ⟨"UC", 15, 0, .ro, 0x0, .any⟩] },
  { name := "GRN_ECCADDR", off := 0x24, stride := 4, cnt := 1, prof := .all, pair := .none, fields := [
    ⟨"VALID", 31, 31, .w1c, 0x0, .any⟩,
    ⟨"UC", 30, 30, .ro, 0x0, .any⟩,
    ⟨"WADDR", 22, 0, .ro, 0x0, .any⟩] },
  { name := "GRN_DEFER_q", off := 0x30, stride := 4, cnt := 4, prof := .all, pair := .none, fields := [
    ⟨"READERS", 28, 16, .ro, 0x0, .any⟩,
    ⟨"WORDS", 10, 0, .ro, 0x0, .any⟩] },
  { name := "GRN_DOVF_q", off := 0x40, stride := 4, cnt := 4, prof := .all, pair := .none, fields := [
    ⟨"SIZE", 27, 24, .rw, 0x0, (.zeroOr 8 14)⟩,
    ⟨"BASE", 9, 0, .rw, 0x0, .any⟩] }]

/-- Registers of the GRN block (R300; 10_granary.md). -/
def rowsGrn1 : List RRow := [
  { name := "GRN_DOVFSTAT_q", off := 0x50, stride := 4, cnt := 4, prof := .all, pair := .none, fields := [
    ⟨"USED", 30, 16, .ro, 0x0, .any⟩,
    ⟨"LOST", 15, 0, .ro, 0x0, .any⟩] },
  { name := "GRN_POP_CTL", off := 0x60, stride := 4, cnt := 1, prof := .all, pair := .none, fields := [
    ⟨"BUSY", 31, 31, .ro, 0x0, .any⟩,
    ⟨"DONE", 30, 30, .w1c, 0x0, .any⟩,
    ⟨"RESULT", 29, 28, .ro, 0x0, .any⟩,
    ⟨"GO", 8, 8, .wo, 0x0, .any⟩,
    ⟨"WR", 3, 3, .rw, 0x0, .any⟩,
    ⟨"OP", 2, 0, .rw, 0x0, .any⟩] },
  { name := "GRN_POP_ADDR", off := 0x64, stride := 4, cnt := 1, prof := .all, pair := .none, fields := [
    ⟨"WADDR", 22, 0, .rw, 0x0, .any⟩] },
  { name := "GRN_OFFACC", off := 0x78, stride := 4, cnt := 1, prof := .all, pair := .none, fields := [
    ⟨"COUNT", 31, 0, .ro, 0x0, .any⟩] },
  { name := "GRN_BANKREQ_k", off := 0x100, stride := 4, cnt := 16, prof := .native, pair := .none, fields := [
    ⟨"ON", 31, 0, .rw, 0xFFFFFFFF, .any⟩] },
  { name := "GRN_BANKSTAT_k", off := 0x180, stride := 4, cnt := 16, prof := .native, pair := .none, fields := [
    ⟨"ON", 31, 0, .ro, 0xFFFFFFFF, .any⟩] },
  { name := "GRN_BANKREQ_k", off := 0x100, stride := 4, cnt := 32, prof := .p0100, pair := .none, fields := [
    ⟨"STATE_0", 1, 0, .rw, 0x3, (.not 2)⟩,
    ⟨"STATE_1", 3, 2, .rw, 0x3, (.not 2)⟩,
    ⟨"STATE_2", 5, 4, .rw, 0x3, (.not 2)⟩,
    ⟨"STATE_3", 7, 6, .rw, 0x3, (.not 2)⟩,
    ⟨"STATE_4", 9, 8, .rw, 0x3, (.not 2)⟩,
    ⟨"STATE_5", 11, 10, .rw, 0x3, (.not 2)⟩,
    ⟨"STATE_6", 13, 12, .rw, 0x3, (.not 2)⟩,
    ⟨"STATE_7", 15, 14, .rw, 0x3, (.not 2)⟩,
    ⟨"STATE_8", 17, 16, .rw, 0x3, (.not 2)⟩,
    ⟨"STATE_9", 19, 18, .rw, 0x3, (.not 2)⟩,
    ⟨"STATE_10", 21, 20, .rw, 0x3, (.not 2)⟩,
    ⟨"STATE_11", 23, 22, .rw, 0x3, (.not 2)⟩,
    ⟨"STATE_12", 25, 24, .rw, 0x3, (.not 2)⟩,
    ⟨"STATE_13", 27, 26, .rw, 0x3, (.not 2)⟩,
    ⟨"STATE_14", 29, 28, .rw, 0x3, (.not 2)⟩,
    ⟨"STATE_15", 31, 30, .rw, 0x3, (.not 2)⟩] },
  { name := "GRN_BANKSTAT_k", off := 0x180, stride := 4, cnt := 32, prof := .p0100, pair := .none, fields := [
    ⟨"STATE_0", 1, 0, .ro, 0x3, .any⟩,
    ⟨"STATE_1", 3, 2, .ro, 0x3, .any⟩,
    ⟨"STATE_2", 5, 4, .ro, 0x3, .any⟩,
    ⟨"STATE_3", 7, 6, .ro, 0x3, .any⟩,
    ⟨"STATE_4", 9, 8, .ro, 0x3, .any⟩,
    ⟨"STATE_5", 11, 10, .ro, 0x3, .any⟩,
    ⟨"STATE_6", 13, 12, .ro, 0x3, .any⟩,
    ⟨"STATE_7", 15, 14, .ro, 0x3, .any⟩,
    ⟨"STATE_8", 17, 16, .ro, 0x3, .any⟩,
    ⟨"STATE_9", 19, 18, .ro, 0x3, .any⟩,
    ⟨"STATE_10", 21, 20, .ro, 0x3, .any⟩,
    ⟨"STATE_11", 23, 22, .ro, 0x3, .any⟩,
    ⟨"STATE_12", 25, 24, .ro, 0x3, .any⟩,
    ⟨"STATE_13", 27, 26, .ro, 0x3, .any⟩,
    ⟨"STATE_14", 29, 28, .ro, 0x3, .any⟩,
    ⟨"STATE_15", 31, 30, .ro, 0x3, .any⟩] }]

/-- Registers of the GRN block (R300; 10_granary.md). -/
def rowsGrn2 : List RRow := [
  { name := "GRN_PWRSTAT", off := 0x200, stride := 4, cnt := 1, prof := .all, pair := .none, fields := [
    ⟨"BUSY", 31, 31, .ro, 0x0, .any⟩,
    ⟨"REFUSED", 30, 30, .w1c, 0x0, .any⟩,
    ⟨"BANK", 8, 0, .ro, 0x0, .any⟩] },
  { name := "GRN_WIN_n_CTL", off := 0x300, stride := 16, cnt := 8, prof := .all, pair := .none, fields := [
    ⟨"EN", 31, 31, .rw, 0x0, .any⟩,
    ⟨"RDALL", 30, 30, .rw, 0x0, .any⟩,
    ⟨"HOST", 29, 29, .rw, 0x0, .any⟩,
    ⟨"MC", 28, 28, .rw, 0x0, .any⟩,
    ⟨"FAB", 27, 27, .rw, 0x0, .any⟩,
    ⟨"LIMIT", 25, 16, .rw, 0x0, .any⟩,
    ⟨"BASE", 9, 0, .rw, 0x0, .any⟩] },
  { name := "GRN_POP_DATA_LO", off := 0x68, stride := 4, cnt := 1, prof := .all, pair := .lo, fields := [
    ⟨"VALUE", 31, 0, .rw, 0x0, .any⟩] },
  { name := "GRN_POP_DATA_HI", off := 0x6C, stride := 4, cnt := 1, prof := .all, pair := .hi, fields := [
    ⟨"VALUE", 31, 0, .rw, 0x0, .any⟩] },
  { name := "GRN_WIN_n_PLOTS_LO", off := 0x304, stride := 16, cnt := 8, prof := .all, pair := .lo, fields := [
    ⟨"VALUE", 31, 0, .rw, 0x0, .any⟩] },
  { name := "GRN_WIN_n_PLOTS_HI", off := 0x308, stride := 16, cnt := 8, prof := .all, pair := .hi, fields := [
    ⟨"VALUE", 31, 0, .rw, 0x0, .any⟩] }]

/-- Every register of the GRN block. -/
def rowsGrn : List RRow := rowsGrn0 ++ rowsGrn1 ++ rowsGrn2

/-- Registers of the DIB block (R330, R331; 11_dibber.md). -/
def rowsDib0 : List RRow := [
  { name := "DIB_CFG", off := 0x0, stride := 4, cnt := 1, prof := .native, pair := .none, fields := [
    ⟨"QUANTUM", 31, 16, .rw, 0x0, .any⟩] },
  { name := "DIB_CFG", off := 0x0, stride := 4, cnt := 1, prof := .p0100, pair := .none, fields := [
    ⟨"QUANTUM", 15, 0, .rw, 0x0, .any⟩] },
  { name := "DIB_STATUS", off := 0x4, stride := 4, cnt := 1, prof := .all, pair := .none, fields := [
    ⟨"CFG_DROP", 31, 31, .w1c, 0x0, .any⟩,
    ⟨"INTAKE", 22, 16, .ro, 0x0, .any⟩,
    ⟨"READY", 14, 0, .ro, 0x0, .any⟩] },
  { name := "DIB_DISCARD", off := 0x8, stride := 4, cnt := 1, prof := .all, pair := .none, fields := [
    ⟨"WLOST", 31, 16, .ro, 0x0, .any⟩,
    ⟨"WOVR", 15, 0, .ro, 0x0, .any⟩] },
  { name := "DIB_REFUSE", off := 0xC, stride := 4, cnt := 1, prof := .all, pair := .none, fields := [
    ⟨"COUNT", 15, 0, .ro, 0x0, .any⟩] },
  { name := "DIB_DL", off := 0x10, stride := 4, cnt := 1, prof := .all, pair := .none, fields := [
    ⟨"FULL", 31, 16, .ro, 0x0, .any⟩,
    ⟨"ARMED", 12, 0, .ro, 0x0, .any⟩] },
  { name := "DIB_SWEV", off := 0x14, stride := 4, cnt := 1, prof := .all, pair := .none, fields := [
    ⟨"RAISE", 15, 0, .wo, 0x0, .any⟩] },
  { name := "DIB_CMD", off := 0x20, stride := 4, cnt := 1, prof := .all, pair := .none, fields := [
    ⟨"BUSY", 31, 31, .ro, 0x0, .any⟩,
    ⟨"DONE", 30, 30, .w1c, 0x0, .any⟩,
    ⟨"REFUSED", 29, 29, .ro, 0x0, .any⟩,
    ⟨"GO", 28, 28, .wo, 0x0, .any⟩,
    ⟨"FN", 21, 16, .rw, 0x0, .any⟩,
    ⟨"UNIT", 13, 0, .rw, 0x0, .any⟩] },
  { name := "DIB_EVPEND_k", off := 0x100, stride := 4, cnt := 64, prof := .all, pair := .none, fields := [
    ⟨"PEND", 31, 0, .w1c, 0x0, .any⟩] }]

/-- Registers of the DIB block (R331; 11_dibber.md). -/
def rowsDib1 : List RRow := [
  { name := "DIB_EVR_n", off := 0x1000, stride := 4, cnt := 2048, prof := .native, pair := .none, fields := [
    ⟨"URG", 31, 31, .rw, 0x0, .any⟩,
    ⟨"MSI", 30, 30, .rw, 0x0, .any⟩,
    ⟨"STR", 29, 29, .rw, 0x0, .any⟩,
    ⟨"VEC", 19, 14, .rw, 0x0, .any⟩,
    ⟨"DESC", 13, 0, .rw, 0x0, .any⟩] },
  { name := "DIB_EVR_n", off := 0x1000, stride := 4, cnt := 2048, prof := .p0100, pair := .none, fields := [
    ⟨"STR", 31, 31, .rw, 0x0, .any⟩,
    ⟨"MSI", 30, 30, .rw, 0x0, .any⟩,
    ⟨"DESC", 29, 16, .rw, 0x0, .any⟩,
    ⟨"VEC", 13, 8, .rw, 0x0, .any⟩,
    ⟨"URG", 0, 0, .rw, 0x0, .any⟩] },
  { name := "DIB_CMD_DATA_LO", off := 0x24, stride := 4, cnt := 1, prof := .all, pair := .lo, fields := [
    ⟨"VALUE", 31, 0, .rw, 0x0, .any⟩] },
  { name := "DIB_CMD_DATA_HI", off := 0x28, stride := 4, cnt := 1, prof := .all, pair := .hi, fields := [
    ⟨"VALUE", 31, 0, .rw, 0x0, .any⟩] },
  { name := "DIB_CMD_RES_LO", off := 0x2C, stride := 4, cnt := 1, prof := .all, pair := .lo, fields := [
    ⟨"VALUE", 31, 0, .ro, 0x0, .any⟩] },
  { name := "DIB_CMD_RES_HI", off := 0x30, stride := 4, cnt := 1, prof := .all, pair := .hi, fields := [
    ⟨"VALUE", 31, 0, .ro, 0x0, .any⟩] }]

/-- Every register of the DIB block. -/
def rowsDib : List RRow := rowsDib0 ++ rowsDib1

/-- Registers of the LCK block (R351; 12_locks.md). -/
def rowsLck0 : List RRow := [
  { name := "LCK_CFG", off := 0x0, stride := 4, cnt := 1, prof := .all, pair := .none, fields := [
    ⟨"INH_EN", 0, 0, .rw, 0x1, .any⟩] },
  { name := "LCK_STATUS", off := 0x4, stride := 4, cnt := 1, prof := .all, pair := .none, fields := [
    ⟨"CFG_DROP", 31, 31, .w1c, 0x0, .any⟩,
    ⟨"STUCK", 28, 16, .ro, 0x0, .any⟩,
    ⟨"POOL", 11, 0, .ro, 0x0, .any⟩] },
  { name := "LCK_REFUSE", off := 0x8, stride := 4, cnt := 1, prof := .all, pair := .none, fields := [
    ⟨"DENIED", 31, 16, .ro, 0x0, .any⟩,
    ⟨"NOSPACE", 15, 0, .ro, 0x0, .any⟩] },
  { name := "LCK_MISC", off := 0xC, stride := 4, cnt := 1, prof := .all, pair := .none, fields := [
    ⟨"NOTOWN", 31, 16, .ro, 0x0, .any⟩,
    ⟨"PURGED", 15, 0, .ro, 0x0, .any⟩] },
  { name := "LCK_ABN", off := 0x10, stride := 4, cnt := 1, prof := .all, pair := .none, fields := [
    ⟨"FORCED", 31, 16, .ro, 0x0, .any⟩,
    ⟨"ABANDON", 15, 0, .ro, 0x0, .any⟩] },
  { name := "LCK_CMD", off := 0x20, stride := 4, cnt := 1, prof := .native, pair := .none, fields := [
    ⟨"BUSY", 31, 31, .ro, 0x0, .any⟩,
    ⟨"DONE", 30, 30, .w1c, 0x0, .any⟩,
    ⟨"GO", 28, 28, .wo, 0x0, .any⟩,
    ⟨"FN", 21, 16, .rw, 0x0, .any⟩,
    ⟨"UNIT", 11, 0, .rw, 0x0, .any⟩] },
  { name := "LCK_CMD_RES", off := 0x24, stride := 4, cnt := 1, prof := .all, pair := .none, fields := [
    ⟨"LOCK", 27, 16, .ro, 0x0, .any⟩,
    ⟨"CODE", 7, 0, .ro, 0x0, .any⟩] },
  { name := "LCK_GRP_g_CTL", off := 0x100, stride := 16, cnt := 64, prof := .native, pair := .none, fields := [
    ⟨"FEV", 7, 7, .rw, 0x0, .any⟩,
    ⟨"AEV", 6, 6, .rw, 0x1, .any⟩,
    ⟨"FAB", 2, 2, .rw, 0x0, .any⟩,
    ⟨"MC", 1, 1, .rw, 0x1, .any⟩,
    ⟨"HOST", 0, 0, .rw, 0x1, .any⟩] }]

/-- Registers of the LCK block (R351, R352; 12_locks.md). -/
def rowsLck1 : List RRow := [
  { name := "LCK_LSTAT_n_LO", off := 0x8000, stride := 8, cnt := 4096, prof := .all, pair := .lo, fields := [
    ⟨"TOPPRI", 20, 16, .ro, 0x0, .any⟩,
    ⟨"WAITERS", 15, 4, .ro, 0x0, .any⟩,
    ⟨"ABN", 2, 2, .ro, 0x0, .any⟩,
    ⟨"STATE", 1, 0, .ro, 0x0, .any⟩] },
  { name := "LCK_LSTAT_n_HI", off := 0x8004, stride := 8, cnt := 4096, prof := .all, pair := .hi, fields := [
    ⟨"CLASS", 30, 28, .ro, 0x0, .any⟩,
    ⟨"RDEV", 27, 16, .ro, 0x0, .any⟩,
    ⟨"OID", 13, 0, .ro, 0x0, .any⟩] },
  { name := "LCK_CMD", off := 0x20, stride := 4, cnt := 1, prof := .p0100, pair := .none, fields := [
    ⟨"GO", 31, 31, .wo, 0x0, .any⟩,
    ⟨"BUSY", 30, 30, .ro, 0x0, .any⟩,
    ⟨"DONE", 29, 29, .w1c, 0x0, .any⟩,
    ⟨"UNIT", 27, 16, .rw, 0x0, .any⟩,
    ⟨"FN", 5, 0, .rw, 0x0, .any⟩] },
  { name := "LCK_GRP_g_CTL", off := 0x100, stride := 16, cnt := 64, prof := .p0100, pair := .none, fields := [
    ⟨"HOST", 31, 31, .rw, 0x1, .any⟩,
    ⟨"MC", 30, 30, .rw, 0x1, .any⟩,
    ⟨"FAB", 29, 29, .rw, 0x0, .any⟩,
    ⟨"AEV", 1, 1, .rw, 0x1, .any⟩,
    ⟨"FEV", 0, 0, .rw, 0x0, .any⟩] },
  { name := "LCK_GRP_g_PLOTS_LO", off := 0x104, stride := 16, cnt := 64, prof := .all, pair := .lo, fields := [
    ⟨"VALUE", 31, 0, .rw, 0xFFFFFFFF, .any⟩] },
  { name := "LCK_GRP_g_PLOTS_HI", off := 0x108, stride := 16, cnt := 64, prof := .all, pair := .hi, fields := [
    ⟨"VALUE", 31, 0, .rw, 0xFFFFFFFF, .any⟩] }]

/-- Every register of the LCK block. -/
def rowsLck : List RRow := rowsLck0 ++ rowsLck1

/-- Registers of the RUN block (R383; 13_runner_fabric.md). -/
def rowsRun0 : List RRow := [
  { name := "RUN_DEVID", off := 0x0, stride := 4, cnt := 1, prof := .all, pair := .none, fields := [
    ⟨"ROOT", 31, 31, .ro, 0x0, .any⟩,
    ⟨"ID", 11, 0, .rw, 0x0, .any⟩] },
  { name := "RUN_CFG", off := 0x4, stride := 4, cnt := 1, prof := .all, pair := .none, fields := [
    ⟨"FLOOD", 2, 2, .rw, 0x1, .any⟩,
    ⟨"NOTICE_EN", 1, 1, .rw, 0x1, .any⟩,
    ⟨"MLOCK", 0, 0, .w1s, 0x0, .any⟩] },
  { name := "RUN_RTSTAT", off := 0x8, stride := 4, cnt := 1, prof := .all, pair := .none, fields := [
    ⟨"BUSY", 31, 31, .ro, 0x0, .any⟩,
    ⟨"UNROUTED", 15, 0, .ro, 0x0, .any⟩] },
  { name := "RUN_NOTICE", off := 0xC, stride := 4, cnt := 1, prof := .all, pair := .none, fields := [
    ⟨"VALID", 31, 31, .w1c, 0x0, .any⟩,
    ⟨"MORE", 30, 30, .w1c, 0x0, .any⟩,
    ⟨"REASON", 27, 24, .ro, 0x0, .any⟩,
    ⟨"PORT", 18, 16, .ro, 0x0, .any⟩,
    ⟨"ODEV", 11, 0, .ro, 0x0, .any⟩] },
  { name := "RUN_IMGCNT", off := 0x10, stride := 4, cnt := 1, prof := .all, pair := .none, fields := [
    ⟨"VALUE", 31, 0, .ro, 0x0, .any⟩] },
  { name := "RUN_TSCFG", off := 0x20, stride := 4, cnt := 1, prof := .all, pair := .none, fields := [
    ⟨"PERIOD", 31, 24, .rw, 0x64, (.not 0)⟩,
    ⟨"PARENT", 18, 16, .rw, 0x0, .any⟩,
    ⟨"SRC", 13, 12, .rw, 0x0, (.not 3)⟩,
    ⟨"LOCKLIM", 7, 0, .rw, 0x14, (.not 0)⟩] },
  { name := "RUN_TSSTAT", off := 0x24, stride := 4, cnt := 1, prof := .all, pair := .none, fields := [
    ⟨"LOCKED", 31, 31, .ro, 0x0, .any⟩,
    ⟨"PPS_OK", 30, 30, .ro, 0x0, .any⟩,
    ⟨"MISSED", 15, 0, .ro, 0x0, .any⟩] },
  { name := "RUN_PPSCFG", off := 0x34, stride := 4, cnt := 1, prof := .all, pair := .none, fields := [
    ⟨"CABLE", 31, 16, .rw, 0x0, .any⟩,
    ⟨"EDGE", 1, 1, .rw, 0x0, .any⟩,
    ⟨"EN", 0, 0, .rw, 0x0, .any⟩] }]

/-- Registers of the RUN block (R383, R384; 13_runner_fabric.md). -/
def rowsRun1 : List RRow := [
  { name := "RUN_RT_k", off := 0x4000, stride := 4, cnt := 1024, prof := .all, pair := .none, fields := [
    ⟨"E3", 31, 24, .rw, 0x0, .rtEntry⟩,
    ⟨"E2", 23, 16, .rw, 0x0, .rtEntry⟩,
    ⟨"E1", 15, 8, .rw, 0x0, .rtEntry⟩,
    ⟨"E0", 7, 0, .rw, 0x0, .rtEntry⟩] },
  { name := "RUN_n_CTL", off := 0x100, stride := 64, cnt := 8, prof := .all, pair := .none, fields := [
    ⟨"RETRAIN", 2, 2, .wo, 0x0, .any⟩,
    ⟨"AUTO", 1, 1, .rw, 0x1, .any⟩,
    ⟨"EN", 0, 0, .rw, 0x1, .any⟩] },
  { name := "RUN_n_STAT", off := 0x104, stride := 64, cnt := 8, prof := .all, pair := .none, fields := [
    ⟨"PEER_PORT", 30, 28, .ro, 0x0, .any⟩,
    ⟨"PEER_ID", 27, 16, .ro, 0xFFF, .any⟩,
    ⟨"SIGNAL", 15, 12, .ro, 0x0, .any⟩,
    ⟨"STATE", 3, 0, .ro, 0x1, .any⟩] },
  { name := "RUN_n_RETRY", off := 0x110, stride := 64, cnt := 8, prof := .all, pair := .none, fields := [
    ⟨"LIMIT", 23, 16, .rw, 0x8, (.not 0)⟩,
    ⟨"TIMER", 15, 0, .rw, 0x200, (.within 0x40 0xFFFFFFFF)⟩] },
  { name := "RUN_n_ERR", off := 0x114, stride := 64, cnt := 8, prof := .all, pair := .none, fields := [
    ⟨"REPLAY", 31, 16, .ro, 0x0, .any⟩,
    ⟨"CRC", 15, 0, .ro, 0x0, .any⟩] },
  { name := "RUN_n_CNT", off := 0x118, stride := 64, cnt := 8, prof := .all, pair := .none, fields := [
    ⟨"DOWNS", 31, 16, .ro, 0x0, .any⟩,
    ⟨"RETRAINS", 15, 0, .ro, 0x0, .any⟩] },
  { name := "RUN_n_DROP", off := 0x11C, stride := 64, cnt := 8, prof := .all, pair := .none, fields := [
    ⟨"FMT", 31, 16, .ro, 0x0, .any⟩,
    ⟨"TOKENS", 15, 0, .ro, 0x0, .any⟩] },
  { name := "RUN_n_EYE", off := 0x120, stride := 64, cnt := 8, prof := .all, pair := .none, fields := [
    ⟨"LANE3", 31, 24, .ro, 0x0, .any⟩,
    ⟨"LANE2", 23, 16, .ro, 0x0, .any⟩,
    ⟨"LANE1", 15, 8, .ro, 0x0, .any⟩,
    ⟨"LANE0", 7, 0, .ro, 0x0, .any⟩] }]

/-- Registers of the RUN block (R384, R383; 13_runner_fabric.md). -/
def rowsRun2 : List RRow := [
  { name := "RUN_n_PEER_LO", off := 0x108, stride := 64, cnt := 8, prof := .all, pair := .lo, fields := [
    ⟨"VALUE", 31, 0, .ro, 0x0, .any⟩] },
  { name := "RUN_n_PEER_HI", off := 0x10C, stride := 64, cnt := 8, prof := .all, pair := .hi, fields := [
    ⟨"VALUE", 31, 0, .ro, 0x0, .any⟩] },
  { name := "RUN_n_TXCNT_LO", off := 0x124, stride := 64, cnt := 8, prof := .all, pair := .lo, fields := [
    ⟨"VALUE", 31, 0, .ro, 0x0, .any⟩] },
  { name := "RUN_n_TXCNT_HI", off := 0x128, stride := 64, cnt := 8, prof := .all, pair := .hi, fields := [
    ⟨"VALUE", 31, 0, .ro, 0x0, .any⟩] },
  { name := "RUN_n_RXCNT_LO", off := 0x12C, stride := 64, cnt := 8, prof := .all, pair := .lo, fields := [
    ⟨"VALUE", 31, 0, .ro, 0x0, .any⟩] },
  { name := "RUN_n_RXCNT_HI", off := 0x130, stride := 64, cnt := 8, prof := .all, pair := .hi, fields := [
    ⟨"VALUE", 31, 0, .ro, 0x0, .any⟩] },
  { name := "RUN_TSOFF", off := 0x28, stride := 4, cnt := 1, prof := .all, pair := .none, fields := [
    ⟨"VALUE", 31, 0, .ro, 0x0, .any⟩] },
  { name := "RUN_TSDLY", off := 0x2C, stride := 4, cnt := 1, prof := .all, pair := .none, fields := [
    ⟨"VALUE", 31, 0, .ro, 0x0, .any⟩] }]

/-- Registers of the RUN block (R383; 13_runner_fabric.md). -/
def rowsRun3 : List RRow := [
  { name := "RUN_TBRATE", off := 0x30, stride := 4, cnt := 1, prof := .all, pair := .none, fields := [
    ⟨"VALUE", 31, 0, .ro, 0x0, .any⟩] }]

/-- Every register of the RUN block. -/
def rowsRun : List RRow := rowsRun0 ++ rowsRun1 ++ rowsRun2 ++ rowsRun3

/-- Registers of BAR4: the command port, the doorbells and the MSI-X structures (R388 to R391; 14_host_and_boot.md). The
layout of the MSI-X table and its reset are those of PCI Express; HOST_CFG holds the three bits of configuration space
that R390 names, and the registers after it the identity of R385 (assumption log 20). -/
def rowsBar4 : List RRow := [
  { name := "HOST_CMD", off := 0x0, stride := 4, cnt := 1, prof := .all, pair := .none, fields := [
    ⟨"GO", 31, 31, .wo, 0x0, .any⟩,
    ⟨"OPC", 7, 0, .rw, 0x0, .any⟩] },
  { name := "HOST_CMD_ARG_k", off := 0x4, stride := 4, cnt := 4, prof := .all, pair := .none, fields := [
    ⟨"VALUE", 31, 0, .rw, 0x0, .any⟩] },
  { name := "HOST_CMD_STATUS", off := 0x14, stride := 4, cnt := 1, prof := .all, pair := .none, fields := [
    ⟨"BUSY", 31, 31, .ro, 0x1, .any⟩,
    ⟨"DONE", 30, 30, .w1c, 0x0, .any⟩,
    ⟨"REJ", 29, 29, .w1c, 0x0, .any⟩,
    ⟨"CODE", 23, 16, .ro, 0x0, .any⟩,
    ⟨"CMD_REJECT", 15, 8, .ro, 0x0, .any⟩,
    ⟨"OPC", 7, 0, .ro, 0x0, .any⟩] },
  { name := "HOST_CMD_ABORT", off := 0x18, stride := 4, cnt := 1, prof := .all, pair := .none, fields := [
    ⟨"ABORT", 0, 0, .wo, 0x0, .any⟩] },
  { name := "HOST_CMD_RES", off := 0x1C, stride := 4, cnt := 1, prof := .all, pair := .none, fields := [
    ⟨"VALUE", 31, 0, .ro, 0x0, .any⟩] },
  { name := "HOST_DB_d", off := 0x1000, stride := 4, cnt := 256, prof := .all, pair := .none, fields := [
    ⟨"VALUE", 31, 0, .wo, 0x0, .any⟩] },
  { name := "MSIX_ADDR_LO_v", off := 0x8000, stride := 16, cnt := 64, prof := .all, pair := .none, fields := [
    ⟨"VALUE", 31, 2, .rw, 0x0, .any⟩] },
  { name := "MSIX_ADDR_HI_v", off := 0x8004, stride := 16, cnt := 64, prof := .all, pair := .none, fields := [
    ⟨"VALUE", 31, 0, .rw, 0x0, .any⟩] },
  { name := "MSIX_DATA_v", off := 0x8008, stride := 16, cnt := 64, prof := .all, pair := .none, fields := [
    ⟨"VALUE", 31, 0, .rw, 0x0, .any⟩] },
  { name := "MSIX_CTL_v", off := 0x800C, stride := 16, cnt := 64, prof := .all, pair := .none, fields := [
    ⟨"MASK", 0, 0, .rw, 0x1, .any⟩] },
  { name := "MSIX_PBA_k", off := 0x9000, stride := 4, cnt := 2, prof := .all, pair := .none, fields := [
    ⟨"PEND", 31, 0, .ro, 0x0, .any⟩] },
  { name := "HOST_CFG", off := 0x10000, stride := 4, cnt := 1, prof := .all, pair := .none, fields := [
    ⟨"MSIX_EN", 0, 0, .rw, 0x0, .any⟩,
    ⟨"FMASK", 1, 1, .rw, 0x0, .any⟩,
    ⟨"BME", 2, 2, .rw, 0x0, .any⟩] },
  { name := "HOST_CFG_ID", off := 0x10004, stride := 4, cnt := 1, prof := .all, pair := .none, fields := [
    ⟨"DEVICE", 31, 16, .ro, 0x1024, .any⟩,
    ⟨"VENDOR", 15, 0, .ro, 0x0, .any⟩] },
  { name := "HOST_CFG_CLASS", off := 0x10008, stride := 4, cnt := 1, prof := .all, pair := .none, fields := [
    ⟨"CLASS", 31, 8, .ro, 0x120000, .any⟩] },
  { name := "HOST_CFG_INT", off := 0x1000C, stride := 4, cnt := 1, prof := .all, pair := .none, fields := [
    ⟨"PIN", 15, 8, .ro, 0x0, .any⟩] }]

/-- Registers of the MC block (R398; 14_host_and_boot.md). -/
def rowsMc : List RRow := [
  { name := "MC_MBX_CTL", off := 0x0, stride := 4, cnt := 1, prof := .all, pair := .none, fields := [
    ⟨"BUSY", 31, 31, .ro, 0x0, .any⟩,
    ⟨"DONE", 30, 30, .w1c, 0x0, .any⟩,
    ⟨"REJ", 29, 29, .w1c, 0x0, .any⟩,
    ⟨"GO", 28, 28, .wo, 0x0, .any⟩,
    ⟨"STATUS", 23, 16, .ro, 0x0, .any⟩,
    ⟨"QLEN", 12, 8, .ro, 0x0, .any⟩,
    ⟨"REQ", 7, 0, .rw, 0x0, .any⟩] },
  { name := "MC_MBX_ARG_k", off := 0x10, stride := 4, cnt := 8, prof := .all, pair := .none, fields := [
    ⟨"VALUE", 31, 0, .rw, 0x0, .any⟩] },
  { name := "MC_MBX_RES_k", off := 0x30, stride := 4, cnt := 8, prof := .all, pair := .none, fields := [
    ⟨"VALUE", 31, 0, .ro, 0x0, .any⟩] }]

/-- Registers of the HOST block (R409; 14_host_and_boot.md). -/
def rowsHost : List RRow := [
  { name := "HOST_LINK", off := 0x0, stride := 4, cnt := 1, prof := .all, pair := .none, fields := [
    ⟨"UP", 31, 31, .ro, 0x0, .any⟩,
    ⟨"WIDTH", 19, 16, .ro, 0x0, .any⟩,
    ⟨"SPEED", 11, 8, .ro, 0x0, .any⟩,
    ⟨"RESETS", 7, 0, .ro, 0x0, .any⟩] },
  { name := "HOST_MSIX_STAT", off := 0x4, stride := 4, cnt := 1, prof := .all, pair := .none, fields := [
    ⟨"MERGED", 31, 16, .ro, 0x0, .any⟩,
    ⟨"HELD", 15, 0, .ro, 0x0, .any⟩] },
  { name := "HOST_ERR", off := 0x8, stride := 4, cnt := 1, prof := .all, pair := .none, fields := [
    ⟨"UR", 31, 16, .ro, 0x0, .any⟩,
    ⟨"DMA", 15, 0, .ro, 0x0, .any⟩] },
  { name := "HOST_DBVAL_d", off := 0x1000, stride := 4, cnt := 256, prof := .all, pair := .none, fields := [
    ⟨"VALUE", 31, 0, .ro, 0x0, .any⟩] }]

/-- Registers of the PWR block (R432; 15_power_and_clocks.md). -/
def rowsPwr0 : List RRow := [
  { name := "PWR_STATUS", off := 0x0, stride := 4, cnt := 1, prof := .all, pair := .none, fields := [
    ⟨"CFG_DROP", 31, 31, .w1c, 0x0, .any⟩,
    ⟨"THWARN", 7, 7, .ro, 0x0, .any⟩,
    ⟨"CAP", 6, 6, .ro, 0x0, .any⟩,
    ⟨"CAP_VIN", 5, 5, .ro, 0x0, .any⟩,
    ⟨"CAP_THERM", 4, 4, .ro, 0x0, .any⟩,
    ⟨"CAP_PWR", 3, 3, .ro, 0x0, .any⟩,
    ⟨"OVER", 2, 2, .ro, 0x0, .any⟩,
    ⟨"BUSY", 1, 1, .ro, 0x0, .any⟩,
    ⟨"VIN_OK", 0, 0, .ro, 0x0, .any⟩] },
  { name := "PWR_MEAS", off := 0x4, stride := 4, cnt := 1, prof := .all, pair := .none, fields := [
    ⟨"VIN", 31, 16, .ro, 0x0, .any⟩,
    ⟨"PIN", 15, 0, .ro, 0x0, .any⟩] },
  { name := "PWR_TEMP", off := 0x8, stride := 4, cnt := 1, prof := .all, pair := .none, fields := [
    ⟨"TJ", 27, 16, .ro, 0x0, .any⟩,
    ⟨"TCASE", 11, 0, .ro, 0x0, .any⟩] },
  { name := "PWR_CAP", off := 0xC, stride := 4, cnt := 1, prof := .all, pair := .none, fields := [
    ⟨"LIMIT", 23, 16, .rw, 0x96, (.within 0x28 0x96)⟩,
    ⟨"FMIN", 5, 0, .rw, 0x10, (.within 8 32)⟩] },
  { name := "PWR_THERM", off := 0x10, stride := 4, cnt := 1, prof := .all, pair := .none, fields := [
    ⟨"THROT", 23, 16, .rw, 0x69, (.within 0 0x69)⟩,
    ⟨"WARN", 7, 0, .rw, 0x64, (.within 0 0x69)⟩] },
  { name := "PWR_CEIL", off := 0x14, stride := 4, cnt := 1, prof := .all, pair := .none, fields := [
    ⟨"CODE", 5, 0, .ro, 0x20, .any⟩] },
  { name := "PWR_PDREQ_LINK", off := 0x18, stride := 4, cnt := 1, prof := .all, pair := .none, fields := [
    ⟨"ON", 7, 0, .rw, 0xFF, .any⟩] },
  { name := "PWR_PDSTAT_MISC", off := 0x24, stride := 4, cnt := 1, prof := .all, pair := .none, fields := [
    ⟨"AON", 15, 15, .ro, 0x1, .any⟩,
    ⟨"MESH", 14, 14, .ro, 0x1, .any⟩,
    ⟨"CTRL", 13, 13, .ro, 0x1, .any⟩,
    ⟨"HOST", 12, 12, .ro, 0x1, .any⟩,
    ⟨"GRN", 11, 8, .ro, 0xF, .any⟩,
    ⟨"LINK", 7, 0, .ro, 0xFF, .any⟩] }]

/-- Registers of the PWR block (R432; 15_power_and_clocks.md). -/
def rowsPwr1 : List RRow := [
  { name := "PWR_REFUSE", off := 0x28, stride := 4, cnt := 1, prof := .all, pair := .none, fields := [
    ⟨"COUNT", 31, 24, .ro, 0x0, .any⟩,
    ⟨"LINK", 2, 0, .ro, 0x0, .any⟩] },
  { name := "PWR_RSTCAUSE", off := 0x2C, stride := 4, cnt := 1, prof := .all, pair := .none, fields := [
    ⟨"CMD", 2, 2, .ro, 0x0, .any⟩,
    ⟨"PIN", 1, 1, .ro, 0x0, .any⟩,
    ⟨"POR", 0, 0, .ro, 0x1, .any⟩] },
  { name := "PWR_VCORE", off := 0x30, stride := 4, cnt := 1, prof := .all, pair := .none, fields := [
    ⟨"MV", 15, 0, .ro, 0x348, .any⟩] },
  { name := "PWR_LDO_n", off := 0x100, stride := 4, cnt := 64, prof := .all, pair := .none, fields := [
    ⟨"SETTLED", 31, 31, .ro, 0x1, .any⟩,
    ⟨"TRIM", 20, 16, .ro, 0x0, .any⟩,
    ⟨"VOUT", 9, 0, .ro, 0x30C, .any⟩] },
  { name := "PWR_PDSTAT_LO", off := 0x1C, stride := 4, cnt := 1, prof := .all, pair := .lo, fields := [
    ⟨"VALUE", 31, 0, .ro, 0xFFFFFFFF, .any⟩] },
  { name := "PWR_PDSTAT_HI", off := 0x20, stride := 4, cnt := 1, prof := .all, pair := .hi, fields := [
    ⟨"VALUE", 31, 0, .ro, 0xFFFFFFFF, .any⟩] }]

/-- Every register of the PWR block. -/
def rowsPwr : List RRow := rowsPwr0 ++ rowsPwr1

/-- Registers of the CLK block (R433; 15_power_and_clocks.md). -/
def rowsClk : List RRow := [
  { name := "CLK_STATUS", off := 0x0, stride := 4, cnt := 1, prof := .all, pair := .none, fields := [
    ⟨"CFG_DROP", 31, 31, .w1c, 0x0, .any⟩,
    ⟨"REF_OK", 2, 2, .ro, 0x1, .any⟩,
    ⟨"PLLM_LOCK", 1, 1, .ro, 0x1, .any⟩,
    ⟨"BUSY", 0, 0, .ro, 0x0, .any⟩] },
  { name := "CLK_PLOT_n_REQ", off := 0x100, stride := 8, cnt := 64, prof := .all, pair := .none, fields := [
    ⟨"CAPX", 8, 8, .rw, 0x0, .any⟩,
    ⟨"TARGET", 5, 0, .rw, 0x18, (.within 8 32)⟩] },
  { name := "CLK_PLOT_n_STAT", off := 0x104, stride := 8, cnt := 64, prof := .all, pair := .none, fields := [
    ⟨"SLEW", 31, 31, .ro, 0x0, .any⟩,
    ⟨"SAFE", 30, 30, .ro, 0x0, .any⟩,
    ⟨"TRUNC", 29, 29, .w1c, 0x0, .any⟩,
    ⟨"UNLOCKS", 23, 16, .ro, 0x0, .any⟩,
    ⟨"EFF", 13, 8, .ro, 0x18, .any⟩,
    ⟨"CUR", 5, 0, .ro, 0x18, .any⟩] }]

/-- Registers of the UPK block (R449; 16_upkeep.md). -/
def rowsUpk0 : List RRow := [
  { name := "UPK_STATUS", off := 0x0, stride := 4, cnt := 1, prof := .all, pair := .none, fields := [
    ⟨"CFG_DROP", 31, 31, .w1c, 0x0, .any⟩] },
  { name := "UPK_WCTL", off := 0x10, stride := 4, cnt := 1, prof := .all, pair := .none, fields := [
    ⟨"MARCH", 2, 2, .rw, 0x1, .any⟩,
    ⟨"LSCRUB", 1, 1, .rw, 0x1, .any⟩,
    ⟨"GSCRUB", 0, 0, .rw, 0x1, .any⟩] },
  { name := "UPK_WPER", off := 0x14, stride := 4, cnt := 1, prof := .all, pair := .none, fields := [
    ⟨"GAP", 31, 24, .rw, 0xA, (.not 0)⟩,
    ⟨"LPERIOD", 15, 8, .rw, 0x64, (.not 0)⟩,
    ⟨"GPERIOD", 7, 0, .rw, 0x64, (.not 0)⟩] },
  { name := "UPK_WSTAT", off := 0x18, stride := 4, cnt := 1, prof := .all, pair := .none, fields := [
    ⟨"GPASS", 31, 16, .ro, 0x0, .any⟩,
    ⟨"LPASS", 15, 8, .ro, 0x0, .any⟩,
    ⟨"LATE", 7, 0, .ro, 0x0, .any⟩] },
  { name := "UPK_WERR", off := 0x1C, stride := 4, cnt := 1, prof := .all, pair := .none, fields := [
    ⟨"CE", 31, 16, .ro, 0x0, .any⟩,
    ⟨"UC", 15, 0, .ro, 0x0, .any⟩] },
  { name := "UPK_WQ_q", off := 0x20, stride := 4, cnt := 4, prof := .all, pair := .none, fields := [
    ⟨"ACTIVE", 31, 31, .ro, 0x0, .any⟩,
    ⟨"PHASE", 30, 29, .ro, 0x0, .any⟩,
    ⟨"MAXWAIT", 23, 16, .rw, 0x0, .any⟩,
    ⟨"BANK", 12, 6, .ro, 0x0, .any⟩,
    ⟨"STRIPE", 4, 0, .ro, 0x0, .any⟩] },
  { name := "UPK_WFAIL", off := 0x30, stride := 4, cnt := 1, prof := .all, pair := .none, fields := [
    ⟨"VALID", 31, 31, .w1c, 0x0, .any⟩,
    ⟨"MORE", 30, 30, .w1c, 0x0, .any⟩,
    ⟨"BANK", 22, 14, .ro, 0x0, .any⟩,
    ⟨"STRIPE", 13, 9, .ro, 0x0, .any⟩,
    ⟨"ROW", 8, 0, .ro, 0x0, .any⟩] },
  { name := "UPK_WABORT", off := 0x34, stride := 4, cnt := 1, prof := .all, pair := .none, fields := [
    ⟨"VALUE", 31, 0, .ro, 0x0, .any⟩] }]

/-- Registers of the UPK block (R449; 16_upkeep.md). -/
def rowsUpk1 : List RRow := [
  { name := "UPK_CAL_CTL", off := 0x40, stride := 4, cnt := 1, prof := .all, pair := .none, fields := [
    ⟨"EN", 31, 31, .rw, 0x1, .any⟩,
    ⟨"CRIT", 23, 18, .rw, 0x2, .any⟩,
    ⟨"HIGH", 17, 12, .rw, 0xE, .any⟩,
    ⟨"LOW", 11, 6, .rw, 0x6, .any⟩,
    ⟨"HOLD", 5, 0, .rw, 0xA, (.not 0)⟩] },
  { name := "UPK_CAL_LIM", off := 0x44, stride := 4, cnt := 1, prof := .all, pair := .none, fields := [
    ⟨"TMAX", 12, 8, .rw, 0x8, (.below 16)⟩,
    ⟨"TMIN", 4, 0, .rw, 0x18, (.zeroOr 16 0xFFFFFFFF)⟩] },
  { name := "UPK_LINKCAL", off := 0x50, stride := 4, cnt := 1, prof := .all, pair := .none, fields := [
    ⟨"EN", 31, 24, .rw, 0xFF, .any⟩,
    ⟨"EYEMIN", 23, 16, .rw, 0x30, .any⟩,
    ⟨"SAMPLES", 15, 12, .rw, 0x3, (.not 0)⟩,
    ⟨"HOLDOFF", 7, 0, .rw, 0x64, .any⟩] },
  { name := "UPK_LINKSTAT", off := 0x54, stride := 4, cnt := 1, prof := .all, pair := .none, fields := [
    ⟨"REQUESTS", 31, 16, .ro, 0x0, .any⟩,
    ⟨"LAST", 2, 0, .ro, 0x0, .any⟩] },
  { name := "UPK_EPOCH_CTL", off := 0x60, stride := 4, cnt := 1, prof := .all, pair := .none, fields := [
    ⟨"ADVANCE", 31, 31, .wo, 0x0, .any⟩,
    ⟨"DRAIN", 15, 0, .rw, 0xA, .any⟩] },
  { name := "UPK_EPOCH_STAT", off := 0x64, stride := 4, cnt := 1, prof := .all, pair := .none, fields := [
    ⟨"BUSY", 31, 31, .ro, 0x0, .any⟩,
    ⟨"HALTED", 30, 30, .ro, 0x0, .any⟩,
    ⟨"WAITING", 22, 16, .ro, 0x0, .any⟩,
    ⟨"TOV", 15, 15, .w1c, 0x0, .any⟩,
    ⟨"TPLOT", 13, 8, .ro, 0x0, .any⟩,
    ⟨"TBLOCK", 1, 1, .ro, 0x0, .any⟩,
    ⟨"CUR", 0, 0, .ro, 0x0, .any⟩] },
  { name := "UPK_EPOCH_LATE", off := 0x68, stride := 4, cnt := 1, prof := .all, pair := .none, fields := [
    ⟨"VALUE", 31, 0, .ro, 0x0, .any⟩] },
  { name := "UPK_EPOCH_CNT", off := 0x6C, stride := 4, cnt := 1, prof := .all, pair := .none, fields := [
    ⟨"CLOSED", 31, 16, .ro, 0x0, .any⟩,
    ⟨"EVOFF", 15, 0, .ro, 0x0, .any⟩] }]

/-- Registers of the UPK block (R449; 16_upkeep.md). -/
def rowsUpk2 : List RRow := [
  { name := "UPK_MFAIL_k", off := 0x80, stride := 4, cnt := 16, prof := .all, pair := .none, fields := [
    ⟨"FAIL", 31, 0, .ro, 0x0, .any⟩] },
  { name := "UPK_CAL_n", off := 0x100, stride := 4, cnt := 64, prof := .all, pair := .none, fields := [
    ⟨"ATLIM", 31, 31, .ro, 0x0, .any⟩,
    ⟨"NODATA", 30, 30, .ro, 0x0, .any⟩,
    ⟨"MARGIN", 29, 24, .ro, 0x0, .any⟩,
    ⟨"RAISES", 23, 16, .ro, 0x0, .any⟩,
    ⟨"LOWERS", 15, 8, .ro, 0x0, .any⟩] },
  { name := "UPK_MS_s_EVOUT", off := 0x200, stride := 16, cnt := 2, prof := .all, pair := .none, fields := [
    ⟨"EN", 31, 0, .rw, 0xFFFFFFFF, .any⟩] },
  { name := "UPK_MS_s_VAL_LO", off := 0x204, stride := 16, cnt := 2, prof := .all, pair := .lo, fields := [
    ⟨"VALUE", 31, 0, .rw, 0x0, .any⟩] },
  { name := "UPK_MS_s_VAL_HI", off := 0x208, stride := 16, cnt := 2, prof := .all, pair := .hi, fields := [
    ⟨"VALUE", 31, 0, .rw, 0x0, .any⟩] },
  { name := "UPK_MS_s_PAGE_P_LO", off := 0x1000, stride := 8, cnt := 128, prof := .all, pair := .lo, fields := [
    ⟨"VALUE", 31, 0, .rw, 0xFFFFFFFF, .any⟩] },
  { name := "UPK_MS_s_PAGE_P_HI", off := 0x1004, stride := 8, cnt := 128, prof := .all, pair := .hi, fields := [
    ⟨"VALUE", 31, 0, .rw, 0xFFFFFFFF, .any⟩] }]

/-- Every register of the UPK block. -/
def rowsUpk : List RRow := rowsUpk0 ++ rowsUpk1 ++ rowsUpk2

/-- Registers of the SIEVE block (R471; 17_faults.md). -/
def rowsSieve0 : List RRow := [
  { name := "SIEVE_CTL", off := 0x0, stride := 4, cnt := 1, prof := .all, pair := .none, fields := [
    ⟨"HOLD", 15, 8, .rw, 0xA, (.not 0)⟩,
    ⟨"TAIL", 7, 0, .rw, 0x5, .any⟩] },
  { name := "SIEVE_STATUS", off := 0x4, stride := 4, cnt := 1, prof := .all, pair := .none, fields := [
    ⟨"CFG_DROP", 31, 31, .w1c, 0x0, .any⟩,
    ⟨"SAFE", 30, 30, .ro, 0x0, .any⟩,
    ⟨"RUN", 29, 29, .ro, 0x0, .any⟩,
    ⟨"RREACT", 26, 24, .ro, 0x0, .any⟩,
    ⟨"RPLOT", 21, 16, .ro, 0x0, .any⟩,
    ⟨"PEND", 6, 0, .ro, 0x0, .any⟩] },
  { name := "SIEVE_HIST", off := 0x8, stride := 4, cnt := 1, prof := .all, pair := .none, fields := [
    ⟨"OVF", 31, 31, .w1c, 0x0, .any⟩,
    ⟨"LOST", 23, 16, .ro, 0x0, .any⟩,
    ⟨"COUNT", 14, 8, .ro, 0x0, .any⟩,
    ⟨"HEAD", 5, 0, .ro, 0x0, .any⟩] },
  { name := "SIEVE_HIST_POP", off := 0xC, stride := 4, cnt := 1, prof := .all, pair := .none, fields := [
    ⟨"POP", 0, 0, .wo, 0x0, .any⟩] },
  { name := "SIEVE_VOTE", off := 0x20, stride := 4, cnt := 1, prof := .all, pair := .none, fields := [
    ⟨"CE", 31, 24, .ro, 0x0, .any⟩,
    ⟨"SITE", 15, 8, .ro, 0x0, .any⟩] },
  { name := "SIEVE_FIFO", off := 0x24, stride := 4, cnt := 1, prof := .all, pair := .none, fields := [
    ⟨"RESETS", 31, 24, .ro, 0x0, .any⟩,
    ⟨"SITE", 15, 8, .ro, 0x0, .any⟩] },
  { name := "SIEVE_SAFE_CTL", off := 0x38, stride := 4, cnt := 1, prof := .all, pair := .none, fields := [
    ⟨"ENTER", 31, 31, .wo, 0x0, .any⟩,
    ⟨"HALT", 0, 0, .rw, 0x1, .any⟩] },
  { name := "SIEVE_SAFE_LVL_j", off := 0x40, stride := 4, cnt := 2, prof := .all, pair := .none, fields := [
    ⟨"LVL_0", 1, 0, .rw, 0x0, (.not 3)⟩,
    ⟨"LVL_1", 3, 2, .rw, 0x0, (.not 3)⟩,
    ⟨"LVL_2", 5, 4, .rw, 0x0, (.not 3)⟩,
    ⟨"LVL_3", 7, 6, .rw, 0x0, (.not 3)⟩,
    ⟨"LVL_4", 9, 8, .rw, 0x0, (.not 3)⟩,
    ⟨"LVL_5", 11, 10, .rw, 0x0, (.not 3)⟩,
    ⟨"LVL_6", 13, 12, .rw, 0x0, (.not 3)⟩,
    ⟨"LVL_7", 15, 14, .rw, 0x0, (.not 3)⟩,
    ⟨"LVL_8", 17, 16, .rw, 0x0, (.not 3)⟩,
    ⟨"LVL_9", 19, 18, .rw, 0x0, (.not 3)⟩,
    ⟨"LVL_10", 21, 20, .rw, 0x0, (.not 3)⟩,
    ⟨"LVL_11", 23, 22, .rw, 0x0, (.not 3)⟩,
    ⟨"LVL_12", 25, 24, .rw, 0x0, (.not 3)⟩,
    ⟨"LVL_13", 27, 26, .rw, 0x0, (.not 3)⟩,
    ⟨"LVL_14", 29, 28, .rw, 0x0, (.not 3)⟩,
    ⟨"LVL_15", 31, 30, .rw, 0x0, (.not 3)⟩] }]

/-- Registers of the SIEVE block (R471; 17_faults.md). -/
def rowsSieve1 : List RRow := [
  { name := "SIEVE_SAFE_STAT", off := 0x48, stride := 4, cnt := 1, prof := .all, pair := .none, fields := [
    ⟨"EVDISC", 31, 16, .ro, 0x0, .any⟩] },
  { name := "SIEVE_REACT_k", off := 0x400, stride := 4, cnt := 32, prof := .all, pair := .none, fields := [
    ⟨"REACT_0", 2, 0, .rw, 0x0, .any⟩,
    ⟨"REACT_1", 6, 4, .rw, 0x0, .any⟩,
    ⟨"REACT_2", 10, 8, .rw, 0x0, .any⟩,
    ⟨"REACT_3", 14, 12, .rw, 0x0, .any⟩,
    ⟨"REACT_4", 18, 16, .rw, 0x0, .any⟩,
    ⟨"REACT_5", 22, 20, .rw, 0x0, .any⟩,
    ⟨"REACT_6", 26, 24, .rw, 0x0, .any⟩,
    ⟨"REACT_7", 30, 28, .rw, 0x0, .any⟩] },
  { name := "SIEVE_HIST_i_w", off := 0x1000, stride := 4, cnt := 1024, prof := .all, pair := .none, fields := [
    ⟨"VALUE", 31, 0, .ro, 0x0, .any⟩] },
  { name := "SIEVE_QUAR_LO", off := 0x30, stride := 4, cnt := 1, prof := .all, pair := .lo, fields := [
    ⟨"VALUE", 31, 0, .ro, 0x0, .any⟩] },
  { name := "SIEVE_QUAR_HI", off := 0x34, stride := 4, cnt := 1, prof := .all, pair := .hi, fields := [
    ⟨"VALUE", 31, 0, .ro, 0x0, .any⟩] },
  { name := "SIEVE_CNT_CE", off := 0x10, stride := 4, cnt := 1, prof := .all, pair := .none, fields := [
    ⟨"VALUE", 31, 0, .ro, 0x0, .any⟩] },
  { name := "SIEVE_CNT_UC", off := 0x14, stride := 4, cnt := 1, prof := .all, pair := .none, fields := [
    ⟨"VALUE", 31, 0, .ro, 0x0, .any⟩] },
  { name := "SIEVE_CNT_UU", off := 0x18, stride := 4, cnt := 1, prof := .all, pair := .none, fields := [
    ⟨"VALUE", 31, 0, .ro, 0x0, .any⟩] }]

/-- Registers of the SIEVE block (R471; 17_faults.md). -/
def rowsSieve2 : List RRow := [
  { name := "SIEVE_CNT_FATAL", off := 0x1C, stride := 4, cnt := 1, prof := .all, pair := .none, fields := [
    ⟨"VALUE", 31, 0, .ro, 0x0, .any⟩] },
  { name := "SIEVE_FIFO_DISC", off := 0x28, stride := 4, cnt := 1, prof := .all, pair := .none, fields := [
    ⟨"VALUE", 31, 0, .ro, 0x0, .any⟩] },
  { name := "SIEVE_ABSENT", off := 0x2C, stride := 4, cnt := 1, prof := .all, pair := .none, fields := [
    ⟨"VALUE", 31, 0, .ro, 0x0, .any⟩] }]

/-- Every register of the SIEVE block. -/
def rowsSieve : List RRow := rowsSieve0 ++ rowsSieve1 ++ rowsSieve2

/-- Registers of the EVIO block (R483; 18_pins_package_test.md). -/
def rowsEvio0 : List RRow := [
  { name := "EVIO_LATE", off := 0x8, stride := 4, cnt := 1, prof := .all, pair := .none, fields := [
    ⟨"COUNT", 31, 0, .ro, 0x0, .any⟩] },
  { name := "EVIO_OUT_LVL", off := 0x18, stride := 4, cnt := 1, prof := .all, pair := .none, fields := [
    ⟨"LVL", 31, 0, .ro, 0x0, .any⟩] },
  { name := "EVIO_OUT_Z", off := 0x1C, stride := 4, cnt := 1, prof := .all, pair := .none, fields := [
    ⟨"Z", 31, 0, .ro, 0xFFFFFFFF, .any⟩] },
  { name := "EVIO_PPS", off := 0x20, stride := 4, cnt := 1, prof := .all, pair := .none, fields := [
    ⟨"GLITCH", 31, 16, .ro, 0x0, .any⟩,
    ⟨"LVL", 0, 0, .ro, 0x0, .any⟩] },
  { name := "EVIO_IN_n_CFG", off := 0x100, stride := 4, cnt := 64, prof := .all, pair := .none, fields := [
    ⟨"GLITCH", 31, 16, .ro, 0x0, .any⟩,
    ⟨"EDGE", 9, 8, .rw, 0x0, .any⟩,
    ⟨"FILT", 7, 0, .rw, 0x10, (.not 0)⟩] },
  { name := "EVIO_TIME_LO", off := 0x0, stride := 4, cnt := 1, prof := .all, pair := .lo, fields := [
    ⟨"VALUE", 31, 0, .ro, 0x0, .any⟩] },
  { name := "EVIO_TIME_HI", off := 0x4, stride := 4, cnt := 1, prof := .all, pair := .hi, fields := [
    ⟨"VALUE", 31, 0, .ro, 0x0, .any⟩] },
  { name := "EVIO_PINS_IN_LO", off := 0x10, stride := 4, cnt := 1, prof := .all, pair := .lo, fields := [
    ⟨"VALUE", 31, 0, .ro, 0x0, .any⟩] }]

/-- Registers of the EVIO block (R483; 18_pins_package_test.md). -/
def rowsEvio1 : List RRow := [
  { name := "EVIO_PINS_IN_HI", off := 0x14, stride := 4, cnt := 1, prof := .all, pair := .hi, fields := [
    ⟨"VALUE", 31, 0, .ro, 0x0, .any⟩] }]

/-- Every register of the EVIO block. -/
def rowsEvio : List RRow := rowsEvio0 ++ rowsEvio1

/-- The register rows of a block. -/
def Blk.rows : Blk → List RRow
  | .dev => rowsDev
  | .plot => rowsPlot
  | .eng => rowsEng
  | .mesh => rowsMesh
  | .grn => rowsGrn
  | .dib => rowsDib
  | .lck => rowsLck
  | .run => rowsRun
  | .bar4 => rowsBar4
  | .mc => rowsMc
  | .host => rowsHost
  | .pwr => rowsPwr
  | .clk => rowsClk
  | .upk => rowsUpk
  | .sieve => rowsSieve
  | .evio => rowsEvio

end Sys2Proof.Machine
end

