-- ==== Sys2Proof/Config.lean ====
section
/-! DEFINITION. What one part fixes and the spec leaves open: the free values, which have no body, so that no
proof can rest on one; and what R490 fixes for the part. -/

namespace Sys2Proof.Config

/-- A value the spec leaves open, drawn by the counter `State.free` (assumption log 4). -/
opaque freeValue : Nat → BitVec 64

/-- The part's 64-bit lifetime unique ID (DEV_UID; 00_scope.md, R408). Free: each part has its own (log 5). -/
opaque uid : BitVec 64

/-- The vendor key hash in the fuses (R218). Free: each part has its own (log 5). -/
opaque vendorKeyHash : BitVec 256

/-- The customer key hash of the one-time slot (R218). Free: read only when the slot is programmed (log 5). -/
opaque customerKeyHash : BitVec 256

/-- The highest TARGET of R421 when no plot in service is subject to the ceiling, on which the spec is silent (log 27). -/
opaque noTarget : BitVec 6

/-- DEV_PROFILE.FLOOR as fused at manufacture in the K1024-MI (R405, R490). -/
def fuseFloor : BitVec 16 := 0x0100

/-- Whether the part's customer key slot is programmed (R408, R490; log 5). -/
opaque customerKeySet : Bool

/-- Cazexa's assigned JEP106 identity (R487). Free: the spec gives no value (log 5). -/
opaque jep106 : BitVec 11

/-- The micro-PC of a running vendor micro-routine, whose content the spec does not give, by engine cycle (R194, R220;
log 101). -/
opaque vendorUpc : Nat → BitVec 11

/-- The requester code of a record about a sheaf of another device, by its SRC_DEV and SRC_ENG, to which R456 gives no code
(assumption log 18). -/
opaque fabricCode : BitVec 22 → BitVec 16

/-- Whether an upset that TEST_MODE lets factory equipment inject was injected, which no command's operand tells: INJ of a
record, by its number and its time (R470; assumption log 143). -/
opaque injected : BitVec 8 → BitVec 64 → Bool

/-- Cazexa's assigned Vendor ID, which R385 names and does not give (assumption log 5). -/
opaque vendorId : BitVec 16

end Sys2Proof.Config
end

