-- ==== Sys2Proof/Machine/SMap.lean ====
section
/-! DEFINITION. Sparse maps as plain data: lists of key and value in rising key order that list no value equal to
what an unlisted key reads as. Memory, the register store and every numbered set of units are kept in this form,
so equal contents are equal data. -/

namespace Sys2Proof.Machine

/-- A sparse map from numbers. -/
abbrev SMap (β : Type) := List (Nat × β)

/-- The value at a key; `d` is what an unlisted key reads as. -/
def SMap.get {β : Type} : SMap β → Nat → β → β
  | [], _, d => d
  | (i, v) :: m, k, d => if k = i then v else SMap.get m k d

/-- The map without a key. -/
def SMap.erase {β : Type} (m : SMap β) (k : Nat) : SMap β := m.filter (fun p => p.1 != k)

/-- The map with a key listed at its place. -/
def SMap.insert {β : Type} : SMap β → Nat → β → SMap β
  | [], k, x => [(k, x)]
  | (i, v) :: m, k, x =>
    if k = i then (k, x) :: m else if k < i then (k, x) :: (i, v) :: m else (i, v) :: SMap.insert m k x

/-- The map with a key set to a value; a value equal to the default `d` unlists the key. -/
def SMap.set {β : Type} [DecidableEq β] (m : SMap β) (k : Nat) (x d : β) : SMap β :=
  if x = d then SMap.erase m k else SMap.insert m k x

/-- The map without the keys from `lo` to below `hi`. -/
def SMap.dropRange {β : Type} (m : SMap β) (lo hi : Nat) : SMap β :=
  m.filter (fun p => !(decide (lo ≤ p.1) && decide (p.1 < hi)))

/-- Every key is above `k`. -/
def SMap.above {β : Type} (k : Nat) (m : SMap β) : Bool :=
  m.all (fun p => decide (k < p.1))

/-- The canonical form: keys rise strictly and no listed value is the default of its key. -/
def SMap.wf {β : Type} [DecidableEq β] (dflt : Nat → β) : SMap β → Bool
  | [] => true
  | (i, v) :: m => SMap.above i m && (v != dflt i) && SMap.wf dflt m

end Sys2Proof.Machine
end

