-- ==== Sys2Proof/Machine/State.lean ====
section
/-! DEFINITION. The state of the device as plain data: every register, memory, queue, buffer, mode and land the
spec gives it, the queue of waiting commands, and the state right after reset. -/

namespace Sys2Proof.Machine

/-- Why the machine stops with a fault. Raised by the register and BAR commands; safe: no claim holds through it. -/
inductive Fault where
  /-- An access of the host, the MC or the SMBus port to an address that R22 does not map. Raised by
  `registerWrite` and `registerPathAccess`; safe, because the machine stops. -/
  | unmappedAddress (addr : BitVec 40)
  deriving DecidableEq, Repr

/-- Why a command is refused. -/
inductive Refusal where
  /-- No meaning is given to the command yet. Raised only by `exec`'s arms; safe. -/
  | notModelled (mnemonic : String)
  deriving DecidableEq, Repr

/-! ## The engine (chapters 3 to 7) -/

/-- A token in the engine's stages. `refill` is `none` for a token on its first pass, and the entries its lookup
returned for a token that re-enters (R69). -/
structure Tok where
  flit : Flit
  refill : Option (List Entry)
  deriving DecidableEq, Repr

/-- A token in HASH's output: the node word and companion slot it read and its set (R57, R58). -/
structure HashTok where
  tok : Tok
  word : Word
  comp : Word
  set : BitVec 10
  deriving DecidableEq, Repr

/-- A fire: the node word, its operands and the attributes that its results carry (R73, R93, R173). -/
structure Fire where
  word : Word
  comp : Word
  node : BitVec 12
  ctx : BitVec 16
  iter : BitVec 12
  l : Word
  r : Word
  /-- highest PRI among the tokens of the fire -/
  pri : BitVec 2
  /-- the mode set it executes under (R33) -/
  mset : Bool
  rm : BitVec 3
  ftz : Bool
  /-- header, tag and data word of the token that completed it, for the fault records -/
  hdr : BitVec 16
  tag : BitVec 64
  data : Word
  /-- the page of the node is closed in the mode set, so the fire executes as SINK (R445) -/
  closed : Bool
  /-- cycle in which it entered EXEC; zero before -/
  issued : Nat
  deriving DecidableEq, Repr

/-- A token a result will form at EMIT: its kind, requested priority, tag and data word, and the payloads of its
data flits when it is a sheaf. -/
structure Proto where
  kind : BitVec 4
  pri : BitVec 2
  tag : BitVec 64
  data : Word
  payloads : List Entry
  deriving DecidableEq, Repr

/-- Where a result comes from, for FPX capture (R186) and the fault records. -/
inductive Origin where
  | node (node : BitVec 12) (ctx : BitVec 16) (iter : BitVec 12) (word : Word)
  | strand (pc : BitVec 15) (desc : BitVec 14)
  /-- a store that drained from the store buffer, which belongs to the engine (R140) -/
  | buffer
  deriving DecidableEq, Repr

/-- A completed or completing operation in EXEC's result registers (R76). -/
structure Result where
  /-- cycle from which EMIT can take it -/
  due : Nat
  /-- cycle in which the operation entered EXEC -/
  issued : Nat
  origin : Origin
  toks : List Proto
  deriving DecidableEq, Repr

/-- Flags that an operation in EXEC raises in its completion cycle (R158, R185 to R187). -/
structure Raise where
  /-- completion cycle -/
  due : Nat
  issued : Nat
  origin : Origin
  /-- floating-point and divide flags raised, in the order of ENG_FPX[5:0] -/
  flags : BitVec 6
  /-- an enabled one sets PEND: not one that traps in precise mode (R189) -/
  pend : Bool
  deriving DecidableEq, Repr

/-- A unit in the spill queue or a spill intake: the set it left and its one or two entries (R66, R68). -/
structure SpillUnit where
  set : BitVec 10
  entries : List Entry
  deriving DecidableEq, Repr

/-- An entry of the miss-pending buffer (R69): the token, and what the lookup has returned. -/
structure Pending where
  slot : Nat
  tok : HashTok
  /-- the lookup has been answered by the agent -/
  asked : Bool
  /-- a context sweep has found its context freed, so its answer discards it (R71) -/
  stale : Bool
  deriving DecidableEq, Repr

/-- A fence that has not completed (R111, R150). -/
structure FenceSlot where
  target : BitVec 16
  /-- the result a node FENCE releases; `none` for the running strand's FENCE -/
  node : Option Result
  /-- cycle in which its operation entered EXEC -/
  issued : Nat
  deriving DecidableEq, Repr

/-- Kinds of store buffer entries (R140). -/
inductive StoreKind where
  /-- a frame-store entry, by byte offset -/
  | frame
  /-- a granary entry with its presence operation -/
  | granary (op : BitVec 3)
  /-- an entry for the register access path or another memory -/
  | path
  /-- an entry for the own ENG registers -/
  | ownReg
  deriving DecidableEq, Repr

/-- One store buffer entry (R140). -/
structure StoreEntry where
  kind : StoreKind
  addr : BitVec 40
  size : Nat
  data : Word
  /-- FLAGS.MP of the strand that stored -/
  mp : BitVec 2
  /-- cycle in which it entered the buffer -/
  at_ : Nat
  /-- the first of the two words of a store that crosses an 8-byte boundary has been written -/
  half : Bool
  deriving DecidableEq, Repr

/-- A blocking access of a strand (R128): the register it writes, the bytes it takes of the word and how it
extends them. -/
structure Access where
  d : BitVec 4
  addr : BitVec 40
  size : Nat
  signed : Bool
  /-- access number of a granary access; `none` on the register access path -/
  accNo : Option (BitVec 12)
  pc : BitVec 15
  /-- the base register and its value without the post-increment, which a DATA_ECC trap takes back (R156) -/
  undo : Option (BitVec 4 × Word)
  /-- cycle in which the reply of an access to the own plot's window arrives (R160, R274) -/
  arrives : Option Nat
  deriving DecidableEq, Repr

/-- An entry of the pending-access table (R154). -/
structure PendingAccess where
  slot : Nat
  desc : BitVec 14
  acc : Access
  deriving DecidableEq, Repr

/-- A write on its way to a register of the running strand (R131, R132). -/
structure RegWrite where
  /-- cycle at whose end it is written -/
  due : Nat
  issued : Nat
  /-- what it writes -/
  target : BitVec 5
  value : Word
  /-- issued as an iteration of the repeat in progress -/
  rep : Bool
  /-- a micro-routine writes it, at the end of its microcycle, and it is no result of EMIT (R195, R205) -/
  direct : Bool
  deriving DecidableEq, Repr

/-- What keeps a strand from issuing (R128, R133, R150, R158, R206). -/
inductive Block where
  | none
  /-- a blocking access awaits its reply -/
  | access (a : Access)
  /-- a FENCE waits for the acknowledgement count -/
  | fence (pc : BitVec 15)
  /-- a FENCE that issued in a cycle waits for a fence slot or the store buffer -/
  | fenceSlot (pc : BitVec 15) (issued : Nat)
  /-- a customer instruction runs its routine -/
  | routine (pc : BitVec 15)
  /-- an operation in precise mode has raised flags, which decide in its completion cycle whether it traps or makes its
  writes (R158, R189); `rep`: an iteration of a repeat -/
  | precise (pc : BitVec 15) (rep : Bool) (due : Nat) (flags : BitVec 6) (writes : List RegWrite)
  deriving DecidableEq, Repr

/-- A strand instruction in DECODE or READ (R130). -/
structure Inst where
  pc : BitVec 15
  word : BitVec 32
  /-- the slot it was read from was uncorrectable -/
  bad : Bool
  /-- CNT as DECODE sampled it (R136) -/
  cntS : Word
  deriving DecidableEq, Repr

/-- A strand instruction in EXEC with the operands READ sampled. -/
structure SIssue where
  pc : BitVec 15
  word : BitVec 32
  a : Word
  b : Word
  d : Word
  flags : Word
  cnt : Word
  cntS : Word
  rm : BitVec 3
  ftz : Bool
  /-- cycle of issue -/
  issued : Nat
  /-- issued as an iteration of a repeat -/
  rep : Bool
  /-- has waited on a partial overlap, so ENG_SSB.PSTALL has counted it (R141) -/
  waited : Bool
  /-- growth of its latency by the store that drained as it issued (R140) -/
  grow : Nat
  /-- has stalled for a sheaf flit at the frame-store port (R79) -/
  stalled : Bool
  deriving DecidableEq, Repr

/-- A strand's architectural context (R115, R118). W0 is kept zero. -/
structure Ctx where
  w : Vector Word 16
  pc : BitVec 15
  flags : Word
  cnt : Word
  rpc : Word
  ras : Vector (BitVec 15) 8
  rsp : BitVec 3
  rsd : BitVec 4
  trapWord : Word
  trapAddr : Word
  waitWord : Word
  deriving DecidableEq, Repr

/-- The running strand of an engine (R115, R130, R154). -/
structure Strand where
  desc : BitVec 14
  k : Bool
  epri : BitVec 5
  ctx : Ctx
  /-- next PC that FETCH takes -/
  npc : BitVec 15
  /-- cycle from which FETCH may take it -/
  fetchAt : Nat
  fetch : Option (BitVec 15)
  dec : Option Inst
  read : Option Inst
  writes : List RegWrite
  /-- no issue before this cycle -/
  issueAt : Nat
  block : Block
  /-- the quantum of R318 has run out -/
  quantum : Bool
  /-- cycle in which its first instruction after the switch can issue (R323) -/
  startAt : Nat
  /-- time base at which the strand took the engine, for the quantum of R318 -/
  since : Nat
  /-- its switch has waited on a full pending-access table, so FULLWAIT has counted it (R155) -/
  fullWait : Bool
  /-- it leaves the engine by AWAIT, YIELD, EXIT or a trap, with an AWAIT's deadline (R318) -/
  leave : Option (LeaveReason × Word)
  deriving DecidableEq, Repr

/-- The standby slot (R317): the descriptor, its loaded context, privilege and priority, and the DISPATCH value. -/
structure Standby where
  desc : BitVec 14
  ctx : Ctx
  k : Bool
  epri : BitVec 5
  value : Word
  /-- STATUS.TO of the descriptor at the dispatch (R311) -/
  timeout : Bool
  deriving DecidableEq, Repr

/-- Who started a micro-routine, with what END and an abort need. -/
inductive RoutineOwner where
  | node (f : Fire) (issued : Nat)
  | strand (i : SIssue)
  deriving DecidableEq, Repr

/-- A micro-routine (R195, R202, R203). -/
structure Routine where
  owner : RoutineOwner
  upc : BitVec 11
  t : Vector Word 8
  xl : Word
  xr : Word
  xd : Word
  res : Word
  z : Bool
  n : Bool
  c : Bool
  v : Bool
  stack : List (BitVec 11)
  fma : Bool
  div : Bool
  /-- microcycles since the last safe point (R214) -/
  since : Nat
  /-- cycle from which the next microword can execute -/
  readyAt : Nat
  /-- microcycle in which a pending P3 fire was first seen, for ENG_UCOUNT.LATE (R211, R214) -/
  fireSince : Option Nat
  /-- the same of a kernel-band instruction or of a switch -/
  strandSince : Option Nat
  deriving DecidableEq, Repr

/-- A grant of the plot's binary64 unit (R170). -/
structure B64Grant where
  /-- granted to the fire -/
  fire : Bool
  /-- for the iterative section -/
  iter : Bool
  /-- the unit's cycle of the grant -/
  cycle : Nat
  deriving DecidableEq, Repr

/-- A context sweep in progress (R71): the context and the next visit, 0 to 1,025. -/
structure Sweep where
  ctx : BitVec 16
  visit : Nat
  deriving DecidableEq, Repr

/-- A spill-down order (R224): the sets left in the pass, and whether the pass has spilled. -/
structure SpillOrder where
  visited : Nat
  spilled : Bool
  deriving DecidableEq, Repr

/-- Which class takes EXEC next when both hold credits (R74). -/
inductive Turn where
  | token | strand
  deriving DecidableEq, Repr

/-- A data flit of a sheaf that an engine's memory intake has still to write: the memory, the byte offset and the payload
(R56, R79). -/
structure SheafWord where
  imem : Bool
  off : Nat
  payload : Entry
  deriving DecidableEq, Repr

/-- One engine slot (R54 to R85, R115 to R161, R195 to R220). Its memories are in `State.mem`, its registers in
`State.regs` and its microcode in `State.ucode`. -/
structure Engine where
  inP3 : List Flit
  inP2 : List Flit
  inP1 : List Flit
  inP0 : List Flit
  acks : List Flit
  /-- sheaves that arrive on the response channel, and those that arrive on the request channel (R56) -/
  sheafIn : List Flit
  sheafReq : List Flit
  strandIn : List Flit
  refillIn : List Flit
  dispIn : List Flit
  reentry : Option Tok
  hash : Option HashTok
  fire : Option Fire
  exec : Option Fire
  results : List Result
  /-- flags of operations that have not completed, the first to complete first -/
  raises : List Raise
  holdP3 : List Flit
  holdMain : List Flit
  /-- lanes of the output row, each flit with the crossbar cycle in which it was written (R263) -/
  outP3 : List (Nat × Flit)
  outMain : List (Nat × Flit)
  ms : SMap Entry
  /-- keys under which tokens of differing EPOCH have joined, which the EPOCH of an entry no longer shows (R33) -/
  mixed : List (BitVec 40)
  p3ovf : List Entry
  spillQ : List SpillUnit
  spillCnt : SMap Nat
  mpb : List Pending
  order : Option SpillOrder
  spillPtr : BitVec 10
  sweeps : List Sweep
  tc : Nat
  sc : Nat
  turn : Turn
  /-- PCLK cycles since the engine's reset -/
  cycle : Nat
  seq : BitVec 4
  wcnt : BitVec 16
  acnt : BitVec 16
  fences : List FenceSlot
  divFree : Nat
  fmaFree : Nat
  /-- cycle from which a vendor micro-routine leaves the sequencer free (R168, R204) -/
  seqFree : Nat
  /-- the latest vendor micro-routine is a strand's -/
  seqStrand : Bool
  /-- cycle in which a switch became due (R318) -/
  dueAt : Option Nat
  strand : Option Strand
  sx : Option SIssue
  standby : Option Standby
  /-- a stop order for the running strand is in force (R318) -/
  stop : Bool
  stores : List StoreEntry
  /-- first cycle in which the next store buffer entry may drain (R140) -/
  drainFree : Nat
  /-- cycle in which the latest use of the frame-store port by the strand side began, and the first cycle after it (R79,
  R140, R201) -/
  portFrom : Nat
  portUntil : Nat
  /-- cycle in which the strand last used the write port of the instruction memory (R79) -/
  imemAt : Option Nat
  /-- data flits of the sheaf that the memory intake writes, the cycles the next one has waited for the frame-store port, and
  the cycle of the latest attempt with whether it took that port (R56, R79) -/
  sheafWr : List SheafWord
  sheafWait : Nat
  sheafTurn : Option (Nat × Bool)
  /-- tokens of drained stores that a holding position of EMIT has taken (R141) -/
  bufHeld : List Flit
  /-- cycle in which an operation of EXEC last took the multiplier's entry (R204) -/
  mulAt : Option Nat
  pend : List PendingAccess
  accNo : BitVec 12
  resv : Option (BitVec 9)
  seqr : Option Routine
  susp : Option Routine
  /-- the binary64 unit has granted this engine's operation (R170) -/
  b64grant : Option B64Grant
  /-- stalled passes of the audit and the progress it last saw (R245) -/
  stall : Nat
  /-- the audit has reported it and it has not progressed since -/
  stalled : Bool
  progress : BitVec 32
  deriving DecidableEq, Repr

/-! ## The plot (chapters 3, 6, 8) -/

/-- A held or waiting ITER_NEXT token (R227): the engine, the iteration, and its place in the token pool. -/
structure Held where
  eng : BitVec 4
  iter : BitVec 12
  slot : Nat
  /-- the window has admitted it and it waits for a lane slot (R227, R228) -/
  go : Bool
  deriving DecidableEq, Repr

/-- An entry of the window table (R226). -/
structure Window where
  ctx : BitVec 16
  b : BitVec 12
  h : BitVec 12
  w : Nat
  chain : List Held
  deriving DecidableEq, Repr

/-- A token in an engine's hold intake (R227). -/
structure HoldIn where
  eng : BitVec 4
  ctx : BitVec 16
  iter : BitVec 12
  flits : List Flit
  deriving DecidableEq, Repr

/-- An engine notice on the notice link (R307). -/
inductive Notice where
  | run (d : BitVec 14) (e : BitVec 10)
  | loaded (d : BitVec 14) (e : BitVec 10)
  | recalled (d : BitVec 14) (e : BitVec 10)
  | leave (d : BitVec 14) (why : LeaveReason) (deadline : Word)
  | accessDone (d : BitVec 14) (poison : Bool)
  | halt (e : BitVec 10) (v : Bool)
  deriving DecidableEq, Repr

/-- A reset of a plot in progress (R431), and what started it. -/
inductive ResetBy where
  | command | reaction | quarantine | selfTest
  deriving DecidableEq, Repr

/-- A plot reset in progress: its origin, and whether the device was in SERVICE when it began (R346). -/
structure PlotReset where
  origin : ResetBy
  service : Bool
  deriving DecidableEq, Repr

/-- One plot's shared units. -/
structure Plot where
  /-- 0 free, 1 allocated, 2 awaiting return (R38, R72); context 0x0000 is always allocated -/
  ctxs : SMap (BitVec 2)
  /-- bucket slots in use (R231) -/
  buckets : SMap Bool
  /-- token-pool slots in use (R237) -/
  pool : SMap Bool
  windows : List Window
  waitChain : List (BitVec 16 × Held)
  holdIn : List HoldIn
  spillIn : List (BitVec 4 × SpillUnit)
  /-- pool slots of the deposit chain, oldest first (R240) -/
  deposit : List Nat
  depositMode : Bool
  /-- freed contexts whose purge has not run (R235) -/
  purges : List (BitVec 16)
  epoch : Bool
  /-- the plot's copies of its page masks of mode sets 0 and 1 (R446, R447) -/
  pages0 : BitVec 64
  pages1 : BitVec 64
  /-- the plot timed out of an epoch advance and has not been reset since (R448) -/
  epochLate : Bool
  resetting : Option PlotReset
  /-- quarantined (R15, R464) -/
  absent : Bool
  /-- powered (PD_PLOT_n) -/
  powered : Bool
  b64ptr : BitVec 4
  b64cycle : Nat
  /-- first cycle of the unit in which a DDIV or DSQRT can be granted (R170) -/
  b64iter : Nat
  /-- crossbar cycles counted; they order arrivals (R263) -/
  xcycle : Nat
  /-- flits the inbound queues have handed to the crossbar, by channel: request, response, control -/
  xreq : List (Nat × Flit)
  xrsp : List (Nat × Flit)
  xctl : List (Nat × Flit)
  /-- flits the agent has handed to the crossbar: refill answers and re-injected tokens (R263) -/
  xfill : List (Nat × Flit)
  xinj : List (Nat × Flit)
  notices : List Notice
  refusing : BitVec 3
  winFull : Bool
  deriving DecidableEq, Repr

/-! ## The mesh and the register access path (chapter 9) -/

/-- A request on the register access path (R273). -/
structure RPath where
  req : Requester
  /-- the engine and access a strand's read completes; `none` for a posted write -/
  eng : Option EngNo
  /-- the descriptor of the strand whose read it is (R154) -/
  desc : BitVec 14
  addr : BitVec 40
  size : Nat
  wr : Option Word
  /-- time base at the request, for the timeout of R275 -/
  at_ : Nat
  /-- the reset of a queue has discarded the read, which gets no reply (R271) -/
  lost : Bool
  deriving DecidableEq, Repr

/-- A flit in a router's input FIFO: the site it travels to, its arrival at the router, and the grants of its output
it has lost there (R258, R276). -/
structure Hop where
  dest : Nat
  at_ : Nat
  wait : Nat
  flit : Flit
  deriving DecidableEq, Repr

/-! ## The granary (chapter 10) -/

/-- States of a bank (R295, R296). A bank that wakes from OFF clears its words; one that wakes from RETAIN keeps
them. -/
inductive BankState where
  | on | retain | off | waking (clear : Bool)
  deriving DecidableEq, Repr

/-- A borrowed stripe (R441): its bank in the quadrant and its number, whether a demand access waits for it, and the shadow
buffer with what the stripe held: its bytes, by address, and the presence of its words. -/
structure Borrow where
  bank : Nat
  stripe : Nat
  wanted : Bool
  shadow : List Host.Cell
  shadowPres : SMap (BitVec 2)
  deriving DecidableEq, Repr

/-- A write that port 0 of a bank has made: the word, the bytes it enabled, its data before and after, whether its
presence changed, and the time base (R285). -/
structure PortWrite where
  word : BitVec 23
  mask : BitVec 8
  old : Word
  data : Word
  pres : Bool
  at_ : BitVec 64
  deriving DecidableEq, Repr

/-- An access that port 1 of a bank has made: the bank, the number of its requester (R282) and the time base (R284). -/
structure PortUse where
  bank : Nat
  rank : Nat
  at_ : BitVec 64
  deriving DecidableEq, Repr

/-- An operation of the presence port that is in progress: who asked, its class, OP, word and data (R288, R300). -/
structure PopOp where
  req : Requester
  wr : Bool
  op : BitVec 3
  word : BitVec 23
  data : Word
  deriving DecidableEq, Repr

/-- A directory entry: the word, its readers' request flits in arrival order, and RING (R289). -/
structure DirEntry where
  word : BitVec 23
  readers : List Flit
  ring : Bool
  /-- audit passes its readers have waited, and whether it has been reported (R245) -/
  passes : Nat
  deriving DecidableEq, Repr

/-- A granary quadrant. -/
structure Quad where
  dir : List DirEntry
  /-- the entries of the deferred ring in use, by index, oldest first; what they hold lies in the granary (R291) -/
  ring : List Nat
  /-- a replay pass is due (R291) -/
  replay : Bool
  /-- entries ever written to the ring since its registers were last set; the next one's index modulo the size -/
  ringWr : Nat
  /-- requests that stand in RQ, by mesh port (R283) -/
  rq : Vector (List Flit) 4
  /-- replies formed in BK that have not entered the response queue, by mesh port -/
  tx : Vector (List Flit) 4
  /-- the borrowed stripe, the next stripe of the march pointer, and the time base at the latest borrow (R441, R442) -/
  borrow : Option Borrow
  march : Nat
  borrowAt : BitVec 64
  /-- emission count (R35; assumption log 106) -/
  seq : BitVec 4
  deriving DecidableEq, Repr

/-! ## The Dibber and EVIO (chapters 11, 18) -/

/-- The states of a descriptor (R303). -/
inductive DState where
  | free | idle | ready | standby | running | waiting | trapped | cancelled
  deriving DecidableEq, Repr

/-- A descriptor's scheduling state (R303, R304), with what the Dibber keeps beside its mirror. -/
structure Desc where
  state : DState
  base : BitVec 5
  epri : BitVec 5
  k : Bool
  tmo : Bool
  pw : Bool
  mrc : Bool
  can : Bool
  lost : Bool
  inh : BitVec 5
  inhV : Bool
  aff : BitVec 16
  lastEng : BitVec 10
  wakeVal : Word
  deadline : Word
  fwd : BitVec 14
  fwdV : Bool
  wovr : BitVec 16
  wakes : BitVec 32
  /-- the value the next dispatch delivers, and whether it is a wake (R311) -/
  deliver : Option Word
  /-- a CANCEL's stop or recall is in progress, and a RESUME has been accepted meanwhile (R314) -/
  stopping : Bool
  resumeAfter : Bool
  /-- a pending access of R154 stands -/
  accHold : Bool
  /-- a migration's copy into it is in progress (R320) -/
  moving : Bool
  /-- the logical engine that the Dibber sent it to -/
  sent : Option (BitVec 10)
  /-- time base when its wait began, and audit passes seen (R245) -/
  waitAt : BitVec 64
  passes : Nat
  deriving DecidableEq, Repr

/-- An event source (R324). -/
structure Event where
  pend : Bool
  count : BitVec 16
  stamp : BitVec 32
  deriving DecidableEq, Repr

/-- A DISPATCH whose LOADED or RECALLED notice is awaited (R316). -/
structure Outstanding where
  eng : BitVec 10
  desc : BitVec 14
  /-- sent as a recall -/
  recalling : Bool
  /-- the engine to dispatch to once RECALLED returns -/
  thenTo : Option (BitVec 10)
  deriving DecidableEq, Repr

/-- What travels on the lock unit's direct path (R344), and the wakes that wait for the function port. -/
inductive DirectMsg where
  | inh (d : BitVec 14) (v : Option (BitVec 5))
  | wake (d : BitVec 14) (value : Word)
  deriving DecidableEq, Repr

/-- The Dibber. -/
structure Dib where
  descs : SMap Desc
  /-- READY descriptors of each plot; within one EPRI, the oldest first -/
  ready : SMap (List (BitVec 14))
  deadlines : List (BitVec 64 × BitVec 14)
  events : SMap Event
  evPtr : BitVec 11
  outst : List Outstanding
  /-- intake FIFO at the DIB port -/
  intake : List Flit
  /-- wakes of Dibber functions in wake form, on their way to the function port (R315) -/
  wakes : List (BitVec 14 × Word)
  /-- migrations whose copy is in progress (R320): source and target -/
  migr : List (BitVec 14 × BitVec 14)
  /-- STR_HALT of each logical engine as the HALT notices report it; it is set in every reset (R82, R321) -/
  halt : SMap Bool
  /-- the descriptor that each logical engine runs, and the one in its standby slot, as the notices report them -/
  run : SMap (Option (BitVec 14))
  sby : SMap (Option (BitVec 14))
  seq : BitVec 4
  deriving DecidableEq, Repr

/-- A timer of EVIO (R327): its next expiry and its period, zero for one shot. -/
structure Timer where
  armed : Bool
  expiry : Nat
  period : Nat
  deriving DecidableEq, Repr

/-- The filter of an input land (R479): the filtered level, the time base of the first sample that the count in
progress can include, and the stamp of the last matching change. -/
structure Filter where
  level : Bool
  since : BitVec 64
  /-- time base at the first sample of the last matching change; zero for none -/
  stamp : BitVec 64
  deriving DecidableEq, Repr

/-- Levels of an output land (R477, R481). -/
inductive Level where
  | low | high | z
  deriving DecidableEq, Repr

/-- EVIO. -/
structure Evio where
  intake : List Flit
  /-- time base at which the token of the intake entered it (R327) -/
  intakeAt : BitVec 64
  /-- schedules of each EVOUT in time order: time and level -/
  queues : SMap (List (BitVec 64 × Bool))
  timers : SMap Timer
  inputs : SMap Filter
  /-- the PPS_IN land's filter -/
  pps : Filter
  /-- time base of the latest PPS edge (R380) -/
  ppsAt : BitVec 64
  outs : SMap Level
  seq : BitVec 4
  deriving DecidableEq, Repr

/-! ## Locks (chapter 12) -/

/-- The states of a lock (R333). -/
inductive LState where
  | free | held | stuck
  deriving DecidableEq, Repr

/-- An owner identity (R335). -/
inductive Owner where
  | none
  | desc (dev : BitVec 12) (d : BitVec 14)
  | eng (dev : BitVec 12) (e : BitVec 10)
  | host
  | mc
  deriving DecidableEq, Repr

/-- A waiter (R340): who waits, its lock word, the CTX and ITER its reply copies, and whether it only watches. -/
structure Waiter where
  who : Owner
  word : Word
  ctxIter : BitVec 28
  watch : Bool
  deriving DecidableEq, Repr

/-- A lock (R333). -/
structure Lock where
  state : LState
  abn : Bool
  owner : Owner
  waiters : List Waiter
  deriving DecidableEq, Repr

/-- A reset notice (R346): the owner, or every owner of a device, and the operating state of its cause. -/
structure ResetMsg where
  who : Owner
  /-- every owner with this RDEV -/
  dev : Option (BitVec 12)
  service : Bool
  deriving DecidableEq, Repr

/-- The lock unit. -/
structure Lck where
  locks : SMap Lock
  intake : List Flit
  direct : List DirectMsg
  notices : List ResetMsg
  /-- the inheritance last sent to each local descriptor (R344) -/
  inh : SMap (Option (BitVec 5))
  /-- the function in progress at the command port is the MC's (R351) -/
  cmdMc : Bool
  seq : BitVec 4
  deriving DecidableEq, Repr

/-! ## The Sieve (chapter 17) -/

/-- Where a record's reaction stands (R458, R460). -/
inductive RPhase where
  | none | queued | running | acted | done
  deriving DecidableEq, Repr

/-- A fault record (R455), and the state of its reaction. -/
structure Rec where
  open_ : Bool
  cls : BitVec 2
  target : BitVec 2
  react : BitVec 3
  esc : Bool
  inj : Bool
  state : BitVec 3
  code : BitVec 8
  recno : BitVec 8
  phys : BitVec 11
  locus : BitVec 16
  merge : BitVec 16
  conseq : BitVec 16
  b : BitVec 16
  worst : BitVec 8
  /-- class of the detection in WORST -/
  worstCls : BitVec 2
  last : BitVec 8
  a : BitVec 64
  c : BitVec 64
  tDet : BitVec 64
  tClose : BitVec 64
  /-- the plot a plot reaction acts on -/
  tplot : Option PlotNo
  /-- index in the history queue -/
  hist : Option (BitVec 6)
  phase : RPhase
  /-- time base when the last reaction it has run completed -/
  tDone : Option (BitVec 64)
  /-- it is latched in PLOT_FC_REC -/
  latched : Bool
  /-- when it reaches the device collector, in ps of the time base (R453, R454) -/
  due : Nat
  deriving DecidableEq, Repr

/-- A cascade mask (R467). -/
inductive Mask where
  | engine (p : PlotNo) (e : BitVec 10) (slot : BitVec 5)
  | plot (p : PlotNo)
  | queue (site : BitVec 8) (chan : BitVec 3)
  /-- the device, while a DEVICE_SAFE that has started has yet to act -/
  | device
  deriving DecidableEq, Repr

/-- A mask in force: the collector whose record counts its consequential detections, and its end once the action is
over. -/
structure MaskWin where
  mask : Mask
  col : Nat
  ends : Option (BitVec 64)
  deriving DecidableEq, Repr

/-- The Sieve. Collectors are numbered 0 to 63 for the plots, 64 for the device collector, and 65 for the record that
LCK_STUCK opens of its own beside an open record of the device collector in the safe state (R467). -/
structure Sieve where
  /-- the open record of each collector, kept until its reaction is over -/
  recs : SMap (Option Rec)
  /-- the history queue's entries, by index -/
  hist : SMap (Option Rec)
  /-- collectors whose new record has not reached the history queue, in order -/
  travel : List Nat
  /-- collectors whose record's reaction is queued, in order -/
  queue : List Nat
  running : Option Nat
  /-- the reaction that runs -/
  runReact : BitVec 3
  /-- the running reaction began in SERVICE (R346) -/
  service : Bool
  masks : List MaskWin
  recno : BitVec 8
  /-- the collector of the record under which the safe state holds -/
  safe : Option Nat
  /-- divergent sites under CFG_DIVERGE (R468) -/
  diverged : List (BitVec 8)
  deriving DecidableEq, Repr

/-! ## The host link (chapter 14) -/

/-- The PCI Express endpoint's state beside its registers: the pending vectors in the order of their passes, and the
messages it has sent, address and data (the model's output port) (R385, R390). -/
structure HostEp where
  pba : List (BitVec 6)
  msgs : List (BitVec 64 × Reg32)
  /-- the function is in D3hot -/
  d3 : Bool
  /-- completion of the latest BAR2 read: its bytes, and whether it is poisoned (R387) -/
  reply : List Byte
  poisoned : Bool
  deriving DecidableEq, Repr

/-- A host command in progress at the command port (R391, R393): its opcode, the arguments it took at its start, and
whether an abort has been ordered. -/
structure HostCmd where
  opc : BitVec 8
  a0 : Reg32
  a1 : Reg32
  a2 : Reg32
  a3 : Reg32
  abort : Bool
  /-- a fault reaction has reset part of the device during a self-test (R3) -/
  dirty : Bool
  /-- its result is lost to a host link reset (R386) -/
  lost : Bool
  deriving DecidableEq, Repr

/-- An entry of the image's section table (R399). -/
structure Section where
  index : Nat
  typ : Nat
  flags : Nat
  crc : BitVec 32
  off : Nat
  len : Nat
  target : BitVec 64
  deriving DecidableEq, Repr

/-- An image's header and section table as step HEADER read them (R399, R405). -/
structure Image where
  total : Nat
  /-- the effective profile's code -/
  prof : BitVec 16
  id : BitVec 64
  secs : List Section
  deriving DecidableEq, Repr

/-- No image. -/
def Image.none : Image := { total := 0, prof := 0x0210, id := 0, secs := [] }

/-! ## The Runner links (chapter 13) -/

/-- A frame's type and payload (R356, R357). -/
structure LFrame where
  ftype : BitVec 4
  payload : BitVec 160
  deriving DecidableEq, Repr

/-- A TSYNC that waits for its frame slot: TT, TID and T2 (R381). -/
structure TsyncDue where
  tt : BitVec 2
  tid : BitVec 8
  t2 : BitVec 48
  deriving DecidableEq, Repr

/-- A Runner link beside its registers (R356 to R364, R438). -/
structure Link where
  /-- time base when it entered its state -/
  since : BitVec 64
  /-- next sequence number, and the replay buffer, oldest first -/
  seq : BitVec 12
  replay : List (BitVec 12 × LFrame)
  /-- frames of the replay buffer that are to be sent again -/
  resend : List (BitVec 12 × LFrame)
  /-- replays since the last acknowledgement progress -/
  replays : Nat
  /-- next expected sequence number, the flag nak, a NAK to be sent, and the first frame of the session received -/
  expect : BitVec 12
  nak : Bool
  nakDue : Bool
  got : Bool
  /-- sheaves partly received: channel code, SEQ and flits that remain -/
  part : List (Nat × BitVec 4 × Nat)
  /-- credit counts by channel code: sent, returned by the partner, left from the own buffers, and last reported -/
  sent : SMap (BitVec 8)
  returned : SMap (BitVec 8)
  left : SMap (BitVec 8)
  told : SMap (BitVec 8)
  /-- the channel whose count a frame reported last (R363) -/
  crPtr : Nat
  mgmtTx : List (BitVec 160)
  noticeTx : List (BitVec 160)
  tsyncTx : List TsyncDue
  /-- the frame last sent (the model's output port) -/
  tx : Option (BitVec 256)
  /-- consecutive low eye readings, and the time base of the last entry into RETRAIN or ACTIVE -/
  eyeLow : Nat
  upAt : BitVec 64
  deriving DecidableEq, Repr

/-- An MGMT request of the root that awaits its response (R371, R398). -/
structure MgmtOut where
  tag : BitVec 8
  mop : BitVec 4
  at_ : BitVec 64
  deriving DecidableEq, Repr

/-- A record of the MC's response queue (R398). -/
structure MgmtRec where
  mop : BitVec 4
  timeout : Bool
  tag : BitVec 8
  status : BitVec 8
  off : BitVec 16
  data : BitVec 64
  deriving DecidableEq, Repr

/-- The Runner fabric: the links, the notices accepted and sent, the exchange with the parent and the MC's MGMT
requests (R371, R378, R381, R398). -/
structure Fabric where
  links : SMap Link
  /-- the last pairs of ODEV and NSEQ accepted, newest first -/
  seen : List (BitVec 12 × BitVec 8)
  nseq : BitVec 8
  /-- TID of the last exchange, its t1 once sent, whether its answer is awaited, and when it began -/
  tid : BitVec 8
  t1 : BitVec 64
  waiting : Bool
  exchAt : BitVec 64
  /-- consecutive exchanges without an answer, and consecutive good ones -/
  missed : Nat
  good : Nat
  out : List MgmtOut
  responses : List MgmtRec
  /-- the routing words that a write in progress replaces, and the time base when every copy holds the new ones (R369) -/
  rtOld : SMap Reg32
  rtUntil : BitVec 64
  /-- RUN_IMGCNT when the MC last examined the staged image (R404) -/
  imgSeen : Reg32
  deriving DecidableEq, Repr

/-! ## Power and upkeep (chapters 15, 16) -/

/-- The MC's power and clock control beside its registers (R414 to R424). -/
structure Power where
  vinLow : Bool
  hot : Bool
  /-- VIN_LOSS has been detected, at this time base -/
  vinLossAt : Option (BitVec 64)
  /-- consecutive evaluations with P below the limit less 5 W, and those with the ceiling at FMIN and P above it -/
  spare : Nat
  overs : Nat
  /-- consecutive samples of TJ at the critical temperature -/
  crit : Nat
  /-- plots whose TARGET has changed and whose CUR has not reached EFF since (R418) -/
  asked : SMap Bool
  /-- a FATAL reaction holds every LDO, PLL and domain (R428) -/
  frozen : Bool
  /-- links whose domain is being switched on (R415), and those whose domain goes off once their queues are flushed (R269) -/
  linkUp : List LinkNo
  linkDown : List LinkNo
  /-- a write of PWR_PDREQ_LINK that waits for the reaction in progress (R19) -/
  linkAsk : Option Reg32
  deriving DecidableEq, Repr

/-- Upkeep beside its registers (R434 to R448). -/
structure Upkeep where
  /-- samples above HIGH, by plot -/
  above : SMap Nat
  /-- plots in which a transition ran since the last evaluation -/
  moved : SMap Bool
  /-- the next tick index, and the time base when the granary pass in progress began -/
  tick : Nat
  passAt : BitVec 64
  /-- next bank and group of eight rows of each quadrant's scrub pass -/
  gscrub : SMap Nat
  /-- plots that have not acknowledged an epoch order, and when they were ordered -/
  waiting : List (PlotNo × BitVec 64)
  /-- when DRAINING began -/
  drainAt : Option (BitVec 64)
  /-- an advance has been asked for and waits for the reaction in progress (R19) -/
  asked : Bool
  /-- time base at the latest evaluation of the margins (R435), scrub tick (R439) and reading of the eyes (R438) -/
  calAt : BitVec 64
  tickAt : BitVec 64
  eyeAt : BitVec 64
  deriving DecidableEq, Repr

/-! ## The lands, boundary scan and the SMBus port (chapter 18) -/

/-- The boundary-scan instructions (R487). -/
inductive ScanInstr where
  | extest | sample | idcode | highz | clamp | extestPulse | extestTrain | bypass
  deriving DecidableEq, Repr

/-- The TAP: its instruction and the boundary register's update cells (R487, R489). -/
structure Tap where
  instr : ScanInstr
  cells : BitVec 250
  /-- what the cells captured when the boundary register was last scanned -/
  captured : BitVec 250
  /-- the bits that the last scan of a data register shifted out at TDO, the first one lowest (the model's output port) -/
  tdo : BitVec 250
  /-- the bits that the last scan of the instruction register shifted out, the first one lowest -/
  irOut : BitVec 8
  deriving DecidableEq, Repr

/-- The SMBus port (R484): its address pointer and flags. -/
structure Smb where
  ptr : BitVec 40
  refused : Bool
  pec : Bool
  timeout : Bool
  deriving DecidableEq, Repr

/-! ## The device -/

/-- The operating states (R2). -/
inductive OpState where
  | off | boot | test | recovery | service
  deriving DecidableEq, Repr

/-- The behaviour profiles (R5). -/
inductive Profile where
  | p0100 | p0200 | p0210
  deriving DecidableEq, Repr

/-- The time base (R26, R379): nanoseconds, and the fraction that its accumulator holds, in parts of 10^9 of a
nanosecond. -/
structure TimeBase where
  now : BitVec 64
  frac : Nat
  /-- step POWER has begun since power-on, so the time base counts (R414; assumption log 141) -/
  started : Bool
  /-- when PLL_M lost its lock, while it is not locked (R414, R479) -/
  unlockAt : BitVec 64
  /-- row 1 of R414 has ended since power-on (R484) -/
  row1 : Bool
  deriving DecidableEq, Repr

/-- The condition of a protected word's check bits that an upset has left (R49, R60, R194, R281, R298). -/
inductive Mark where
  | clean | single | double
  deriving DecidableEq, Repr

/-- The state of the device. -/
structure State where
  /-- commands that wait, first in, first out (the model's own) -/
  pending : List Instr
  opState : OpState
  prevState : OpState
  profile : Profile
  time : TimeBase
  /-- registers that differ from their reset value, by internal address -/
  regs : SMap Reg32
  /-- _HI latches (R7), by requester and address -/
  latches : SMap Reg32
  /-- _LO staging registers (R7), by requester and address -/
  stages : SMap (Option Reg32)
  /-- what the last access of each requester returned (the model's output port) -/
  rdata : SMap Word
  /-- every byte memory, by internal address: granary data, instruction memories, frame stores, context stores -/
  mem : List Host.Cell
  /-- check-bit conditions, by internal address of the protected word -/
  marks : SMap Mark
  /-- granary presence, by word address -/
  pres : SMap (BitVec 2)
  /-- the microcode store, one image for every slot (R217) -/
  ucode : SMap (BitVec 32)
  engines : SMap Engine
  plots : SMap Plot
  /-- dual-clock queues (R265), by site, channel and direction -/
  queues : SMap (List Flit)
  /-- router input FIFOs (R255), by router, input and channel -/
  routers : SMap (List Hop)
  /-- sheaves under way: what holds an output or a queue, and how many flits of the sheaf remain (R259, R268) -/
  holds : SMap (Option (Nat × Nat))
  /-- queues under a flush (R269) -/
  flushing : SMap Bool
  /-- queues and router FIFOs whose writer discards the rest of a sheaf (R271) -/
  dropping : SMap Bool
  /-- flits left of the sheaf that the writer of a queue or a router FIFO has begun (R269, R271) -/
  wleft : SMap Nat
  /-- broken flits that a flushed queue has still to append to itself (R269) -/
  appends : SMap Nat
  /-- broken flits with which a queue or a router FIFO that has been reset has still to complete its reader's sheaf
  (R271) -/
  owed : SMap Nat
  /-- flits read from each queue and router FIFO since its reset, modulo 64: its read pointer, from which the flits that it
  holds give its write pointer (R270) -/
  reads : SMap Nat
  /-- the site that the sheaf under way from each router FIFO travels to (R259, R271) -/
  dests : SMap Nat
  /-- arrivals at routers, counted to order them (R258) -/
  arrivals : Nat
  /-- time base at the latest audit pass (R245) -/
  auditAt : BitVec 64
  rpath : List RPath
  /-- time base at the latest access of each requester of the register access path, but the plots (R273, R275) -/
  pathAt : SMap (BitVec 64)
  quads : Vector Quad 4
  banks : SMap BankState
  /-- banks of the transition in progress, in ascending order, and whether one waits for a fault reaction (R19, R295) -/
  bankQ : List Nat
  bankWait : Bool
  /-- the latest port-0 write of each word written at the present time (R285) -/
  port0 : List PortWrite
  /-- the accesses of port 1 of each bank at the present time, one of each requester (R284) -/
  port1 : List PortUse
  /-- the operation of the presence port in progress (R288, R300) -/
  pop : Option PopOp
  dib : Dib
  lck : Lck
  evio : Evio
  sieve : Sieve
  /-- flits of a block that wait for its control queue, by site (R223) -/
  tx : SMap (List Flit)
  host : HostEp
  /-- the host command in progress (R391) -/
  cmd : Option HostCmd
  fabric : Fabric
  power : Power
  upkeep : Upkeep
  tap : Tap
  smb : Smb
  /-- ROOT_SEL as sampled at the device reset, and TEST_MODE as latched (R475, R478) -/
  rootSel : Bool
  testMode : Bool
  /-- FAULT_N is driven low (R477) -/
  faultN : Bool
  /-- PWR_GOOD has been released (R411) -/
  pwrGood : Bool
  /-- the image that the boot sequence loads, as its step HEADER read it (R402) -/
  image : Image
  /-- the version of the MC firmware that runs (R398, R401) -/
  mcVersion : Reg32
  /-- draws the free values; the model's own -/
  free : Nat
  deriving DecidableEq, Repr

/-! ## Reset values -/

/-- A context of zeros. -/
def Ctx.zero : Ctx :=
  { w := Vector.replicate 16 0, pc := 0, flags := 0, cnt := 0, rpc := 0, ras := Vector.replicate 8 0, rsp := 0,
    rsd := 0, trapWord := 0, trapAddr := 0, waitWord := 0 }

/-- An engine after an engine, plot or device reset (R74, R161, R220, R430). -/
def Engine.reset : Engine :=
  { inP3 := [], inP2 := [], inP1 := [], inP0 := [], acks := [], sheafIn := [], sheafReq := [], strandIn := [],
    refillIn := [], dispIn := [], reentry := none, hash := none, fire := none, exec := none, results := [],
    raises := [], holdP3 := [], holdMain := [], outP3 := [], outMain := [], ms := [], mixed := [], p3ovf := [],
    spillQ := [], spillCnt := [], mpb := [], order := none, spillPtr := 0, sweeps := [], tc := 0, sc := 0,
    turn := .token, cycle := 0, seq := 0, wcnt := 0, acnt := 0, fences := [], divFree := 0, fmaFree := 0,
    seqFree := 0, seqStrand := false, dueAt := none, strand := none, sx := none, standby := none, stop := false,
    stores := [], drainFree := 0, portFrom := 0, portUntil := 0, imemAt := none, sheafWr := [], sheafWait := 0,
    sheafTurn := none, bufHeld := [], mulAt := none, pend := [], accNo := 0, resv := none, seqr := none, susp := none,
    b64grant := none, stall := 0, stalled := false, progress := 0 }

/-- A plot after a plot or device reset (R170, R249, R430). -/
def Plot.reset : Plot :=
  { ctxs := [], buckets := [], pool := [], windows := [], waitChain := [], holdIn := [], spillIn := [], deposit := [],
    depositMode := false, purges := [], epoch := false, pages0 := BitVec.allOnes 64, pages1 := BitVec.allOnes 64,
    epochLate := false, resetting := none, absent := false, powered := true, b64ptr := 15, b64cycle := 0,
    b64iter := 0, xcycle := 0, xreq := [], xrsp := [], xctl := [], xfill := [], xinj := [], notices := [],
    refusing := 0, winFull := false }

/-- A quadrant after a device reset (R297). -/
def Quad.reset : Quad :=
  { dir := [], ring := [], replay := false, ringWr := 0, rq := Vector.replicate 4 [], tx := Vector.replicate 4 [],
    borrow := none, march := 0, borrowAt := 0, seq := 0 }

/-- A FREE descriptor, whose mirror is zero (R303). -/
def Desc.free : Desc :=
  { state := .free, base := 0, epri := 0, k := false, tmo := false, pw := false, mrc := false,
    can := false, lost := false, inh := 0, inhV := false, aff := 0, lastEng := 0, wakeVal := 0, deadline := 0,
    fwd := 0, fwdV := false, wovr := 0, wakes := 0, deliver := none, stopping := false, resumeAfter := false,
    accHold := false, moving := false, sent := none, waitAt := 0, passes := 0 }

/-- An event that is not pending. -/
def Event.none : Event := { pend := false, count := 0, stamp := 0 }

/-- A disarmed timer. -/
def Timer.off : Timer := { armed := false, expiry := 0, period := 0 }

/-- A filter at reset (R479, R480). -/
def Filter.reset : Filter := { level := false, since := 0, stamp := 0 }

/-- A free lock (R333). -/
def Lock.free : Lock := { state := .free, abn := false, owner := .none, waiters := [] }

/-- The Dibber after a device reset. -/
def Dib.reset : Dib :=
  { descs := [], ready := [], deadlines := [], events := [], evPtr := 0, outst := [], intake := [], wakes := [],
    migr := [], halt := [], run := [], sby := [], seq := 0 }

/-- EVIO after a device reset. -/
def Evio.reset : Evio :=
  { intake := [], intakeAt := 0, queues := [], timers := [], inputs := [], pps := Filter.reset, ppsAt := 0,
    outs := [], seq := 0 }

/-- The lock unit after a device reset (R333). -/
def Lck.reset : Lck := { locks := [], intake := [], direct := [], notices := [], inh := [], cmdMc := false, seq := 0 }

/-- The Sieve after a device reset. -/
def Sieve.reset : Sieve :=
  { recs := [], hist := [], travel := [], queue := [], running := none, runReact := 0, service := false, masks := [],
    recno := 0, safe := none, diverged := [] }

/-- The endpoint after power-up. -/
def HostEp.reset : HostEp := { pba := [], msgs := [], d3 := false, reply := [], poisoned := false }

/-- A link at the start of DETECT (R359). -/
def Link.reset : Link :=
  { since := 0, seq := 0, replay := [], resend := [], replays := 0, expect := 0, nak := false, nakDue := false,
    got := false, part := [], sent := [], returned := [], left := [], told := [], crPtr := 6, mgmtTx := [],
    noticeTx := [], tsyncTx := [], tx := none, eyeLow := 0, upAt := 0 }

/-- The fabric after a device reset. -/
def Fabric.reset : Fabric :=
  { links := [], seen := [], nseq := 0, tid := 0, t1 := 0, waiting := false, exchAt := 0, missed := 0, good := 0,
    out := [], responses := [], rtOld := [], rtUntil := 0, imgSeen := 0 }

/-- Power control after a device reset. -/
def Power.reset : Power :=
  { vinLow := false, hot := false, vinLossAt := none, spare := 0, overs := 0, crit := 0, asked := [], frozen := false,
    linkUp := [], linkDown := [], linkAsk := none }

/-- Upkeep after a device reset. -/
def Upkeep.reset : Upkeep :=
  { above := [], moved := [], tick := 0, passAt := 0, gscrub := [], waiting := [], drainAt := none, asked := false,
    calAt := 0, tickAt := 0, eyeAt := 0 }

/-- The TAP after its reset (R487). -/
def Tap.reset : Tap := { instr := .idcode, cells := 0, captured := 0, tdo := 0, irOut := 0 }

/-- The SMBus port at power-on. -/
def Smb.reset : Smb := { ptr := 0, refused := false, pec := false, timeout := false }

/-- The machine right after reset: an unpowered module, every unit at its reset value and no command waiting
(assumption log 3). -/
def State.reset : State :=
  { pending := [], opState := .off, prevState := .off, profile := .p0210,
    time := { now := 0, frac := 0, started := false, unlockAt := 0, row1 := false }, regs := [], latches := [], stages := [],
    rdata := [], mem := [], marks := [], pres := [], ucode := [], engines := [], plots := [], queues := [],
    routers := [], holds := [], flushing := [], dropping := [], wleft := [], appends := [], owed := [], reads := [],
    dests := [], arrivals := 0, auditAt := 0, rpath := [], pathAt := [], quads := Vector.replicate 4 Quad.reset,
    banks := [], bankQ := [], bankWait := false, port0 := [], port1 := [], pop := none, dib := Dib.reset,
    lck := Lck.reset, evio := Evio.reset, sieve := Sieve.reset, tx := [], host := HostEp.reset, cmd := none,
    fabric := Fabric.reset, power := Power.reset, upkeep := Upkeep.reset, tap := Tap.reset, smb := Smb.reset,
    rootSel := false, testMode := false, faultN := true, pwrGood := false, image := Image.none, mcVersion := 0,
    free := 0 }

end Sys2Proof.Machine
end

