-- ==== Sys2Proof/Machine/Regs.lean ====
section
/-! DEFINITION. The address map (R14, R22), the register store and the named operations over the byte memory. -/

namespace Sys2Proof.Machine

/-! ## Addresses (R22) -/

/-- Base of plot P's window. -/
def plotWin (p : Nat) : Nat := 0x0100000000 + p * 0x800000
/-- Base of engine slot e's region, by physical number. -/
def slotBase (e : Nat) : Nat := plotWin (e / 17) + e % 17 * 0x40000
/-- Instruction memory of a slot. -/
def imemBase (e : Nat) : Nat := slotBase e
/-- Frame store of a slot. -/
def frameBase (e : Nat) : Nat := slotBase e + 0x10000
/-- Matching-store window of a slot. -/
def msBase (e : Nat) : Nat := slotBase e + 0x20000
/-- Microcode window of a slot. -/
def ucodeBase (e : Nat) : Nat := slotBase e + 0x38000
/-- An ENG register of a slot. -/
def ereg (e off : Nat) : Nat := slotBase e + 0x30000 + off
/-- A PLOT register. -/
def preg (p off : Nat) : Nat := plotWin p + 0x600000 + off
/-- The context-store entry of a descriptor (R305). -/
def ctxBase (d : Nat) : Nat := preg (d / 256) (0x20000 + d % 256 * 256)

/-- Base of a block's registers. BAR4's registers are outside the internal map; the host reaches them from 0x03_0000_0000,
which R22 does not map (assumption log 28). -/
def Blk.base : Blk → Nat
  | .dev => 0x0200000000
  | .dib => 0x0200010000
  | .lck => 0x0200020000
  | .sieve => 0x0200030000
  | .pwr => 0x0200040000
  | .clk => 0x0200050000
  | .upk => 0x0200060000
  | .grn => 0x0200070000
  | .mesh => 0x0200080000
  | .run => 0x0200090000
  | .evio => 0x02000A0000
  | .host => 0x02000B0000
  | .mc => 0x02000C0000
  | .bar4 => 0x0300000000
  | .plot => 0x0100600000
  | .eng => 0x0100030000

/-- A register of a device block. -/
def breg (b : Blk) (off : Nat) : Nat := b.base + off

/-- The device blocks in the order of R22. -/
def deviceBlks : List Blk := [.dev, .dib, .lck, .sieve, .pwr, .clk, .upk, .grn, .mesh, .run, .evio, .host, .mc]

/-- What an internal address names. -/
inductive Place where
  | granary (off : Nat)
  | imem (e off : Nat)
  | frame (e off : Nat)
  | ms (e off : Nat)
  | engReg (e off : Nat)
  | ucode (e off : Nat)
  | plotReg (p off : Nat)
  | ctxStore (p off : Nat)
  | block (b : Blk) (off : Nat)
  | test
  | reserved
  | unmapped
  deriving DecidableEq, Repr

/-- The place of an address within a plot window. -/
def plotPlace (p w : Nat) : Place :=
  if w < 0x440000 then
    let e := 17 * p + w / 0x40000
    let o := w % 0x40000
    if o < 0x8000 then .imem e o
    else if o < 0x10000 then .reserved
    else if o < 0x18000 then .frame e (o - 0x10000)
    else if o < 0x20000 then .reserved
    else if o < 0x30000 then .ms e (o - 0x20000)
    else if o < 0x38000 then .engReg e (o - 0x30000)
    else if o < 0x3A000 then .ucode e (o - 0x38000)
    else .reserved
  else if w < 0x600000 then .reserved
  else if 0x620000 ≤ w ∧ w < 0x630000 then .ctxStore p (w - 0x620000)
  else .plotReg p (w - 0x600000)

/-- The place an internal address names (R22, R24). -/
def place (a : Nat) : Place :=
  if a < 0x4000000 then .granary a
  else if 0x0100000000 ≤ a ∧ a < 0x0120000000 then
    plotPlace ((a - 0x0100000000) / 0x800000) ((a - 0x0100000000) % 0x800000)
  else if 0x0200000000 ≤ a ∧ a < 0x02000E0000 then
    let n := (a - 0x0200000000) / 0x10000
    match deviceBlks[n]? with
    | some b => .block b (a % 0x10000)
    | none => .test
  else if 0x0300000000 ≤ a ∧ a < 0x0300010010 then .block .bar4 (a - 0x0300000000)
  else .unmapped

/-- Whether a layout stands under a profile. -/
def RProf.holds : RProf → Profile → Bool
  | .all, _ => true
  | .native, q => q != .p0100
  | .p0100, q => q == .p0100

/-- The row of a block that holds an offset under a profile, and the repetition it is. -/
def findRow (q : Profile) (b : Blk) (off : Nat) : Option (RRow × Nat) :=
  (b.rows.find? (fun r => r.prof.holds q && decide (r.off ≤ off) && (off - r.off) % r.stride == 0 &&
    decide ((off - r.off) / r.stride < r.cnt))).map (fun r => (r, (off - r.off) / r.stride))

/-- The register row an address names. -/
def rowAt (q : Profile) (a : Nat) : Option (RRow × Nat) :=
  match place (a - a % 4) with
  | .engReg _ off => findRow q .eng off
  | .plotReg _ off => if q = .p0100 ∧ 0x10000 ≤ off then none else findRow q .plot off
  | .block b off => findRow q b off
  | _ => none

/-- The reset value of a row's fields. -/
def RRow.resetValue (r : RRow) : Reg32 :=
  r.fields.foldl (fun v f => v ||| (BitVec.ofNat 32 f.reset <<< f.lo)) 0

/-- The default reaction of a code (R451), and none for a code that R451 does not list. -/
def defaultReact (code : Nat) : Option Nat :=
  if code ∈ [0x01, 0x03, 0x05, 0x07, 0x10, 0x20, 0x40, 0x48, 0x53] then some 0
  else if code = 0x15 then some 2
  else if code ∈ [0x27, 0x28] then some 4
  else if code = 0x54 ∨ (0x60 ≤ code ∧ code ≤ 0x67) then some 5
  else if (1 ≤ code ∧ code ≤ 0x14) ∨ (0x21 ≤ code ∧ code ≤ 0x29) ∨ (0x41 ≤ code ∧ code ≤ 0x52) ∨ code = 0x55 then
    some 1
  else none

/-- The reset value of SIEVE_REACT_k (R451, R471). -/
def reactReset (k : Nat) : Reg32 :=
  (List.range 8).foldl (fun v i => v ||| (BitVec.ofNat 32 ((defaultReact (8 * k + i)).getD 0) <<< (4 * i))) 0

/-- The reset value of the register at an address: the table's, under the native layout where a profile changes it
(R406). -/
def regReset (a : Nat) : Reg32 :=
  match place a with
  | .block .sieve off => if 0x400 ≤ off ∧ off < 0x480 then reactReset ((off - 0x400) / 4)
    else match findRow .p0210 .sieve off with
      | some (r, _) => r.resetValue
      | none => 0
  | _ =>
    match rowAt .p0210 a with
    | some (r, _) => r.resetValue
    | none => match rowAt .p0100 a with
      | some (r, _) => r.resetValue
      | none => 0

end Sys2Proof.Machine

namespace Sys2Proof.Machine.State

open Sys2Proof.Machine

/-! ## The register store -/

/-- The stored value of a register. -/
def rd (s : State) (a : Nat) : Reg32 := SMap.get s.regs a (regReset a)

/-- The state with a register's stored value changed. -/
def wr (s : State) (a : Nat) (v : Reg32) : State := { s with regs := SMap.set s.regs a v (regReset a) }

/-- A field of a register, as a number. -/
def fld (s : State) (a lo len : Nat) : Nat := (bits (s.rd a) lo len).toNat

/-- One bit of a register. -/
def flag (s : State) (a i : Nat) : Bool := bit (s.rd a) i

/-- The state with a field of a register replaced. -/
def setFld (s : State) (a lo len n : Nat) : State := s.wr a (put (s.rd a) lo (BitVec.ofNat len n))

/-- The state with one bit of a register replaced. -/
def setFlag (s : State) (a i : Nat) (b : Bool) : State := s.wr a (putBit (s.rd a) i b)

/-- The state with a counter field raised by `n`, which stops at its maximum. -/
def satAdd (s : State) (a lo len n : Nat) : State := s.setFld a lo len (min (2 ^ len - 1) (s.fld a lo len + n))

/-- The state with a counter field raised by one, which stops at its maximum. -/
def satInc (s : State) (a lo len : Nat) : State := s.satAdd a lo len 1

/-- A 64-bit pair in force. -/
def rd64 (s : State) (lo : Nat) : Word := s.rd (lo + 4) ++ s.rd lo

/-- The state with a 64-bit pair replaced. -/
def wr64 (s : State) (lo : Nat) (v : Word) : State := (s.wr lo (bits v 0 32)).wr (lo + 4) (bits v 32 32)

/-- The state with a 64-bit counter raised by one, wrapping. -/
def inc64 (s : State) (lo : Nat) : State := s.wr64 lo (s.rd64 lo + 1)

/-- DEV_RSVD_ACCESS counts (R9, R10). -/
def rsvd (s : State) : State := s.satInc (breg .dev 0x10) 0 32

/-! ## The units -/

/-- The engine in a slot. -/
def eng (s : State) (e : Nat) : Engine := SMap.get s.engines e Engine.reset

/-- The state with the engine in a slot replaced. -/
def setEng (s : State) (e : Nat) (x : Engine) : State :=
  { s with engines := SMap.set s.engines e x Engine.reset }

/-- The state with the engine in a slot changed. -/
def modEng (s : State) (e : Nat) (g : Engine → Engine) : State := s.setEng e (g (s.eng e))

/-- A plot's shared units. -/
def plot (s : State) (p : Nat) : Plot := SMap.get s.plots p Plot.reset

/-- The state with a plot's shared units replaced. -/
def setPlot (s : State) (p : Nat) (x : Plot) : State := { s with plots := SMap.set s.plots p x Plot.reset }

/-- The state with a plot's shared units changed. -/
def modPlot (s : State) (p : Nat) (g : Plot → Plot) : State := s.setPlot p (g (s.plot p))

/-- A queue of flits. -/
def q (s : State) (k : Nat) : List Flit := SMap.get s.queues k []

/-- The state with a queue replaced. -/
def setQ (s : State) (k : Nat) (fs : List Flit) : State := { s with queues := SMap.set s.queues k fs [] }

/-- A descriptor. -/
def desc (s : State) (d : Nat) : Desc := SMap.get s.dib.descs d Desc.free

/-- The state with a descriptor replaced. -/
def setDesc (s : State) (d : Nat) (x : Desc) : State :=
  { s with dib := { s.dib with descs := SMap.set s.dib.descs d x Desc.free } }

/-- A lock. -/
def lock (s : State) (n : Nat) : Lock := SMap.get s.lck.locks n Lock.free

/-- The state with a lock replaced. -/
def setLock (s : State) (n : Nat) (x : Lock) : State :=
  { s with lck := { s.lck with locks := SMap.set s.lck.locks n x Lock.free } }

/-- The state with a free value drawn, and that value. -/
def draw (s : State) : Word × State := (Config.freeValue s.free, { s with free := s.free + 1 })

/-! ## The byte memory (R22, R42: little-endian) -/

/-- One byte. -/
def byte (s : State) (a : Nat) : Byte := SMap.get s.mem a 0

/-- The state with one byte written. -/
def setByte (s : State) (a : Nat) (v : Byte) : State := { s with mem := SMap.set s.mem a v 0 }

/-- `n` bytes from an address as a number, lowest byte first. -/
def bytesAt (s : State) (a : Nat) : Nat → Nat
  | 0 => 0
  | n + 1 => (s.byte a).toNat + 256 * s.bytesAt (a + 1) n

/-- `n` bytes from an address as a word. -/
def load (s : State) (a n : Nat) : Word := BitVec.ofNat 64 (s.bytesAt a n)

/-- The state with `n` bytes of a number written from an address, lowest byte first. -/
def storeNat (s : State) (a : Nat) : Nat → Nat → State
  | 0, _ => s
  | n + 1, v => (s.setByte a (BitVec.ofNat 8 v)).storeNat (a + 1) n (v / 256)

/-- The state with the low `n` bytes of a word written from an address. -/
def store (s : State) (a n : Nat) (v : Word) : State := s.storeNat a n v.toNat

/-- The bytes of a word that a mask enables, merged over the old word. -/
def mergeMask (old new : Word) (mask : BitVec 8) : Word :=
  (List.range 8).foldl (fun w i => if bit mask i then put w (8 * i) (bits new (8 * i) 8) else w) old

/-- The check-bit condition of the protected word at an address. -/
def mark (s : State) (a : Nat) : Mark := SMap.get s.marks a .clean

/-- The state with the check-bit condition of a protected word replaced. -/
def setMark (s : State) (a : Nat) (m : Mark) : State := { s with marks := SMap.set s.marks a m .clean }

/-- The state after an uncorrectable error in the protected word at an address: what a byte memory holds there is a free
value (assumption log 29). -/
def spoil (s : State) (a : Nat) : State :=
  let mem : Bool := match place a with
    | .granary _ => true
    | .imem _ _ => true
    | .frame _ _ => true
    | .ctxStore _ _ => true
    | _ => false
  let s := if mem then s.draw.2.store a 8 s.draw.1 else s
  s.setMark a .double

/-- The state after an upset of the protected word at an address: a second single-bit error makes it
uncorrectable. -/
def upset (s : State) (a : Nat) : Upset → State
  | .clean => s
  | .single => if s.mark a = .clean then s.setMark a .single else s.spoil a
  | .double => s.spoil a

end Sys2Proof.Machine.State
end

