-- ==== Sys2Proof/Machine/Detect.lean ====
section
/-! DEFINITION. Raising an event (R324), and the collectors of the Sieve: what a detection opens, merges into or is
masked by (R451 to R457, R467). Every command that detects a fault calls `detect`. -/

namespace Sys2Proof.Machine

/-- The encoding of DEV_STATUS.STATE (R2). OFF reads as zero. -/
def OpState.code : OpState → BitVec 3
  | .off => 0
  | .boot => 1
  | .test => 2
  | .recovery => 3
  | .service => 4

/-- The route of an event: URG, MSI, STR, VEC and DESC (R330, R329). -/
structure Route where
  urg : Bool
  msi : Bool
  str : Bool
  vec : BitVec 6
  desc : BitVec 14
  deriving DecidableEq, Repr

/-- The route of event n as DIB_EVR_n stands, in the layout of the profile. Under CFG_DIVERGE of site 0x45 events are
served without wake or message (R468). -/
def routeOf (s : State) (n : Nat) : Route :=
  let r := s.rd (breg .dib (0x1000 + 4 * n))
  match s.profile with
  | .p0100 => { urg := bit r 0, msi := bit r 30, str := bit r 31, vec := bits r 8 6, desc := bits r 16 14 }
  | _ => { urg := bit r 31, msi := bit r 30, str := bit r 29, vec := bits r 14 6, desc := bits r 0 14 }

/-- An event source raises its event, stamped with a time (R324, R479). -/
def raiseEventAt (n : Nat) (t : BitVec 64) (s : State) : State :=
  let r := routeOf s n
  if !(r.str || r.msi) then s
  else
    let ev := SMap.get s.dib.events n Event.none
    let ev' : Event :=
      { pend := true
        count := if ev.count = 0xFFFF then 0xFFFF else ev.count + 1
        stamp := if ev.pend then ev.stamp else bits t 0 32 }
    { s with dib := { s.dib with events := SMap.set s.dib.events n ev' Event.none } }

/-- An event source raises its event (R324). -/
def raiseEvent (n : Nat) (s : State) : State := raiseEventAt n s.time.now s

/-- An engine raises its engine event: EV_0000 plus its physical number (R157, R188). -/
def raiseEngine (e : Nat) (s : State) : State := raiseEvent e s

/-! ## Codes (R451, R452) -/

/-- The class of a code: 0 CE, 1 UC, 2 UU, 3 FATAL. -/
def codeClass (c : Nat) : BitVec 2 :=
  if c ∈ [0x01, 0x03, 0x05, 0x07, 0x10, 0x20, 0x40, 0x48, 0x53] then 0
  else if c ∈ [0x15, 0x27, 0x28, 0x54] then 2
  else if 0x60 ≤ c then 3
  else 1

/-- The target of a code: 0 none, 1 engine, 2 plot. -/
def codeTarget (c : Nat) : BitVec 2 :=
  if (0x01 ≤ c ∧ c ≤ 0x0F) ∨ (0x12 ≤ c ∧ c ≤ 0x15) then 1
  else if c = 0x10 ∨ c = 0x11 ∨ (0x20 ≤ c ∧ c ≤ 0x29) ∨ c = 0x43 ∨ c = 0x51 then 2
  else 0

/-- Reactions (R452). -/
def reLog : BitVec 3 := 0
def reEvent : BitVec 3 := 1
def reRetire : BitVec 3 := 2
def reQuarantine : BitVec 3 := 3
def reReset : BitVec 3 := 4
def reSafe : BitVec 3 := 5

/-- The severity of a reaction, 1 to 6. -/
def severity (r : BitVec 3) : Nat :=
  if r = reLog then 1 else if r = reEvent then 2 else if r = reRetire then 3 else if r = reReset then 4
  else if r = reQuarantine then 5 else 6

/-- The reaction SIEVE_REACT sets for a code; DEVICE_SAFE for every code under CFG_DIVERGE of site 0x40 (R468). -/
def reactOf (s : State) (c : Nat) : BitVec 3 :=
  if s.sieve.diverged.contains 0x40 then reSafe
  else bits (s.rd (breg .sieve (0x400 + 4 * (c / 8)))) (4 * (c % 8)) 3

/-! ## Records (R455) -/

/-- The sixteen words of a record. -/
def recWord (r : Rec) (w : Nat) : Reg32 :=
  match w with
  | 0 => (1 : BitVec 1) ++ BitVec.ofBool r.open_ ++ r.cls ++ r.target ++ r.react ++ BitVec.ofBool r.esc ++
      BitVec.ofBool r.inj ++ r.state ++ (0 : BitVec 2) ++ r.code ++ r.recno
  | 1 => (0 : BitVec 5) ++ r.phys ++ r.locus
  | 2 => r.merge ++ r.conseq
  | 3 => r.b ++ r.worst ++ r.last
  | 4 => bits r.a 0 32
  | 5 => bits r.a 32 32
  | 6 => bits r.c 0 32
  | 7 => bits r.c 32 32
  | 8 => bits r.tDet 0 32
  | 9 => bits r.tDet 32 32
  | 10 => bits r.tClose 0 32
  | 11 => bits r.tClose 32 32
  | _ => 0

/-- A number field raised by one, which stops at its maximum. -/
def satInc16 (v : BitVec 16) : BitVec 16 := if v = 0xFFFF then v else v + 1

/-- The record of a collector. -/
def recOf (s : State) (c : Nat) : Option Rec := SMap.get s.sieve.recs c none

/-- The state with PLOT_FC_REC holding a record's words. -/
def latchRec (p : Nat) (r : Rec) (s : State) : State :=
  (List.range 16).foldl (fun s w => s.wr (preg p (0x240 + 4 * w)) (recWord r w)) s

/-- The state with a collector's record replaced, with its history entry and latch copy (R455). -/
def setRec (c : Nat) (r : Rec) (s : State) : State :=
  let s := { s with sieve := { s.sieve with recs := SMap.set s.sieve.recs c (some r) none } }
  let s := match r.hist with
    | some i => { s with sieve := { s.sieve with hist := SMap.set s.sieve.hist i.toNat (some r) none } }
    | none => s
  if c < 64 ∧ r.latched then latchRec c r s else s

/-- A record that takes another consequential detection (R467). -/
def addConseq (c : Nat) (s : State) : State :=
  match recOf s c with
  | some r => setRec c { r with conseq := satInc16 r.conseq } s
  | none => s

/-- The plot reaction's TARGET: a raise to a plot reaction sets TARGET to plot (R457). -/
def targetFor (r : BitVec 3) (t : BitVec 2) : BitVec 2 := if r = reReset ∨ r = reQuarantine then 2 else t

/-- Whether a reaction is above EVENT (R460). -/
def aboveEvent (r : BitVec 3) : Bool := decide (2 < severity r)

/-- Whether a queued collector's record runs its reaction before another's: a DEVICE_SAFE of a FATAL code, or a record that
opened before it; in the same cycle, in ascending order with device records last (R460). -/
def opensFirst (s : State) (k c : Nat) : Bool :=
  match recOf s k, recOf s c with
  | some a, some b =>
    (a.worstCls == 3 && a.react == reSafe) || decide (a.tDet.toNat < b.tDet.toNat) || (a.tDet == b.tDet && decide (k ≤ c))
  | _, _ => true

/-- The collectors whose reaction is queued, with one more, in the order in which their records open; a DEVICE_SAFE of a
FATAL code goes first (R460). -/
def enqueue (c : Nat) (first : Bool) (s : State) : State :=
  let q := s.sieve.queue
  if q.contains c then s
  else { s with sieve := { s.sieve with
    queue := if first then c :: q else q.takeWhile (opensFirst s · c) ++ c :: q.dropWhile (opensFirst s · c) } }

/-- A record closes: its entry and its latch copy show it, and its collector is free (R459). -/
def closeRec (c : Nat) (s : State) : State :=
  match recOf s c with
  | none => s
  | some r =>
    let s := setRec c { r with open_ := false, tClose := s.time.now, phase := .done } s
    { s with sieve := { s.sieve with recs := SMap.set s.sieve.recs c none none } }

/-- A reaction that becomes due in the safe state is dropped: it counts in the DEVICE_SAFE record, and its own closes
(R460, R465). -/
def dropReaction (safe c : Nat) (s : State) : State := closeRec c (addConseq safe s)

/-- A raised reaction of a record that the device collector holds is queued, unless it is queued already or will run
after the one that runs; in the safe state it is dropped (R458, R460, R465). -/
def requeue (c : Nat) (fatal : Bool) (s : State) : State :=
  match recOf s c with
  | some r =>
    if aboveEvent r.react ∧ ¬ s.sieve.travel.contains c ∧ (r.phase = .none ∨ r.phase = .done) then
      match s.sieve.safe with
      | some k => if k = c then s else dropReaction k c s
      | none => enqueue c fatal (setRec c { r with phase := .queued } s)
    else if fatal ∧ r.phase = .queued then
      enqueue c true { s with sieve := { s.sieve with queue := s.sieve.queue.filter (· != c) } }
    else s
  | none => s

/-- The codes of memory records, whose B holds a syndrome (R456). -/
def memoryCode (c : Nat) : Bool := decide ((3 ≤ c ∧ c ≤ 8) ∨ (0x20 ≤ c ∧ c ≤ 0x22) ∨ c = 0x48 ∨ c = 0x49)

/-- The codes of what upsets do: errors of memories, tokens, pointers and triplicated words (R451, R468 to R470). -/
def upsetCode (c : Nat) : Bool :=
  memoryCode c || c ∈ [0x01, 0x02, 0x10, 0x11, 0x24, 0x40, 0x41, 0x45, 0x46, 0x53, 0x65]

/-- When a record that opens now reaches the device collector, in ps: a plot's 6 of its PCLK cycles and 8 MCCLK cycles
later, the device's own in the next cycle (R453, R454). PCLK has 0.05 GHz for each step of CUR (R416). -/
def arrivalTime (c : Nat) (s : State) : Nat :=
  1000 * s.time.now.toNat + (if c < 64 then 20000 + 120000 / max 1 (s.fld (breg .clk (0x104 + 8 * c)) 0 6) else 2500)

/-- The collectors whose records travel, with one more, in the order in which the records arrive (R454). -/
def sendRecord (c due : Nat) (s : State) : List Nat :=
  let first (k : Nat) : Bool := match recOf s k with
    | some r => decide (r.due ≤ due)
    | none => true
  s.sieve.travel.takeWhile first ++ c :: s.sieve.travel.dropWhile first

/-- A detection opens a record in its collector (R453, R455). In test mode an upset may be one that factory equipment has
injected, and INJ is free (R470; assumption log 143). The syndrome of a memory's check code is a free value,
since the spec does not give that code (assumption log 14). -/
def openRecord (d : Detection) (c : Nat) (s : State) : State :=
  let code := d.code.toNat
  let fr := s.draw
  let free := memoryCode code ∧ ¬ d.inj ∧ d.b = 0
  let s := if free then fr.2 else s
  let cls := codeClass code
  let react := reactOf s code
  let no := s.sieve.recno + 1
  let vld := c < 64 ∧ s.flag (preg c 0x200) 31
  let r : Rec :=
    { open_ := true, cls := cls, target := codeTarget code, react := react, esc := false,
      inj := d.inj || (s.testMode && upsetCode code && Config.injected no s.time.now),
      state := s.opState.code, code := d.code, recno := no,
      phys := match d.phys with
        | some e => BitVec.ofNat 11 e.val
        | none => 0x7FF,
      locus := d.locus, merge := 0, conseq := 0, b := if free then (bits fr.1 0 8).setWidth 16 else d.b,
      worst := d.code, worstCls := cls, last := 0, a := d.a,
      c := d.c, tDet := s.time.now, tClose := 0, tplot := if codeTarget code = 0 then none else d.plot, hist := none
      phase := .none, tDone := none, latched := c < 64 ∧ ¬ vld, due := arrivalTime c s }
  let s := { s with sieve := { s.sieve with recno := no, travel := sendRecord c r.due s } }
  let s := s.satInc (breg .sieve (0x10 + 4 * cls.toNat)) 0 32
  let s := if c < 64 then
      if vld then (s.setFlag (preg c 0x200) 30 true).satInc (preg c 0x200) 0 16
      else s.setFlag (preg c 0x200) 31 true
    else s
  setRec c r s

/-- The reaction a merged detection raises a record to, if it raises it (R457). -/
def mergedReact (r : Rec) (d : Detection) (react : BitVec 3) : Option (BitVec 3) :=
  if r.target = 2 ∧ react = reRetire then
    if r.react = reQuarantine ∨ r.react = reSafe then none else some reQuarantine
  else if r.target = 1 ∧ react = reRetire ∧ d.phys.map (fun e => BitVec.ofNat 11 e.val) ≠ some r.phys then
    if severity r.react < severity reQuarantine then some reQuarantine else none
  else if severity r.react < severity react then some react
  else none

/-- A detection merges into the open record of its collector (R457). -/
def mergeRecord (d : Detection) (c : Nat) (r : Rec) (s : State) : State :=
  let code := d.code.toNat
  let cls := codeClass code
  let worse := decide (r.worstCls.toNat < cls.toNat)
  let r' := { r with
    merge := satInc16 r.merge
    last := d.code
    worst := if worse then d.code else r.worst
    worstCls := if worse then cls else r.worstCls }
  match mergedReact r d (reactOf s code) with
  | none => setRec c r' s
  | some x =>
    let r'' := { r' with react := x, esc := true, target := targetFor x r.target,
                         tplot := if r.tplot.isSome then r.tplot else if codeTarget code = 0 then none else d.plot }
    requeue c (cls = 3) (raiseEvent 1936 (setRec c r'' s))

/-- OUT_SLOT of a plot (R15). -/
def outSlot (s : State) (p : Nat) : Nat := s.fld (preg p 0) 21 5

/-- The logical number a physical engine serves (R14 to R16); none for the out-of-service slot. -/
def logicalOf (s : State) (e : Nat) : Option (BitVec 10) :=
  let p := e / 17
  let sl := e % 17
  if sl = outSlot s p then none
  else if sl = 16 then some (BitVec.ofNat 10 (16 * p + outSlot s p))
  else some (BitVec.ofNat 10 (16 * p + sl))

/-- Channel codes: request 0, response 1, control 2. -/
def chReq : Nat := 0
def chRsp : Nat := 1
def chCtl : Nat := 2
/-- Overflow-out 3, overflow-return 4, register request 5, register reply 6 (R276). -/
def chOvfOut : Nat := 3
def chOvfRet : Nat := 4
def chRegReq : Nat := 5
def chRegRsp : Nat := 6

/-- The channel of a token or of a sheaf's head (R29). -/
def chanOf (f : Flit) : Nat :=
  if f.kind = kOperand then (if f.pri = 3 then chCtl else chReq)
  else if f.kind = kGrnReply ∨ f.kind = kGrnAck ∨ f.kind = kSheafRsp then chRsp
  else if f.kind = kBlock ∨ f.kind = kDispatch then chCtl
  else chReq

/-- The channel of the token that a detection is about, by its header in B (R456). -/
def recordChan (d : Detection) : BitVec 3 := BitVec.ofNat 3 (chanOf (d.b ++ (0 : BitVec 144)))

/-- Whether a mask covers a detection at the reader of a channel; an engine's covers those of the slot that serves its
logical number, and a plot boundary's of tokens for it (R467). -/
def Mask.covers (s : State) (m : Mask) (chan : BitVec 3) (d : Detection) : Bool :=
  let code := d.code.toNat
  match m with
  | .engine p eng _ =>
    d.plot == some p && decide (code < 0x40) &&
      (code == 0x24 || (decide (code = 0x10 ∨ code = 0x11) && tagEng d.a == eng) || (decide (0x09 ≤ code ∧ code ≤ 0x14) &&
        (match d.phys with
         | some e => logicalOf s e.val == some eng
         | none => false)))
  | .plot p =>
    (decide (code < 0x40) && d.plot == some p && !decide (0x25 ≤ code ∧ code ≤ 0x27)) ||
      (code == 0x43 && d.plot == some p) ||
      (code == 0x45 && (bits d.locus 0 8 == BitVec.ofNat 8 p.val || bits d.locus 0 8 == BitVec.ofNat 8 (0x80 + p.val))) ||
      (code == 0x47 && d.plot == some p) || code == 0x4F
  | .device => true
  | .queue site ch => ch == chan &&
    ((decide (code = 0x11 ∨ code = 0x12) &&
        (match d.plot with
         | some p => BitVec.ofNat 8 p.val == site || BitVec.ofNat 8 (0x80 + p.val) == site
         | none => false)) ||
      (decide (code = 0x41 ∨ code = 0x42) && bits d.locus 0 8 == site))

/-- The mask in force that covers a detection, if one does. -/
def maskFor (chan : BitVec 3) (d : Detection) (s : State) : Option MaskWin :=
  s.sieve.masks.find? (fun m => m.mask.covers s chan d && (match m.ends with
    | none => true
    | some t => decide (s.time.now.toNat < t.toNat)))

/-- The collector of a code: its plot's, or the device collector; LCK_STUCK takes one of its own in the safe state and once
a DEVICE_SAFE has started (R467). -/
def collectorOf (d : Detection) (s : State) : Nat :=
  if d.code.toNat < 0x40 then
    match d.plot with
    | some p => p.val
    | none => 64
  else if d.code = 0x4E ∧ (s.sieve.safe.isSome ∨ (s.sieve.running.isSome ∧ s.sieve.runReact = reSafe)) then 65
  else 64

/-- Whether a plot's quarantine is complete, so that TOKEN_ABSENT is only counted; a detection within the window of its
PLOT_QUARANTINE reaction is masked before (R467). -/
def quarantineComplete (p : Option PlotNo) (s : State) : Bool :=
  match p with
  | some p => (s.plot p.val).absent
  | none => false

/-- A detection, at the reader of a channel, reaches its collector: it is counted as consequential, merges into the open
record, or opens one (R453, R457, R467). -/
def detectAt (chan : BitVec 3) (d : Detection) (s : State) : State :=
  if d.code ≠ 0x4E ∧ s.sieve.safe.isSome then
    match s.sieve.safe with
    | some c => addConseq c s
    | none => s
  else
    match (if d.code = 0x4E then none else maskFor chan d s) with
    | some m => addConseq m.col s
    | none =>
      if d.code = 0x43 ∧ quarantineComplete d.plot s then s.satInc (breg .sieve 0x2C) 0 32
      else
        let c := collectorOf d s
        match recOf s c with
        | some r => if r.open_ then mergeRecord d c r s else openRecord d c s
        | none => openRecord d c s

/-- A detection reaches its collector; one about a token is at the reader of that token's channel. -/
def detect (d : Detection) (s : State) : State := detectAt (recordChan d) d s

/-- A field of SIEVE_CTL in ns: HOLD (8) or TAIL (0) (R471). -/
def sieveTime (s : State) (lo : Nat) : Nat := 1000 * s.fld (breg .sieve 0) lo 8

/-- A mask comes into force, with its end if the action is over (R467); windows that have ended are dropped. -/
def addMask (m : Mask) (col : Nat) (ends : Option (BitVec 64)) (s : State) : State :=
  let live (w : MaskWin) : Bool := match w.ends with
    | none => true
    | some t => decide (s.time.now.toNat < t.toNat)
  { s with sieve := { s.sieve with masks := s.sieve.masks.filter live ++ [{ mask := m, col := col, ends := ends }] } }

/-- The mask of a record's reaction ends TAIL after it (R467). -/
def endMask (col : Nat) (s : State) : State :=
  let t := s.time.now + BitVec.ofNat 64 (sieveTime s 0)
  { s with sieve := { s.sieve with masks := s.sieve.masks.map (fun w => if w.col = col ∧ w.ends.isNone then { w with ends := some t } else w) } }

/-- A detection with no operands of its own. -/
def Detection.bare (code : BitVec 8) : Detection :=
  { code := code, plot := none, phys := none, locus := 0, a := 0, b := 0, c := 0, inj := false }

/-- The plot of a physical engine. -/
def plotOf (e : EngNo) : PlotNo := ⟨e.val / 17, by omega⟩

/-- A detection about a token, in an engine's plot (R456): tag, header and data word. -/
def tokenDetect (code : BitVec 8) (e : EngNo) (f : Flit) (locus : BitVec 16) : Detection :=
  { code := code, plot := some (plotOf e), phys := some e, locus := locus, a := f.tag, b := f.hdr, c := f.data,
    inj := false }

/-- A detection about a token at a block, link or router (R456): LOCUS is the site. -/
def blockDetect (code : BitVec 8) (site : BitVec 8) (f : Flit) : Detection :=
  { Detection.bare code with locus := site.setWidth 16, a := f.tag, b := f.hdr, c := f.data }

/-- A memory detection in an engine's plot: byte address in its memory, and the data as read. The rules that raise it name
more, R85 the KIND, PRI, SEQ and tag of the token at HASH and R215 the node, its word and the micro-PC of a routine; the
record has the memory layout of R456, which has no place for them: DESIGN CHOICE (R85, R215, R456; assumption log 133). -/
def memDetect (code : BitVec 8) (e : EngNo) (off : Nat) (data : Word) : Detection :=
  { code := code, plot := some (plotOf e), phys := some e, locus := 0, a := BitVec.ofNat 64 off, b := 0, c := data,
    inj := false }

end Sys2Proof.Machine
end

