-- ==== Sys2Proof/Machine/Ops.lean ====
section
/-! DEFINITION. The shared operations: the slot map, contexts, the checks an emitted token meets, result registers,
the local memories and the notice link. -/

namespace Sys2Proof.Machine

/-! ## Identity, slots and epochs -/

/-- The device's own ID (R37). -/
def ownId (s : State) : BitVec 12 := bits (s.rd (breg .run 0)) 0 12

/-- The time base as a number (R26). -/
def now (s : State) : Nat := s.time.now.toNat

/-- DEV_BOOT. -/
def bootReg : Nat := breg .dev 0x1C
/-- DEV_BOOT.STEP. -/
def bootStep (s : State) : Nat := s.fld bootReg 28 4
/-- DEV_BOOT.FAIL. -/
def bootFail (s : State) : Nat := s.fld bootReg 16 8
/-- Whether the endpoint serves a request: power is on, the boot sequence has reached WAIT_IMAGE or failed, and the function
is in D0 (R385, R403, R476). -/
def hostReady (s : State) : Bool :=
  s.opState != .off && !s.host.d3 && (decide (4 ≤ bootStep s) || bootFail s != 0)

/-- A request is completed as an Unsupported Request and counted (R387). -/
def countUr (s : State) : State := if s.opState = .off then s else s.satInc (breg .host 8) 16 16

/-- Whether a command is a request of the host that the endpoint does not serve. -/
def unserved (req : Requester) (s : State) : Bool := req == .host && !hostReady s

/-- The requesters that write no register of a block but RUN: the SMBus port, and the relay of MGMT requests (R374, R485).
-/
def outsider (req : Requester) : Bool := req == .smbus || req == .relay

/-- The boundary-scan instructions that control the lands (R488). -/
def ScanInstr.drives : ScanInstr → Bool
  | .extest => true
  | .highz => true
  | .clamp => true
  | .extestPulse => true
  | .extestTrain => true
  | .sample => false
  | .idcode => false
  | .bypass => false

/-- Whether an instruction may take control of the lands: in BOOT at WAIT_IMAGE, or held in a failed step (R488). -/
def scanAllowed (s : State) : Bool :=
  s.opState == .boot && (bootStep s == 4 || (decide (bootStep s < 4) && bootFail s != 0))

/-- Whether an instruction is in force that controls the lands (R488). -/
def scanDrives (s : State) : Bool := s.tap.instr.drives && scanAllowed s

/-- The physical engine that serves a logical number (R14 to R16); none when its plot is quarantined. -/
def slotOf (s : State) (eng : BitVec 10) : Option Nat :=
  let p := eng.toNat / 16
  let i := eng.toNat % 16
  if (s.plot p).absent then none
  else if s.flag (preg p 0) 31 ∧ outSlot s p = i then some (17 * p + 16)
  else some (17 * p + i)

/-- The logical number of an engine in service, and zero elsewhere. -/
def logicalD (s : State) (e : Nat) : BitVec 10 := (logicalOf s e).getD 0

/-- Whether a logical engine's retirement runs, so that the crossbar and the agent hold its flits back and its slot is held
in reset (R462). -/
def retiring (s : State) (eng : BitVec 10) : Bool :=
  s.sieve.masks.any (fun w => w.ends.isNone && match w.mask with
    | .engine _ k _ => k == eng
    | _ => false)

/-- Whether an engine is in service: it serves a logical number, its plot is powered, not quarantined and not in
reset, and its retirement does not run. -/
def inService (s : State) (e : Nat) : Bool :=
  let p := s.plot (e / 17)
  (logicalOf s e).isSome && !retiring s (logicalD s e) && !p.absent && p.powered && p.resetting.isNone && s.opState != .off

/-- UPK_EPOCH_STAT.CUR, the device's current epoch (R33). -/
def curEpoch (s : State) : Bool := s.flag (breg .upk 0x64) 0

/-- Whether an epoch advance is in progress (R446). -/
def epochBusy (s : State) : Bool := s.flag (breg .upk 0x64) 31

/-- An item executes late: UPK_EPOCH_LATE counts it and EV_1932 is raised (R447). -/
def lateItem (s : State) : State := raiseEvent 1932 (s.satInc (breg .upk 0x68) 0 32)

/-- The mode set an item of an epoch executes under, and the state with a late item counted (R447). -/
def modeSet (s : State) (ep : Bool) : Bool × State :=
  if epochBusy s ∨ ep = curEpoch s then (ep, s) else (curEpoch s, lateItem s)

/-- Whether a mode set opens the page of a node slot in a plot, by the plot's copy of its mask (R445, R447). -/
def pageOpen (s : State) (set : Bool) (p : Nat) (node : BitVec 12) : Bool :=
  bit (if set then (s.plot p).pages1 else (s.plot p).pages0) (node.toNat / 64)

/-- A plot takes its page mask of a mode set from its register (R446). -/
def copyPages (p : Nat) (set : Bool) (s : State) : State :=
  let v := s.rd64 (breg .upk (0x1000 + 0x200 * set.toNat + 8 * p))
  s.modPlot p (fun x => if set then { x with pages1 := v } else { x with pages0 := v })

/-- The notice link: the plot sends an engine notice (R307). -/
def notify (p : Nat) (n : Notice) (s : State) : State :=
  s.modPlot p (fun x => { x with notices := x.notices ++ [n] })

/-- Traffic ends the device's quiescence (R244). -/
def stirDevice (s : State) : State := s.setFlag (breg .mesh 0x4008) 16 false

/-- Activity in a plot ends its quiescence and the device's (R243, R244). -/
def stir (p : Nat) (s : State) : State :=
  stirDevice (s.setFlag (preg p 0x118) 0 false)

/-! ## Contexts (R38, R72, R103) -/

/-- Status of a context: 0 free, 1 allocated, 2 awaiting return. Context 0x0000 is always allocated. -/
def ctxStatus (s : State) (p : Nat) (c : BitVec 16) : BitVec 2 :=
  if c = 0 then 1 else if c = 0xFFFF then 0 else SMap.get (s.plot p).ctxs c.toNat 0

/-- Whether intake accepts a context's tokens (R52, R72). -/
def ctxAllocated (s : State) (p : Nat) (c : BitVec 16) : Bool := ctxStatus s p c == 1

/-- The lowest free number at or above `c` in a list of the plot's numbers in rising order. -/
def lowestFree : SMap (BitVec 2) → Nat → Nat
  | [], c => c
  | (i, _) :: m, c => if i = c then lowestFree m (c + 1) else if i < c then lowestFree m c else c

/-- The lowest-numbered free context of a plot (R38). -/
def freeCtx (s : State) (p : Nat) : Option (BitVec 16) :=
  let c := lowestFree (s.plot p).ctxs 1
  if c < 0xFFFF then some (BitVec.ofNat 16 c) else none

/-- The state with a context's status changed. -/
def setCtx (p : Nat) (c : BitVec 16) (v : BitVec 2) (s : State) : State :=
  s.modPlot p (fun x => { x with ctxs := SMap.set x.ctxs c.toNat v 0 })

/-! ## The set index (R58, R59) -/

/-- A 10-bit value rotated left by 5. -/
def rot5 (v : BitVec 10) : BitVec 10 := bits v 0 5 ++ bits v 5 5

/-- The set index of a token (R58), or under profile 0x0100 that of R59. -/
def setIndex (q : Profile) (salt : BitVec 10) (node : BitVec 12) (ctx : BitVec 16) (iter : BitVec 12) : BitVec 10 :=
  match q with
  | .p0100 => bits node 0 10 ^^^ bits iter 0 10 ^^^ bits ctx 0 10
  | _ => bits node 0 10 ^^^ rot5 (bits iter 0 10) ^^^ bits ctx 0 10 ^^^
      (bits ctx 10 6 ++ bits node 10 2 ++ bits iter 10 2) ^^^ salt

/-- The set of a key in an engine. -/
def setOf (s : State) (e : Nat) (node : BitVec 12) (ctx : BitVec 16) (iter : BitVec 12) : BitVec 10 :=
  setIndex s.profile (bits (s.rd (ereg e 0x14)) 0 10) node ctx iter

/-! ## Emitted tokens (R30, R51) -/

/-- The priority a token is emitted with (R30). -/
def emitPri (kind : BitVec 4) (pri : BitVec 2) : BitVec 2 :=
  if kind = kBlock ∨ kind = kDispatch then 3
  else if (kind = kGrnRead ∨ kind = kGrnWrite ∨ kind = kBlkRead ∨ kind = kSheafReq) ∧ pri = 3 then 2
  else pri

/-- Whether DEV breaks R37 for a token that leaves this device. -/
def badDev (s : State) (kind : BitVec 4) (dev : BitVec 12) : Bool :=
  if kind = kGrnRead ∨ kind = kGrnWrite ∨ kind = kBlkRead ∨ kind = kDispatch then dev != ownId s
  else if ownId s = 0xFFF then dev != 0xFFF
  else dev == 0xFFF

/-- Whether a read descriptor breaks R43 or R286 for its kind. -/
def badReadDesc (kind : BitVec 4) (d : Word) : Bool :=
  bits d 31 33 != 0 || bit d 23 ||
    (if kind = kGrnRead then decide (3 < (rdOp d).toNat) || rdLen d != 0 else rdOp d != 0 || bit d 0)

/-- Whether an address tag breaks R42 or R287 for its kind. -/
def badAddrTag (kind : BitVec 4) (t : BitVec 64) : Bool :=
  let sp := (tagSpace t).toNat
  if kind = kGrnWrite then sp != 0 || tagMask t == 0 || decide (2 < (tagOp t).toNat)
  else if kind = kSheafReq then
    decide (2 < sp) || tagMask t != 0 || bit t 19 ||
      (if sp = 0 then decide (1 < (tagOp t).toNat) || tagEng t != 0 else tagOp t != 0)
  else decide (sp = 0 ∨ 3 < sp) || tagMask t != 0 || bit t 19 || tagOp t != 0

/-- Whether a block tag breaks R44: a reserved BLK or lock UNIT is found at EMIT, with the checks of R51 (assumption log
118). -/
def badBlockTag (t : BitVec 64) : Bool :=
  !(tagBlk t == 1 || tagBlk t == 2 || tagBlk t == 0xA) || tagCtx t == 0xFFFF ||
    (tagBlk t == 2 && bits t 40 2 != 0)

/-- The EMIT check of R51: whether the token may not be emitted. -/
def malformed (s : State) (k : Proto) : Bool :=
  badDev s k.kind (tagDev k.tag) ||
    (if k.kind = kOperand then tagPort k.tag == 3 || tagCtx k.tag == 0xFFFF
     else if k.kind = kGrnRead then tagPort k.tag == 3 || tagCtx k.tag == 0xFFFF || badReadDesc k.kind k.data
     else if k.kind = kGrnWrite ∨ k.kind = kSheafReq then badAddrTag k.kind k.tag
     else if k.kind = kBlkRead then badAddrTag k.kind k.tag || badReadDesc k.kind k.data
     else if k.kind = kBlock then badBlockTag k.tag
     else true)

/-- The flits of a token, stamped by R30, R33 and R35. -/
def protoFlits (k : Proto) (epoch : Bool) (seq : BitVec 4) : List Flit :=
  let pri := emitPri k.kind k.pri
  match k.payloads with
  | [] => [mkToken k.kind pri epoch seq k.tag k.data]
  | ps => mkSheaf k.kind pri epoch seq k.tag k.data (ps.map (fun p => (p, false)))

/-- A single-flit token to be formed at EMIT. -/
def proto1 (kind : BitVec 4) (pri : BitVec 2) (tag : BitVec 64) (data : Word) : Proto :=
  { kind := kind, pri := pri, tag := tag, data := data, payloads := [] }

/-- A result joins EXEC's result registers (R76). -/
def addResult (r : Result) (x : Engine) : Engine := { x with results := x.results ++ [r] }

/-- Flags to raise in their place: by completion cycle, and within one by issue (R186). -/
def insertRaise (k : Raise) : List Raise → List Raise
  | [] => [k]
  | m :: ms => if k.due < m.due ∨ (k.due = m.due ∧ k.issued < m.issued) then k :: m :: ms else m :: insertRaise k ms

/-- An operation that raises flags will raise them in its completion cycle (R185). -/
def willRaise (k : Raise) (x : Engine) : Engine := if k.flags = 0 then x else { x with raises := insertRaise k x.raises }

/-! ## The local memories (R298) -/

/-- The protected words that `n` bytes from an address touch. -/
def wordsOf (a n : Nat) : List Nat :=
  if n = 0 then [] else (List.range ((a + n - 1) / 8 - a / 8 + 1)).map (fun i => (a / 8 + i) * 8)

/-- The frame store or the instruction memory of an engine. -/
inductive LocalMem where
  | frame | imem
  deriving DecidableEq, Repr

/-- Base address of a local memory. -/
def LocalMem.base : LocalMem → Nat → Nat
  | .frame, e => frameBase e
  | .imem, e => imemBase e

/-- The CE code of a local memory; its UC code is the next (R451). -/
def LocalMem.ce : LocalMem → BitVec 8
  | .frame => 0x05
  | .imem => 0x03

/-- The check of the words a read touches: single-bit errors are corrected, recorded and written back, and the
answer says whether a word is uncorrectable, which is recorded too. -/
def localCheck (m : LocalMem) (e : EngNo) : List Nat → State → Bool × State
  | [], s => (false, s)
  | w :: ws, s =>
    match s.mark w with
    | .clean => localCheck m e ws s
    | .single =>
      localCheck m e ws ((detect (memDetect m.ce e (w - m.base e) (s.load w 8)) s).setMark w .clean)
    | .double =>
      let r := localCheck m e ws (detect (memDetect (m.ce + 1) e (w - m.base e) (s.load w 8)) s)
      (true, r.2)

/-- A read of `n` bytes of a local memory: the value, or none for an uncorrectable word. -/
def localLoad (m : LocalMem) (e : EngNo) (off n : Nat) (s : State) : Option Word × State :=
  let a := m.base e + off
  let r := localCheck m e (wordsOf a n) s
  (if r.1 then none else some (r.2.load a n), r.2)

/-- The target of a write of FLAGS.LRV (R131, R143). -/
def tLrv : BitVec 5 := 19

/-- A reservation breaks, and FLAGS.LRV clears: a write that was to set it sets nothing (R144). -/
def dropResv (e : Nat) (s : State) : State :=
  s.modEng e (fun x => { x with
    resv := none
    strand := x.strand.map (fun t => { t with
      ctx := { t.ctx with flags := putBit t.ctx.flags 13 false }
      writes := t.writes.map (fun w => if w.target = tLrv then { w with value := 0 } else w) }) })

/-- A write breaks a reservation on a granule it touches (R144). -/
def breakResv (e off n : Nat) (s : State) : State :=
  match (s.eng e).resv with
  | some g => if off / 64 ≤ g.toNat ∧ g.toNat ≤ (off + n - 1) / 64 then dropResv e s else s
  | none => s

/-- A write of `n` bytes to a local memory: a part of an uncorrectable word is not written and is recorded, a whole
aligned word heals (R298). -/
def localStore (m : LocalMem) (e : EngNo) (off n : Nat) (v : Word) (s : State) : State :=
  let a := m.base e + off
  let ws := wordsOf a n
  let whole := n = 8 ∧ a % 8 = 0
  let s := if m = .frame then breakResv e off n s else s
  if ¬ whole ∧ ws.any (fun w => s.mark w == .double) then
    match ws.find? (fun w => s.mark w == .double) with
    | some w => detect (memDetect (m.ce + 1) e (w - m.base e) (s.load w 8)) s
    | none => s
  else
    let see (s : State) (w : Nat) : State :=
      if ¬ whole ∧ s.mark w = .single then detect (memDetect m.ce e (w - m.base e) (s.load w 8)) s else s
    let s := ws.foldl (fun s w => (see s w).setMark w .clean) s
    s.store a n v

/-- Bytes of a strand load, extended to a word (R126). -/
def extend (signed : Bool) (n : Nat) (v : Word) : Word :=
  if signed then
    match n with
    | 1 => (bits v 0 8).signExtend 64
    | 2 => (bits v 0 16).signExtend 64
    | 4 => (bits v 0 32).signExtend 64
    | _ => v
  else
    match n with
    | 1 => (bits v 0 8).setWidth 64
    | 2 => (bits v 0 16).setWidth 64
    | 4 => (bits v 0 32).setWidth 64
    | _ => v

/-! ## FPX (R185 to R188) -/

/-- An operation raises flags: sticky bits, PEND for an enabled IEEE flag, and the first captured operation
(R185 to R187). -/
def raiseFpx (e : EngNo) (o : Origin) (fl : BitVec 6) (pend : Bool) (s : State) : State :=
  if fl = 0 then s
  else
    let fpx := s.rd (ereg e 0x80)
    let en := bits fpx 8 5
    let v := fpx ||| fl.setWidth 32
    let v := if pend ∧ (bits fl 0 5 &&& en) ≠ 0 then putBit v 30 true else v
    let s := s.wr (ereg e 0x80) v
    let cap := bits fpx 16 6
    if s.flag (ereg e 0x84) 31 ∨ (fl &&& cap) = 0 then s
    else
      match o with
      | .node node ctx iter _ =>
        ((s.wr (ereg e 0x84) ((2 : BitVec 2) ++ BitVec.ofNat 11 e.val ++ (0 : BitVec 7) ++ node)).wr (ereg e 0x88)
            (ctx ++ (0 : BitVec 16))).wr (ereg e 0x8C) ((0 : BitVec 2) ++ fl ++ (0 : BitVec 12) ++ iter)
      | .strand pc desc =>
        ((s.wr (ereg e 0x84) ((3 : BitVec 2) ++ BitVec.ofNat 11 e.val ++ (0 : BitVec 4) ++ pc)).wr (ereg e 0x88)
            ((0 : BitVec 18) ++ desc)).wr (ereg e 0x8C) ((0 : BitVec 2) ++ fl ++ (0 : BitVec 24))
      | .buffer => s

/-- A delivery at a node FENCE or CTX_FREE (R188): PEND clears, ENG_FPDLV is written and the engine event raised. -/
def deliverFpx (e : EngNo) (ctxFree : Bool) (node : BitVec 12) (ctx : BitVec 16) (s : State) : State :=
  if s.flag (ereg e 0x80) 30 then
    let more := s.flag (ereg e 0x94) 31
    let s := s.setFlag (ereg e 0x80) 30 false
    let s := s.wr (ereg e 0x94) ((1 : BitVec 1) ++ BitVec.ofBool (more || s.flag (ereg e 0x94) 30) ++
      BitVec.ofBool ctxFree ++ (0 : BitVec 1) ++ node ++ ctx)
    raiseEngine e s
  else s

end Sys2Proof.Machine
end

