-- ==== Sys2Proof/Machine/Operands.lean ====
section
/-! DEFINITION. The operand forms: node words, shapes and destinations (R86 to R98), strand instruction fields (R119),
microword fields (R196) and matching-store entries (R60). -/

namespace Sys2Proof.Machine

/-! ## Node words -/

/-- OPC. -/
def nwOpc (w : Word) : BitVec 8 := bits w 56 8
/-- FMT. -/
def nwFmt (w : Word) : BitVec 3 := bits w 53 3
/-- CONST. -/
def nwConst (w : Word) : Bool := bit w 52
/-- STICKY. -/
def nwSticky (w : Word) : Bool := bit w 51
/-- TRIG. -/
def nwTrig (w : Word) : Bool := bit w 50
/-- PRI requested for the results. -/
def nwPri (w : Word) : BitVec 2 := bits w 48 2
/-- D1. -/
def nwD1 (w : Word) : BitVec 24 := bits w 24 24
/-- D2. -/
def nwD2 (w : Word) : BitVec 24 := bits w 0 24

/-- Operand shapes (R88). -/
inductive Shape where
  | l | lr | lra | m
  deriving DecidableEq, Repr

/-- The opcodes of shape L. -/
def opcsL : List Nat :=
  [0x03, 0x0B, 0x13, 0x1A, 0x1B, 0x35, 0x3B, 0x3C, 0x3D, 0x3E, 0x45, 0x4B, 0x4C, 0x4D, 0x4E, 0x53, 0x54, 0x60, 0x61,
   0x62, 0x63, 0x64, 0x65, 0x66, 0x7C]

/-- The vendor opcodes that the tables of R98 list. -/
def opcListed (c : Nat) : Bool :=
  decide ((1 ≤ c ∧ c ≤ 0x1C) ∨ (0x20 ≤ c ∧ c ≤ 0x25) ∨ (0x30 ≤ c ∧ c ≤ 0x3E) ∨ (0x40 ≤ c ∧ c ≤ 0x4E) ∨
    (0x50 ≤ c ∧ c ≤ 0x54) ∨ (0x60 ≤ c ∧ c ≤ 0x68) ∨ (0x70 ≤ c ∧ c ≤ 0x72) ∨ (0x74 ≤ c ∧ c ≤ 0x76) ∨ c = 0x78 ∨
    c = 0x79 ∨ c = 0x7C)

/-- The shape of a vendor opcode under a profile (R97, R98); none when it is undefined. -/
def vendorShape (q : Profile) (c : Nat) : Option Shape :=
  if q = .p0100 ∧ (c = 0x1C ∨ c = 0x72 ∨ c = 0x68) then none
  else if opcListed c then
    if c ∈ opcsL then some .l
    else if c = 0x33 ∨ c = 0x43 then some .lra
    else if c = 0x52 then some .m
    else some .lr
  else none

/-- The latched customer entry of an opcode 0xE0 + k (R208). -/
def uentry (s : State) (e k : Nat) : Reg32 := s.rd (ereg e (0x240 + 4 * k))

/-- The shape of a node opcode in an engine (R98, R112, R209). -/
def nodeShape (s : State) (e : Nat) (c : Nat) : Option Shape :=
  if 0xE0 ≤ c ∧ c ≤ 0xEF then
    let u := uentry s e (c - 0xE0)
    if bit u 31 ∧ bit u 30 then some (if bit u 28 then .lr else .l) else none
  else vendorShape s.profile c

/-- The null destination (R89). -/
def destNull : BitVec 24 := 0x000003

/-- Whether the first destination is a block destination under a format (R89). -/
def fmtBlock (w : Word) : Bool := nwFmt w == 4 || nwFmt w == 5

/-- The functions of the blocks and the UNIT ranges they name (R314, R327, R338): whether the triple is reserved. -/
def badFunction (blk : BitVec 4) (fn : BitVec 6) (unit : BitVec 14) : Bool :=
  let f := fn.toNat
  let u := unit.toNat
  match blk.toNat with
  | 1 => if (1 ≤ f ∧ f ≤ 8) ∨ f = 0x10 then false
         else if f = 0x11 then decide (64 ≤ u)
         else if f = 0x18 then decide (16 ≤ u)
         else true
  | 2 => !(decide ((1 ≤ f ∧ f ≤ 5) ∨ f = 8)) || decide (4096 ≤ u)
  | 10 => if 1 ≤ f ∧ f ≤ 3 then decide (32 ≤ u)
          else if 8 ≤ f ∧ f ≤ 10 then decide (u < 0x100 ∨ 0x1FF < u)
          else if f = 0x10 then u != 0
          else if f = 0x11 then decide (u < 0x200 ∨ 0x23F < u)
          else true
  | _ => true

/-- Whether a destination holds a reserved value (R89, R90). -/
def badDest (block : Bool) (d : BitVec 24) : Bool :=
  if d = destNull then false
  else if block then badFunction (bits d 20 4) (bits d 14 6) (bits d 0 14)
  else bits d 0 2 == 3

/-- The logical engine an engine destination names from an engine (R89). -/
def destEng (rel : Bool) (own : BitVec 10) (d : BitVec 24) : BitVec 10 :=
  if rel then own + bits d 14 10 else bits d 14 10

/-- Whether D1 is relative under the format. -/
def relD1 (w : Word) : Bool := nwFmt w == 1 || nwFmt w == 3
/-- Whether D2 is relative under the format. -/
def relD2 (w : Word) : Bool := nwFmt w == 2 || nwFmt w == 3 || nwFmt w == 5

/-- The device a destination names (R91). -/
def destDev (s : State) (w comp : Word) (second : Bool) : BitVec 12 :=
  if nwFmt w = 6 then (if second then bits comp 40 12 else bits comp 52 12) else ownId s

/-- Whether a node word breaks what its opcode asks of its destinations (R95 cause 0x6; R103, R106, R108). -/
def badNeeds (s : State) (own : BitVec 10) (w comp : Word) : Bool :=
  let c := (nwOpc w).toNat
  let d1 := nwD1 w
  let d2 := nwD2 w
  if c = 0x60 then
    fmtBlock w && d1 != destNull ||
      (d1 != destNull && (destDev s w comp false != ownId s ||
        (destEng (relD1 w) own d1).toNat / 16 != own.toNat / 16))
  else if c = 0x67 then d1 != destNull || d2 != destNull
  else if 0x70 ≤ c ∧ c ≤ 0x72 then
    fmtBlock w || d1 == destNull || destDev s w comp false != ownId s || d2 != destNull
  else false

/-- The cause code with which a node word is ILLEGAL (R95), if it is. -/
def illegalCause (s : State) (e : Nat) (w comp : Word) : Option (BitVec 4) :=
  match nodeShape s e (nwOpc w).toNat with
  | none => some 1
  | some sh =>
    let f6 := nwFmt w = 6
    if nwFmt w = 7 ∨ (f6 ∧ s.profile = .p0100) then some 2
    else if nwConst w ∧ nwSticky w then some 3
    else if ((nwConst w ∨ nwSticky w) ∧ (sh = .l ∨ sh = .m)) ∨ (nwTrig w ∧ sh = .m) then some 3
    else if nwConst w ∧ (sh = .lra ∨ f6) then some 3
    else if sh = .lra ∧ f6 then some 3
    else if badDest (fmtBlock w) (nwD1 w) ∨ badDest false (nwD2 w) then some 4
    else if f6 ∧ bits comp 0 40 ≠ 0 then some 5
    else if badNeeds s (logicalD s e) w comp then some 6
    else none

/-- Whether the node uses its companion slot (R86). -/
def usesComp (w : Word) : Bool := nwConst w || nwFmt w == 6 || nwOpc w == 0x33 || nwOpc w == 0x43

/-- The ports a node's word uses (R41, R88). -/
def usesPort (sh : Shape) (w : Word) (port : BitVec 2) : Bool :=
  match port.toNat with
  | 0 => true
  | 1 => sh != .l && !nwConst w
  | 2 => nwTrig w
  | _ => false

/-- The matching ports of a node (R57): left, right, trigger as bits 2, 1, 0 (the order of PORTS in R60). -/
def matchPorts (sh : Shape) (w : Word) : BitVec 3 :=
  BitVec.ofBool true ++ BitVec.ofBool (sh != .l && !nwConst w && !nwSticky w) ++ BitVec.ofBool (nwTrig w)

/-- The bit of PORTS for a port. -/
def portBit (port : BitVec 2) : BitVec 3 := if port = 0 then 4 else if port = 1 then 2 else 1

/-- Whether a node is a bypass node (R57, R88). -/
def isBypass (sh : Shape) (w : Word) : Bool :=
  sh == .m || (!nwTrig w && !nwSticky w && (sh == .l || nwConst w))

/-! ## Destinations to tokens (R90 to R92) -/

/-- The token a result sends to a destination: none for the null destination. -/
def destProto (s : State) (e : Nat) (w comp : Word) (second : Bool) (ctx : BitVec 16) (iter : BitVec 12)
    (v : Word) : List Proto :=
  let d := if second then nwD2 w else nwD1 w
  if d = destNull then []
  else if !second && fmtBlock w then
    [proto1 kBlock 3 (blockTag (ownId s) (bits d 20 4) (bits d 14 6) (bits d 0 14) ctx iter) v]
  else
    let rel := if second then relD2 w else relD1 w
    [proto1 kOperand (nwPri w)
      (operandTag (destDev s w comp second) (destEng rel (logicalD s e) d) (bits d 2 12) (bits d 0 2) ctx iter) v]

/-- The tokens a result sends to D1 and then D2. -/
def bothDests (s : State) (e : Nat) (f : Fire) (v : Word) : List Proto :=
  destProto s e f.word f.comp false f.ctx f.iter v ++ destProto s e f.word f.comp true f.ctx f.iter v

/-! ## Matching-store entries (R60) -/

/-- V. -/
def enV (n : Entry) : Bool := bit n 127
/-- TYPE. -/
def enType (n : Entry) : BitVec 2 := bits n 125 2
/-- PORTS: left, right, trigger as bits 2, 1, 0. -/
def enPorts (n : Entry) : BitVec 3 := bits n 122 3
/-- PRI. -/
def enPri (n : Entry) : BitVec 2 := bits n 120 2
/-- EPOCH. -/
def enEpoch (n : Entry) : Bool := bit n 119
/-- AGE. -/
def enAge (n : Entry) : BitVec 2 := bits n 117 2
/-- DPORT. -/
def enDport (n : Entry) : Bool := bit n 116
/-- NODE, CTX and ITER. -/
def enKey (n : Entry) : BitVec 40 := bits n 64 40
/-- CTX. -/
def enCtx (n : Entry) : BitVec 16 := bits n 76 16
/-- NODE. -/
def enNode (n : Entry) : BitVec 12 := bits n 92 12
/-- ITER. -/
def enIter (n : Entry) : BitVec 12 := bits n 64 12
/-- DATA. -/
def enData (n : Entry) : Word := bits n 0 64

/-- A new entry; AGE is set by renumbering. -/
def mkEntry (type : BitVec 2) (ports : BitVec 3) (pri : BitVec 2) (epoch dport : Bool) (key : BitVec 40) (data : Word) :
    Entry :=
  (1 : BitVec 1) ++ type ++ ports ++ pri ++ BitVec.ofBool epoch ++ (0 : BitVec 2) ++ BitVec.ofBool dport ++
    (0 : BitVec 12) ++ key ++ data

/-- Whether an entry is protected (R66). -/
def enProt (n : Entry) : Bool := enType n == 1 || enPri n == 3

/-! ## Strand instructions (R119) -/

/-- OP. -/
def siOp (w : BitVec 32) : BitVec 6 := bits w 26 6
/-- D, or COND in the B format. -/
def siD (w : BitVec 32) : BitVec 4 := bits w 22 4
/-- A. -/
def siA (w : BitVec 32) : BitVec 4 := bits w 18 4
/-- B. -/
def siB (w : BitVec 32) : BitVec 4 := bits w 14 4
/-- SUB. -/
def siSub (w : BitVec 32) : BitVec 8 := bits w 6 8
/-- IMM. -/
def siImm (w : BitVec 32) : BitVec 18 := bits w 0 18
/-- SZ: the access size in bytes. -/
def siSize (w : BitVec 32) : Nat := 2 ^ (bits w 16 2).toNat
/-- PI. -/
def siPI (w : BitVec 32) : Bool := bit w 15
/-- SP. -/
def siSP (w : BitVec 32) : Bool := bit w 14
/-- DISP, sign-extended. -/
def siDisp (w : BitVec 32) : Word := (bits w 0 14).signExtend 64
/-- OFF as a byte offset: a signed count of instructions. -/
def siOff (w : BitVec 32) : BitVec 15 := bits (bits w 0 22) 0 13 ++ (0 : BitVec 2)

/-! ## Microwords (R196) -/

/-- The format, bits [31:30]. -/
def uwFmt (w : BitVec 32) : BitVec 2 := bits w 30 2
/-- UOP or SOP; DST of a LIT. -/
def uwOp (w : BitVec 32) : BitVec 5 := bits w 25 5
/-- DST. -/
def uwDst (w : BitVec 32) : BitVec 5 := bits w 20 5
/-- SA. -/
def uwSa (w : BitVec 32) : BitVec 5 := bits w 15 5
/-- SB. -/
def uwSb (w : BitVec 32) : BitVec 5 := bits w 10 5
/-- ARG. -/
def uwArg (w : BitVec 32) : BitVec 10 := bits w 0 10

end Sys2Proof.Machine
end

