-- ==== Sys2Proof/Machine/Match.lean ====
section
/-! DEFINITION. IN, HASH and MATCH (R54 to R67), with the engine's side of spill, refill and context sweeps (R68 to
R72), the matching-store window (R84) and the engine registers whose writes do more than store (R81 to R83). -/

namespace Sys2Proof.Machine

/-! ## The matching store -/

/-- The entry in way `w` of a set. -/
def wayAt (x : Engine) (set w : Nat) : Entry := SMap.get x.ms (4 * set + w) 0

/-- The engine with an entry written. -/
def setWay (x : Engine) (set w : Nat) (n : Entry) : Engine := { x with ms := SMap.set x.ms (4 * set + w) n 0 }

/-- The four ways. -/
def ways : List Nat := [0, 1, 2, 3]

/-- The valid ways of a set, in ascending order. -/
def validWays (x : Engine) (set : Nat) : List Nat := ways.filter (fun w => enV (wayAt x set w))

/-- The invalid ways of a set, in ascending order. -/
def freeWays (x : Engine) (set : Nat) : List Nat := ways.filter (fun w => !enV (wayAt x set w))

/-- ENG_MS_OCC.TOTAL (R81). -/
def msTotal (x : Engine) : Nat := (x.ms.filter (fun p => enV p.2)).length

/-- ENG_MS_OCC.PROT (R81). -/
def msProt (x : Engine) : Nat := (x.ms.filter (fun p => enV p.2 && enProt p.2)).length

/-- Whether way `a` was inserted after way `b`: lower AGE, and among equal AGE the higher way (R84). -/
def younger (x : Engine) (set : Nat) (fresh : Option Nat) (a b : Nat) : Bool :=
  if fresh = some a then b != a
  else if fresh = some b then false
  else
    let ra := (enAge (wayAt x set a)).toNat
    let rb := (enAge (wayAt x set b)).toNat
    decide (ra < rb) || (ra == rb && decide (b < a))

/-- AGE renumbered so that the ranks 0 to k − 1 cover the k valid ways in insertion order; `fresh` is the way just
inserted (R62). -/
def renumber (x : Engine) (set : Nat) (fresh : Option Nat) : Engine :=
  let vs := validWays x set
  vs.foldl (fun y w =>
    let rank := (vs.filter (fun v => younger x set fresh v w)).length
    setWay y set w (put (wayAt x set w) 117 (BitVec.ofNat 2 rank))) x

/-- The engine with a way invalidated. AGE is renumbered by the caller. -/
def dropWay (x : Engine) (set w : Nat) : Engine := setWay x set w (putBit (wayAt x set w) 127 false)

/-- Whether an operand or companion entry holds a key (R62). -/
def holdsKey (n : Entry) (key : BitVec 40) : Bool := enV n && enType n != 1 && enKey n == key

/-- Whether a sticky entry holds {NODE, CTX} of a key (R62, R63). -/
def stickyKey (n : Entry) (key : BitVec 40) : Bool := enV n && enType n == 1 && bits (enKey n) 12 28 == bits key 12 28

/-- The engine without the operand and companion entries of a key (R62). -/
def dropKey (x : Engine) (set : Nat) (key : BitVec 40) : Engine :=
  let x := (ways.filter (fun w => holdsKey (wayAt x set w) key)).foldl (fun y w => dropWay y set w) x
  renumber { x with p3ovf := x.p3ovf.filter (fun n => !holdsKey n key), mixed := x.mixed.filter (· != key) } set none

/-! ## Units and replacement (R66, R67) -/

/-- A unit of the set: its ways, the primary's first. -/
abbrev MsUnit := List Nat

/-- The units of a set: an operand or sticky entry, with the companion of its key. -/
def unitsOf (x : Engine) (set : Nat) : List MsUnit :=
  let vs := validWays x set
  let isComp (w : Nat) : Bool := enType (wayAt x set w) == 2
  let pairs (w v : Nat) : Bool :=
    v != w && isComp v && enType (wayAt x set w) == 0 && enKey (wayAt x set v) == enKey (wayAt x set w)
  (vs.filter (fun w => !(isComp w && vs.any (fun v => pairs v w)))).map (fun w => w :: vs.filter (fun v => pairs w v))

/-- Whether a unit is protected. -/
def unitProt (x : Engine) (set : Nat) (u : MsUnit) : Bool := u.any (fun w => enProt (wayAt x set w))

/-- The rank by which a victim is chosen: the lowest PRI, then the highest AGE. -/
structure Rank where
  pri : Nat
  age : Nat
  deriving DecidableEq, Repr

/-- Whether one candidate is chosen before another. -/
def Rank.before (a b : Rank) : Bool := decide (a.pri < b.pri) || (a.pri == b.pri && decide (b.age < a.age))

/-- The rank of a unit of the set; AGE counts from one, so that a new entry counts as newest with zero. -/
def unitRank (x : Engine) (set : Nat) (u : MsUnit) : Rank :=
  let n := wayAt x set (u.headD 0)
  { pri := (enPri n).toNat, age := (enAge n).toNat + 1 }

/-- The first unit that no other is chosen before. -/
def victimOf (x : Engine) (set : Nat) (us : List MsUnit) : Option MsUnit :=
  us.foldl (fun best u => match best with
    | none => some u
    | some b => if (unitRank x set u).before (unitRank x set b) then some u else some b) none

/-- What MATCH does with an entry that needs a way. -/
inductive Place1 where
  /-- it is stored; the units that went to the spill queue, oldest first -/
  | placed (x : Engine) (spilled : List SpillUnit)
  /-- the P3 overflow buffer lacks room -/
  | refused
  deriving DecidableEq, Repr

/-- The entries of a set's ways. -/
def entriesAt (x : Engine) (set : Nat) (ws : List Nat) : List Entry := ws.map (fun w => wayAt x set w)

/-- The engine with new entries written in the first invalid ways, one after another. -/
def writeNew (x : Engine) (set : Nat) : List Entry → Engine
  | [] => x
  | n :: ns =>
    match freeWays x set with
    | [] => x
    | w :: _ => writeNew (renumber (setWay x set w n) set (some w)) set ns

/-- Placing new entries (R66). `own` is the way of the primary that a companion joins. -/
def placeNew (set : BitVec 10) (news : List Entry) (own : Option Nat) (rank : Rank) (prot : Bool) :
    Nat → Engine → List SpillUnit → Place1
  | 0, _, _ => .refused
  | fuel + 1, x, sp =>
    let st := set.toNat
    if news.length ≤ (freeWays x st).length then .placed (writeNew x st news) sp
    else
      let cands := (unitsOf x st).filter (fun u => !unitProt x st u && !(match own with
        | some w => u.contains w
        | none => false))
      let leaves := match own with
        | some w => [w]
        | none => []
      let whole := entriesAt x st leaves ++ news
      let moved := renumber (leaves.foldl (fun y w => dropWay y st w) x) st none
      match victimOf x st cands with
      | none =>
        if prot then
          if x.p3ovf.length + whole.length ≤ 8 then .placed { moved with p3ovf := moved.p3ovf ++ whole } sp
          else .refused
        else .placed moved (sp ++ [{ set := set, entries := whole }])
      | some v =>
        if !prot && rank.before (unitRank x st v) then .placed moved (sp ++ [{ set := set, entries := whole }])
        else
          let y := renumber (v.foldl (fun y w => dropWay y st w) x) st none
          placeNew set news own rank prot fuel y (sp ++ [{ set := set, entries := entriesAt x st v }])

/-- Entries waiting in the spill queue. -/
def spillLevel (x : Engine) : Nat := (x.spillQ.map (fun u => u.entries.length)).sum

/-- The spill count of a set (R69). -/
def spillCount (x : Engine) (set : BitVec 10) : Nat := SMap.get x.spillCnt set.toNat 0

/-- The state after units have left an engine's set for the spill queue: ENG_SPILL and the spill counts rise (R68). -/
def spillUnits (e : Nat) (us : List SpillUnit) (s : State) : State :=
  us.foldl (fun s u =>
    let n := u.entries.length
    let s := s.modEng e (fun x => { x with
      spillQ := x.spillQ ++ [u]
      spillCnt := SMap.set x.spillCnt u.set.toNat (min 15 (spillCount x u.set + n)) 0 })
    s.wr64 (ereg e 0x20) (s.rd64 (ereg e 0x20) + BitVec.ofNat 64 n)) s

/-! ## Occupancy (R81, R224, R225) -/

/-- PLOT_PRN_MSWM.HI of an engine's plot. -/
def msHi (s : State) (e : Nat) : Nat := s.fld (preg (e / 17) 0x108) 16 13

/-- Whether the TOTAL rule of R225 bars P0 requests in a plot. -/
def totalBars (s : State) (p : Nat) : Bool :=
  let hi := s.fld (preg p 0x108) 16 13
  hi != 0 && (List.range 17).any (fun i => inService s (17 * p + i) && decide (hi ≤ msTotal (s.eng (17 * p + i))))

/-- Slots of the bucket array of a plot: 4 × 2^BUCKETS, none for 0 (R230, R249). -/
def bucketSlots (s : State) (p : Nat) : Nat :=
  let b := s.fld (preg p 0x104) 16 4
  if b = 0 then 0 else 4 * 2 ^ b

/-- The bucket fill F in sixteenths (R225). -/
def bucketFill (s : State) (p : Nat) : Nat :=
  let n := bucketSlots s p
  if n = 0 then 0 else 16 * (s.plot p).buckets.length / n

/-- The effective threshold of a priority (R225). -/
def refuseAt (s : State) (p : Nat) (pri : Nat) : Nat :=
  let t0 := s.fld (preg p 0x10C) 0 4
  let t1 := max t0 (s.fld (preg p 0x10C) 4 4)
  let t2 := max t1 (s.fld (preg p 0x10C) 8 4)
  if pri = 0 then t0 else if pri = 1 then t1 else t2

/-- Whether the agent refuses a context request at a priority (R225). -/
def refuses (s : State) (p : Nat) (pri : Nat) : Bool :=
  decide (pri < 3) && (decide (refuseAt s p pri ≤ bucketFill s p) || (pri == 0 && totalBars s p) ||
    (s.plot p).depositMode)

/-- The priorities refused, P0 in bit 0. -/
def refusing (s : State) (p : Nat) : BitVec 3 :=
  BitVec.ofBool (refuses s p 2) ++ BitVec.ofBool (refuses s p 1) ++ BitVec.ofBool (refuses s p 0)

/-- An alert of R247: EV_1856 + P while AEV is 1. -/
def alert (p : Nat) (s : State) : State := if s.flag (preg p 0x100) 7 then raiseEvent (1856 + p) s else s

/-- The agent compares the refusals in force with those it last saw, and alerts when one begins (R247). -/
def seeRefusals (p : Nat) (s : State) : State :=
  let now := refusing s p
  let old := (s.plot p).refusing
  let s := if now &&& ~~~old ≠ 0 then alert p s else s
  s.modPlot p (fun x => { x with refusing := now })

/-- ENG_MS_HWM follows TOTAL when TOTAL exceeds it (R81). -/
def raiseHwm (e : Nat) (s : State) : State :=
  let t := msTotal (s.eng e)
  if s.fld (ereg e 0x1C) 0 13 < t then s.setFld (ereg e 0x1C) 0 13 t else s

/-- The occupancy of an engine has changed: the high-water mark follows it, and an insertion that brings TOTAL to HI
orders a spill-down (R81, R224). -/
def seeTotal (e : Nat) (before : Nat) (s : State) : State :=
  let x := s.eng e
  let t := msTotal x
  let s := raiseHwm e s
  let hi := msHi s e
  let s := if before < t ∧ hi ≠ 0 ∧ hi ≤ t ∧ x.order.isNone then
      raiseEvent 1927 (s.modEng e (fun x => { x with order := some { visited := 0, spilled := false } }))
    else s
  seeRefusals (e / 17) s

/-! ## IN and HASH -/

/-- The matching key that an engine holds a token under: ITER 0 for a node with a sticky right port (R58, R60). -/
def keyOf (word : Word) (node : BitVec 12) (ctx : BitVec 16) (iter : BitVec 12) : BitVec 40 :=
  node ++ ctx ++ (if nwSticky word then 0 else iter)

/-- The node word in a slot, as stored. -/
def nodeWord (s : State) (e : Nat) (node : BitVec 12) : Word := s.load (imemBase e + 8 * node.toNat) 8

/-- The key of a flit by the node word its slot holds. -/
def flitKey (s : State) (e : Nat) (f : Flit) : BitVec 40 :=
  keyOf (nodeWord s e (tagNode f.tag)) (tagNode f.tag) (tagCtx f.tag) (tagIter f.tag)

/-- Whether a token with the key waits in the miss-pending buffer or the re-entry register (R69). -/
def keyWaits (s : State) (e : Nat) (f : Flit) : Bool :=
  let x := s.eng e
  let k := flitKey s e f
  x.mpb.any (fun m => flitKey s e m.tok.tok.flit == k) ||
    (match x.reentry with
     | some t => flitKey s e t.flit == k
     | none => false)

/-- The head of an input lane, unless it is held by the same-key rule. -/
def laneHead (s : State) (e : Nat) : List Flit → Option Flit
  | [] => none
  | f :: _ => if keyWaits s e f then none else some f

/-- The token IN takes, and the engine without it (R55). -/
def takeIn (s : State) (e : Nat) : Option (Tok × Engine) :=
  let x := s.eng e
  let fresh (f : Flit) : Tok := { flit := f, refill := none }
  match laneHead s e x.inP3 with
  | some f => some (fresh f, { x with inP3 := x.inP3.drop 1 })
  | none => match x.reentry with
    | some t => some (t, { x with reentry := none })
    | none => match laneHead s e x.inP2 with
      | some f => some (fresh f, { x with inP2 := x.inP2.drop 1 })
      | none => match laneHead s e x.inP1 with
        | some f => some (fresh f, { x with inP1 := x.inP1.drop 1 })
        | none => match laneHead s e x.inP0 with
          | some f => some (fresh f, { x with inP0 := x.inP0.drop 1 })
          | none => none

/-- The code with which intake discards a token, if it does (R56). -/
def intakeFails (s : State) (e : Nat) (f : Flit) : Option (BitVec 8) :=
  if f.poison then some 0x14
  else if tagPort f.tag = 3 ∨ tagCtx f.tag = 0xFFFF then some 0x12
  else if !ctxAllocated s (e / 17) (tagCtx f.tag) then some 0x13
  else none

/-- HASH: the node word and its companion slot are read, checked and decoded, and the token moves on with its set, or
is discarded (R57, R94, R95, R41). -/
def hashToken (e : EngNo) (t : Tok) (s : State) : State :=
  let f := t.flit
  let node := tagNode f.tag
  let r := localLoad .imem e (8 * node.toNat) 8 s
  match r.1 with
  | none => r.2
  | some word =>
    let s := r.2
    let nextSlot := 8 * ((node.toNat + 1) % 4096)
    let rc := if usesComp word then localLoad .imem e nextSlot 8 s else (some (s.load (imemBase e + nextSlot) 8), s)
    match rc.1 with
    | none => rc.2
    | some comp =>
      let s := rc.2
      match illegalCause s e word comp with
      | some c =>
        detect { tokenDetect 0x0C e f ((c.setWidth 16 <<< 12) ||| node.setWidth 16) with c := word } s
      | none =>
        let sh := (nodeShape s e (nwOpc word).toNat).getD .l
        if !usesPort sh word (tagPort f.tag) then detect (tokenDetect 0x12 e f 0) s
        else
          let iter := if nwSticky word then 0 else tagIter f.tag
          s.modEng e (fun x => { x with
            hash := some { tok := t, word := word, comp := comp, set := setOf s e node (tagCtx f.tag) iter } })

/-- TOKEN_IN: IN takes one token, makes the intake checks, and HASH reads its node word. Nothing is taken while
ENG_CTRL.TOK_HALT is 1 or HASH holds a token. TOK_HALT keeps IN from the re-entry register too: DEDUCED from "IN takes
no token" (R81; assumption log 92). -/
def execTokenIn (e : EngNo) (u : Upset) (s : State) : Host.Outcome State Fault Refusal :=
  if !inService s e ∨ s.flag (ereg e 4) 0 ∨ (s.eng e).hash.isSome then .next s
  else
    match takeIn s e with
    | none => .next s
    | some (t, x) =>
      let s := s.upset (imemBase e + 8 * (tagNode t.flit.tag).toNat) u
      let s := s.setEng e x
      match intakeFails s e t.flit with
      | some c => .next (detect (tokenDetect c e t.flit 0) s)
      | none => .next (hashToken e t s)

/-! ## MATCH -/

/-- LOCUS of a matching-store record: set and way (R456). -/
def msLocus (set w : Nat) : BitVec 16 := BitVec.ofNat 16 (set + 4096 * w)

/-- The condition of an entry: the worse of its halves. -/
def wayMark (s : State) (e set w : Nat) : Mark :=
  let a := msBase e + 16 * (4 * set + w)
  if s.mark a = .double ∨ s.mark (a + 8) = .double then .double
  else if s.mark a = .single ∨ s.mark (a + 8) = .single then .single
  else .clean

/-- The state with an entry's check bits clean. -/
def cleanWay (e set w : Nat) (s : State) : State :=
  let a := msBase e + 16 * (4 * set + w)
  (s.setMark a .clean).setMark (a + 8) .clean

/-- The MS_ECC record of an entry, with the token in MATCH; zero where none is (R456). -/
def msDetect (code : BitVec 8) (e : EngNo) (set w : Nat) (f : Flit) (s : State) : Detection :=
  { tokenDetect code e f (msLocus set w) with a := bits (wayAt (s.eng e) set w) 64 64, c := f.tag }

/-- A set is read: single-bit errors are corrected and recorded, an uncorrectable entry is invalidated and
recorded (R60, R85). `f` is the token in MATCH, or zero. -/
def readSet (e : EngNo) (set : Nat) (f : Flit) (s : State) : State :=
  ways.foldl (fun s w =>
    if !enV (wayAt (s.eng e) set w) then cleanWay e set w s
    else match wayMark s e set w with
      | .clean => s
      | .single => cleanWay e set w (detect (msDetect 0x01 e set w f s) s)
      | .double =>
        let s := cleanWay e set w (detect (msDetect 0x02 e set w f s) s)
        seeRefusals (e.val / 17) (s.modEng e (fun x => renumber (dropWay x set w) set none))) s

/-- The PRI class of a unit after a token has joined it. -/
def maxPri (a b : BitVec 2) : BitVec 2 := if a.toNat < b.toNat then b else a

/-- What MATCH found of a key: its entry, the companion beside it, and whether they were returned by the lookup. -/
structure Found where
  primary : Entry
  companion : Option Entry
  /-- the primary's way, when it is in the set -/
  way : Option Nat
  /-- held in the P3 overflow buffer -/
  inOvf : Bool
  /-- returned by the refill lookup, so not in the set -/
  returned : Bool
  deriving DecidableEq, Repr

/-- The operand entry of a list that holds a key, or else its companion entry. -/
def primaryIn (ns : List Entry) (key : BitVec 40) : Option Entry :=
  match ns.find? (fun n => holdsKey n key && enType n == 0) with
  | some n => some n
  | none => ns.find? (fun n => holdsKey n key)

/-- The entry that holds a key in the set, the P3 overflow buffer or what the lookup returned (R62, R67, R69). -/
def findKey (x : Engine) (set : Nat) (key : BitVec 40) (ret : List Entry) : Option Found :=
  let look (ns : List Entry) (way : Entry → Option Nat) (ovf back : Bool) : Option Found :=
    (primaryIn ns key).map (fun p =>
      { primary := p, companion := ns.find? (fun n => holdsKey n key && enType n == 2 && enType p == 0), way := way p,
        inOvf := ovf, returned := back })
  let inSet := entriesAt x set ways
  match look inSet (fun p => ways.find? (fun w => wayAt x set w == p)) false false with
  | some r => some r
  | none => match look x.p3ovf (fun _ => none) true false with
    | some r => some r
    | none => look ret (fun _ => none) false true

/-- The sticky entry of a key, in the set or the P3 overflow buffer (R63). -/
def findSticky (x : Engine) (set : Nat) (key : BitVec 40) : Option Entry :=
  match (entriesAt x set ways).find? (fun n => stickyKey n key) with
  | some n => some n
  | none => x.p3ovf.find? (fun n => stickyKey n key)

/-- The engine with every entry of a kind replaced by a function of it, in the set and the overflow buffer. -/
def mapEntries (x : Engine) (set : Nat) (p : Entry → Bool) (g : Entry → Entry) : Engine :=
  let y := ways.foldl (fun y w => if p (wayAt x set w) then setWay y set w (g (wayAt x set w)) else y) x
  { y with p3ovf := y.p3ovf.map (fun n => if p n then g n else n) }

/-- Whether an entry holds a data word: its PORTS has a data port set. -/
def hasData (n : Entry) : Bool := bit (enPorts n) 2 || bit (enPorts n) 1

/-- The data words of a unit, by port. -/
def dataOf (p : Entry) (c : Option Entry) (port : Bool) : Option Word :=
  let own (n : Entry) : Option Word := if hasData n && enDport n == port then some (enData n) else none
  match own p with
  | some v => some v
  | none => match c with
    | some n => own n
    | none => none

/-- The mode set of a fire whose tokens carry these epochs (R33, R447); a plot that timed out of an epoch advance executes
both sets by its tokens' own EPOCH until its next reset (R448). -/
def fireSet (p : Nat) (eps : List Bool) (s : State) : Bool × State :=
  match eps with
  | [] => ((s.plot p).epoch, s)
  | ep :: rest =>
    if rest.all (· == ep) then (if (s.plot p).epochLate then (ep, s) else modeSet s ep) else ((s.plot p).epoch, s)

/-- RM and FTZ of a fire (R173, R192). -/
def fireMode (s : State) (e : Nat) (ctx : BitVec 16) : BitVec 3 × Bool :=
  match s.profile with
  | .p0100 => (bits (s.rd (ereg e 0x90)) 0 3, s.flag (ereg e 0x90) 3)
  | _ =>
    let r := s.rd (preg (e / 17) (0x10000 + 4 * (ctx.toNat / 8)))
    let k := 4 * (ctx.toNat % 8)
    (bits r k 3, bit r (k + 3))

/-- FIRE: the operands and attributes of a fire (R73, R93). The page of its mode set decides whether it executes as
SINK, which UPK_EPOCH_CNT.CLOSED counts (R445). -/
def makeFire (e : EngNo) (h : HashTok) (l r : Word) (iter : BitVec 12) (pri : BitVec 2) (eps : List Bool) (s : State) :
    State :=
  let f := h.tok.flit
  let p := e.val / 17
  let node := tagNode f.tag
  let ctx := tagCtx f.tag
  let m := fireSet p eps s
  let s := m.2
  let md := fireMode s e ctx
  let closed := !pageOpen s m.1 p node
  let s := if closed then s.satInc (breg .upk 0x6C) 16 16 else s
  s.modEng e (fun x => { x with
    hash := none
    fire := some
      { word := h.word, comp := h.comp, node := node, ctx := ctx, iter := iter, l := l, r := r, pri := pri, mset := m.1,
        rm := md.1, ftz := md.2, hdr := f.hdr, tag := f.tag, data := f.data, closed := closed,
        issued := 0 } })

/-- The state with HASH's output taken. -/
def hashDone (e : Nat) (s : State) : State := s.modEng e (fun x => { x with hash := none })

/-- A bypass token fires at once (R64). -/
def matchBypass (e : EngNo) (h : HashTok) (s : State) : State :=
  let f := h.tok.flit
  makeFire e h f.data (if nwConst h.word then h.comp else 0) (tagIter f.tag) f.pri [f.epoch] s

/-- A sticky value overwrites the sticky entry, or needs a way for a new one (R63). -/
def newSticky (key : BitVec 40) (f : Flit) : Entry := mkEntry 1 2 f.pri f.epoch true (bits key 12 28 ++ (0 : BitVec 12)) f.data

/-- The P3 overflow buffer refuses a token (R67). The way of a record without a way of a set reads 0: DESIGN CHOICE
(R85, R456; assumption log 93). -/
def p3Refused (e : EngNo) (f : Flit) (set : Nat) (s : State) : State :=
  let s := s.satInc (ereg e 0x40) 24 8
  detect (tokenDetect 0x0B e f (msLocus set 0)) (s.setFlag (ereg e 8) 9 true)

/-- MATCH writes new entries: the engine and the spill queue take what R66 decides. None: the spill queue lacks room,
so MATCH holds (R68). -/
def storeNew (e : EngNo) (set : BitVec 10) (news : List Entry) (own : Option Nat) (rank : Rank) (prot : Bool)
    (refusedBy : State → State) (s : State) : Option State :=
  let x := s.eng e
  match placeNew set news own rank prot 4 x [] with
  | .refused => some (refusedBy s)
  | .placed y sp =>
    if 8 < spillLevel x + (sp.map (fun u => u.entries.length)).sum then none
    else
      let s := (ways.filter (fun w => wayAt x set.toNat w != wayAt y set.toNat w)).foldl
        (fun s w => cleanWay e set.toNat w s) s
      some (seeTotal e (msTotal x) (spillUnits e sp (s.setEng e y)))

/-- A returned unit that stays, or has taken a token, is stored as a new unit. -/
def storeBack (e : EngNo) (set : BitVec 10) (p : Entry) (c : Option Entry) (s : State) : Option State :=
  storeNew e set (p :: c.toList) none { pri := (enPri p).toNat, age := 0 } (enProt p) id s

/-- The token's word, when its port is a data port. -/
def isData (f : Flit) : Bool := tagPort f.tag != 2

/-- A duplicate is discarded (R65). The way of one found outside the set reads 0 (assumption log 93). -/
def matchDup (e : EngNo) (h : HashTok) (r : Found) (s : State) : Option State :=
  let f := h.tok.flit
  let s := s.satInc (ereg e 0x40) 16 8
  let s := s.setFlag (ereg e 8) 10 true
  let s := detect (tokenDetect 0x09 e f (msLocus h.set.toNat (r.way.getD 0))) s
  if r.returned then storeBack e h.set r.primary r.companion s else some s

/-- The last matching port arrives: the node fires, or its sticky value is absent (R62, R63). A data word that an
uncorrectable companion has lost is a free value (assumption log 4). -/
def matchHit (e : EngNo) (h : HashTok) (key : BitVec 40) (r : Option Found) (s : State) : State :=
  let f := h.tok.flit
  let set := h.set.toNat
  let x := s.eng e
  let st := if nwSticky h.word then findSticky x set key else none
  let s1 := s.modEng e (fun x => dropKey x set key)
  if nwSticky h.word ∧ st.isNone then
    detect (tokenDetect 0x0A e f (msLocus set 0)) (s1.setFlag (ereg e 8) 8 true)
  else
    let stored (port : Bool) : Option Word := match r with
      | some r => dataOf r.primary r.companion port
      | none => none
    let word (port : Bool) (s : State) : Word × State :=
      if isData f ∧ (tagPort f.tag == 1) = port then (f.data, s)
      else match stored port with
        | some v => (v, s)
        | none => s.draw
    let needR := (match nodeShape s e (nwOpc h.word).toNat with
      | some .l => false
      | _ => true) && !nwConst h.word && !nwSticky h.word
    let wl := word false s1
    let wr := if nwConst h.word then (h.comp, wl.2)
      else match st with
        | some n => (enData n, wl.2)
        | none => if needR then word true wl.2 else (0, wl.2)
    let pri := match r with
      | some r => maxPri f.pri (enPri r.primary)
      | none => f.pri
    let eps := f.epoch :: (if x.mixed.contains key then [!f.epoch] else []) ++ (match r with
      | some r => enEpoch r.primary :: (r.companion.map enEpoch).toList
      | none => [])
    let iter := if nwSticky h.word then tagIter f.tag else bits key 0 12
    seeTotal e (msTotal x) (makeFire e h wl.1 wr.1 iter pri eps wr.2)

/-- The primary after a token's port has joined it. -/
def joined (p : Entry) (f : Flit) (withData : Bool) : Entry :=
  let p := put p 122 (enPorts p ||| portBit (tagPort f.tag))
  let p := put p 120 (maxPri (enPri p) f.pri)
  let p := putBit p 119 f.epoch
  if withData then put (putBit p 116 (tagPort f.tag == 1)) 0 f.data else p

/-- Whether a token that joins an entry differs from it in EPOCH is kept for the fire (R33). -/
def noteMixed (e : Nat) (key : BitVec 40) (old new : Bool) (s : State) : State :=
  if old = new then s
  else s.modEng e (fun x => { x with mixed := if x.mixed.contains key then x.mixed else key :: x.mixed })

/-- A key whose entry is new is held without a mixture of EPOCH. -/
def freshKey (e : Nat) (key : BitVec 40) (s : State) : State :=
  s.modEng e (fun x => { x with mixed := x.mixed.filter (· != key) })

/-- Ports remain missing: the token joins its entry, or brings a second word for a companion (R62). -/
def matchPartial (e : EngNo) (h : HashTok) (key : BitVec 40) (r : Found) (s : State) : Option State :=
  let f := h.tok.flit
  let set := h.set.toNat
  let second := isData f && hasData r.primary
  let p' := joined r.primary f (isData f && !second)
  let comp := if second then
      some (mkEntry 2 (portBit (tagPort f.tag)) (enPri p') f.epoch (tagPort f.tag == 1) key f.data)
    else r.companion
  let upd (n : Entry) : Entry := if enType n == enType r.primary then p' else put n 120 (enPri p')
  if r.returned then
    match placeNew h.set (p' :: comp.toList) none { pri := (enPri p').toNat, age := 0 } (enProt p') 4 (s.eng e) [] with
    | .refused => storeBack e h.set r.primary r.companion (p3Refused e f set s)
    | .placed _ _ => storeBack e h.set p' comp (noteMixed e key (enEpoch r.primary) f.epoch s)
  else
    let s' := noteMixed e key (enEpoch r.primary) f.epoch
      (s.modEng e (fun x => mapEntries x set (fun n => holdsKey n key) upd))
    match second, comp with
    | true, some c =>
      if r.inOvf then
        if (s.eng e).p3ovf.length + 1 ≤ 8 then some (s'.modEng e (fun x => { x with p3ovf := x.p3ovf ++ [c] }))
        else some (p3Refused e f set s)
      else
        storeNew e h.set [c] r.way { pri := (enPri p').toNat, age := (enAge r.primary).toNat + 1 } (enProt p')
          (fun _ => p3Refused e f set s) s'
    | _, _ => some s'

/-- No entry holds the key: the token becomes a new operand entry (R62). -/
def matchMiss (e : EngNo) (h : HashTok) (key : BitVec 40) (s : State) : Option State :=
  let f := h.tok.flit
  let n := mkEntry 0 (portBit (tagPort f.tag)) f.pri f.epoch (tagPort f.tag == 1) key (if isData f then f.data else 0)
  storeNew e h.set [n] none { pri := f.pri.toNat, age := 0 } (f.pri == 3) (p3Refused e f h.set.toNat) (freshKey e key s)

/-- A token on the sticky port (R63). -/
def matchSticky (e : EngNo) (h : HashTok) (key : BitVec 40) (s : State) : Option State :=
  let f := h.tok.flit
  match findSticky (s.eng e) h.set.toNat key with
  | some _ =>
    some (s.modEng e (fun x => mapEntries x h.set.toNat (fun n => stickyKey n key)
      (fun n => put (putBit n 119 f.epoch) 0 f.data)))
  | none => storeNew e h.set [newSticky key f] none { pri := f.pri.toNat, age := 0 } true (p3Refused e f h.set.toNat) s

/-- A token moves to the lowest free entry of the miss-pending buffer (R69). None: the buffer is full, so MATCH
holds. -/
def toMissPending (e : EngNo) (h : HashTok) (s : State) : Option State :=
  let x := s.eng e
  match (List.range 4).find? (fun i => !x.mpb.any (fun m => m.slot == i)) with
  | none => none
  | some i => some (s.modEng e (fun x => { x with mpb := x.mpb ++ [{ slot := i, tok := h, asked := false, stale := false }] }))

/-- The outcome of a token at MATCH (R62 to R69). None: MATCH holds the token, as it does behind a fire that waits
(R54, R73). -/
def matchOutcome (e : EngNo) (h : HashTok) (sh : Shape) (s : State) : Option State :=
  let f := h.tok.flit
  let x := s.eng e
  let key := keyOf h.word (tagNode f.tag) (tagCtx f.tag) (tagIter f.tag)
  let port := tagPort f.tag
  if x.fire.isSome then none
  else if isBypass sh h.word then some (matchBypass e h s)
  else if port = 1 ∧ nwSticky h.word then matchSticky e h key s
  else
    let need := matchPorts sh h.word
    let ret := h.tok.refill.getD []
    let found := findKey x h.set.toNat key ret
    let have_ : BitVec 3 := match found with
      | some r => enPorts r.primary
      | none => 0
    let s := if ret.isEmpty then s
      else s.wr64 (ereg e 0x28) (s.rd64 (ereg e 0x28) + BitVec.ofNat 64 ret.length)
    if have_ &&& portBit port ≠ 0 then
      match found with
      | some r => matchDup e h r s
      | none => some s
    else if (have_ ||| portBit port) &&& need = need then some (matchHit e h key found s)
    else
      match found with
      | some r => matchPartial e h key r s
      | none =>
        if spillCount x h.set ≠ 0 ∧ h.tok.refill.isNone then toMissPending e h s
        else matchMiss e h key s

/-- MATCH_TOKEN: the token in HASH passes MATCH, or is held there. The upset is of the upper half of the first valid
entry of its set. -/
def execMatchToken (e : EngNo) (u : Upset) (s : State) : Host.Outcome State Fault Refusal :=
  match (s.eng e).hash with
  | none => .next s
  | some h =>
    match nodeShape s e (nwOpc h.word).toNat with
    | none => .next (hashDone e s)
    | some sh =>
      let set := h.set.toNat
      let s := match validWays (s.eng e) set with
        | w :: _ => s.upset (msBase e + 16 * (4 * set + w) + 8) u
        | [] => s
      let s := if isBypass sh h.word then s else readSet e set h.tok.flit s
      match matchOutcome e h sh s with
      | none => .next s
      | some s' => .next (hashDone e s')

/-! ## Spill-down, refill and sweeps -/

/-- The first set from the pointer on that holds three or more valid ways and an unprotected unit, with the sets
passed over (R224). -/
def spillSet (x : Engine) : Nat → Nat → Nat → Option (Nat × Nat)
  | 0, _, _ => none
  | fuel + 1, set, passed =>
    if 3 ≤ (validWays x set).length ∧ (unitsOf x set).any (fun u => !unitProt x set u) then some (set, passed)
    else spillSet x fuel ((set + 1) % 1024) (passed + 1)

/-- SPILL_DOWN_SPILL: one unit of the next qualifying set, checked as it is read (R60), goes to the spill queue; the
order ends by R224. -/
def execSpillDownSpill (e : EngNo) (s : State) : Host.Outcome State Fault Refusal :=
  let x := s.eng e
  match x.order with
  | none => .next s
  | some o =>
    let hi := msHi s e
    let lo := min (s.fld (preg (e.val / 17) 0x108) 0 13) (hi - 1)
    let stop (s : State) : State := s.modEng e (fun x => { x with order := none })
    if msHi s e = 0 ∨ msTotal x ≤ lo then .next (stop s)
    else
      match spillSet x 1024 x.spillPtr.toNat 0 with
      | none => .next (stop s)
      | some (set, passed) =>
        let s := readSet e set 0 s
        let x := s.eng e
        let us := (unitsOf x set).filter (fun u => !unitProt x set u)
        match victimOf x set us with
        | none => .next s
        | some v =>
          if (validWays x set).length < 3 ∨ 8 < spillLevel x + v.length then .next s
          else
            let y := renumber (v.foldl (fun y w => dropWay y set w) x) set none
            let y := { y with
              spillPtr := BitVec.ofNat 10 (set + 1)
              order := some { visited := o.visited + passed + 1, spilled := true } }
            let s := spillUnits e [{ set := BitVec.ofNat 10 set, entries := entriesAt x set v }] (s.setEng e y)
            let s := stir (e.val / 17) s
            let s := if msTotal y ≤ lo then stop s else s
            .next (seeRefusals (e.val / 17) s)

/-- REFILL_ANSWER: the answer writes the set's spill count and its token moves to the re-entry register, or is
discarded when its context has been freed (R69, R71). -/
def execRefillAnswer (e : EngNo) (s : State) : Host.Outcome State Fault Refusal :=
  let x := s.eng e
  if x.reentry.isSome then .next s
  else
    match takePacket x.refillIn with
    | (head :: body, rest) =>
      match x.mpb.find? (fun m => m.slot == (tagXid head.tag).toNat && m.asked) with
      | none => .next (s.setEng e { x with refillIn := rest })
      | some m =>
        let payloads := body.map Flit.payload
        let remain := match payloads with
          | p :: _ => (bits p 112 4).toNat
          | [] => 0
        let back := (payloads.filter enV).map (fun p => p &&& ~~~(((0xFFF : BitVec 128)) <<< 104))
        let y := { x with
          refillIn := rest
          mpb := x.mpb.filter (fun k => k.slot != m.slot)
          spillCnt := SMap.set x.spillCnt m.tok.set.toNat remain 0 }
        let f := m.tok.tok.flit
        if m.stale || !ctxAllocated s (e.val / 17) (tagCtx f.tag) then .next (detect (tokenDetect 0x13 e f 0) (s.setEng e y))
        else .next (s.setEng e { y with reentry := some { flit := f, refill := some back } })
    | ([], _) => .next s

/-- The engine with every entry of a list of ways removed when its CTX is freed, and the number removed. -/
def sweepSet (x : Engine) (ctx : BitVec 16) (set : Nat) : Engine × Nat :=
  let ws := (validWays x set).filter (fun w => enCtx (wayAt x set w) == ctx)
  (renumber (ws.foldl (fun y w => dropWay y set w) x) set none, ws.length)

/-- CONTEXT_SWEEP_VISIT: the next visit of the oldest sweep of an engine: a set, checked as it is read (R60), the P3
overflow buffer, or the miss-pending buffer, whose tokens of the context their answers discard (R71). -/
def execContextSweepVisit (e : EngNo) (s : State) : Host.Outcome State Fault Refusal :=
  let x := s.eng e
  match x.sweeps with
  | [] => .next s
  | w :: ws =>
    let s := if w.visit < 1024 then readSet e w.visit 0 s else s
    let x := s.eng e
    let r : Engine × Nat :=
      if w.visit < 1024 then sweepSet x w.ctx w.visit
      else if w.visit = 1024 then
        let keep := x.p3ovf.filter (fun n => enCtx n != w.ctx)
        ({ x with p3ovf := keep }, x.p3ovf.length - keep.length)
      else ({ x with mpb := x.mpb.map (fun m => { m with stale := m.stale || tagCtx m.tok.tok.flit.tag == w.ctx }) }, 0)
    let y := { r.1 with sweeps := if w.visit < 1025 then { w with visit := w.visit + 1 } :: ws else ws }
    .next (seeRefusals (e.val / 17) ((s.setEng e y).satAdd (ereg e 0x40) 0 16 r.2))

/-- CONTEXT_RETURN: every sweep and the purge of a freed context are done, and its number returns to the pool (R72). -/
def execContextReturn (p : PlotNo) (ctx : BitVec 16) (s : State) : Host.Outcome State Fault Refusal :=
  let busy := (List.range 17).any (fun i => (s.eng (17 * p.val + i)).sweeps.any (fun w => w.ctx == ctx))
  if ctxStatus s p ctx = 2 ∧ !busy ∧ !(s.plot p).purges.contains ctx then .next (setCtx p ctx 0 s) else .next s

/-! ## Registers of the engine (R81 to R84) -/

/-- ENG_STATUS.QUIET: both halt bits are 1, and no token or instruction is in any stage, EMIT or the miss-pending
buffer (R81). -/
def quiet (s : State) (e : Nat) : Bool :=
  let x := s.eng e
  s.flag (ereg e 4) 0 && s.flag (ereg e 4) 1 && x.reentry.isNone && x.hash.isNone && x.fire.isNone && x.exec.isNone &&
    x.results.isEmpty && x.raises.isEmpty && x.holdP3.isEmpty && x.holdMain.isEmpty && x.mpb.isEmpty &&
      x.sx.isNone && x.seqr.isNone && x.susp.isNone &&
    (match x.strand with
     | none => true
     | some t => t.fetch.isNone && t.dec.isNone && t.read.isNone && t.writes.isEmpty && decide (t.block = .none) && t.leave.isNone)

/-- A write is dropped under R81: ENG_STATUS.CFG_DROP is set and nothing else changes. -/
def cfgDrop (e : Nat) (s : State) : State := s.setFlag (ereg e 8) 11 true

/-- Whether a requester reaches an engine slot's region: the out-of-service slot answers the MC only (R17). -/
def reaches (s : State) (req : Requester) (e : Nat) : Bool := (logicalOf s e).isSome || req == .mc

/-- The value a read returns to its requester. -/
def answer (req : Requester) (v : Word) (s : State) : State :=
  { s with rdata := SMap.set s.rdata (match req with
      | .host => 0
      | .mc => 1
      | .smbus => 2
      | .relay => 3
      | .plot p => 16 + p.val) v 0 }

/-- The 32-bit word of an entry at byte offset `b` of it. -/
def entryWord (n : Entry) (b : Nat) : Reg32 := bits n (8 * (b / 4 * 4)) 32

/-- An entry is read through the debug path: an error is recorded as for any read of the set (R60), and the store is left as
it was (R84; DEDUCED, assumption log 94). -/
def debugSee (e : EngNo) (set w : Nat) (s : State) : State :=
  if !enV (wayAt (s.eng e) set w) then s
  else match wayMark s e set w with
    | .clean => s
    | .single => detect (msDetect 0x01 e set w 0 s) s
    | .double => detect (msDetect 0x02 e set w 0 s) s

/-- MS_DEBUG_READ: one word of an entry, as corrected (R84). -/
def execMsDebugRead (req : Requester) (e : EngNo) (off : BitVec 16) (s : State) : Host.Outcome State Fault Refusal :=
  if unserved req s then .next (countUr s)
  else if !reaches s req e then .next (answer req 0 s.rsvd)
  else
    let o := off.toNat
    let n := wayAt (s.eng e) (o / 64) (o / 16 % 4)
    .next (answer req ((entryWord n (o % 16)).setWidth 64) (debugSee e (o / 64) (o / 16 % 4) s))

/-- MS_DEBUG_WRITE: accepted only while QUIET; TYPE 0b11 is never written, and bits [115:104] ignore writes (R84). -/
def execMsDebugWrite (req : Requester) (e : EngNo) (off : BitVec 16) (v : Reg32) (s : State) :
    Host.Outcome State Fault Refusal :=
  if unserved req s then .next (countUr s)
  else if !reaches s req e then .next s.rsvd
  else if !quiet s e then .next (cfgDrop e s)
  else
    let o := off.toNat
    let x := s.eng e
    let set := o / 64
    let w := o / 16 % 4
    let old := wayAt x set w
    let n := put old (8 * (o % 16 / 4 * 4)) v
    let n := put n 104 (bits old 104 12)
    if enType n = 3 then .next s.rsvd
    else .next (seeTotal e (msTotal x) (cleanWay e set w (freshKey e (enKey n) (s.setEng e (setWay x set w n)))))

/-- ENG_CTRL takes its three bits; a change of STR_HALT sends a HALT notice (R81, R307). -/
def setEngCtrl (e : EngNo) (new : Reg32) (s : State) : State :=
  let was := s.flag (ereg e 4) 1
  let s := s.wr (ereg e 4) new
  if bit new 1 = was then s
  else
    match logicalOf s e with
    | some l => notify (e.val / 17) (.halt l (bit new 1)) s
    | none => s

/-- ENG_CTRL_WRITE: the loopback and halt bits. Through BOOT, and in a plot whose configuration has diverged, both halt bits
stay 1 (R81, R82, R468). -/
def execEngCtrlWrite (req : Requester) (e : EngNo) (v : Reg32) (s : State) : Host.Outcome State Fault Refusal :=
  if unserved req s then .next (countUr s)
  else if !reaches s req e then .next s.rsvd
  else
    let held : Bool := s.sieve.diverged.contains (BitVec.ofNat 8 (e.val / 17)) || s.opState == .boot
    .next (setEngCtrl e (if held then (v &&& 7) ||| 3 else v &&& 7) s)

/-- ENG_MATCH_CFG_WRITE: the salt, accepted only while the engine and its matching store are empty (R83). -/
def execEngMatchCfgWrite (req : Requester) (e : EngNo) (v : Reg32) (s : State) : Host.Outcome State Fault Refusal :=
  if unserved req s then .next (countUr s) else
  let x := s.eng e
  if !reaches s req e then .next s.rsvd
  else if quiet s e ∧ msTotal x = 0 ∧ x.p3ovf.isEmpty ∧ x.spillCnt.isEmpty then
    .next (s.wr (ereg e 0x14) (v &&& 0x3FF))
  else .next (cfgDrop e s)

/-- ENG_ARB_WRITE: the issue weights and the threshold; weights that are both zero are reserved (R81, R10). -/
def execEngArbWrite (req : Requester) (e : EngNo) (v : Reg32) (s : State) : Host.Outcome State Fault Refusal :=
  if unserved req s then .next (countUr s)
  else if !reaches s req e then .next s.rsvd
  else if bits v 0 8 = 0 then .next ((s.setFld (ereg e 0x10) 8 5 (bits v 8 5).toNat).rsvd)
  else .next (s.wr (ereg e 0x10) (v &&& 0x1FFF))

end Sys2Proof.Machine
end

