-- ==== Sys2Proof/Machine/Exec.lean ====
section
/-! DEFINITION. EXEC and EMIT (R73 to R78): units and latencies, issue arbitration, the strand pipeline of R130 to R139,
the register writes of R131 and R132, strand contexts and traps (R118, R156, R157), and EMIT with the loopback. -/

namespace Sys2Proof.Machine

/-! ## Units and latencies (R99, R163 to R169, R192) -/

/-- The functional units of EXEC. -/
inductive ExecUnit where
  | alu | mul | div | fma | micro | b64 | b64cmp | b64iter
  deriving DecidableEq, Repr

/-- The unit of a vendor opcode. -/
def unitOfOpc (c : Nat) : ExecUnit :=
  if 0x04 ≤ c ∧ c ≤ 0x06 then .mul
  else if 0x07 ≤ c ∧ c ≤ 0x0A then .div
  else if (0x30 ≤ c ∧ c ≤ 0x33) ∨ c = 0x3B ∨ c = 0x3C then .fma
  else if c = 0x34 ∨ c = 0x35 then .micro
  else if c = 0x44 ∨ c = 0x45 then .b64iter
  else if 0x46 ≤ c ∧ c ≤ 0x4A then .b64cmp
  else if 0x40 ≤ c ∧ c ≤ 0x4E then .b64
  else .alu

/-- Whether an opcode belongs to the plot binary64 unit. -/
def isB64 (c : Nat) : Bool := decide (0x40 ≤ c ∧ c ≤ 0x4E)

/-- The magnitude that a division works on (R165). -/
def divMag (signed : Bool) (x : Word) : Word := if signed && bit x 63 then 0 - x else x

/-- Cycles of a division over `n` bits (R100, R165). -/
def divCycles (n : Nat) (signed : Bool) (l r : BitVec n) : Nat :=
  if r = 0 then 3
  else
    let m (x : BitVec n) : BitVec n := if signed && x.msb then 0 - x else x
    let d := leadingZeros (m r) + 1 - leadingZeros (m l)
    6 + (d + 1) / 2

/-- Subnormal inputs of a divide or square root after flush-to-zero (R168, R169). -/
def subInputs (c : Nat) (ftz : Bool) (l r : Word) : Nat :=
  let n32 (x : Word) : Nat := x.toNat % 2 ^ 32
  if c = 0x34 then f32.subCount ftz [n32 l, n32 r]
  else if c = 0x35 then f32.subCount ftz [n32 l]
  else if c = 0x44 then f64.subCount ftz [l.toNat, r.toNat]
  else if c = 0x45 then f64.subCount ftz [l.toNat]
  else 0

/-- The latency of a vendor opcode (R99 to R101, R169, R192). -/
def latencyOf (q : Profile) (c : Nat) (ftz : Bool) (l r : Word) : Nat :=
  match unitOfOpc c with
  | .mul => 3
  | .div => divCycles 64 (c == 0x07 || c == 0x09) l r
  | .fma => 4
  | .micro => 14 + 2 * subInputs c ftz l r
  | .b64 => if q = .p0100 then 10 else 8
  | .b64cmp => if q = .p0100 then 6 else 5
  | .b64iter => (if q = .p0100 then 36 else 30) + 2 * subInputs c ftz l r
  | .alu => if c = 0x60 ∨ c = 0x61 then 2 else 1

/-- The units of an engine that a customer operation holds: the sequencer, the FMA unit and the divider. -/
structure UnitsHeld where
  seq : Bool
  fma : Bool
  div : Bool
  deriving DecidableEq, Repr

/-- The units that a customer operation holds: those of the routine in the sequencer, and those its entry word declares
for one that has entered EXEC and whose routine has not started (R203, R204). -/
def unitsHeld (s : State) (e : Nat) : UnitsHeld :=
  let x := s.eng e
  let entering (c : Nat) : UnitsHeld :=
    if 0xE0 ≤ c then { seq := true, fma := bit (uentry s e (c - 0xE0)) 27, div := bit (uentry s e (c - 0xE0)) 26 }
    else { seq := false, fma := false, div := false }
  let f := match x.exec with
    | some f => if f.closed then entering 0 else entering (nwOpc f.word).toNat
    | none => entering 0
  let i := match x.sx with
    | some i => if siOp i.word = 1 then entering (siSub i.word).toNat else entering 0
    | none => entering 0
  let r : UnitsHeld := match x.seqr with
    | some r => { seq := true, fma := r.fma, div := r.div }
    | none => entering 0
  { seq := f.seq || i.seq || r.seq, fma := f.fma || i.fma || r.fma, div := f.div || i.div || r.div }

/-- Whether a unit of an engine can take an operation in cycle `c`: the divider, the FMA unit and the microsequencer
are held by a routine that declares them, and the binary64 unit needs its grant (R166, R168, R170, R204). -/
def unitReady (s : State) (e : Nat) (c : Nat) (forFire : Bool) (u : ExecUnit) : Bool :=
  let x := s.eng e
  let h := unitsHeld s e
  match u with
  | .alu => true
  | .mul => true
  | .div => decide (x.divFree ≤ c) && !h.div
  | .fma => decide (x.fmaFree ≤ c) && !h.fma
  | .micro => decide (x.fmaFree ≤ c) && decide (x.seqFree ≤ c) && !h.seq && !h.fma
  | _ => x.b64grant.map (·.fire) == some forFire

/-- Whether a routine that declares units can take the sequencer in cycle `c` (R204, R212). -/
def routineReady (s : State) (e : Nat) (c : Nat) (fma div : Bool) : Bool :=
  let x := s.eng e
  let h := unitsHeld s e
  !h.seq && decide (x.seqFree ≤ c) && (!fma || (decide (x.fmaFree ≤ c) && !h.fma)) &&
    (!div || (decide (x.divFree ≤ c) && !h.div))

/-- Whether a customer opcode of an engine can start: the sequencer and its declared units are free (R204). -/
def customerReady (s : State) (e : Nat) (c : Nat) (k : Nat) : Bool :=
  routineReady s e c (bit (uentry s e k) 27) (bit (uentry s e k) 26)

/-- A vendor operation enters its unit in cycle `c` with its latency: the multiplier's entry, the divider, the FMA unit with
the sequencer, or the iterative section of the plot's binary64 unit is taken (R166, R168, R170, R204). -/
def occupy (e : EngNo) (strand : Bool) (opc c lam : Nat) (s : State) : State :=
  match unitOfOpc opc with
  | .mul => s.modEng e (fun x => { x with mulAt := some c })
  | .div => s.modEng e (fun x => { x with divFree := c + lam })
  | .micro => s.modEng e (fun x => { x with fmaFree := c + lam, seqFree := c + lam, seqStrand := strand })
  | .b64iter =>
    match (s.eng e).b64grant with
    | some g => s.modPlot (plotOf e) (fun p => { p with b64iter := g.cycle + 1 + lam - 4 })
    | none => s
  | _ => s

/-! ## Lanes (R30, R76) -/

/-- Whether a node destination needs the P3 lane, or the main lane; none for a null one. -/
def destLane (w : Word) (second : Bool) : Option Bool :=
  let d := if second then nwD2 w else nwD1 w
  if d = destNull then none
  else if !second && fmtBlock w then some true
  else some (nwPri w == 3)

/-- The lanes a fire's tokens need: P3 and main. -/
def fireLanes (w : Word) : Bool × Bool :=
  let c := (nwOpc w).toNat
  let ds := (destLane w false).toList ++ (destLane w true).toList
  let p3 := ds.contains true
  let main := ds.contains false
  if 0x70 ≤ c ∧ c ≤ 0x72 then (false, true)
  else if 0x74 ≤ c ∧ c ≤ 0x76 then (p3, true)
  else if c = 0x78 ∨ c = 0x79 then (true, main)
  else if c = 0x67 then (nwPri w == 3, nwPri w != 3)
  else if c = 0x54 then (false, false)
  else (p3, main)

/-- Whether a lane's holding position is free for an operation that needs it (R76). -/
def lanesFree (x : Engine) (need : Bool × Bool) : Bool :=
  (!need.1 || x.holdP3.isEmpty) && (!need.2 || x.holdMain.isEmpty)

/-! ## Iteration windows (R226, R227) -/

/-- The window entry of a context. -/
def windowOf (p : Plot) (ctx : BitVec 16) : Option Window := p.windows.find? (fun w => w.ctx == ctx)

/-- Whether a window admits an iteration (R227). -/
def Window.admits (w : Window) (j : BitVec 12) : Bool := decide ((j - w.b).toNat < w.w)

/-- A window entry at its allocation: b = 0 and h = 1, with the size that PLOT_PRN_WIN gives (R226). -/
def newWindow (s : State) (p : Nat) (ctx : BitVec 16) : Window :=
  { ctx := ctx, b := 0, h := 1, w := 2 ^ s.fld (preg p 0x110) 0 4, chain := [] }

/-- Whether an ITER_NEXT result for iteration j of a context would be held: by its window, by the window that the fire
allocates, or in the wait chain (R105, R226, R227, R229). -/
def wouldHold (s : State) (p : Nat) (ctx : BitVec 16) (j : BitVec 12) : Bool :=
  match windowOf (s.plot p) ctx with
  | some w => !w.admits j
  | none => decide (32 ≤ (s.plot p).windows.length) || !(newWindow s p ctx).admits j

/-! ## The fire's request (R73) -/

/-- Whether the fire in FIRE can enter EXEC in cycle `c`. -/
def fireReady (s : State) (e : Nat) (c : Nat) (f : Fire) : Bool :=
  let x := s.eng e
  let o := (nwOpc f.word).toNat
  x.exec.isNone &&
    (f.closed ||
      (lanesFree x (fireLanes f.word) &&
        (if 0xE0 ≤ o then customerReady s e c (o - 0xE0) && x.susp.isNone else unitReady s e c true (unitOfOpc o)) &&
        (o != 0x7C || decide (x.fences.length < 4)) &&
        (o != 0x64 || !((s.plot (e / 17)).holdIn.any (fun h => h.eng == bits (logicalD s e) 0 4) &&
          wouldHold s (e / 17) f.ctx (f.iter + 1)))))

/-! ## Strand registers (R115, R117) -/

/-- A register; W0 reads zero. -/
def getW (c : Ctx) (i : BitVec 4) : Word := c.w[i.toNat]'i.isLt

/-- The context with a register written; a write to W0 is discarded. -/
def setW (c : Ctx) (i : BitVec 4) (v : Word) : Ctx := if i = 0 then c else { c with w := c.w.set i.toNat v i.isLt }

/-- Targets of a register write: W0–W15, the flags Z N C V, the RW fields of FLAGS, CNT, and FLAGS.LRV (`tLrv`). -/
def tFlags : BitVec 5 := 16
def tMtf : BitVec 5 := 17
def tCnt : BitVec 5 := 18

/-- The context after a register write. -/
def applyWrite (c : Ctx) (t : BitVec 5) (v : Word) : Ctx :=
  if t = tFlags then { c with flags := put c.flags 0 (bits v 0 4) }
  else if t = tMtf then { c with flags := mtfFlags c.flags v }
  else if t = tCnt then { c with cnt := v }
  else if t = tLrv then { c with flags := putBit c.flags 13 (bit v 0) }
  else setW c (bits t 0 4) v

/-- Writes in the order in which they complete; those of one cycle keep their order of issue (R132). -/
def insertWrite (w : RegWrite) : List RegWrite → List RegWrite
  | [] => [w]
  | v :: vs => if w.due < v.due ∨ (w.due = v.due ∧ w.issued < v.issued) then w :: v :: vs else v :: insertWrite w vs

/-- Every write of a list applied in order. -/
def applyWrites (c : Ctx) (ws : List RegWrite) : Ctx := ws.foldl (fun c w => applyWrite c w.target w.value) c

/-- A write takes its place by issue, after those issued with it. -/
def insertIssue (w : RegWrite) : List RegWrite → List RegWrite
  | [] => [w]
  | v :: vs => if v.issued ≤ w.issued then v :: insertIssue w vs else w :: v :: vs

/-- Writes in the order of issue. -/
def byIssue (ws : List RegWrite) : List RegWrite := ws.foldl (fun l w => insertIssue w l) []

/-- The writes of the end of cycle `c` take effect: two results of EMIT, in the order in which they complete, and what
micro-routines write. Of writes to one register the later-issued stands; a third result waits one cycle, before those that
complete in that one (R132, R195). A write of FLAGS.LRV and one to W0 count as results: DESIGN CHOICE (assumption log
126). -/
def commitDue (c : Nat) (t : Strand) : Strand :=
  let ready := t.writes.filter (fun w => decide (w.due ≤ c))
  let later := t.writes.filter (fun w => !decide (w.due ≤ c))
  let emit := ready.filter (fun w => !w.direct)
  { t with ctx := applyWrites t.ctx (byIssue (emit.take 2 ++ ready.filter (·.direct))), writes := emit.drop 2 ++ later }

/-- The writes of the ends of `n` cycles from cycle `c` on. -/
def commitMany : Nat → Nat → Strand → Strand
  | 0, _, t => t
  | n + 1, c, t => commitMany n (c + 1) (commitDue c t)

/-- The context once every instruction in flight has completed, in cycle `c` of the engine (R154, R156). -/
def drained (c : Nat) (t : Strand) : Ctx :=
  let last := t.writes.foldl (fun m w => max m w.due) 0
  (commitMany (last + 2 - c + t.writes.length) (c - 1) t).ctx

/-- What an iteration of a repeat samples: the registers as the previous iteration left them (R137). -/
def repeatView (t : Strand) : Ctx := applyWrites t.ctx (t.writes.filter (·.rep))

/-- A write joins those on their way to the running strand. -/
def pushWrite (e : Nat) (w : RegWrite) (s : State) : State :=
  s.modEng e (fun x => { x with strand := x.strand.map (fun t => { t with writes := insertWrite w t.writes }) })

/-- The running strand changed. -/
def modStrand (e : Nat) (g : Strand → Strand) (s : State) : State :=
  s.modEng e (fun x => { x with strand := x.strand.map g })

/-- The write of a result of latency λ of an instruction in EXEC (R131). -/
def resultOf (i : SIssue) (target : BitVec 5) (v : Word) (lam : Nat) : RegWrite :=
  { due := i.issued + lam, issued := i.issued, target := target, value := v, rep := i.rep, direct := false }

/-- A result of latency λ for an instruction in EXEC (R131). -/
def writeResult (e : Nat) (i : SIssue) (target : BitVec 5) (v : Word) (lam : Nat) (s : State) : State :=
  pushWrite e (resultOf i target v lam) s

/-- A result for the D register. -/
def writeD (e : Nat) (i : SIssue) (v : Word) (lam : Nat) (s : State) : State :=
  writeResult e i ((siD i.word).setWidth 5) v lam s

/-! ## Saved contexts (R118) -/

/-- The word of bytes 0x78–0x7F. -/
def pcWord (c : Ctx) : Word := (0 : BitVec 40) ++ c.rsd ++ (0 : BitVec 1) ++ c.rsp ++ (0 : BitVec 1) ++ c.pc

/-- The return stack as two words of four 16-bit entries. -/
def rasWord (c : Ctx) (k : Nat) : Word :=
  (List.range 4).foldl (fun w i => put w (16 * i) ((c.ras[4 * k + i]?.getD 0).setWidth 16)) 0

/-- The twenty-four words of a saved context. -/
def ctxWords (c : Ctx) : List Word :=
  ((List.range 15).map (fun i => c.w[i + 1]?.getD 0)) ++
    [pcWord c, c.flags, c.cnt, c.rpc, rasWord c 0, rasWord c 1, c.trapWord, c.trapAddr, c.waitWord]

/-- The context saved into bytes 0x00–0xBF of a descriptor's image. -/
def saveCtx (d : Nat) (c : Ctx) (s : State) : State :=
  (ctxWords c).zipIdx.foldl (fun s p => (s.store (ctxBase d + 8 * p.2) 8 p.1).setMark (ctxBase d + 8 * p.2) .clean) s

/-- The context a descriptor's image holds: reserved bits are ignored, a PC has bits [1:0] zero (R116), RSD above 8 is taken
as 8, K comes from the descriptor and no reservation is held (R117, R118, R144). -/
def loadCtx (s : State) (d : Nat) (k : Bool) : Ctx :=
  let w (i : Nat) : Word := s.load (ctxBase d + 8 * i) 8
  let pcw := w 15
  let ras (i : Nat) : BitVec 15 := bits (w (19 + i / 4)) (16 * (i % 4) + 2) 13 ++ (0 : BitVec 2)
  let fl := w 16 &&& 0x1E0F
  { w := Vector.ofFn (fun i : Fin 16 => if i.val = 0 then 0 else w (i.val - 1))
    pc := bits pcw 2 13 ++ (0 : BitVec 2)
    flags := putBit fl 8 k
    cnt := w 17
    rpc := w 18
    ras := Vector.ofFn (fun i : Fin 8 => ras i.val)
    rsp := bits pcw 16 3
    rsd := if (bits pcw 20 4).toNat ≤ 8 then bits pcw 20 4 else 8
    trapWord := w 21 &&& 0x1FF
    trapAddr := w 22
    waitWord := w 23 &&& 0x0FFF030F }

/-- The engine without its running strand. -/
def clearStrand (e : Nat) (s : State) : State :=
  s.modEng e (fun x => { x with
    strand := none, sx := none, stop := false, resv := none, fences := x.fences.filter (fun k => k.node.isSome) })

/-- The running strand will leave with a reason: it issues nothing further, its reservation breaks, and what it has issued
completes before its context is saved (R144, R154, R318, R323). -/
def leaveEngine (e : EngNo) (why : LeaveReason) (deadline : Word) (g : Ctx → Ctx) (s : State) : State :=
  (modStrand e (fun t => { t with
    ctx := g t.ctx, leave := some (why, deadline), block := .none, fetch := none, dec := none, read := none }) (dropResv e s)).modEng e
      (fun x => { x with sx := none })

/-! ## Traps (R156, R157) -/

/-- Causes. -/
def tcIllegal : BitVec 8 := 1
def tcPriv : BitVec 8 := 2
def tcAddress : BitVec 8 := 3
def tcAlign : BitVec 8 := 4
def tcToken : BitVec 8 := 5
def tcRstack : BitVec 8 := 6
def tcFp : BitVec 8 := 7
def tcSoft : BitVec 8 := 8
def tcData : BitVec 8 := 9

/-- ENG_STRAP and its fields record a trap (R161). -/
def recordTrap (e : Nat) (cause : BitVec 8) (desc : BitVec 14) (pc : BitVec 15) (addr : Word) (s : State) : State :=
  let more := s.flag (ereg e 0x110) 31 || s.flag (ereg e 0x110) 30
  let s := s.wr (ereg e 0x110) ((1 : BitVec 1) ++ BitVec.ofBool more ++ (0 : BitVec 6) ++ cause ++ (0 : BitVec 2) ++ desc)
  let s := s.wr (ereg e 0x114) (pc.setWidth 32)
  s.wr64 (ereg e 0x118) addr

/-- The running strand traps, at a PC: what it has issued completes, its image will hold the cause and the address, its
engine event is raised and it leaves as trapped (R156, R157). -/
def trapCtx (e : EngNo) (cause : BitVec 8) (pc : BitVec 15) (addr : Word) (g : Ctx → Ctx) (s : State) : State :=
  match (s.eng e).strand with
  | none => s
  | some t =>
    let s := raiseEngine e (recordTrap e cause t.desc pc addr s)
    leaveEngine e .trap 0
      (fun c => { g c with pc := pc, trapWord := (0x100 : Word) ||| cause.setWidth 64, trapAddr := addr }) s

/-- The running strand traps at an instruction that has issued; a trapping iteration counts as not completed (R139). -/
def trapIssued (e : EngNo) (at_ : BitVec 15) (rep : Bool) (cause : BitVec 8) (pc : BitVec 15) (addr : Word) (s : State) :
    State :=
  if rep then trapCtx e cause at_ addr (fun c => { c with flags := putBit c.flags 12 true, rpc := c.rpc + 1 }) s
  else trapCtx e cause pc addr id s

/-- The running strand traps at the instruction in EXEC. -/
def strandTrap (e : EngNo) (i : SIssue) (cause : BitVec 8) (pc : BitVec 15) (addr : Word) (s : State) : State :=
  trapIssued e i.pc i.rep cause pc addr s

/-- A trap at the instruction that READ holds, before it issues. -/
def readTrap (e : EngNo) (cause : BitVec 8) (pc : BitVec 15) (addr : Word) (s : State) : State :=
  trapCtx e cause pc addr id s

/-! ## Fences (R111, R150) -/

/-- A strand FENCE completes: a pending exception is taken as an FP trap after the FENCE, or the strand goes on
(R150, R187). -/
def strandFenceDone (e : EngNo) (s : State) : State :=
  match (s.eng e).strand with
  | none => s
  | some t =>
    let s := modStrand e (fun t => { t with block := .none }) s
    if s.flag (ereg e 0x80) 30 then readTrap e tcFp t.ctx.pc 0 (s.setFlag (ereg e 0x80) 30 false) else s

/-- The fence whose target the acknowledgement count has reached and whose operation entered EXEC first (R187). -/
def reachedFence (x : Engine) : Option FenceSlot :=
  (x.fences.filter (fun k => !bit (x.acnt - k.target) 15)).foldl (fun best k => match best with
    | none => some k
    | some b => if k.issued < b.issued then some k else some b) none

/-- Fences whose target the acknowledgement count has reached complete, the one whose operation entered EXEC first before
the others: a node FENCE delivers a pending floating-point exception and releases its result; a strand FENCE ends its wait
(R111, R150, R187, R188). -/
def completeFences (e : EngNo) : Nat → State → State
  | 0, s => s
  | fuel + 1, s =>
    let x := s.eng e
    match reachedFence x with
    | none => s
    | some k =>
        let s := s.setEng e { x with fences := x.fences.erase k }
        match k.node with
        | none => completeFences e fuel (strandFenceDone e s)
        | some r =>
          let s := match r.origin with
            | .node node ctx _ _ => deliverFpx e false node ctx s
            | _ => s
          completeFences e fuel (s.modEng e (fun x => addResult { r with due := max r.due x.cycle } x))

/-- Whether an acknowledgement's tag is that of no write: SPACE or OP beyond those of the writes it can copy (R42, R52). -/
def badAck (t : BitVec 64) : Bool := tagSpace t != 0 || decide (2 < (tagOp t).toNat)

/-- GRN_ACK_INTAKE: a GRN_ACK adds one to the acknowledgement count, and fences complete; a poisoned or malformed one is
discarded (R52, R56, R111). -/
def execGrnAckIntake (e : EngNo) (s : State) : Host.Outcome State Fault Refusal :=
  let x := s.eng e
  match x.acks with
  | [] => .next s
  | f :: fs =>
    let s := s.setEng e { x with acks := fs }
    if f.poison then .next (detect (tokenDetect 0x14 e f 0) s)
    else if badAck f.tag then .next (detect (tokenDetect 0x12 e f 0) s)
    else .next (completeFences e 4 (s.modEng e (fun x => { x with acnt := x.acnt + 1 })))

/-- A strand FENCE that waits takes a slot once the store buffer is empty and one is free (R150). -/
def fenceSlotStep (e : EngNo) (s : State) : State :=
  let x := s.eng e
  match x.strand with
  | some t =>
    match t.block with
    | .fenceSlot pc at_ =>
      if x.stores.isEmpty ∧ x.fences.length < 4 then
        let s := s.setEng e { x with
          fences := x.fences ++ [{ target := x.wcnt, node := none, issued := at_ }]
          strand := some { t with block := .fence pc } }
        completeFences e 4 s
      else s
    | _ => s
  | none => s

/-! ## Legal instructions (R120 to R126, R136, R147, R209) -/

/-- Whether an OPR's SUB is legal with its operand fields. -/
def oprLegal (s : State) (e : Nat) (w : BitVec 32) : Bool :=
  let c := (siSub w).toNat
  if c = 0x26 then siD w == 0
  else if 0xE0 ≤ c ∧ c ≤ 0xEF then
    let u := uentry s e (c - 0xE0)
    bit u 31 && bit u 29 && (bit u 28 || siB w == 0)
  else if c ≤ 0x4E then
    match vendorShape s.profile c with
    | none => false
    | some .l => siB w == 0
    | some _ => true
  else false

/-- Whether a SYS instruction's fields are legal (R147). -/
def sysLegal (w : BitVec 32) : Bool :=
  let d := siD w == 0
  let a := siA w == 0
  let b := siB w == 0
  match (siSub w).toNat with
  | 0x01 => b
  | 0x02 => bits (siD w) 2 2 == 0
  | 0x03 => d
  | 0x04 => true
  | 0x05 => d && a && b
  | 0x06 => d && a && b
  | 0x07 => a && b
  | 0x08 => d && b
  | 0x09 => a && b
  | 0x0A => d && b
  | 0x0B => a && b
  | 0x0C => d && a && b
  | 0x0D => d && a && b
  | 0x0E => a && b
  | 0x0F => b
  | _ => false

/-- Whether an instruction word is legal in an engine (R120). REP's successor is checked apart. -/
def siLegal (s : State) (e : Nat) (w : BitVec 32) : Bool :=
  let low := bits w 0 6 == 0
  match (siOp w).toNat with
  | 0x01 => low && oprLegal s e w
  | 0x02 => true
  | 0x03 => true
  | 0x04 => true
  | 0x05 => true
  | 0x06 => bits w 8 10 == 0
  | 0x07 => siA w == 0
  | 0x08 => siD w == 0
  | 0x10 => true
  | 0x11 => true
  | 0x12 => true
  | 0x13 => siSP w && s.profile != .p0100
  | 0x14 => siSP w && bits w 16 2 == 2 && s.profile != .p0100
  | 0x15 => siSP w && bits w 16 2 == 3
  | 0x16 => siSP w && bits w 16 2 == 3
  | 0x17 => bits w 16 2 == 3
  | 0x18 => !siSP w
  | 0x20 => decide ((siD w).toNat < 12)
  | 0x21 => siD w == 0
  | 0x22 => siD w == 0
  | 0x23 => low && siD w == 0 && siB w == 0 && siSub w == 0
  | 0x24 => low && siD w == 0 && siB w == 0 && siSub w == 0
  | 0x25 => low && siD w == 0 && siA w == 0 && siB w == 0 && siSub w == 0
  | 0x30 => low && sysLegal w
  | 0x31 => bits w 0 26 == 0
  | _ => false

/-- Whether REP can repeat an instruction (R137). -/
def repeatable (s : State) (e : Nat) (w : BitVec 32) : Bool :=
  let o := (siOp w).toNat
  siLegal s e w &&
    ((o == 1 && decide ((siSub w).toNat < 0xE0)) || decide (2 ≤ o ∧ o ≤ 8) ||
      (decide (0x10 ≤ o ∧ o ≤ 0x14) && siSP w) ||
      (o == 0x30 && (siSub w == 0x07 || siSub w == 0x09 || siSub w == 0x0A)))

/-- Whether an iteration reads its own destination, LADD apart (R137). One whose destination and a source are both W0 does
not: nothing is written that it could read; DESIGN CHOICE (assumption log 128). -/
def readsOwnDest (w : BitVec 32) : Bool :=
  let o := (siOp w).toNat
  let d := siD w
  if o = 1 then siSub w != 0x26 && (siA w == d || siB w == d || siSub w == 0x33 || siSub w == 0x43) && d != 0
  else if 2 ≤ o ∧ o ≤ 6 then siA w == d && d != 0
  else if o = 7 then d != 0
  else if o = 0x10 ∨ o = 0x11 then siA w == d && d != 0
  else false

/-- The effective address of an M-format instruction (R125). -/
def effAddr (i : SIssue) : Word := i.a + siDisp i.word

/-- The latency of a frame-store load (R134, R160). -/
def frameLat (q : Profile) (off n : Nat) : Nat :=
  (if q = .p0100 then 3 else 2) + (if off % 8 + n ≤ 8 then 0 else 1)

/-- The latency by which such iterations are spaced, of a load the least, which the load itself lengthens (R137, R141). -/
def repeatLatency (q : Profile) (i : SIssue) : Nat :=
  let o := (siOp i.word).toNat
  if o = 1 then latencyOf q (siSub i.word).toNat i.ftz i.a i.b
  else if o = 0x10 ∨ o = 0x11 then frameLat q 0 1
  else 1

/-- What a strand instruction needs of EXEC and EMIT before it issues (R133). -/
def instReady (s : State) (e : Nat) (c : Nat) (w : BitVec 32) : Bool :=
  let x := s.eng e
  let o := (siOp w).toNat
  let sub := (siSub w).toNat
  if !siLegal s e w then true
  else if o = 1 then
    if 0xE0 ≤ sub then customerReady s e c (sub - 0xE0)
    else if sub = 0x26 then true
    else unitReady s e c false (unitOfOpc sub)
  else if o = 0x14 then unitReady s e c false .fma
  else if o = 0x12 ∨ (o = 0x18 ∧ 2 ≤ (bits w 16 2).toNat) then decide (x.stores.length < 4)
  else if o = 0x30 then
    if sub = 2 then lanesFree x (bits w 22 2 == 3, bits w 22 2 != 3)
    else if sub = 3 then lanesFree x (true, false)
    else if sub = 4 then lanesFree x (false, true)
    else true
  else true

/-! ## Switches (R318) -/

/-- Whether a switch is due on an engine. -/
def switchDue (x : Engine) : Bool :=
  match x.standby with
  | none => match x.strand with
    | none => false
    | some t => x.stop || t.leave.isSome
  | some b =>
    match x.strand with
    | none => true
    | some t => x.stop || t.leave.isSome || decide (t.epri.toNat < b.epri.toNat) || (t.quantum && t.epri == b.epri)

/-- The priority with which the incoming strand counts as requesting, while a switch is due or running (R318). -/
def incomingPri (x : Engine) (c : Nat) : Option (BitVec 5) :=
  match x.standby, x.strand with
  | some b, t => if switchDue x then some b.epri else (match t with
      | some t => if c < t.startAt then some t.epri else none
      | none => none)
  | none, some t => if c < t.startAt then some t.epri else none
  | none, none => none

/-! ## Issue arbitration (R74) -/

/-! ## Events of a micro-routine (R211) -/

/-- Whether an operation's unit is the sequencer or one the routine holds. -/
def unitHeld (r : Routine) (u : ExecUnit) : Bool :=
  match u with
  | .micro => true
  | .fma => r.fma
  | .div => r.div
  | _ => false

/-- Whether a fire needs the sequencer or a unit the routine holds. -/
def fireNeeds (r : Routine) (f : Fire) : Bool :=
  let o := (nwOpc f.word).toNat
  !f.closed && (decide (0xE0 ≤ o) || unitHeld r (unitOfOpc o))

/-- Whether a strand instruction needs the sequencer or a unit the routine holds. -/
def instNeeds (r : Routine) (w : BitVec 32) : Bool :=
  let o := (siOp w).toNat
  let c := (siSub w).toNat
  (o == 1 && (decide (0xE0 ≤ c) || (c != 0x26 && unitHeld r (unitOfOpc c)))) || (o == 0x14 && r.fma)

/-- Whether a P3 fire waits for the sequencer or a unit that a routine holds (R211). `suspended`: a customer fire that
R212 keeps from requesting EXEC does not count (assumption log 13). -/
def firePending (s : State) (e : Nat) (r : Routine) (suspended : Bool) : Bool :=
  match (s.eng e).fire with
  | some f => f.pri == 3 && fireNeeds r f && !(suspended && decide (0xE0 ≤ (nwOpc f.word).toNat))
  | none => false

/-- Whether the other condition of R211 holds for a routine: a kernel-band instruction needs what a node routine holds, or a
switch of a strand routine's strand is asked for. -/
def strandPending (s : State) (e : Nat) (r : Routine) : Bool :=
  let x := s.eng e
  match r.owner with
  | .strand _ => switchDue x
  | .node _ _ =>
    match x.strand with
    | some t => (match t.read with
      | some i => !i.bad && siLegal s e i.word && instNeeds r i.word && decide (s.fld (ereg e 0x10) 8 5 ≤ t.epri.toNat)
      | none => false)
    | none => false

/-- Whether a condition of R211 holds for a routine. -/
def eventPending (s : State) (e : Nat) (r : Routine) (suspended : Bool) : Bool :=
  firePending s e r suspended || strandPending s e r

/-- The cycles in which the events that wait for the running routine arose are kept for R214. -/
def noteEvent (e : Nat) (s : State) : State :=
  match (s.eng e).seqr with
  | some r =>
    let c := (s.eng e).cycle
    let since (pending : Bool) (old : Option Nat) : Option Nat := if pending then some (old.getD c) else none
    s.modEng e (fun x => { x with seqr := some { r with
      fireSince := since (firePending s e r false) r.fireSince
      strandSince := since (strandPending s e r) r.strandSince } })
  | none => s

/-- What enters EXEC. -/
inductive Choice where
  | idle | fire | strand
  deriving DecidableEq, Repr

/-- The algorithm of R74, with the engine after it: `kernel` says that the strand's priority is at or above
ENG_ARB.PTHRESH. -/
def arbitrate (tw sw : Nat) (t3 t str kernel : Bool) (x : Engine) : Choice × Engine :=
  if t3 then (.fire, x)
  else if str && kernel then (.strand, x)
  else if t && str then
    let x := if x.tc = 0 ∧ x.sc = 0 then { x with tc := tw, sc := sw } else x
    if 0 < x.tc ∧ (x.turn = .token ∨ x.sc = 0) then (.fire, { x with tc := x.tc - 1, turn := .strand })
    else (.strand, { x with sc := x.sc - 1, turn := .token })
  else if t then (.fire, x)
  else if str then (.strand, x)
  else (.idle, x)

/-! ## The strand pipeline (R130, R136 to R139) -/

/-- FETCH reads the slot of a PC (R116, R298). -/
def fetchInst (e : EngNo) (pc : BitVec 15) (s : State) : Inst × State :=
  let r := localLoad .imem e (8 * (pc.toNat / 8)) 8 s
  match r.1 with
  | some w => ({ pc := pc, word := if bit pc 2 then bits w 32 32 else bits w 0 32, bad := false, cntS := 0 }, r.2)
  | none => ({ pc := pc, word := 0, bad := true, cntS := 0 }, r.2)

/-- The pipeline moves one cycle: DECODE to READ, FETCH to DECODE, the next PC to FETCH (R130). -/
def advance (e : EngNo) (c : Nat) (s : State) : State :=
  match (s.eng e).strand with
  | none => s
  | some t =>
    if t.leave.isSome then s else
    let t := match t.read, t.dec with
      | none, some i => { t with read := some { i with cntS := t.ctx.cnt }, dec := none }
      | _, _ => t
    let r : Strand × State := match t.dec, t.fetch with
      | none, some pc =>
        let f := fetchInst e pc s
        ({ t with dec := some f.1, fetch := none }, f.2)
      | _, _ => (t, s)
    let t := r.1
    let t := if t.fetch.isNone ∧ t.fetchAt ≤ c then { t with fetch := some t.npc, npc := t.npc + 4 } else t
    r.2.modEng e (fun x => { x with strand := some t })

/-- The strand whose next instruction in the pipeline is dropped (R136: CNT zero): the one behind it takes its place, so
that it can issue in the cycle after REP (R159). -/
def dropNext (e : EngNo) (c : Nat) (t : Strand) (s : State) : Strand × State :=
  match t.dec, t.fetch with
  | some _, some pc =>
    let f := fetchInst e pc s
    let more := t.fetchAt ≤ c
    ({ t with dec := some f.1, fetch := if more then some t.npc else none, npc := if more then t.npc + 4 else t.npc }, f.2)
  | some _, none => ({ t with dec := none }, s)
  | none, some _ => ({ t with fetch := none }, s)
  | none, none => ({ t with npc := t.npc + 4 }, s)

/-- The instruction word behind a REP; none from an uncorrectable slot. -/
def nextWord (s : State) (e : Nat) (t : Strand) (pc : BitVec 15) : Option (BitVec 32) :=
  match t.dec with
  | some i => if i.bad then none else some i.word
  | none =>
    let a := imemBase e + (pc + 4).toNat
    if s.mark (a / 8 * 8) = .double then none else some (bits (s.load a 4) 0 32)

/-- REP takes its issue cycle, outside EXEC (R136, R137). A repeated instruction that cannot be read makes REP no ILLEGAL
instruction: it takes its own DATA_ECC trap when it is to issue, and with CNT zero it is passed over: DESIGN CHOICE (R137,
R156; assumption log 127). -/
def issueRep (e : EngNo) (t : Strand) (i : Inst) (s : State) : State :=
  if (nextWord s e t i.pc).any (fun w => !repeatable s e w) then readTrap e tcIllegal i.pc 0 s
  else if i.cntS = 0 then
    let r := dropNext e (s.eng e).cycle { t with read := none, ctx := { t.ctx with pc := i.pc + 8 } } s
    r.2.modEng e (fun x => { x with strand := some r.1 })
  else
    modStrand e (fun t => { t with
      read := none
      writes := t.writes.map (fun w => { w with rep := false })
      ctx := { t.ctx with pc := i.pc + 4, rpc := i.cntS, flags := putBit t.ctx.flags 12 true } }) s

/-- The operands READ samples for an instruction. -/
def sample (s : State) (e : Nat) (t : Strand) (i : Inst) (c : Nat) (rep : Bool) : SIssue :=
  let v := if rep then repeatView t else t.ctx
  let ctl := s.rd (ereg e 0x90)
  { pc := i.pc, word := i.word, a := getW v (siA i.word), b := getW v (siB i.word), d := getW v (siD i.word),
    flags := v.flags, cnt := v.cnt, cntS := i.cntS, rm := bits ctl 0 3, ftz := bit ctl 3, issued := c, rep := rep,
    waited := false, grow := 0, stalled := false }

/-- The next instruction of the running strand enters EXEC (R130, R136). -/
def issueStrand (e : EngNo) (c : Nat) (t : Strand) (i : Inst) (s : State) : State :=
  let ra := bit t.ctx.flags 12
  if i.bad then readTrap e tcData i.pc (i.pc.setWidth 64) s
  else if !siLegal s e i.word ∨ (ra ∧ !repeatable s e i.word) then readTrap e tcIllegal i.pc 0 s
  else
    let sx := sample s e t i c ra
    let s := s.inc64 (ereg e 0x38)
    let t' : Strand :=
      if ra then
        let n := t.ctx.rpc - 1
        let lfadd : Bool := (siOp i.word).toNat == 0x14
        let gap := if lfadd then 4 else if readsOwnDest i.word then repeatLatency s.profile sx else 1
        if n = 0 then
          { t with
            read := none, issueAt := if lfadd then c + gap else t.issueAt
            ctx := { t.ctx with pc := i.pc + 4, rpc := 0, flags := putBit t.ctx.flags 12 false } }
        else { t with issueAt := c + gap, ctx := { t.ctx with rpc := n } }
      else { t with read := none, ctx := { t.ctx with pc := i.pc + 4 } }
    let s := s.modEng e (fun x => { x with strand := some t', sx := some sx })
    let sub := (siSub i.word).toNat
    if siOp i.word = 1 ∧ sub < 0xE0 ∧ sub ≠ 0x26 then occupy e true sub c (latencyOf s.profile sub sx.ftz sx.a sx.b) s else s

/-- Whether the running strand can issue in cycle `c`, its unit apart: the instruction in READ, if it can. -/
def strandHas (s : State) (e : Nat) (c : Nat) : Option (Strand × Inst) :=
  let x := s.eng e
  match x.strand with
  | some t =>
    match t.read with
    | some i =>
      if t.issueAt ≤ c ∧ t.block = .none ∧ t.leave.isNone ∧ x.sx.isNone ∧ !switchDue x ∧ !s.flag (ereg e 4) 1 then some (t, i) else none
    | none => none
  | none => none

/-- Whether the instruction in READ is a REP that takes its own cycle. -/
def isRep (t : Strand) (i : Inst) : Bool := !i.bad && siOp i.word == 0x31 && bits i.word 0 26 == 0 && !bit t.ctx.flags 12

/-- A restored repeat with no iteration left moves past its instruction (R139). -/
def skipDone (e : Nat) (s : State) : State :=
  modStrand e (fun t => match t.read with
    | some i =>
      if bit t.ctx.flags 12 ∧ t.ctx.rpc = 0 then
        { t with read := none, ctx := { t.ctx with pc := i.pc + 4, flags := putBit t.ctx.flags 12 false } }
      else t
    | none => t) s

/-- What R74 chooses in cycle `c`, with the engine's credits after it. -/
def chooseIssue (s : State) (e : Nat) (c : Nat) : Choice × Engine :=
  let x := s.eng e
  let arb := s.rd (ereg e 0x10)
  let th := (bits arb 8 5).toNat
  let fr := match x.fire with
    | some f => fireReady s e c f
    | none => false
  let p3 := match x.fire with
    | some f => f.pri == 3
    | none => false
  let own : Option (BitVec 5) := match strandHas s e c with
    | some (t, i) => if !isRep t i && instReady s e c i.word then some t.epri else none
    | none => none
  let req : Option (BitVec 5) := match own with
    | some p => some p
    | none => incomingPri x c
  let kernel := match req with
    | some p => decide (th ≤ p.toNat)
    | none => false
  arbitrate (bits arb 0 4).toNat (bits arb 4 4).toNat (fr && p3) (fr && !p3) req.isSome kernel x

/-- Operations that have completed before cycle `c` raise their flags, the earliest-issued of a cycle first; one that its
strand waits for in precise mode traps when an exception it has raised is enabled then, and otherwise makes its writes
(R158, R185, R186, R189). -/
def raiseDue (e : EngNo) (c : Nat) (s : State) : State :=
  let rs := (s.eng e).raises
  let s := s.modEng e (fun x => { x with raises := rs.dropWhile (fun k => decide (k.due < c)) })
  let s := (rs.takeWhile (fun k => decide (k.due < c))).foldl (fun s k => raiseFpx e k.origin k.flags k.pend s) s
  match (s.eng e).strand with
  | some t =>
    match t.block with
    | .precise pc rep due flags ws =>
      if c ≤ due then s
      else if (bits flags 0 5 &&& bits (s.rd (ereg e 0x80)) 8 5) != 0 then trapIssued e pc rep tcFp pc 0 s
      else ws.foldl (fun s w => pushWrite e w s) (modStrand e (fun t => { t with block := .none }) s)
    | _ => s
  | none => s

/-- The fire in FIRE enters EXEC in cycle `c` and takes its unit. -/
def issueFire (e : EngNo) (c : Nat) (f : Fire) (x : Engine) (s : State) : State :=
  let s := (s.setEng e { x with fire := none, exec := some { f with issued := c } }).inc64 (ereg e 0x30)
  let o := (nwOpc f.word).toNat
  if f.closed ∨ 0xE0 ≤ o then s else occupy e false o c (latencyOf s.profile o f.ftz f.l f.r) s

/-- EXEC_ISSUE: one PCLK cycle of issue. Flags of completed operations are raised, writes that are due take effect,
arbitration chooses what enters EXEC, and the strand pipeline moves (R74, R130, R185). -/
def execExecIssue (e : EngNo) (s : State) : Host.Outcome State Fault Refusal :=
  if !inService s e then .next s
  else
    let c := (s.eng e).cycle + 1
    let s := raiseDue e c (s.modEng e (fun x => { x with cycle := c, strand := x.strand.map (commitDue (c - 2)) }))
    let s := s.modEng e (fun x =>
      if switchDue x then { x with dueAt := some (x.dueAt.getD c) }
      else { x with dueAt := none, strand := x.strand.map (fun t => { t with fullWait := false }) })
    let s := skipDone e (fenceSlotStep e s)
    let has := strandHas s e c
    let ch := chooseIssue s e c
    let s := match ch.1, (s.eng e).fire with
      | .fire, some f => issueFire e c f ch.2 s
      | _, _ => s.setEng e ch.2
    let s := match has with
      | some (t, i) =>
        if isRep t i then issueRep e t i s
        else if ch.1 = .strand ∧ instReady s e c i.word then issueStrand e c t i s
        else s
      | none => s
    .next (noteEvent e ((advance e c s).modEng e (fun x => { x with b64grant := none })))

/-! ## EMIT (R76 to R78) -/

/-- Whether an engine's token takes the loopback: its ENG is the own logical number, LOOP_DIS is 0, its input lane has
room and no earlier token to the own engine with its priority is in the output row (R78). -/
def loopsBack (s : State) (e : Nat) (f : Flit) : Bool :=
  let x := s.eng e
  let own := logicalD s e
  let lane := if f.pri = 3 then x.inP3.length else if f.pri = 2 then x.inP2.length
    else if f.pri = 1 then x.inP1.length else x.inP0.length
  (f.kind == kOperand) && f.dev == ownId s && f.engOf == own && !s.flag (ereg e 4) 2 &&
    decide (lane < (if f.pri = 3 then 4 else 8)) &&
    !((x.outP3.map (·.2) ++ x.outMain.map (·.2) ++ x.holdP3 ++ x.holdMain).any (fun g => g.kind == kOperand && g.engOf == own &&
      g.dev == ownId s && g.pri == f.pri))

/-- A flit joins its lane of the input row. -/
def toInput (f : Flit) (x : Engine) : Engine :=
  if Flit.pri f = 3 then { x with inP3 := x.inP3 ++ [f] }
  else if Flit.pri f = 2 then { x with inP2 := x.inP2 ++ [f] }
  else if Flit.pri f = 1 then { x with inP1 := x.inP1 ++ [f] }
  else { x with inP0 := x.inP0 ++ [f] }

/-- A flit joins its lane of the output row in crossbar cycle `t`, or the lane's holding position, which holds both tokens
of a result whose lane has no room: DESIGN CHOICE (R76; assumption log 95). -/
def toOutput (t : Nat) (f : Flit) (p3 : Bool) (x : Engine) : Engine :=
  if p3 then
    if x.holdP3.isEmpty ∧ x.outP3.length < 4 then { x with outP3 := x.outP3 ++ [(t, f)] } else { x with holdP3 := x.holdP3 ++ [f] }
  else
    if x.holdMain.isEmpty ∧ x.outMain.length < 16 then { x with outMain := x.outMain ++ [(t, f)] }
    else { x with holdMain := x.holdMain ++ [f] }

/-- The holding positions empty into their lanes as far as there is room (R76). -/
def flushHolds (t : Nat) (x : Engine) : Engine :=
  let a := 4 - x.outP3.length
  let b := 16 - x.outMain.length
  { x with
    outP3 := x.outP3 ++ (x.holdP3.take a).map (fun f => (t, f)), holdP3 := x.holdP3.drop a
    outMain := x.outMain ++ (x.holdMain.take b).map (fun f => (t, f)), holdMain := x.holdMain.drop b }

/-- The lane a token needs: P3 or main. -/
def protoP3 (k : Proto) : Bool := k.payloads.isEmpty && emitPri k.kind k.pri == 3

/-- One token is checked, stamped and written into the output row or the loopback (R51, R76, R78). -/
def emitProto (e : EngNo) (k : Proto) (s : State) : State :=
  let x := s.eng e
  let ep := (s.plot (e.val / 17)).epoch
  let t := (s.plot (e.val / 17)).xcycle
  let fs := protoFlits k ep x.seq
  if malformed s k then detect (tokenDetect 0x12 e (fs.headD 0) 0) s
  else
    let s := s.modEng e (fun x => { x with seq := x.seq + 1 })
    match fs with
    | [f] => if loopsBack s e f then s.modEng e (toInput f) else s.modEng e (toOutput t f (protoP3 k))
    | _ => fs.foldl (fun s f => s.modEng e (toOutput t f false)) s

/-- The first result in the order of completion that EMIT can take (R76). -/
def pickResult (x : Engine) : Option Result :=
  let ready := x.results.filter (fun r => decide (r.due ≤ x.cycle) &&
    (r.toks.all (fun k => if protoP3 k then x.holdP3.isEmpty else x.holdMain.isEmpty)))
  ready.foldl (fun best r => match best with
    | none => some r
    | some b => if r.due < b.due ∨ (r.due = b.due ∧ r.issued < b.issued) then some r else some b) none

/-- The flits of an engine's holding positions in EMIT. -/
def inHolds (x : Engine) : List Flit := x.holdP3 ++ x.holdMain

/-- The engine once EMIT has taken a result: tokens of a drained store that a holding position took are known as such
(R141). -/
def noteHeld (o : Origin) (before : Engine) (x : Engine) : Engine :=
  { x with bufHeld := (x.bufHeld.filter (fun f => (inHolds x).contains f)) ++
      (if o = .buffer then (inHolds x).filter (fun f => !(inHolds before).contains f) else []) }

/-- EMIT_RESULT: EMIT takes the next completed result and writes its tokens (R76). -/
def execEmitResult (e : EngNo) (s : State) : Host.Outcome State Fault Refusal :=
  let s := s.modEng e (flushHolds (s.plot (e.val / 17)).xcycle)
  match pickResult (s.eng e) with
  | none => .next s
  | some r =>
    let s := s.modEng e (fun x => { x with results := x.results.erase r })
    .next ((r.toks.foldl (fun s k => emitProto e k s) s).modEng e (noteHeld r.origin (s.eng e)))

end Sys2Proof.Machine
end

