-- ==== Sys2Proof/Machine/Banks.lean ====
section
/-! DEFINITION. The banks of the granary: address mapping, presence and data of a word, the state of a bank, the word check,
and the accesses of the two ports (R278 to R285, R295, R296). -/

namespace Sys2Proof.Machine

/-! ## Mapping (R278) -/

/-- The quadrant of a granary word address (R278). -/
def quadOf (w : BitVec 23) : Nat :=
  let k : BitVec 5 := bits w 18 5
  (bits k 0 2 ^^^ bits k 3 2).toNat

/-- A quadrant. -/
def quad (s : State) (q : Nat) : Quad := s.quads[q % 4]'(Nat.mod_lt _ (by decide))

/-- The state with a quadrant replaced. -/
def setQuad (q : Nat) (x : Quad) (s : State) : State :=
  { s with quads := s.quads.set (q % 4) x (Nat.mod_lt _ (by decide)) }

/-- The word offset within a quadrant of a word address. -/
def quadWord (w : BitVec 23) : BitVec 21 := bits w 20 3 ++ bits w 0 18

/-- The global bank of a word address. -/
def bankOf (w : BitVec 23) : Nat := 128 * quadOf w + (bits (quadWord w) 0 7).toNat

/-- The row of a word address in its bank. -/
def rowOf (w : BitVec 23) : Nat := (bits (quadWord w) 7 14).toNat

/-- The byte address of a word. -/
def wbyte (w : BitVec 23) : Nat := 8 * w.toNat

/-- The word at a byte address of an area of the granary, which goes on at byte 0 past the last one (assumption log 111). -/
def areaWord (a : Nat) : BitVec 23 := BitVec.ofNat 23 (a / 8)

/-- A word's data. -/
def grnWord (s : State) (w : BitVec 23) : Word := s.load (wbyte w) 8

/-- Presence codes. -/
def pEmpty : BitVec 2 := 0
def pFull : BitVec 2 := 1
def pDeferred : BitVec 2 := 2

/-- A word's presence. -/
def presOf (s : State) (w : BitVec 23) : BitVec 2 := SMap.get s.pres w.toNat 0

/-- The state with a word's presence changed. -/
def setPres (w : BitVec 23) (v : BitVec 2) (s : State) : State := { s with pres := SMap.set s.pres w.toNat v 0 }

/-- The state of a global bank. -/
def bankState (s : State) (b : Nat) : BankState := SMap.get s.banks b .on

/-- The state with a bank's state changed. -/
def setBank (b : Nat) (v : BankState) (s : State) : State := { s with banks := SMap.set s.banks b v .on }

/-! ## Banks that take no access (R295, R296, R444) -/

/-- Whether a word's bank is OFF or in RETAIN. -/
def bankDark (s : State) (w : BitVec 23) : Bool :=
  bankState s (bankOf w) == .off || bankState s (bankOf w) == .retain

/-- Whether a word's bank is waking, so that an access waits (R295). -/
def bankWaking (s : State) (w : BitVec 23) : Bool :=
  bankState s (bankOf w) == .waking true || bankState s (bankOf w) == .waking false

/-- Whether a word lies in its quadrant's borrowed stripe (R441, R444). -/
def borrowed (s : State) (w : BitVec 23) : Bool :=
  match (quad s (quadOf w)).borrow with
  | some b => decide (b.bank = bankOf w % 128 ∧ b.stripe = rowOf w / 512)
  | none => false

/-- Whether an access to a word waits: its bank wakes, or its stripe is borrowed (R295, R444). -/
def wordHeld (s : State) (w : BitVec 23) : Bool := bankWaking s w || borrowed s w

/-- A demand access that meets the borrowed stripe waits, and the borrow is to be aborted (R444). -/
def wantStripe (q : Nat) (s : State) : State :=
  let x := quad s q
  setQuad q { x with borrow := x.borrow.map (fun b => { b with wanted := true }) } s

/-- The borrows in the way of accesses to words are to be aborted (R444). -/
def wantWords (ws : List (BitVec 23)) (s : State) : State :=
  ws.foldl (fun s w => if borrowed s w then wantStripe (quadOf w) s else s) s

/-- An access to a bank that is not ON is counted and recorded with its requester's code (R295, R296, R456). -/
def offBy (code : BitVec 16) (w : BitVec 23) (s : State) : State :=
  detect { Detection.bare 0x4B with locus := BitVec.ofNat 16 (bankOf w), a := w.setWidth 64, b := code }
    (s.satInc (breg .grn 0x78) 0 32)

/-! ## The word check (R280, R281) -/

/-- The granary's error registers (R300). -/
def countGrnEcc (uc : Bool) (w : BitVec 23) (s : State) : State :=
  let s := s.satInc (breg .grn 0x20) (if uc then 0 else 16) 16
  s.wr (breg .grn 0x24) ((1 : BitVec 1) ++ BitVec.ofBool uc ++ (0 : BitVec 7) ++ w)

/-- A GRN_ECC record. -/
def grnEcc (uc : Bool) (w : BitVec 23) (s : State) : State :=
  countGrnEcc uc w (detect { Detection.bare (if uc then 0x49 else 0x48) with
    locus := 0, a := w.setWidth 64, c := grnWord s w } s)

/-- Whether a word is uncorrectable: a double error, or PRES = 0b11. -/
def wordBad (s : State) (w : BitVec 23) : Bool := s.mark (wbyte w) == .double || presOf s w == 3

/-- The check of a bank access: errors are recorded, and the answer says whether the word is uncorrectable. A corrected
word keeps its error until the write-back (R281). -/
def checkWord (w : BitVec 23) (s : State) : Bool × State :=
  if wordBad s w then (true, grnEcc true w s)
  else if s.mark (wbyte w) = .single then (false, grnEcc false w s)
  else (false, s)

/-! ## Writes of port 0 (R281, R285) -/

/-- Data and presence are written with good check bits. -/
def writeWord (w : BitVec 23) (v : Word) (p : BitVec 2) (s : State) : State :=
  setPres w p ((s.store (wbyte w) 8 v).setMark (wbyte w) .clean)

/-- The writes of port 0 that are remembered are those of the present time. -/
def State.wrote0 (s : State) (w : PortWrite) : State :=
  { s with port0 := w :: s.port0.filter (fun x => x.at_ == w.at_ && x.word != w.word) }

/-- Port 0 writes a word, with the bytes it enables: data and presence take their values with good check bits. An access
writes when it changes any of them (R285). -/
def portWrite (w : BitVec 23) (mask : BitVec 8) (v : Word) (p : BitVec 2) (s : State) : State :=
  let old := grnWord s w
  let s' := writeWord w v p s
  if v = old ∧ p = presOf s w then s'
  else s'.wrote0 { word := w, mask := mask, old := old, data := v, pres := p != presOf s w, at_ := s.time.now }

/-- Port 0 writes a word's presence alone, if it changes, with good check bits. -/
def putPres (w : BitVec 23) (p : BitVec 2) (s : State) : State :=
  if p = presOf s w then s else portWrite w 0 (grnWord s w) p s

/-! ## Port 1 (R282, R285) -/

/-- A requester of port 1, by its number, takes a bank (R282). Where one of another number has taken it at the same time of
the time base, a free value says whether they met in one cycle, which the loser then lost: DESIGN CHOICE (R284; assumption
log 113). -/
def takePort1 (rank : Nat) (w : BitVec 23) (s : State) : State :=
  let u : PortUse := { bank := bankOf w, rank := rank, at_ := s.time.now }
  let uses := s.port1.filter (fun v => v.at_ == u.at_)
  let s := { s with port1 := u :: uses.filter (fun v => v != u) }
  if uses.any (fun v => v.bank == u.bank && v.rank != rank) then
    let d := s.draw
    if bit d.1 0 then d.2.satInc (breg .grn (0x10 + 4 * (u.bank / 128))) 0 32 else d.2
  else s

/-- A write of port 1 is dropped for a port-0 write of the same word in the same cycle (R285). -/
def collide (w : BitVec 23) (s : State) : State :=
  let s := (s.satInc (breg .grn 8) 24 8).setFld (breg .grn 8) 0 23 w.toNat
  if s.flag (breg .grn 0) 0 then raiseEvent 1924 s else s

/-- Whether two writes of a word differ in a byte that both enable. -/
def bytesDiffer (m n : BitVec 8) (a b : Word) : Bool :=
  (List.range 8).any (fun i => bit m i && bit n i && bits a (8 * i) 8 != bits b (8 * i) 8)

/-- Port 1 writes bytes of a word, whose presence stays. An uncorrectable word is not written (R281). Of two writes at one
time the model does not say whether they meet in one cycle: a free value does (R285; assumption log 112). -/
def port1Write (rank : Nat) (code : BitVec 16) (w : BitVec 23) (mask : BitVec 8) (v : Word) (s : State) : State :=
  if bankDark s w then offBy code w s
  else if wordBad s w then grnEcc true w (takePort1 rank w s)
  else
    let s := takePort1 rank w s
    let s := if s.mark (wbyte w) = .single then grnEcc false w s else s
    let put (s : State) : State :=
      (s.store (wbyte w) 8 (State.mergeMask (grnWord s w) v mask)).setMark (wbyte w) .clean
    match s.port0.find? (fun x => x.word == w && x.at_ == s.time.now) with
    | none => put s
    | some x =>
      let d := s.draw
      if !bit d.1 0 then put d.2
      else if State.mergeMask x.old v mask = x.old then d.2
      else if x.pres || bytesDiffer x.mask mask x.data v then collide w d.2
      else put d.2

/-- Port 1 writes whole words from a byte address on. -/
def port1Words (rank : Nat) (code : BitVec 16) (a : Nat) (vs : List Word) (s : State) : State :=
  vs.zipIdx.foldl (fun s r => port1Write rank code (areaWord (a + 8 * r.2)) 0xFF r.1 s) s

/-- Port 1 reads a word: an access to a bank that is not ON, or an error in the word, is counted and recorded (R281,
R295). -/
def port1See (rank : Nat) (code : BitVec 16) (w : BitVec 23) (s : State) : State :=
  if bankDark s w then offBy code w s else (checkWord w (takePort1 rank w s)).2

/-- The words of a slot of `n` words. -/
def slotWords (a n : Nat) : List (BitVec 23) := (List.range n).map (fun i => areaWord (a + 8 * i))

/-- Port 1 reads a slot of `n` words. -/
def port1Read (rank : Nat) (code : BitVec 16) (a n : Nat) (s : State) : State :=
  (slotWords a n).foldl (fun s w => port1See rank code w s) s

/-- Whether a read of a slot of `n` words is answered with poison: one of them is uncorrectable, or its bank is not ON. -/
def slotBad (s : State) (a n : Nat) : Bool := (slotWords a n).any (fun w => bankDark s w || wordBad s w)

/-- Whether an access to a slot of `n` words waits (R295, R444). -/
def slotHeld (s : State) (a n : Nat) : Bool := (slotWords a n).any (wordHeld s)

end Sys2Proof.Machine
end

