-- ==== Sys2Proof/Machine/Overflow.lean ====
section
/-! DEFINITION. The Pruner agent's storage in the granary (R230 to R237) and the iteration windows over it (R226 to
R229): bucket slots, token-pool slots, chains, and the release of held tokens. -/

namespace Sys2Proof.Machine

/-! ## The overflow area (R230, R231) -/

/-- The granary address of a plot's overflow area. -/
def ovfBase (s : State) (p : Nat) : Nat := s.fld (preg p 0x104) 0 10 * 0x10000

/-- Number of token-pool slots of a plot: 2^POOL, none for 0. -/
def poolSlots (s : State) (p : Nat) : Nat :=
  let n := s.fld (preg p 0x104) 20 4
  if n = 0 then 0 else 2 ^ n

/-- The address of bucket slot `k` = 4 × bucket + slot. -/
def bucketAddr (s : State) (p k : Nat) : Nat := ovfBase s p + 16 * k

/-- The address of a token-pool slot, after the bucket array. -/
def poolAddr (s : State) (p k : Nat) : Nat := ovfBase s p + 16 * bucketSlots s p + 32 * k

/-- The requester code of a plot's agent. -/
def agentCode (p : Nat) : BitVec 16 := BitVec.ofNat 16 p

/-- A whole 16-byte slot is written through the overflow port (R230). -/
def writeSlot (p a : Nat) (n : Entry) (s : State) : State := port1Words 0 (agentCode p) a [bits n 0 64, bits n 64 64] s

/-- A slot lost to an uncorrectable error: OVF_ECC is recorded with its address and counted (R237). -/
def slotLost (p : PlotNo) (a : Nat) (s : State) : State :=
  let d : Detection :=
    { Detection.bare 0x22 with plot := some p, locus := BitVec.ofNat 16 p.val, a := BitVec.ofNat 64 a,
                               c := s.load a 8 }
  (detect d s).satInc (preg p 0x128) 0 8

/-- A matching entry in the bucket-slot layout (R231). -/
def toSlot (n : Entry) (i : BitVec 4) : Entry :=
  put (putBit (putBit (put n 104 (0 : BitVec 15)) 116 (enDport n)) 118 (enType n == 2)) 112 i

/-- LOCAL of a bucket slot. -/
def slotLocal (n : Entry) : BitVec 4 := bits n 112 4

/-- A bucket slot in the refill layout, with REMAIN (R233). -/
def fromSlot (n : Entry) (remain : Nat) : Entry :=
  put (putBit (put n 104 (0 : BitVec 15)) 116 (bit n 116)) 112 (BitVec.ofNat 4 remain)

/-- The bucket slots in use, counted in PLOT_PRN_DROP.PURGED when a free removes them. -/
def countPurged (p n : Nat) (s : State) : State := s.satAdd (preg p 0x128) 16 16 n

/-- PLOT_PRN_OVF.BUCKETS. -/
def bucketBits (s : State) (p : Nat) : Nat := s.fld (preg p 0x104) 16 4

/-- The probe buckets of a set of an engine (R232). -/
def probes (s : State) (p : Nat) (i : BitVec 4) (set : BitVec 10) : List Nat :=
  let b := bucketBits s p
  if b = 0 then []
  else
    let v : BitVec 14 := i ++ set
    let h0 := (v ^^^ (v >>> b)).toNat % 2 ^ b
    (List.range (s.fld (preg p 0x100) 0 2 + 1)).map (fun k => (h0 + k) % 2 ^ b)

/-- Whether a bucket slot is in use. -/
def slotUsed (s : State) (p k : Nat) : Bool := SMap.get (s.plot p).buckets k false

/-- The state with a bucket slot's map bit changed. -/
def setSlotUsed (p k : Nat) (b : Bool) (s : State) : State :=
  s.modPlot p (fun x => { x with buckets := SMap.set x.buckets k b false })

/-- The free slots of a bucket. -/
def freeSlots (s : State) (p b : Nat) : List Nat := ((List.range 4).map (fun j => 4 * b + j)).filter (fun k => !slotUsed s p k)

/-- The slots that a unit takes: those free in the first probe bucket with room (R232); none when none has. -/
def unitSlots (s : State) (p : Nat) (i : BitVec 4) (u : SpillUnit) : Option (List Nat) :=
  ((probes s p i u.set).find? (fun b => decide (u.entries.length ≤ (freeSlots s p b).length))).map
    (fun b => (freeSlots s p b).take u.entries.length)

/-- The slots that a unit takes, when an access to one of them waits (R295, R444). -/
def unitWords (s : State) (p : Nat) (i : BitVec 4) (u : SpillUnit) : List (BitVec 23) :=
  (((unitSlots s p i u).getD []).flatMap (fun k => slotWords (bucketAddr s p k) 2)).filter (wordHeld s)

/-- A unit goes to the first probe bucket with room (R232); none when none has. -/
def placeUnit (p : Nat) (i : BitVec 4) (u : SpillUnit) (s : State) : Option State :=
  (unitSlots s p i u).map (fun ks =>
    seeRefusals p ((u.entries.zip ks).foldl
      (fun s r => setSlotUsed p r.2 true (writeSlot p (bucketAddr s p r.2) (toSlot r.1 i) s)) s))

/-! ## Token-pool slots (R237) -/

/-- The lowest free token-pool slot. -/
def freePool (s : State) (p : Nat) : Option Nat :=
  (List.range (poolSlots s p)).find? (fun k => !(SMap.get (s.plot p).pool k false))

/-- The words of token-pool slots an access to which waits. -/
def poolHeld (s : State) (p : Nat) (ks : List Nat) : List (BitVec 23) :=
  (ks.flatMap (fun k => slotWords (poolAddr s p k) 4)).filter (wordHeld s)

/-- The lowest free token-pool slot, for a token that joins a chain behind slot `prev`, unless an access to either waits
(R295, R444). -/
def readyPool (s : State) (p : Nat) (prev : Option Nat) : Option Nat :=
  (freePool s p).filter (fun k => (poolHeld s p (k :: prev.toList)).isEmpty)

/-- The borrows in the way of a token that is to join a chain behind slot `prev` are to be aborted (R444). -/
def wantPool (p : Nat) (prev : Option Nat) (s : State) : State :=
  match freePool s p with
  | some k => wantWords (poolHeld s p (k :: prev.toList)) s
  | none => s

/-- The next-slot index of a token-pool slot is written (R237). -/
def linkPool (p j k : Nat) (s : State) : State :=
  port1Write 0 (agentCode p) (areaWord (poolAddr s p j + 16)) 0x30 (BitVec.ofNat 64 (k * 2 ^ 32)) s

/-- The slots of a chain, each with the index of the slot behind it, 0xFFFF for the last. -/
def chainLinks : List Nat → List (Nat × Nat)
  | [] => []
  | [k] => [(k, 0xFFFF)]
  | k :: j :: ks => (k, j) :: chainLinks (j :: ks)

/-- Slots have left a chain: each slot whose successor has changed takes its new one. The rule gives the agent appends
alone; DESIGN CHOICE (R237; assumption log 137). -/
def relink (p : Nat) (old new : List Nat) (s : State) : State :=
  (chainLinks new).foldl (fun s l => if (chainLinks old).contains l then s else linkPool p l.1 l.2 s) s

/-- A flit is written into a token-pool slot, the last of its chain; the slot before it takes its index. -/
def writePool (p k : Nat) (f : Flit) (prev : Option Nat) (s : State) : State :=
  let s := port1Words 0 (agentCode p) (poolAddr s p k)
    [bits f 0 64, bits f 64 64, (0xFFFF : BitVec 32) ++ bits f 128 32, 0] s
  let s := match prev with
    | some j => linkPool p j k s
    | none => s
  s.modPlot p (fun x => { x with pool := SMap.set x.pool k true false })

/-- The token in a pool slot. -/
def poolFlit (s : State) (p k : Nat) : Flit :=
  let w := areaWord (poolAddr s p k)
  bits (grnWord s (w + 2)) 0 32 ++ grnWord s (w + 1) ++ grnWord s w

/-- A token-pool slot is read and freed; none when its content is lost. -/
def takePool (p : PlotNo) (k : Nat) (s : State) : Option Flit × State :=
  let a := poolAddr s p k
  let t := (port1Read 0 (agentCode p) a 4 s).modPlot p (fun x => { x with pool := SMap.set x.pool k false false })
  if slotBad s a 4 then (none, slotLost p a t) else (some (poolFlit s p k), t)

/-! ## Held tokens (R226 to R229) -/

/-- The physical slot of a plot's local index, unless its engine is being retired (R14, R462). -/
def slotOfIndex (s : State) (p : Nat) (i : BitVec 4) : Option Nat :=
  let l := BitVec.ofNat 10 (16 * p + i.toNat)
  if retiring s l then none else slotOf s l

/-- Whether the main lane of an engine's output row can take a token the agent places. -/
def laneRoom (s : State) (e : Nat) : Bool := (s.eng e).holdMain.isEmpty && decide ((s.eng e).outMain.length < 16)

/-- A held token is placed in the main lane of its engine's output row, stamped there, or suppressed by the checks of
R51 (R227). -/
def emitHeld (e : EngNo) (f : Flit) (s : State) : State :=
  let k := proto1 f.kind f.pri f.tag f.data
  if malformed s k then detect (tokenDetect 0x12 e f 0) s
  else
    let pl := s.plot (e.val / 17)
    let g := (protoFlits k pl.epoch (s.eng e).seq).headD 0
    stir (e.val / 17) (s.modEng e (fun x => { x with seq := x.seq + 1, outMain := x.outMain ++ [(pl.xcycle, g)] }))

/-- The window after an iteration is admitted (R227). -/
def Window.openTo (w : Window) (j : BitVec 12) : Window :=
  if (w.h - w.b).toNat ≤ (j - w.b).toNat then { w with h := j + 1 } else w

/-- The state with a context's window entry replaced. -/
def setWindow (p : Nat) (w : Window) (s : State) : State :=
  s.modPlot p (fun x => { x with windows := x.windows.map (fun v => if v.ctx = w.ctx then w else v) })

/-- The window with each held token that it admits marked for release, in chain order (R227 to R229). -/
def Window.admitChain (w : Window) : Window :=
  w.chain.foldl (fun v h =>
    if !h.go && w.admits h.iter then { v.openTo h.iter with chain := v.chain ++ [{ h with go := true }] }
    else { v with chain := v.chain ++ [h] }) { w with chain := [] }

/-- The slot before a token's in its chain. -/
def slotBefore (hs : List Held) (h : Held) : Option Nat :=
  let i := hs.findIdx (· == h)
  if i = 0 then none else hs[i - 1]?.map (·.slot)

/-- The engine of a held token that is released and whose lane has room. -/
def laneOf (s : State) (p : Nat) (h : Held) : Option EngNo :=
  match slotOfIndex s p h.eng with
  | some e => if he : e < 1088 then (if h.go && laneRoom s e then some ⟨e, he⟩ else none) else none
  | none => none

/-- The words for which the release of a held token waits: those of its slot, and of the slot before it (R295, R444). -/
def releaseWords (s : State) (p : Nat) (hs : List Held) (h : Held) : List (BitVec 23) :=
  poolHeld s p (h.slot :: (slotBefore hs h).toList)

/-- The first held token of a chain that is released and whose lane has room, with its engine. -/
def placeable (s : State) (p : Nat) (hs : List Held) : Option (Held × EngNo) :=
  hs.findSome? (fun h => (laneOf s p h).bind (fun e => if (releaseWords s p hs h).isEmpty then some (h, e) else none))

/-- The window-release read of R236 of a window: the first token of its chain that its window has released and whose lane
has room is placed there; tokens behind one that is not admitted, or that waits for a lane of another engine, pass it (R227,
R228). -/
def releaseOne (p : PlotNo) (w : Window) (s : State) : Option State :=
  (placeable s p w.chain).map (fun r =>
    let rest := w.chain.erase r.1
    let s := setWindow p { w with chain := rest } (relink p (w.chain.map (·.slot)) (rest.map (·.slot)) s)
    let t := takePool p r.1.slot s
    match t.1 with
    | some f => emitHeld r.2 f t.2
    | none => t.2)

/-- The words for which window-release reads wait are wanted (R444). -/
def wantReleases (p : Nat) (s : State) : State :=
  wantWords ((s.plot p).windows.flatMap (fun w =>
    (w.chain.filter (fun h => (laneOf s p h).isSome)).flatMap (releaseWords s p w.chain))) s

/-- The tokens that an engine's hold intake keeps. -/
def keepIntake (p : PlotNo) (h : HoldIn) (fs : List Flit) (s : State) : State :=
  s.modPlot p (fun x =>
    let ks := x.holdIn.map (fun k => if k.eng = h.eng then { k with flits := fs } else k)
    { x with holdIn := ks.filter (fun k => !k.flits.isEmpty) })

/-- The lane to which the first token of a hold intake can go straight: its window admits it and no earlier token of its
chain remains (R227). -/
def straightLane (s : State) (p : Nat) (h : HoldIn) : Option (Window × EngNo) :=
  match windowOf (s.plot p) h.ctx, slotOfIndex s p h.eng with
  | some w, some e =>
    if he : e < 1088 then (if w.chain.isEmpty && w.admits h.iter && laneRoom s e then some (w, ⟨e, he⟩) else none) else none
  | _, _ => none

/-- Tokens of a hold intake leave straight for their lane (R227). -/
def drainIntake (p : PlotNo) (h : HoldIn) : List Flit → State → State
  | [], s => keepIntake p h [] s
  | f :: fs, s =>
    match straightLane s p h with
    | some (w, e) => drainIntake p h fs (keepIntake p h fs (emitHeld e f (setWindow p (w.openTo h.iter) s)))
    | none => s

/-- The last slot of the chain that a hold intake's token joins: its window's, or the wait chain (R227, R229). -/
def lastSlot (s : State) (p : Nat) (h : HoldIn) : Option Nat :=
  match windowOf (s.plot p) h.ctx with
  | some w => w.chain.getLast?.map (·.slot)
  | none => (s.plot p).waitChain.getLast?.map (fun q => q.2.slot)

/-- The first token of a hold intake joins its chain in the token pool as a slot frees; none where it does not (R227, R229).
-/
def poolIntake (p : PlotNo) (h : HoldIn) (s : State) : Option State :=
  match h.flits with
  | [] => none
  | f :: fs =>
    (readyPool s p (lastSlot s p h)).map (fun k =>
      let s := writePool p k f (lastSlot s p h) s
      let n : Held := { eng := h.eng, iter := h.iter, slot := k, go := false }
      keepIntake p h fs (match windowOf (s.plot p) h.ctx with
        | some w => setWindow p { w with chain := w.chain ++ [n] } s
        | none => s.modPlot p (fun x => { x with waitChain := x.waitChain ++ [(h.ctx, n)] })))

/-- Each window marks the tokens of its chain that it admits, and the hold intakes empty as far as their lanes take them
(R227, R228). -/
def releaseHeld (p : PlotNo) (s : State) : State :=
  let s := s.modPlot p (fun x => { x with windows := x.windows.map Window.admitChain })
  (s.plot p).holdIn.foldl (fun s h => drainIntake p h h.flits s) s

/-- WIN_FULL becomes 1 (R229, R247). -/
def seeWindows (p : Nat) (s : State) : State :=
  let full := decide (32 ≤ (s.plot p).windows.length)
  let s := if full ∧ !(s.plot p).winFull then alert p s else s
  s.modPlot p (fun x => { x with winFull := full })

/-- Result tokens of an ITER_NEXT that are not admitted wait with the agent, in order (R227, R229). The two tokens of a
result with two destinations share the engine's place in the hold intake: DESIGN CHOICE (R105, R227; assumption log 134). -/
def holdResult (p : PlotNo) (i : BitVec 4) (ctx : BitVec 16) (j : BitVec 12) (fs : List Flit) (s : State) : State :=
  match fs with
  | [] => s
  | _ => releaseHeld p (s.modPlot p (fun x => { x with holdIn := x.holdIn ++ [{ eng := i, ctx := ctx, iter := j, flits := fs }] }))

/-! ## The order of overflow transfers (R236) -/

/-- The engines of a plot by local index, lowest first. -/
def localEngines (s : State) (p : Nat) : List (BitVec 4 × Nat) :=
  (List.range 16).filterMap (fun i => (slotOfIndex s p (BitVec.ofNat 4 i)).map (fun e => (BitVec.ofNat 4 i, e)))

/-- The bucket slots in use in a lookup's probe buckets, bucket by bucket. -/
def usedProbes (s : State) (p : Nat) (i : BitVec 4) (set : BitVec 10) : List Nat :=
  (probes s p i set).flatMap (fun b => ((List.range 4).map (fun j => 4 * b + j)).filter (fun k => slotUsed s p k))

/-- Whether a lookup of the plot has a bucket to read: candidate 1. -/
def lookupWaits (s : State) (p : Nat) : Bool :=
  (localEngines s p).any (fun r => (s.eng r.2).mpb.any (fun m => !m.asked && !(usedProbes s p r.1 m.tok.set).isEmpty))

/-- Whether a spilled unit of the plot can be placed: candidate 2. -/
def placementWaits (s : State) (p : Nat) : Bool :=
  let wait := (s.plot p).spillIn
  wait.any (fun w => (placeUnit p w.1 w.2 s).isSome) ||
    (localEngines s p).any (fun r => !(wait.any (fun w => w.1 == r.1)) && match (s.eng r.2).spillQ with
      | u :: _ => (placeUnit p r.1 u s).isSome
      | [] => false)

/-- Whether a window-release read can start: candidate 5. -/
def releaseWaits (s : State) (p : Nat) : Bool := (s.plot p).windows.any (fun w => (placeable s p w.chain).isSome)

/-! ## Contexts (R38, R103, R104, R225) -/

/-- PLOT_PRN_REFUSED counts a request that received no number (R225). -/
def countRefused (p pri : Nat) (s : State) : State := if pri < 3 then s.satInc (preg p 0x120) (10 * pri) 10 else s

/-- A context request of an engine at a priority: the number granted, or none (R103, R174, R225). -/
def requestCtx (e : EngNo) (pri : BitVec 2) (s : State) : Option (BitVec 16) × State :=
  let p := e.val / 17
  if refuses s p pri.toNat then (none, countRefused p pri.toNat s)
  else
    match freeCtx s p with
    | none => (none, countRefused p pri.toNat s)
    | some c =>
      let s := setCtx p c 1 s
      let ctl := s.rd (ereg e 0x90)
      let s := if s.profile = .p0100 then s
        else s.setFld (preg p (0x10000 + 4 * (c.toNat / 8))) (4 * (c.toNat % 8)) 4 (bits ctl 4 4).toNat
      (some c, s)

/-- A context is freed: its number awaits return, every engine in service of the plot sweeps and the agent purges
(R39, R71, R72, R235). None: the free is refused (R104). -/
def freeContext (e : EngNo) (c : BitVec 16) (s : State) : Option State :=
  let p := e.val / 17
  if c = 0 ∨ ctxStatus s p c ≠ 1 then none
  else
    let s := setCtx p c 2 s
    let s := s.modPlot p (fun x => { x with purges := x.purges ++ [c] })
    some ((List.range 17).foldl (fun s i =>
      if inService s (17 * p + i) then
        s.modEng (17 * p + i) (fun x => { x with sweeps := x.sweeps ++ [{ ctx := c, visit := 0 }] })
      else s) s)

end Sys2Proof.Machine
end

