-- ==== Sys2Proof/Machine/NodeArith.lean ====
section
/-! DEFINITION. The vendor operations (R99 to R101, R163 to R184), shared by nodes and strands, and the arithmetic,
logic, compare and floating-point nodes of R99 and R101. -/

namespace Sys2Proof.Machine

/-- A Boolean as a register value. -/
def ofCmp (r : Bool × FFlags) : Word × FFlags := (boolW r.1, r.2)

/-- An encoding as a register value. -/
def ofEnc (r : Nat × FFlags) : Word × FFlags := (BitVec.ofNat 64 r.1, r.2)

/-- The saturated form of an exact integer (R163). -/
def saturate (x : Int) : Word :=
  if 0x7FFFFFFFFFFFFFFF < x then 0x7FFFFFFFFFFFFFFF
  else if x < -0x8000000000000000 then 0x8000000000000000 else BitVec.ofInt 64 x

/-- The integer operations of opcodes 0x01 to 0x25 (R99, R100, R163 to R165). -/
def intOp (c : Nat) (l r : Word) : Word × FFlags :=
  let n := (bits r 0 6).toNat
  match c with
  | 0x01 => (l + r, 0)
  | 0x02 => (l - r, 0)
  | 0x03 => (0 - l, 0)
  | 0x04 => (l * r, 0)
  | 0x05 => (BitVec.ofInt 64 (l.toInt * r.toInt / 2 ^ 64), 0)
  | 0x06 => (BitVec.ofNat 64 (l.toNat * r.toNat / 2 ^ 64), 0)
  | 0x07 => if r = 0 then (BitVec.allOnes 64, fIntDZ) else (l.sdiv r, 0)
  | 0x08 => if r = 0 then (BitVec.allOnes 64, fIntDZ) else (l.udiv r, 0)
  | 0x09 => if r = 0 then (l, fIntDZ) else (l.srem r, 0)
  | 0x0A => if r = 0 then (l, fIntDZ) else (l.umod r, 0)
  | 0x0B => (if bit l 63 then 0 - l else l, 0)
  | 0x0C => (if l.toInt ≤ r.toInt then l else r, 0)
  | 0x0D => (if l.toInt ≤ r.toInt then r else l, 0)
  | 0x0E => (if l.toNat ≤ r.toNat then l else r, 0)
  | 0x0F => (if l.toNat ≤ r.toNat then r else l, 0)
  | 0x10 => (l &&& r, 0)
  | 0x11 => (l ||| r, 0)
  | 0x12 => (l ^^^ r, 0)
  | 0x13 => (~~~l, 0)
  | 0x14 => (l <<< n, 0)
  | 0x15 => (l >>> n, 0)
  | 0x16 => (l.sshiftRight n, 0)
  | 0x17 => (l.rotateLeft n, 0)
  | 0x18 => (saturate (l.toInt + r.toInt), 0)
  | 0x19 => (saturate (l.toInt - r.toInt), 0)
  | 0x1A => (BitVec.ofNat 64 (leadingZeros l), 0)
  | 0x1B => (BitVec.ofNat 64 (popcount l), 0)
  | 0x1C => ((l <<< (63 - n)).sshiftRight (63 - n), 0)
  | 0x20 => (boolW (l == r), 0)
  | 0x21 => (boolW (l != r), 0)
  | 0x22 => (boolW (decide (l.toInt < r.toInt)), 0)
  | 0x23 => (boolW (decide (l.toInt ≤ r.toInt)), 0)
  | 0x24 => (boolW (decide (l.toNat < r.toNat)), 0)
  | 0x25 => (boolW (decide (l.toNat ≤ r.toNat)), 0)
  | _ => (0, 0)

/-- The floating-point operations of opcodes 0x30 to 0x4E (R101, R171 to R184). -/
def floatOp (c : Nat) (rm : BitVec 3) (ftz : Bool) (l r a : Word) : Word × FFlags :=
  let l32 := l.toNat % 2 ^ 32
  let r32 := r.toNat % 2 ^ 32
  let a32 := a.toNat % 2 ^ 32
  match c with
  | 0x30 => ofEnc (f32.add rm ftz l32 r32)
  | 0x31 => ofEnc (f32.sub rm ftz l32 r32)
  | 0x32 => ofEnc (f32.mul rm ftz l32 r32)
  | 0x33 => ofEnc (f32.fma rm ftz l32 r32 a32)
  | 0x34 => ofEnc (f32.div rm ftz l32 r32)
  | 0x35 => ofEnc (f32.sqrt rm ftz l32)
  | 0x36 => ofEnc (f32.minMax ftz false l32 r32)
  | 0x37 => ofEnc (f32.minMax ftz true l32 r32)
  | 0x38 => ofCmp (f32.compare ftz 0 l32 r32)
  | 0x39 => ofCmp (f32.compare ftz 1 l32 r32)
  | 0x3A => ofCmp (f32.compare ftz 2 l32 r32)
  | 0x3B => ofEnc (f32.ofInt rm l)
  | 0x3C => f32.toInt rm ftz l32
  | 0x3D => (BitVec.ofNat 64 (l32 % 2 ^ 31), 0)
  | 0x3E => (BitVec.ofNat 64 (l32 ^^^ 2 ^ 31), 0)
  | 0x40 => ofEnc (f64.add rm ftz l.toNat r.toNat)
  | 0x41 => ofEnc (f64.sub rm ftz l.toNat r.toNat)
  | 0x42 => ofEnc (f64.mul rm ftz l.toNat r.toNat)
  | 0x43 => ofEnc (f64.fma rm ftz l.toNat r.toNat a.toNat)
  | 0x44 => ofEnc (f64.div rm ftz l.toNat r.toNat)
  | 0x45 => ofEnc (f64.sqrt rm ftz l.toNat)
  | 0x46 => ofEnc (f64.minMax ftz false l.toNat r.toNat)
  | 0x47 => ofEnc (f64.minMax ftz true l.toNat r.toNat)
  | 0x48 => ofCmp (f64.compare ftz 0 l.toNat r.toNat)
  | 0x49 => ofCmp (f64.compare ftz 1 l.toNat r.toNat)
  | 0x4A => ofCmp (f64.compare ftz 2 l.toNat r.toNat)
  | 0x4B => ofEnc (f64.ofInt rm l)
  | 0x4C => f64.toInt rm ftz l.toNat
  | 0x4D => ofEnc (f32.convert f64 rm ftz l32)
  | 0x4E => ofEnc (f64.convert f32 rm ftz l.toNat)
  | _ => (0, 0)

/-- The result and the flags of a vendor operation that returns one value. -/
def vendorOp (c : Nat) (rm : BitVec 3) (ftz : Bool) (l r a : Word) : Word × FFlags :=
  if c < 0x30 then intOp c l r else floatOp c rm ftz l r a

/-! ## Fires in EXEC -/

/-- A fire leaves EXEC for the result registers with its tokens, its flags and its latency from the cycle in which it
entered (R76, R99). -/
def nodeResult (e : EngNo) (f : Fire) (toks : List Proto) (fl : FFlags) (lam : Nat) (s : State) : State :=
  s.modEng e (fun x =>
    let o : Origin := .node f.node f.ctx f.iter f.word
    willRaise { due := f.issued + lam, issued := f.issued, origin := o, flags := fl, pend := true }
      (addResult { due := f.issued + lam, issued := f.issued, origin := o, toks := toks } x))

/-- A node operation acts on the fire in EXEC when that fire has its opcode; a fire in a closed page executes as SINK
(R445). -/
def onFire (e : EngNo) (opc : Nat) (g : Fire → State → State) (s : State) : Host.Outcome State Fault Refusal :=
  match (s.eng e).exec with
  | none => .next s
  | some f =>
    if (nwOpc f.word).toNat = opc then
      let s := s.modEng e (fun x => { x with exec := none })
      .next (if f.closed then nodeResult e f [] 0 1 s else g f s)
    else .next s

/-- A node that sends one value to D1 and D2 (R92, R99). -/
def nodeValue (e : EngNo) (v : Fire → Word) (s : State) (f : Fire) (lam : Nat) : State :=
  nodeResult e f (bothDests s e f (v f)) 0 lam s

/-- An arithmetic node: the vendor operation of its opcode on the operands of the fire, in its unit (R99, R101). -/
def nodeArith (e : EngNo) (opc : Nat) (s : State) : Host.Outcome State Fault Refusal :=
  onFire e opc (fun f s =>
    let r := vendorOp opc f.rm f.ftz f.l f.r f.comp
    let lam := latencyOf s.profile opc f.ftz f.l f.r
    nodeResult e f (bothDests s e f r.1) r.2 lam s) s

/-- ADD: left plus right (R99). -/
def execAdd (e : EngNo) (s : State) : Host.Outcome State Fault Refusal := nodeArith e 0x01 s

/-- SUB: left minus right (R99). -/
def execSub (e : EngNo) (s : State) : Host.Outcome State Fault Refusal := nodeArith e 0x02 s

/-- NEG: zero minus left (R99). -/
def execNeg (e : EngNo) (s : State) : Host.Outcome State Fault Refusal := nodeArith e 0x03 s

/-- MUL: the low 64 bits of the product (R164). -/
def execMul (e : EngNo) (s : State) : Host.Outcome State Fault Refusal := nodeArith e 0x04 s

/-- MULHS: the high 64 bits of the signed product (R164). -/
def execMulhs (e : EngNo) (s : State) : Host.Outcome State Fault Refusal := nodeArith e 0x05 s

/-- MULHU: the high 64 bits of the unsigned product (R164). -/
def execMulhu (e : EngNo) (s : State) : Host.Outcome State Fault Refusal := nodeArith e 0x06 s

/-- DIVS: the signed quotient (R165). -/
def execDivs (e : EngNo) (s : State) : Host.Outcome State Fault Refusal := nodeArith e 0x07 s

/-- DIVU: the unsigned quotient (R165). -/
def execDivu (e : EngNo) (s : State) : Host.Outcome State Fault Refusal := nodeArith e 0x08 s

/-- REMS: the signed remainder (R165). -/
def execRems (e : EngNo) (s : State) : Host.Outcome State Fault Refusal := nodeArith e 0x09 s

/-- REMU: the unsigned remainder (R165). -/
def execRemu (e : EngNo) (s : State) : Host.Outcome State Fault Refusal := nodeArith e 0x0A s

/-- ABS: the absolute value; 0x8000_0000_0000_0000 gives itself (R99). -/
def execAbs (e : EngNo) (s : State) : Host.Outcome State Fault Refusal := nodeArith e 0x0B s

/-- MINS: the signed minimum (R99). -/
def execMins (e : EngNo) (s : State) : Host.Outcome State Fault Refusal := nodeArith e 0x0C s

/-- MAXS: the signed maximum (R99). -/
def execMaxs (e : EngNo) (s : State) : Host.Outcome State Fault Refusal := nodeArith e 0x0D s

/-- MINU: the unsigned minimum (R99). -/
def execMinu (e : EngNo) (s : State) : Host.Outcome State Fault Refusal := nodeArith e 0x0E s

/-- MAXU: the unsigned maximum (R99). -/
def execMaxu (e : EngNo) (s : State) : Host.Outcome State Fault Refusal := nodeArith e 0x0F s

/-- AND: the bitwise AND (R99). -/
def execAnd (e : EngNo) (s : State) : Host.Outcome State Fault Refusal := nodeArith e 0x10 s

/-- OR: the bitwise OR (R99). -/
def execOr (e : EngNo) (s : State) : Host.Outcome State Fault Refusal := nodeArith e 0x11 s

/-- XOR: the bitwise XOR (R99). -/
def execXor (e : EngNo) (s : State) : Host.Outcome State Fault Refusal := nodeArith e 0x12 s

/-- NOT: the bitwise complement (R99). -/
def execNot (e : EngNo) (s : State) : Host.Outcome State Fault Refusal := nodeArith e 0x13 s

/-- SHL: left shifted left by R[5:0] (R99). -/
def execShl (e : EngNo) (s : State) : Host.Outcome State Fault Refusal := nodeArith e 0x14 s

/-- SHR: left shifted right logically by R[5:0] (R99). -/
def execShr (e : EngNo) (s : State) : Host.Outcome State Fault Refusal := nodeArith e 0x15 s

/-- SAR: left shifted right arithmetically by R[5:0] (R99). -/
def execSar (e : EngNo) (s : State) : Host.Outcome State Fault Refusal := nodeArith e 0x16 s

/-- ROL: left rotated left by R[5:0] (R99). -/
def execRol (e : EngNo) (s : State) : Host.Outcome State Fault Refusal := nodeArith e 0x17 s

/-- ADDS: the saturating signed sum (R163). -/
def execAdds (e : EngNo) (s : State) : Host.Outcome State Fault Refusal := nodeArith e 0x18 s

/-- SUBS: the saturating signed difference (R163). -/
def execSubs (e : EngNo) (s : State) : Host.Outcome State Fault Refusal := nodeArith e 0x19 s

/-- CLZ: the leading zeros (R163). -/
def execClz (e : EngNo) (s : State) : Host.Outcome State Fault Refusal := nodeArith e 0x1A s

/-- POPC: the one bits (R99). -/
def execPopc (e : EngNo) (s : State) : Host.Outcome State Fault Refusal := nodeArith e 0x1B s

/-- SEXT: left sign-extended from bit R[5:0] (R163). -/
def execSext (e : EngNo) (s : State) : Host.Outcome State Fault Refusal := nodeArith e 0x1C s

/-- EQ: 1 if equal (R99). -/
def execEq (e : EngNo) (s : State) : Host.Outcome State Fault Refusal := nodeArith e 0x20 s

/-- NE: 1 if not equal (R99). -/
def execNe (e : EngNo) (s : State) : Host.Outcome State Fault Refusal := nodeArith e 0x21 s

/-- LTS: 1 if less, signed (R99). -/
def execLts (e : EngNo) (s : State) : Host.Outcome State Fault Refusal := nodeArith e 0x22 s

/-- LES: 1 if less or equal, signed (R99). -/
def execLes (e : EngNo) (s : State) : Host.Outcome State Fault Refusal := nodeArith e 0x23 s

/-- LTU: 1 if less, unsigned (R99). -/
def execLtu (e : EngNo) (s : State) : Host.Outcome State Fault Refusal := nodeArith e 0x24 s

/-- LEU: 1 if less or equal, unsigned (R99). -/
def execLeu (e : EngNo) (s : State) : Host.Outcome State Fault Refusal := nodeArith e 0x25 s

/-- FADD: the binary32 sum (R178). -/
def execFadd (e : EngNo) (s : State) : Host.Outcome State Fault Refusal := nodeArith e 0x30 s

/-- FSUB: the binary32 difference (R178). -/
def execFsub (e : EngNo) (s : State) : Host.Outcome State Fault Refusal := nodeArith e 0x31 s

/-- FMUL: the binary32 product (R179). -/
def execFmul (e : EngNo) (s : State) : Host.Outcome State Fault Refusal := nodeArith e 0x32 s

/-- FMA: the binary32 fused multiply-add, with the addend of the companion slot (R180). -/
def execFma (e : EngNo) (s : State) : Host.Outcome State Fault Refusal := nodeArith e 0x33 s

/-- FDIV: the binary32 quotient, by the vendor routine of R168 (R181). -/
def execFdiv (e : EngNo) (s : State) : Host.Outcome State Fault Refusal := nodeArith e 0x34 s

/-- FSQRT: the binary32 square root, by the vendor routine of R168 (R182). -/
def execFsqrt (e : EngNo) (s : State) : Host.Outcome State Fault Refusal := nodeArith e 0x35 s

/-- FMIN: the binary32 minimum (R183). -/
def execFmin (e : EngNo) (s : State) : Host.Outcome State Fault Refusal := nodeArith e 0x36 s

/-- FMAX: the binary32 maximum (R183). -/
def execFmax (e : EngNo) (s : State) : Host.Outcome State Fault Refusal := nodeArith e 0x37 s

/-- FEQ: the binary32 compare for equal (R183). -/
def execFeq (e : EngNo) (s : State) : Host.Outcome State Fault Refusal := nodeArith e 0x38 s

/-- FLT: the binary32 compare for less (R183). -/
def execFlt (e : EngNo) (s : State) : Host.Outcome State Fault Refusal := nodeArith e 0x39 s

/-- FLE: the binary32 compare for less or equal (R183). -/
def execFle (e : EngNo) (s : State) : Host.Outcome State Fault Refusal := nodeArith e 0x3A s

/-- FCVTSL: a signed integer converted to binary32 (R184). -/
def execFcvtsl (e : EngNo) (s : State) : Host.Outcome State Fault Refusal := nodeArith e 0x3B s

/-- FCVTLS: binary32 converted to a signed integer (R184). -/
def execFcvtls (e : EngNo) (s : State) : Host.Outcome State Fault Refusal := nodeArith e 0x3C s

/-- FABS: the sign bit cleared (R171). -/
def execFabs (e : EngNo) (s : State) : Host.Outcome State Fault Refusal := nodeArith e 0x3D s

/-- FNEG: the sign bit inverted (R171). -/
def execFneg (e : EngNo) (s : State) : Host.Outcome State Fault Refusal := nodeArith e 0x3E s

/-- DADD: the binary64 sum (R178). -/
def execDadd (e : EngNo) (s : State) : Host.Outcome State Fault Refusal := nodeArith e 0x40 s

/-- DSUB: the binary64 difference (R178). -/
def execDsub (e : EngNo) (s : State) : Host.Outcome State Fault Refusal := nodeArith e 0x41 s

/-- DMUL: the binary64 product (R179). -/
def execDmul (e : EngNo) (s : State) : Host.Outcome State Fault Refusal := nodeArith e 0x42 s

/-- DFMA: the binary64 fused multiply-add, with the addend of the companion slot (R180). -/
def execDfma (e : EngNo) (s : State) : Host.Outcome State Fault Refusal := nodeArith e 0x43 s

/-- DDIV: the binary64 quotient, in the iterative section (R181). -/
def execDdiv (e : EngNo) (s : State) : Host.Outcome State Fault Refusal := nodeArith e 0x44 s

/-- DSQRT: the binary64 square root, in the iterative section (R182). -/
def execDsqrt (e : EngNo) (s : State) : Host.Outcome State Fault Refusal := nodeArith e 0x45 s

/-- DMIN: the binary64 minimum (R183). -/
def execDmin (e : EngNo) (s : State) : Host.Outcome State Fault Refusal := nodeArith e 0x46 s

/-- DMAX: the binary64 maximum (R183). -/
def execDmax (e : EngNo) (s : State) : Host.Outcome State Fault Refusal := nodeArith e 0x47 s

/-- DEQ: the binary64 compare for equal (R183). -/
def execDeq (e : EngNo) (s : State) : Host.Outcome State Fault Refusal := nodeArith e 0x48 s

/-- DLT: the binary64 compare for less (R183). -/
def execDlt (e : EngNo) (s : State) : Host.Outcome State Fault Refusal := nodeArith e 0x49 s

/-- DLE: the binary64 compare for less or equal (R183). -/
def execDle (e : EngNo) (s : State) : Host.Outcome State Fault Refusal := nodeArith e 0x4A s

/-- DCVTDL: a signed integer converted to binary64 (R184). -/
def execDcvtdl (e : EngNo) (s : State) : Host.Outcome State Fault Refusal := nodeArith e 0x4B s

/-- DCVTLD: binary64 converted to a signed integer (R184). -/
def execDcvtld (e : EngNo) (s : State) : Host.Outcome State Fault Refusal := nodeArith e 0x4C s

/-- DCVTDS: binary32 widened to binary64 (R184). -/
def execDcvtds (e : EngNo) (s : State) : Host.Outcome State Fault Refusal := nodeArith e 0x4D s

/-- DCVTSD: binary64 narrowed to binary32 (R184). -/
def execDcvtsd (e : EngNo) (s : State) : Host.Outcome State Fault Refusal := nodeArith e 0x4E s

end Sys2Proof.Machine
end

