-- ==== Sys2Proof/Machine/NodeOps.lean ====
section
/-! DEFINITION. The nodes of steering and flow, contexts, iterations and tags, granary access, the Dibber, blocks and
FENCE (R102 to R112), and the grant of the plot's binary64 unit (R170). -/

namespace Sys2Proof.Machine

/-! ## Steering and flow (R102) -/

/-- STEER: L to D1 if R is not zero, to D2 if it is (R102). -/
def execSteer (e : EngNo) (s : State) : Host.Outcome State Fault Refusal :=
  onFire e 0x50 (fun f s => nodeResult e f (destProto s e f.word f.comp (f.r == 0) f.ctx f.iter f.l) 0 1 s) s

/-- GATE: L to both destinations if R is not zero, nothing if it is (R102). -/
def execGate (e : EngNo) (s : State) : Host.Outcome State Fault Refusal :=
  onFire e 0x51 (fun f s => nodeResult e f (if f.r = 0 then [] else bothDests s e f f.l) 0 1 s) s

/-- MERGE: each token's data to both destinations (R102). -/
def execMerge (e : EngNo) (s : State) : Host.Outcome State Fault Refusal :=
  onFire e 0x52 (fun f s => nodeValue e (·.l) s f 1) s

/-- FAN: L to both destinations (R102). -/
def execFan (e : EngNo) (s : State) : Host.Outcome State Fault Refusal :=
  onFire e 0x53 (fun f s => nodeValue e (·.l) s f 1) s

/-- SINK: nothing is emitted (R102); it is what a fire in a closed page executes as (R445). -/
def execSink (e : EngNo) (s : State) : Host.Outcome State Fault Refusal :=
  match (s.eng e).exec with
  | none => .next s
  | some f =>
    if (nwOpc f.word).toNat = 0x54 ∨ f.closed then
      .next (nodeResult e f [] 0 1 (s.modEng e (fun x => { x with exec := none })))
    else .next s

/-! ## Contexts (R103, R104) -/

/-- CTX_NEW: on a grant D1 receives L in the new context with ITER 0 and D2 the number; on a refusal D2 receives all
ones (R103). -/
def execCtxNew (e : EngNo) (s : State) : Host.Outcome State Fault Refusal :=
  onFire e 0x60 (fun f s =>
    let r := requestCtx e f.pri s
    let s := r.2
    match r.1 with
    | some c =>
      nodeResult e f (destProto s e f.word f.comp false c 0 f.l ++
        destProto s e f.word f.comp true f.ctx f.iter (c.setWidth 64)) 0 2 s
    | none => nodeResult e f (destProto s e f.word f.comp true f.ctx f.iter (BitVec.allOnes 64)) 0 2 s) s

/-- CTX_FREE: a pending exception is delivered, then context L[15:0] is freed and L sent on, or the free is refused and
recorded (R104, R188). -/
def execCtxFree (e : EngNo) (s : State) : Host.Outcome State Fault Refusal :=
  onFire e 0x61 (fun f s =>
    let s := deliverFpx e true f.node f.ctx s
    let c := bits f.l 0 16
    match freeContext e c s with
    | some s => nodeValue e (·.l) s f 2
    | none =>
      let d : Detection :=
        { code := 0x0E, plot := some (plotOf e), phys := some e, locus := f.node.setWidth 16, a := c.setWidth 64, b := 0,
          c := f.word, inj := false }
      nodeResult e f [] 0 2 (detect d s)) s

/-- CTX_GET: the firing CTX (R99). -/
def execCtxGet (e : EngNo) (s : State) : Host.Outcome State Fault Refusal :=
  onFire e 0x62 (fun f s => nodeValue e (fun f => f.ctx.setWidth 64) s f 1) s

/-- ITER_GET: the firing ITER (R99). -/
def execIterGet (e : EngNo) (s : State) : Host.Outcome State Fault Refusal :=
  onFire e 0x63 (fun f s => nodeValue e (fun f => f.iter.setWidth 64) s f 1) s

/-! ## Iterations (R105, R226 to R228) -/

/-- Whether a fire's ITER_NEXT result has no place: it would need holding, and the engine's hold intake is occupied (R105,
R227). -/
def holdBlocked (s : State) (e : EngNo) (f : Fire) : Bool :=
  (s.plot (plotOf e)).holdIn.any (fun h => h.eng == bits (logicalD s e) 0 4) && wouldHold s (plotOf e) f.ctx (f.iter + 1)

/-- ITER_NEXT: L with the next ITER; the agent admits the result by the window of the firing context, or holds it. A fire
that would need holding beside an occupied intake, because another engine has taken the last window entry since it entered
EXEC, stays there (R105, R227, R229). -/
def execIterNext (e : EngNo) (s : State) : Host.Outcome State Fault Refusal :=
  if (s.eng e).exec.any (fun f => !f.closed && holdBlocked s e f) then .next s
  else onFire e 0x64 (fun f s =>
    let p := plotOf e
    let j := f.iter + 1
    let toks := destProto s e f.word f.comp false f.ctx j f.l ++ destProto s e f.word f.comp true f.ctx j f.l
    let s := if (windowOf (s.plot p) f.ctx).isNone ∧ (s.plot p).windows.length < 32 then
        seeWindows p (s.modPlot p (fun x => { x with windows := x.windows ++ [newWindow s p f.ctx] }))
      else s
    match windowOf (s.plot p) f.ctx with
    | some w =>
      if w.admits j then nodeResult e f toks 0 1 (setWindow p (w.openTo j) s)
      else
        let fs := toks.flatMap (fun k => protoFlits k false 0)
        nodeResult e f [] 0 1 (holdResult p (bits (logicalD s e) 0 4) f.ctx j fs s)
    | none =>
      let fs := toks.flatMap (fun k => protoFlits k false 0)
      nodeResult e f [] 0 1 (holdResult p (bits (logicalD s e) 0 4) f.ctx j fs s)) s

/-- ITER_RESET: L with ITER 0 (R99). -/
def execIterReset (e : EngNo) (s : State) : Host.Outcome State Fault Refusal :=
  onFire e 0x65 (fun f s =>
    nodeResult e f (destProto s e f.word f.comp false f.ctx 0 f.l ++ destProto s e f.word f.comp true f.ctx 0 f.l) 0 1 s) s

/-- ITER_DONE: the window of the firing context advances and held tokens are released, or the fire is ignored and
counted; L is sent on (R105, R228). -/
def execIterDone (e : EngNo) (s : State) : Host.Outcome State Fault Refusal :=
  onFire e 0x66 (fun f s =>
    let p := plotOf e
    let s := match windowOf (s.plot p) f.ctx with
      | some w => if w.b = w.h then s.satInc (preg p 0x128) 8 8 else releaseHeld p (setWindow p { w with b := w.b + 1 } s)
      | none => s.satInc (preg p 0x128) 8 8
    nodeValue e (·.l) s f 1) s

/-! ## Tags (R106) -/

/-- TAGSEND: one OPERAND with tag R and data L (R106). -/
def execTagsend (e : EngNo) (s : State) : Host.Outcome State Fault Refusal :=
  onFire e 0x67 (fun f s => nodeResult e f [proto1 kOperand (nwPri f.word) f.r f.l] 0 1 s) s

/-- MKTAG: {own ID, R[51:28], firing CTX, firing ITER} (R99, R106). -/
def execMktag (e : EngNo) (s : State) : Host.Outcome State Fault Refusal :=
  onFire e 0x68 (fun f s => nodeValue e (fun f => ownId s ++ bits f.r 28 24 ++ f.ctx ++ f.iter) s f 1) s

/-! ## Granary access (R107 to R109) -/

/-- Whether a granary byte address is valid for a node (R107). -/
def granaryAddr (a : Word) : Bool := bits a 0 3 == 0 && decide (a.toNat < 0x4000000)

/-- An ADDRESS fault: recorded, and the fire emits nothing (R107). -/
def addressFault (e : EngNo) (f : Fire) (a : Word) (s : State) : State :=
  let d : Detection :=
    { code := 0x0D, plot := some (plotOf e), phys := some e, locus := f.node.setWidth 16, a := a, b := 0, c := f.word,
      inj := false }
  nodeResult e f [] 0 1 (detect d s)

/-- A granary read node: one GRN_READ whose reply tag is D1 (R108). -/
def nodeRead (e : EngNo) (opc : Nat) (op : BitVec 3) (s : State) : Host.Outcome State Fault Refusal :=
  onFire e opc (fun f s =>
    let a := f.l + f.r
    if granaryAddr a then
      let tags := destProto s e f.word f.comp false f.ctx f.iter 0
      nodeResult e f (tags.map (fun k => proto1 kGrnRead (nwPri f.word) k.tag (readDesc op 0 (bits a 3 23)))) 0 1 s
    else addressFault e f a s) s

/-- GLD: a plain read of the word at L + R (R108). -/
def execGld (e : EngNo) (s : State) : Host.Outcome State Fault Refusal := nodeRead e 0x70 0 s

/-- GLDT: a take of the word at L + R (R108). -/
def execGldt (e : EngNo) (s : State) : Host.Outcome State Fault Refusal := nodeRead e 0x71 1 s

/-- GPRES: the presence of the word at L + R (R108). -/
def execGpres (e : EngNo) (s : State) : Host.Outcome State Fault Refusal := nodeRead e 0x72 2 s

/-- A GRN_WRITE of an engine, which adds one to its write count (R109, R127). -/
def writeProto (s : State) (e : Nat) (pri : BitVec 2) (waddr : BitVec 23) (mask : BitVec 8) (op : BitVec 3) (v : Word) :
    Proto :=
  proto1 kGrnWrite pri (addrTag (ownId s) (logicalD s e) waddr 0 mask op (bits (s.eng e).wcnt 0 5)) v

/-- The write count rises (R109). -/
def countWrite (e : Nat) (s : State) : State := s.modEng e (fun x => { x with wcnt := x.wcnt + 1 })

/-- A granary write node: one GRN_WRITE, and L to both destinations (R109). -/
def nodeWrite (e : EngNo) (opc : Nat) (op : BitVec 3) (s : State) : Host.Outcome State Fault Refusal :=
  onFire e opc (fun f s =>
    if granaryAddr f.r then
      let w := writeProto s e (nwPri f.word) (bits f.r 3 23) 0xFF op f.l
      countWrite e (nodeResult e f (w :: bothDests s e f f.l) 0 1 s)
    else addressFault e f f.r s) s

/-- GST: the word at R takes L and becomes FULL (R109). -/
def execGst (e : EngNo) (s : State) : Host.Outcome State Fault Refusal := nodeWrite e 0x74 1 s

/-- GSTR: the word at R takes L and keeps its presence (R109). -/
def execGstr (e : EngNo) (s : State) : Host.Outcome State Fault Refusal := nodeWrite e 0x75 0 s

/-- GCLR: the word at R becomes EMPTY and keeps its data (R109). -/
def execGclr (e : EngNo) (s : State) : Host.Outcome State Fault Refusal := nodeWrite e 0x76 2 s

/-! ## The Dibber, blocks and FENCE (R110, R111) -/

/-- SEND: descriptor R[13:0] is woken with value L; an R above 16,383 suppresses the token and is recorded, with EPOCH and
SEQ zero in the record: DESIGN CHOICE (R110; assumption log 96). -/
def execSend (e : EngNo) (s : State) : Host.Outcome State Fault Refusal :=
  onFire e 0x78 (fun f s =>
    let tag := blockTag (ownId s) 1 1 (bits f.r 0 14) f.ctx f.iter
    if 16383 < f.r.toNat then
      nodeResult e f (bothDests s e f f.l) 0 1 (detect (tokenDetect 0x12 e (mkToken kBlock 3 false 0 tag f.l) 0) s)
    else nodeResult e f (proto1 kBlock 3 tag f.l :: bothDests s e f f.l) 0 1 s) s

/-- BLK: one BLOCK token to the function that R names (R110). -/
def execBlk (e : EngNo) (s : State) : Host.Outcome State Fault Refusal :=
  onFire e 0x79 (fun f s =>
    let tag := blockTag (ownId s) (bits f.r 48 4) (bits f.r 42 6) (bits f.r 28 14) f.ctx f.iter
    nodeResult e f (proto1 kBlock 3 tag f.l :: bothDests s e f f.l) 0 1 s) s

/-- FENCE: a target equal to the write count; L is released when the acknowledgement count reaches it (R111). -/
def execFence (e : EngNo) (s : State) : Host.Outcome State Fault Refusal :=
  onFire e 0x7C (fun f s =>
    let x := s.eng e
    let r : Result :=
      { due := f.issued + 1, issued := f.issued, origin := .node f.node f.ctx f.iter f.word, toks := bothDests s e f f.l }
    completeFences e 4 (s.setEng e { x with
      fences := x.fences ++ [{ target := x.wcnt, node := some r, issued := f.issued }] })) s

/-! ## The plot binary64 unit (R170) -/

/-- What an engine posts: its opcode, whether for the fire, and whether the fire is P3. When both need the unit, the
one that R74 would issue if both requested EXEC (R170). -/
def b64Post (s : State) (e : Nat) : Option (Nat × Bool × Bool) :=
  let x := s.eng e
  let c := x.cycle + 1
  let fire := match x.fire with
    | some f =>
      let o := (nwOpc f.word).toNat
      if isB64 o ∧ !f.closed ∧ lanesFree x (fireLanes f.word) then some (o, f.pri == 3, f.ftz, f.l, f.r) else none
    | none => none
  let str := match strandHas s e c with
    | some (t, i) =>
      let o := (siSub i.word).toNat
      if siOp i.word = 1 ∧ isB64 o ∧ siLegal s e i.word then some (o, t.epri) else none
    | none => none
  match fire, str with
  | some (o, p3, _, _, _), none => some (o, true, p3)
  | none, some (o, _) => some (o, false, false)
  | some (o, p3, _, _, _), some (o', ep) =>
    let arb := s.rd (ereg e 0x10)
    let ch := arbitrate (bits arb 0 4).toNat (bits arb 4 4).toNat p3 (!p3) true
      (decide ((bits arb 8 5).toNat ≤ ep.toNat)) x
    if ch.1 = .strand then some (o', false, false) else some (o, true, p3)
  | none, none => none

/-- B64_GRANT: one cycle of the plot's unit. P3 fires rank first; within a rank the grant goes to the first requesting
local index after the one last granted; ENG_B64WAIT counts each engine that posted in vain (R170). -/
def execB64Grant (p : PlotNo) (s : State) : Host.Outcome State Fault Refusal :=
  let pl := s.plot p
  let cyc := pl.b64cycle + 1
  let posts : List (Nat × Nat × Nat × Bool × Bool) := (List.range 16).filterMap (fun k =>
    let i := (pl.b64ptr.toNat + 1 + k) % 16
    match slotOf s (BitVec.ofNat 10 (16 * p.val + i)) with
    | some e =>
      if !inService s e then none
      else (b64Post s e).map (fun r => (i, e, r.1, r.2.1, r.2.2))
    | none => none)
  let taken := (List.range 17).any (fun i => (s.eng (17 * p.val + i)).b64grant.any (·.iter))
  let able := posts.filter (fun r => unitOfOpc r.2.2.1 != .b64iter || (decide (pl.b64iter ≤ cyc + 1) && !taken))
  let win : Option (Nat × Nat × Nat × Bool × Bool) := match able.find? (fun r => r.2.2.2.2) with
    | some r => some r
    | none => able.head?
  let won : Option Nat := win.map (fun w => w.2.1)
  let s := s.modPlot p (fun x => { x with b64cycle := cyc })
  let s := posts.foldl (fun s r => if won = some r.2.1 then s else s.satInc (ereg r.2.1 0x98) 0 32) s
  match win with
  | none => .next s
  | some (i, e, o, ff, _) =>
    let s := s.modEng e (fun x => { x with b64grant := some { fire := ff, iter := unitOfOpc o == .b64iter, cycle := cyc } })
    .next (s.modPlot p (fun x => { x with b64ptr := BitVec.ofNat 4 i }))

end Sys2Proof.Machine
end

