-- ==== Sys2Proof/Machine/RegAccess.lean ====
section
/-! DEFINITION. The access rules of registers (R6 to R11): field types, reserved values, _LO and _HI pairs, and the
registers of an engine, whose read-only fields show its state (R81, R161, R220). -/

namespace Sys2Proof.Machine

/-- The key of a requester's latches and staging registers (R7). -/
def reqKey : Requester → Nat
  | .host => 0
  | .mc => 1
  | .smbus => 2
  | .relay => 3
  | .plot p => 16 + p.val

/-- A requester's access ends: from here on its next one can go out (R273). -/
def noteAccess (req : Requester) (s : State) : State :=
  { s with pathAt := SMap.set s.pathAt (reqKey req) s.time.now 0 }

/-- The key of a latch or a staging register: each requester has one of each kind for each pair. R7 says so of the staging
registers, and of the latch only that each requester has its own: one latch for each pair is a DESIGN CHOICE (R7; assumption
log 136). -/
def pairKey (req : Requester) (a : Nat) : Nat := reqKey req * 2 ^ 41 + a

/-- One field after a write, and whether the value written is reserved (R8, R10). -/
def writeField (old v : Reg32) (f : RField) : Reg32 × Bool :=
  let x := bits v f.lo f.len
  match f.acc with
  | .ro => (old, false)
  | .wo => (old, false)
  | .rw => if f.ok.admits x.toNat then (put old f.lo x, false) else (old, true)
  | .w1c => (put old f.lo (bits old f.lo f.len &&& ~~~x), false)
  | .w1s => (put old f.lo (bits old f.lo f.len ||| x), false)

/-- A register after a write, and whether a field took a reserved value (R10). -/
def writeFields (fs : List RField) (old v : Reg32) : Reg32 × Bool :=
  fs.foldl (fun r f =>
    let w := writeField r.1 v f
    (w.1, r.2 || w.2)) (old, false)

/-- Whether a register has a field that a plain write sets. -/
def RRow.writable (r : RRow) : Bool := r.fields.any (fun f => f.acc == .rw)

/-- A write of a register by its fields' types; a reserved value increments DEV_RSVD_ACCESS once (R10). -/
def plainWrite (a : Nat) (r : RRow) (v : Reg32) (s : State) : State :=
  let w := writeFields r.fields (s.rd a) v
  let s := s.wr a w.1
  if w.2 then s.rsvd else s

/-- A 32-bit write by the register tables (R6 to R10): a _LO half is staged, a _HI half commits the pair. -/
def tableWrite (req : Requester) (a : Nat) (v : Reg32) (s : State) : State :=
  match rowAt s.profile a with
  | none => s.rsvd
  | some (r, _) =>
    match r.pair with
    | .none => plainWrite a r v s
    | .lo =>
      if r.writable then { s with stages := SMap.set s.stages (pairKey req a) (some v) none } else s
    | .hi =>
      if r.writable then
        let k := pairKey req (a - 4)
        let s := match SMap.get s.stages k none with
          | some lo => s.wr (a - 4) lo
          | none => s
        { s.wr a v with stages := SMap.set s.stages k none none }
      else s

/-! ## Engine registers as read -/

/-- ENG_STATUS as read (R81). -/
def viewStatus (s : State) (e : Nat) : Reg32 :=
  let x := s.eng e
  let v := bits (s.rd (ereg e 8)) 8 4
  (0 : BitVec 20) ++ v ++ (0 : BitVec 2) ++ BitVec.ofBool (!x.sweeps.isEmpty) ++ BitVec.ofBool (decide (8 ≤ spillLevel x)) ++
    BitVec.ofBool (decide (4 ≤ x.mpb.length)) ++ BitVec.ofBool x.standby.isSome ++ BitVec.ofBool x.strand.isSome ++
    BitVec.ofBool (quiet s e)

/-- ENG_SRUN.STATE (R161): trap entry lasts from a trap until the strand has left the engine. -/
def runState (x : Engine) : BitVec 3 :=
  match x.strand with
  | none => 0
  | some t =>
    if t.leave.any (fun l => l.1 == .trap) then 5
    else if x.cycle < t.startAt ∨ t.leave.isSome then 6
    else match t.block with
      | .access _ => 1
      | .fence _ => 2
      | .fenceSlot _ _ => 2
      | _ => match x.sx with
        | some i => if siOp i.word = 0x16 ∧ i.waited then 3 else if bit t.ctx.flags 12 then 4 else 0
        | none => if bit t.ctx.flags 12 then 4 else 0

/-- The micro-PC of a running vendor micro-routine: a free value within the vendor routines' words, since the spec does not
give their content (R194; assumption log 101). -/
def vendorUpc (x : Engine) : BitVec 11 := BitVec.ofNat 11 (0x20 + (Config.vendorUpc x.cycle).toNat % 0x5E0)

/-- An engine register as a read finds it: the stored value with the fields that show state (R81, R161, R220). -/
def viewEng (s : State) (e off : Nat) : Reg32 :=
  let x := s.eng e
  let raw := s.rd (ereg e off)
  let run : Option Strand := x.strand
  match off with
  | 0x00 =>
    (match logicalOf s e with
     | some l => (0 : BitVec 6) ++ l
     | none => (0x20 : BitVec 6) ++ (0x3FF : BitVec 10)) ++ (0 : BitVec 5) ++ BitVec.ofNat 11 e
  | 0x08 => viewStatus s e
  | 0x18 => (0 : BitVec 3) ++ BitVec.ofNat 13 (msProt x) ++ (0 : BitVec 3) ++ BitVec.ofNat 13 (msTotal x)
  | 0x44 =>
    (0 : BitVec 7) ++ BitVec.ofNat 5 x.outMain.length ++ (0 : BitVec 1) ++ BitVec.ofNat 3 x.outP3.length ++ (0 : BitVec 1) ++
      BitVec.ofNat 4 x.inP0.length ++ BitVec.ofNat 4 x.inP1.length ++ BitVec.ofNat 4 x.inP2.length ++
      BitVec.ofNat 3 x.inP3.length
  | 0x48 =>
    (0 : BitVec 12) ++ BitVec.ofNat 4 x.p3ovf.length ++ (0 : BitVec 4) ++ BitVec.ofNat 4 (spillLevel x) ++ (0 : BitVec 4) ++
      x.mpb.foldl (fun v m => putBit v m.slot true) (0 : BitVec 4)
  | 0x100 =>
    match run with
    | some t => (1 : BitVec 1) ++ BitVec.ofBool t.k ++ runState x ++ (0 : BitVec 13) ++ t.desc
    | none => 0
  | 0x104 => match run with
    | some t => t.ctx.pc.setWidth 32
    | none => 0
  | 0x108 => match x.standby with
    | some b => (1 : BitVec 1) ++ (0 : BitVec 17) ++ b.desc
    | none => 0
  | 0x10C => match run with
    | some t => put (put raw 4 t.ctx.rsp) 0 t.ctx.rsd
    | none => raw
  | 0x120 => put (put raw 16 x.accNo) 0 (x.pend.foldl (fun v m => putBit v m.slot true) (0 : BitVec 4))
  | 0x124 => match x.resv with
    | some g => (1 : BitVec 1) ++ (0 : BitVec 16) ++ g ++ (0 : BitVec 6)
    | none => 0
  | 0x128 => put raw 0 (BitVec.ofNat 3 x.stores.length)
  | 0x12C => x.wcnt ++ x.acnt
  | 0x204 =>
    let vendor := decide (x.cycle < x.seqFree)
    let busy := x.seqr.isSome || vendor
    let src := match x.seqr with
      | some r => (match r.owner with
        | .strand _ => true
        | .node _ _ => false)
      | none => vendor && x.seqStrand
    BitVec.ofBool busy ++ BitVec.ofBool src ++ BitVec.ofBool x.susp.isSome ++ (0 : BitVec 2) ++
      (match x.susp with
       | some r => r.upc
       | none => 0) ++ (0 : BitVec 5) ++
      (match x.seqr with
       | some r => r.upc
       | none => if vendor then vendorUpc x else 0)
  | _ => raw

/-- A read of an engine register by a requester: a _LO half latches its _HI half (R7, R9). -/
def readEng (req : Requester) (e off : Nat) (s : State) : Reg32 × State :=
  match findRow s.profile .eng off with
  | none => (0, s.rsvd)
  | some (r, _) =>
    match r.pair with
    | .none => (viewEng s e off, s)
    | .lo => (viewEng s e off,
        { s with latches := SMap.set s.latches (pairKey req (ereg e off)) (viewEng s e (off + 4)) 0 })
    | .hi => (SMap.get s.latches (pairKey req (ereg e (off - 4))) 0, s)

/-- The next state of an outcome; a stop leaves the state as it was. -/
def outcomeState (s : State) : Host.Outcome State Fault Refusal → State
  | .next t => t
  | _ => s

/-- A 32-bit write of an engine register: ENG_CTRL, ENG_ARB and ENG_MATCH_CFG by their own commands, the others by
their fields; the engine raises ENG_MS_HWM again when TOTAL exceeds what was written (R81). -/
def writeEng (req : Requester) (e : EngNo) (off : Nat) (v : Reg32) (s : State) : State :=
  if off = 0x04 then outcomeState s (execEngCtrlWrite req e v s)
  else if off = 0x10 then outcomeState s (execEngArbWrite req e v s)
  else if off = 0x14 then outcomeState s (execEngMatchCfgWrite req e v s)
  else
    match findRow s.profile .eng off with
    | none => s.rsvd
    | some (r, _) =>
      if r.pair ≠ .none then s
      else if off = 0x1C then raiseHwm e (plainWrite (ereg e off) r v s)
      else plainWrite (ereg e off) r v s

end Sys2Proof.Machine
end

