-- ==== Sys2Proof/Machine/Strand.lean ====
section
/-! DEFINITION. The strand instructions (R121 to R153) and the drain of the store buffer (R140), each acting on the
instruction in EXEC. -/

namespace Sys2Proof.Machine

/-- A strand instruction acts on the instruction in EXEC when that one's word fits. -/
def onStrand (e : EngNo) (p : BitVec 32 → Bool) (g : SIssue → State → State) (s : State) :
    Host.Outcome State Fault Refusal :=
  match (s.eng e).sx with
  | none => .next s
  | some i => if p i.word then .next (g i (s.modEng e (fun x => { x with sx := none }))) else .next s

/-- Whether a word has an opcode. -/
def hasOp (o : Nat) (w : BitVec 32) : Bool := (siOp w).toNat == o

/-- Whether a word is a SYS instruction with a SUB. -/
def isSys (sub : Nat) (w : BitVec 32) : Bool := hasOp 0x30 w && (siSub w).toNat == sub

/-- The instruction stays in EXEC, waiting (R133, R141). -/
def stayInExec (e : Nat) (i : SIssue) (s : State) : State := s.modEng e (fun x => { x with sx := some { i with waited := true } })

/-- The instruction that has waited goes on as though it had issued in this cycle (R79, R141). -/
def reissue (s : State) (e : Nat) (i : SIssue) : SIssue :=
  if i.waited || i.stalled then { i with issued := (s.eng e).cycle } else i

/-! ## The frame-store port (R79) -/

/-- Data flits for the frame store at the head of what the memory intake has still to write. -/
def frameFlits (x : Engine) : Nat := (x.sheafWr.takeWhile (fun f => !f.imem)).length

/-- Sheaf flits that take the port within an access of `n` cycles that starts now: one after each four cycles of waiting
(R79, R140). -/
def sheafSlips (x : Engine) (n : Nat) : Nat :=
  let first := 4 - x.sheafWait
  if n ≤ first then 0 else min (frameFlits x) ((n - first + 3) / 4)

/-- The strand side uses the frame-store port in `n` cycles from this one, with those in which sheaf flits take it (R79,
R140, R201). -/
def usePort (e : Nat) (n : Nat) (s : State) : State :=
  s.modEng e (fun x => { x with portFrom := x.cycle, portUntil := max x.portUntil (x.cycle + n + sheafSlips x n) })

/-- Whether the strand side has begun to use the port in this cycle. -/
def portBegun (x : Engine) : Bool := x.portFrom == x.cycle && decide (x.cycle < x.portUntil)

/-- Whether this cycle's port access is a sheaf flit's: it has taken the port, or has waited four cycles and takes it (R79).
-/
def portStalled (s : State) (e : Nat) : Bool :=
  let x := s.eng e
  x.sheafTurn == some (x.cycle, true) ||
    (decide (0 < frameFlits x) && decide (4 ≤ x.sheafWait) && x.sheafTurn.map (·.1) != some x.cycle && !portBegun x)

/-- The strand access in EXEC stalls for a sheaf flit (R79). -/
def stallInExec (e : Nat) (i : SIssue) (s : State) : State := s.modEng e (fun x => { x with sx := some { i with stalled := true } })

/-- The running strand's descriptor. -/
def runDesc (s : State) (e : Nat) : BitVec 14 :=
  match (s.eng e).strand with
  | some t => t.desc
  | none => 0

/-- Whether the running strand is at K level. -/
def runK (s : State) (e : Nat) : Bool :=
  match (s.eng e).strand with
  | some t => t.k
  | none => false

/-! ## Operations (R121, R122) -/

/-- A floating-point or divide result of the running strand: the flags it will raise and D, with `more` writes of the
instruction. In the precise mode of R158 and R189 the next instruction waits for the completion, and one that raises flags
makes its writes only then, when they do not trap. -/
def strandFloat (e : EngNo) (i : SIssue) (r : Word × FFlags) (lam : Nat) (isFp : Bool) (more : List RegWrite) (s : State) :
    State :=
  let precise := isFp && s.flag (ereg e 0x80) 31 && runK s e
  let o : Origin := .strand i.pc (runDesc s e)
  let ws := more ++ [resultOf i ((siD i.word).setWidth 5) r.1 lam]
  let s := s.modEng e (willRaise { due := i.issued + lam, issued := i.issued, origin := o, flags := r.2, pend := !precise })
  let s := if precise then modStrand e (fun t => { t with issueAt := max t.issueAt (i.issued + lam + 2) }) s else s
  if precise && r.2 != 0 then modStrand e (fun t => { t with block := .precise i.pc i.rep (i.issued + lam) r.2 ws }) s
  else ws.foldl (fun s w => pushWrite e w s) s

/-- OPR: the node-table operation of SUB on A and B, with D as the addend of FMA and DFMA (R121). -/
def execOpr (e : EngNo) (s : State) : Host.Outcome State Fault Refusal :=
  onStrand e (fun w => hasOp 0x01 w && (siSub w).toNat != 0x26 && decide ((siSub w).toNat < 0xE0)) (fun i s =>
    let c := (siSub i.word).toNat
    let r := vendorOp c i.rm i.ftz i.a i.b i.d
    let lam := latencyOf s.profile c i.ftz i.a i.b
    strandFloat e i r lam (decide (0x30 ≤ c) && c != 0x3D && c != 0x3E) [] s) s

/-- CMP: Z, N, C and V from A − B (R121, R122). -/
def execCmp (e : EngNo) (s : State) : Host.Outcome State Fault Refusal :=
  onStrand e (fun w => hasOp 0x01 w && (siSub w).toNat == 0x26)
    (fun i s => writeResult e i tFlags ((compareFlags i.a i.b).setWidth 64) 1 s) s

/-- IMM, sign-extended. -/
def immOf (w : BitVec 32) : Word := (siImm w).signExtend 64

/-- ADDI: D ← A + IMM (R122). -/
def execAddi (e : EngNo) (s : State) : Host.Outcome State Fault Refusal :=
  onStrand e (hasOp 0x02) (fun i s => writeD e i (i.a + immOf i.word) 1 s) s

/-- ANDI: D ← A and IMM (R122). -/
def execAndi (e : EngNo) (s : State) : Host.Outcome State Fault Refusal :=
  onStrand e (hasOp 0x03) (fun i s => writeD e i (i.a &&& immOf i.word) 1 s) s

/-- ORI: D ← A or IMM (R122). -/
def execOri (e : EngNo) (s : State) : Host.Outcome State Fault Refusal :=
  onStrand e (hasOp 0x04) (fun i s => writeD e i (i.a ||| immOf i.word) 1 s) s

/-- XORI: D ← A xor IMM (R122). -/
def execXori (e : EngNo) (s : State) : Host.Outcome State Fault Refusal :=
  onStrand e (hasOp 0x05) (fun i s => writeD e i (i.a ^^^ immOf i.word) 1 s) s

/-- SHI: D ← A shifted or rotated by n, as k selects (R122). -/
def execShi (e : EngNo) (s : State) : Host.Outcome State Fault Refusal :=
  onStrand e (hasOp 0x06) (fun i s =>
    let c := 0x14 + (bits i.word 6 2).toNat
    writeD e i (intOp c i.a ((bits i.word 0 6).setWidth 64)).1 1 s) s

/-- MOVW: sixteen bits of D take IMM[15:0]; the others are kept (R122). -/
def execMovw (e : EngNo) (s : State) : Host.Outcome State Fault Refusal :=
  onStrand e (hasOp 0x07) (fun i s =>
    writeD e i (put i.d (16 * (bits i.word 16 2).toNat) (bits i.word 0 16)) 1 s) s

/-- CMPI: flags from A − IMM (R122). -/
def execCmpi (e : EngNo) (s : State) : Host.Outcome State Fault Refusal :=
  onStrand e (hasOp 0x08) (fun i s =>
    writeResult e i tFlags ((compareFlags i.a (immOf i.word)).setWidth 64) 1 s) s

/-! ## Branches and the return stack (R123, R124, R135) -/

/-- The strand goes on at a PC: what is behind the branch is discarded and fetched again; `extra` cycles later under
profile 0x0100 (R124). -/
def jumpTo (e : Nat) (i : SIssue) (target : BitVec 15) (extra : Nat) (s : State) : State :=
  modStrand e (fun t => { t with
    npc := target, fetchAt := i.issued + 1 + extra, fetch := none, dec := none, read := none,
    ctx := { t.ctx with pc := target } }) s

/-- The extra issue cycle of a taken branch under profile 0x0100 (R124). -/
def branchExtra (s : State) : Nat := if s.profile = .p0100 then 1 else 0

/-- The target of a relative branch. -/
def relTarget (i : SIssue) : BitVec 15 := i.pc + siOff i.word

/-- ENG_SRS counts a wrap (R135). -/
def countWrap (e : Nat) (s : State) : State := s.satInc (ereg e 0x10C) 8 8

/-- A push of a return PC; none: RSTACK (R135). -/
def pushRet (e : Nat) (rsx : Bool) (ret : BitVec 15) (s : State) : Option State :=
  match (s.eng e).strand with
  | none => some s
  | some t =>
    let full := t.ctx.rsd = 8
    if full ∧ rsx then none
    else
      let c := { t.ctx with
        ras := t.ctx.ras.set t.ctx.rsp.toNat ret t.ctx.rsp.isLt
        rsp := t.ctx.rsp + 1
        rsd := if full then 8 else t.ctx.rsd + 1 }
      let s := modStrand e (fun t => { t with ctx := c }) s
      some (if full then countWrap e s else s)

/-- A pop of the return stack: the PC; none: RSTACK (R135). -/
def popRet (e : Nat) (rsx : Bool) (s : State) : Option (BitVec 15 × State) :=
  match (s.eng e).strand with
  | none => some (0, s)
  | some t =>
    let empty := t.ctx.rsd = 0
    if empty ∧ rsx then none
    else
      let rsp := t.ctx.rsp - 1
      let pc := t.ctx.ras[rsp.toNat]'rsp.isLt
      let s := modStrand e (fun t => { t with
        ctx := { t.ctx with rsp := rsp, rsd := if empty then 0 else t.ctx.rsd - 1 } }) s
      some (pc, if empty then countWrap e s else s)

/-- FLAGS.RSX as sampled. -/
def rsxOf (i : SIssue) : Bool := bit i.flags 9

/-- BC: if the condition holds, PC ← PC + 4 × OFF (R122, R124). -/
def execBc (e : EngNo) (s : State) : Host.Outcome State Fault Refusal :=
  onStrand e (hasOp 0x20) (fun i s =>
    if condHolds (siD i.word) i.flags then jumpTo e i (relTarget i) (branchExtra s) s else s) s

/-- JMP: PC ← PC + 4 × OFF (R122). -/
def execJmp (e : EngNo) (s : State) : Host.Outcome State Fault Refusal :=
  onStrand e (hasOp 0x21) (fun i s => jumpTo e i (relTarget i) (branchExtra s) s) s

/-- A call to a target: the return PC is pushed first (R135). -/
def callTo (e : EngNo) (i : SIssue) (target : BitVec 15) (s : State) : State :=
  match pushRet e (rsxOf i) (i.pc + 4) s with
  | some s => jumpTo e i target (branchExtra s) s
  | none => strandTrap e i tcRstack i.pc 0 s

/-- CALL: push PC + 4; PC ← PC + 4 × OFF (R122, R135). -/
def execCall (e : EngNo) (s : State) : Host.Outcome State Fault Refusal :=
  onStrand e (hasOp 0x22) (fun i s => callTo e i (relTarget i) s) s

/-- Whether a register holds a legal instruction address (R123). -/
def jumpable (a : Word) : Bool := bits a 15 49 == 0 && bits a 0 2 == 0

/-- JR: PC ← A[14:0]; a misaligned or large A is an ALIGN trap (R123). -/
def execJr (e : EngNo) (s : State) : Host.Outcome State Fault Refusal :=
  onStrand e (hasOp 0x23) (fun i s =>
    if jumpable i.a then jumpTo e i (bits i.a 0 15) (branchExtra s) s else strandTrap e i tcAlign i.pc i.a s) s

/-- CALLR: push PC + 4, then as JR (R123, R135). An RSTACK trap of the push comes before the ALIGN trap of the jump:
DEDUCED from "push, then as JR" (assumption log 97). -/
def execCallr (e : EngNo) (s : State) : Host.Outcome State Fault Refusal :=
  onStrand e (hasOp 0x24) (fun i s =>
    if jumpable i.a ∨ (pushRet e (rsxOf i) (i.pc + 4) s).isNone then callTo e i (bits i.a 0 15) s
    else strandTrap e i tcAlign i.pc i.a s) s

/-- RET: PC ← pop (R123, R135). -/
def execRet (e : EngNo) (s : State) : Host.Outcome State Fault Refusal :=
  onStrand e (hasOp 0x25) (fun i s =>
    match popRet e (rsxOf i) s with
    | some (pc, s) => jumpTo e i pc (branchExtra s) s
    | none => strandTrap e i tcRstack i.pc 0 s) s

/-! ## Addresses (R22, R23, R125, R127) -/

/-- Where an M-format access goes. -/
inductive Region where
  | frame (off : Nat)
  | imem (off : Nat)
  | ownReg (off : Nat)
  | granary (a : BitVec 26)
  | pathReg (a : BitVec 40)
  | pathMem (a : BitVec 40)
  | bad
  deriving DecidableEq, Repr

/-- Kinds of place, so that an access lies in one region (R125). -/
def sameRegion (a b : Place) : Bool :=
  match a, b with
  | .granary _, .granary _ => true
  | .imem e _, .imem f _ => e == f
  | .frame e _, .frame f _ => e == f
  | .ms e _, .ms f _ => e == f
  | .engReg e _, .engReg f _ => e == f
  | .ucode e _, .ucode f _ => e == f
  | .plotReg p _, .plotReg q _ => p == q
  | .ctxStore p _, .ctxStore q _ => p == q
  | .block x _, .block y _ => x == y
  | .reserved, .reserved => true
  | .test, .test => true
  | _, _ => false

/-- Whether two places answer on the register access path as one target: a plot's window, or a device block (R273). -/
def sameTarget (a b : Place) : Bool :=
  let plot : Place → Option Nat := fun x => match x with
    | .imem e _ => some (e / 17)
    | .frame e _ => some (e / 17)
    | .ms e _ => some (e / 17)
    | .engReg e _ => some (e / 17)
    | .ucode e _ => some (e / 17)
    | .plotReg p _ => some p
    | .ctxStore p _ => some p
    | _ => none
  match plot a, plot b with
  | some p, some q => p == q
  | none, none => sameRegion a b
  | _, _ => false

/-- The region of an SP = 0 address for a strand of engine `e` (R22, R23, R125). With TEST_MODE low the TEST range is a
reserved offset for a K-level strand too: DEDUCED from "for every requester" of R24 (assumption log 98). -/
def regionOf (s : State) (e : Nat) (k : Bool) (ea : Word) (size : Nat) : Region :=
  if bits ea 40 24 ≠ 0 then .bad
  else
    let pl := place ea.toNat
    if !sameRegion pl (place (ea.toNat + size - 1)) then .bad
    else match pl with
      | .granary _ => .granary (bits ea 0 26)
      | .frame f off => if f = e then .frame off else if k then .pathMem (bits ea 0 40) else .bad
      | .imem f off => if !k then .bad else if f = e then .imem off else .pathMem (bits ea 0 40)
      | .engReg f off => if !k then .bad else if f = e then .ownReg off else .pathReg (bits ea 0 40)
      | .ctxStore _ _ => if k then .pathMem (bits ea 0 40) else .bad
      | .ms _ _ => if k then .pathMem (bits ea 0 40) else .bad
      | .ucode _ _ => if k then .pathMem (bits ea 0 40) else .bad
      | .block .mc _ => .bad
      | .block .bar4 _ => .bad
      | .test => if k && !s.testMode then .pathReg (bits ea 0 40) else .bad
      | .unmapped => .bad
      | _ => if k then .pathReg (bits ea 0 40) else .bad

/-- The region of an M-format instruction of size `n`. -/
def memRegion (s : State) (e : Nat) (i : SIssue) (n : Nat) : Region :=
  let ea := effAddr i
  if siSP i.word then (if ea.toNat + n ≤ 0x8000 then .frame ea.toNat else .bad)
  else regionOf s e (runK s e) ea n

/-- Whether an access of size `n` at an offset is naturally aligned, of 4 or 8 bytes. -/
def regAligned (a n : Nat) : Bool := (n == 4 || n == 8) && a % n == 0

/-- Whether an access updates A (R125). -/
def increments (i : SIssue) (load : Bool) : Bool := siPI i.word && !(load && siD i.word == siA i.word)

/-- The write of the post-increment of A, where there is one (R125). -/
def incWrite (i : SIssue) (n : Nat) (load : Bool) : List RegWrite :=
  if increments i load then [resultOf i ((siA i.word).setWidth 5) (i.a + BitVec.ofNat 64 n) 1] else []

/-- The post-increment of A (R125). -/
def postInc (e : Nat) (i : SIssue) (n : Nat) (load : Bool) (s : State) : State :=
  (incWrite i n load).foldl (fun s w => pushWrite e w s) s

/-- What a blocking load that traps takes back: A as the instructions issued before it leave it (R156). -/
def undoInc (s : State) (e : Nat) (i : SIssue) : Option (BitVec 4 × Word) :=
  match (s.eng e).strand with
  | some t => if increments i true ∧ siA i.word ≠ 0 then
      some (siA i.word, getW (drained (s.eng e).cycle t) (siA i.word)) else none
  | none => none

/-! ## The store buffer (R140, R141) -/

/-- Whether two byte ranges overlap. -/
def overlaps (a n b m : Nat) : Bool := decide (a < b + m ∧ b < a + n)

/-- Whether an address lies in a plot's window, which its own strands reach without the register access path (R274). -/
def ownWindow (p : PlotNo) (a : BitVec 40) : Bool := a.toNat / 0x800000 == 0x01_0000_0000 / 0x800000 + p.val

/-- Whether an access in the list of those under way uses the register access path: one of a plot to its own window does
not (R274). -/
def RPath.travels (k : RPath) : Bool :=
  match k.req with
  | .plot p => !ownWindow p k.addr
  | _ => true

/-- Whether a plot's access to an address can start: its queue to the register access path takes another one (R265), or it
does not use the path (R274). -/
def pathRoom (s : State) (p : PlotNo) (a : BitVec 40) : Bool :=
  ownWindow p a || decide ((s.rpath.filter (fun k => k.req == .plot p && k.travels)).length < 4)

/-- Whether the oldest store buffer entry can leave: one for the register path needs room in the plot's queue. -/
def drainable (s : State) (e : EngNo) : Bool :=
  match (s.eng e).stores with
  | [] => false
  | k :: _ => k.kind != .path || pathRoom s (plotOf e) k.addr

/-- Whether a store buffer entry crosses an 8-byte boundary of the frame store, so that it uses the port twice (R140). -/
def crossesWord (k : StoreEntry) : Bool := k.kind == .frame && decide (8 < k.addr.toNat % 8 + k.size)

/-- The cycles in which a store buffer entry has still to use the port it drains through (R140). -/
def drainCycles (k : StoreEntry) : Nat := if crossesWord k && !k.half then 2 else 1

/-- The bytes of an entry in the first of two words are written (R140). -/
def storeFirst (e : EngNo) (k : StoreEntry) (s : State) : State :=
  localStore .frame e k.addr.toNat (8 - k.addr.toNat % 8) k.data s

/-- The bytes of an entry in the second of two words are written (R140). -/
def storeRest (e : EngNo) (k : StoreEntry) (s : State) : State :=
  let n := 8 - k.addr.toNat % 8
  localStore .frame e (k.addr.toNat + n) (k.size - n) (k.data >>> (8 * n)) s

/-- A frame-store entry is written, or what is left of it. -/
def storeFrame (e : EngNo) (k : StoreEntry) (s : State) : State :=
  if crossesWord k then storeRest e k (if k.half then s else storeFirst e k s)
  else localStore .frame e k.addr.toNat k.size k.data s

/-- The oldest store buffer entry drains; entries drain one after another (R140). -/
def drainOldest (e : EngNo) (s : State) : State :=
  let x := s.eng e
  match x.stores with
  | [] => s
  | k :: ks =>
    let s := s.setEng e { x with stores := ks, drainFree := x.cycle + drainCycles k }
    match k.kind with
    | .frame => storeFrame e k s
    | .granary op =>
      let sh := k.addr.toNat % 8
      let mask := BitVec.ofNat 8 ((2 ^ k.size - 1) * 2 ^ sh)
      let w := writeProto s e k.mp (bits k.addr 3 23) mask op (k.data <<< (8 * sh))
      let c := (s.eng e).cycle
      countWrite e (s.modEng e (addResult
        { due := c + 1, issued := c, origin := .buffer, toks := [w] }))
    | .path =>
      { s with rpath := s.rpath ++ [{ req := .plot (plotOf e), eng := none, desc := 0, addr := k.addr, size := k.size,
                                      wr := some k.data, at_ := now s, lost := false }] }
    | .ownReg =>
      let off := k.addr.toNat
      let s := writeEng (.plot (plotOf e)) e off (bits k.data 0 32) s
      if k.size = 8 then writeEng (.plot (plotOf e)) e (off + 4) (bits k.data 32 32) s else s

/-- The youngest buffered frame store that overlaps a range. -/
def youngestOverlap (x : Engine) (off n : Nat) : Option StoreEntry :=
  (x.stores.filter (fun k => k.kind == .frame && overlaps off n k.addr.toNat k.size)).getLast?

/-- Whether a frame-store load of a range waits for buffered stores: the youngest that overlaps it is not of its address and
size (R141). -/
def partOverlap (x : Engine) (off n : Nat) : Bool :=
  (youngestOverlap x off n).any (fun k => k.addr.toNat != off || k.size != n)

/-- Whether a store to the own ENG registers is buffered (R140). -/
def ownRegBuffered (x : Engine) : Bool := x.stores.any (fun k => k.kind == .ownReg)

/-- Whether an opcode is a load of the frame store: LD, LDS, LADD, LFADD or LR. -/
def loadOp (o : Nat) : Bool := o == 0x10 || o == 0x11 || o == 0x13 || o == 0x14 || o == 0x15

/-- Whether the instruction in EXEC takes the frame-store port in this cycle: a frame-store load, LR, SC, TAS or SHF that
does not wait for the store buffer; a load, LR, SC or TAS takes it in its cycle of issue too (R79, R140, R201). -/
def takesPort (s : State) (e : Nat) : Bool :=
  let x := s.eng e
  match x.sx with
  | some i =>
    let o := (siOp i.word).toNat
    if loadOp o ∨ o = 0x16 ∨ o = 0x17 then
      (match memRegion s e i (siSize i.word) with
        | .frame off =>
          !i.waited || (if o = 0x16 then x.stores.isEmpty
            else if o = 0x17 then (youngestOverlap x off 8).isNone else !partOverlap x off (siSize i.word))
        | _ => false)
    else o == 0x30 && siSub i.word == 4 && (youngestOverlap x i.b.toNat (16 * ((siD i.word).toNat + 1))).isNone
  | none => false

/-- Whether the load in EXEC begins to wait for buffered stores in this cycle: nothing drains in it, so that the wait is at
least the store's position and one (R140, R141). -/
def waitsNow (s : State) (e : Nat) : Bool :=
  let x := s.eng e
  match x.sx with
  | some i =>
    !i.waited && loadOp (siOp i.word).toNat && (match memRegion s e i (siSize i.word) with
      | .frame off => partOverlap x off (siSize i.word)
      | .ownReg _ => ownRegBuffered x
      | _ => false)
  | none => false

/-- Whether the strand side uses the frame-store port in this cycle (R79, R140, R201). -/
def portTaken (s : State) (e : Nat) : Bool := takesPort s e || decide ((s.eng e).cycle < (s.eng e).portUntil)

/-- Whether the oldest store buffer entry may drain in this cycle, the port apart: after the cycle in which it entered, one
a cycle (R140). -/
def drainDue (s : State) (e : EngNo) : Bool :=
  let x := s.eng e
  match x.stores with
  | [] => false
  | k :: _ => decide (k.at_ < x.cycle) && decide (x.drainFree ≤ x.cycle) && drainable s e && !waitsNow s e

/-- STORE_DRAIN: the oldest entry drains, one a cycle, after the cycle in which it entered, and for a frame-store entry in a
cycle in which the strand does not use the frame-store port and no sheaf flit takes it; one that crosses an 8-byte boundary
drains in two such cycles (R79, R140, R141; assumption log 90). -/
def execStoreDrain (e : EngNo) (s : State) : Host.Outcome State Fault Refusal :=
  match (s.eng e).stores with
  | [] => .next s
  | k :: ks =>
    if !drainDue s e ∨ (k.kind = .frame ∧ (portTaken s e ∨ portStalled s e)) then .next s
    else if k.kind ≠ .frame then .next (drainOldest e s)
    else if crossesWord k && !k.half then
      .next ((storeFirst e k s).modEng e (fun x => { x with
        stores := { k with half := true } :: ks, drainFree := x.cycle + 1, portFrom := x.cycle, portUntil := x.cycle + 1 }))
    else .next ((drainOldest e s).modEng e (fun x => { x with portFrom := x.cycle, portUntil := x.cycle + 1 }))

/-- A store joins the buffer (R140). -/
def bufferStore (e : Nat) (k : StoreEntry) (s : State) : State := s.modEng e (fun x => { x with stores := x.stores ++ [k] })

/-- Whether the write of a drained store touches a range of granary bytes. -/
def writeOverlaps (t : BitVec 64) (a n : Nat) : Bool :=
  (List.range 8).any (fun b => bit (tagMask t) b && overlaps a n (8 * (tagAddr t).toNat + b) 1)

/-- Whether a store to granary words that overlaps a range is buffered, or drained and still in EMIT (R141). -/
def granaryOverlap (x : Engine) (a n : Nat) : Bool :=
  x.stores.any (fun k => overlaps a n k.addr.toNat k.size && (match k.kind with
    | .granary _ => true
    | _ => false)) ||
  x.results.any (fun r => r.origin == .buffer && r.toks.any (fun k => writeOverlaps k.tag a n)) ||
  x.bufHeld.any (fun f => (inHolds x).contains f && writeOverlaps f.tag a n)

/-- Whether a store for the register path to the block or window of an address is buffered, which a load there follows
(R127). -/
def pathBuffered (x : Engine) (a : Nat) : Bool :=
  x.stores.any (fun k => k.kind == .path && sameTarget (place k.addr.toNat) (place a))

/-- A load waits: it stays in EXEC, and ENG_SSB.PSTALL counts it once (R141, R161). -/
def waitLoad (e : Nat) (i : SIssue) (s : State) : State :=
  stayInExec e i (if i.waited then s else s.satInc (ereg e 0x128) 8 8)

/-- A frame-store load (R79, R140, R141): the loaded bytes, the instruction as it issued and the growth of its latency go
on; or it waits, stalls or traps. With the buffer full and its oldest entry one for which the register access path has no
room the load goes without the drain: DESIGN CHOICE (R140; assumption log 129). One that has waited and crosses an 8-byte
boundary has the latency of a crossing load from the cycle in which it goes on: DEDUCED (R141, R160; assumption log 130). -/
def frameLoad (e : EngNo) (i : SIssue) (off n : Nat) (u : Upset) (k : SIssue → Word → Nat → State → State) (s : State) :
    State :=
  if portStalled s e then stallInExec e i s
  else
  let full := !i.waited && decide (4 ≤ (s.eng e).stores.length) && drainable s e
  let first := if i.waited then i.grow
    else match (s.eng e).stores with
      | st :: _ => if full ∧ st.kind = .frame then drainCycles st else 0
      | [] => 0
  let s := if full then drainOldest e s else s
  let use := (if i.waited then 0 else first) + (if partOverlap (s.eng e) off n ∨ off % 8 + n ≤ 8 then 1 else 2)
  let grow := first + sheafSlips (s.eng e) use
  let i' := { reissue s e i with grow := grow }
  match youngestOverlap (s.eng e) off n with
  | some st =>
    if st.addr.toNat = off ∧ st.size = n then
      k i' st.data ((if s.profile = .p0100 then 3 else 2) + grow) (usePort e use s)
    else waitLoad e { i with grow := grow } (if i.waited then s else usePort e use s)
  | none =>
    let s := (usePort e use s).upset (frameBase e + off / 8 * 8) u
    let r := localLoad .frame e off n s
    match r.1 with
    | some v => k i' v (frameLat s.profile off n + grow) r.2
    | none => strandTrap e i tcData i.pc (effAddr i) r.2

/-! ## Blocking accesses (R128) -/

/-- A granary read of the running strand: one GRN_READ, and the strand waits for the reply (R128). -/
def granaryRead (e : EngNo) (i : SIssue) (a : BitVec 26) (n : Nat) (signed : Bool) (op : BitVec 3) (s : State) : State :=
  let x := s.eng e
  let tag := operandTag (ownId s) (logicalD s e) 0xFFF 2 0 x.accNo
  let tok := proto1 kGrnRead (flagsMP i.flags) tag (readDesc op 0 (bits a 3 23))
  let acc : Access :=
    { d := siD i.word, addr := a.setWidth 40, size := n, signed := signed, accNo := some x.accNo, pc := i.pc,
      undo := undoInc s e i, arrives := none }
  let s := s.setEng e { x with accNo := x.accNo + 1 }
  let s := s.modEng e (addResult
    { due := i.issued + 1, issued := i.issued, origin := .strand i.pc (runDesc s e), toks := [tok] })
  modStrand e (fun t => { t with block := .access acc }) s

/-- A read by address of a register or a memory (R128): on the register access path (R273), or in the own plot's window,
whose reply arrives so that the next instruction issues 14 cycles after issue (R160, R274). -/
def pathRead (e : EngNo) (i : SIssue) (a : BitVec 40) (n : Nat) (signed : Bool) (s : State) : State :=
  let acc : Access :=
    { d := siD i.word, addr := a, size := n, signed := signed, accNo := none, pc := i.pc, undo := undoInc s e i,
      arrives := if ownWindow (plotOf e) a then some (i.issued + 10) else none }
  let s := { s with rpath := s.rpath ++ [{ req := .plot (plotOf e), eng := some e, desc := runDesc s e, addr := a, size := n, wr := none,
                                           at_ := now s, lost := false }] }
  modStrand e (fun t => { t with block := .access acc }) s

/-- A load by address on its way: it waits behind a buffered store to the same block or window (R127), and for room in the
plot's queue. -/
def pathLoad (e : EngNo) (i : SIssue) (a : BitVec 40) (n : Nat) (signed : Bool) (s : State) : State :=
  if pathBuffered (s.eng e) a.toNat || !pathRoom s (plotOf e) a then stayInExec e i s
  else
    let i := reissue s e i
    postInc e i n true (pathRead e i a n signed s)

/-- An own ENG register load: two halves for 8 bytes (R6, R160). -/
def ownRegLoad (e : EngNo) (off n : Nat) (s : State) : Word × State :=
  let lo := readEng (.plot (plotOf e)) e off s
  if n = 8 then
    let hi := readEng (.plot (plotOf e)) e (off + 4) lo.2
    (hi.1 ++ lo.1, hi.2)
  else (lo.1.setWidth 64, lo.2)

/-- LD and LDS (R126, R127, R160). -/
def loadInst (e : EngNo) (signed : Bool) (u : Upset) (i : SIssue) (s : State) : State :=
  let n := siSize i.word
  let ea := effAddr i
  match memRegion s e i n with
  | .bad => strandTrap e i tcAddress i.pc ea s
  | .frame off =>
    frameLoad e i off n u (fun i v lam s =>
      let s := postInc e i n true (writeD e i (extend signed n v) lam s)
      if i.rep && readsOwnDest i.word then modStrand e (fun t => { t with issueAt := max t.issueAt (i.issued + lam) }) s
      else s) s
  | .imem off =>
    if !regAligned off n then strandTrap e i tcAlign i.pc ea s
    else
      let s := s.upset (imemBase e + off / 8 * 8) u
      let r := localLoad .imem e off n s
      match r.1 with
      | some v =>
        let s := modStrand e (fun t => { t with fetchAt := max t.fetchAt (i.issued + 2) }) r.2
        postInc e i n true (writeD e i (extend signed n v) 2 s)
      | none => strandTrap e i tcData i.pc ea r.2
  | .ownReg off =>
    if !regAligned off n then strandTrap e i tcAlign i.pc ea s
    else if ownRegBuffered (s.eng e) then waitLoad e i s
    else
      let i := reissue s e i
      let r := ownRegLoad e off n s
      postInc e i n true (writeD e i (extend signed n r.1) 4 r.2)
  | .granary a =>
    if 8 < a.toNat % 8 + n then strandTrap e i tcAlign i.pc ea s
    else if granaryOverlap (s.eng e) a.toNat n then stayInExec e i s
    else
      let i := reissue s e i
      postInc e i n true (granaryRead e i a n signed 0 s)
  | .pathReg a =>
    if !regAligned a.toNat n then strandTrap e i tcAlign i.pc ea s else pathLoad e i a n signed s
  | .pathMem a =>
    if a.toNat % n ≠ 0 then strandTrap e i tcAlign i.pc ea s else pathLoad e i a n signed s

/-- LD: D ← zero-extended load (R126). -/
def execLd (e : EngNo) (u : Upset) (s : State) : Host.Outcome State Fault Refusal :=
  onStrand e (hasOp 0x10) (loadInst e false u) s

/-- LDS: D ← sign-extended load (R126). -/
def execLds (e : EngNo) (u : Upset) (s : State) : Host.Outcome State Fault Refusal :=
  onStrand e (hasOp 0x11) (loadInst e true u) s

/-- A buffered store of the instruction in EXEC. -/
def storeEntry (s : State) (e : Nat) (i : SIssue) (k : StoreKind) (a : Nat) (n : Nat) : StoreEntry :=
  { kind := k, addr := BitVec.ofNat 40 a, size := n, data := extend false n i.d, mp := flagsMP i.flags,
    at_ := (s.eng e).cycle, half := false }

/-- ST: the low bytes of D, into the store buffer or at once into the own instruction memory (R126, R127, R140). -/
def execSt (e : EngNo) (s : State) : Host.Outcome State Fault Refusal :=
  onStrand e (hasOp 0x12) (fun i s =>
    let n := siSize i.word
    let ea := effAddr i
    let go (k : StoreKind) (a : Nat) (s : State) : State := postInc e i n false (bufferStore e (storeEntry s e i k a n) s)
    match memRegion s e i n with
    | .bad => strandTrap e i tcAddress i.pc ea s
    | .frame off => go .frame off s
    | .imem off =>
      if !regAligned off n then strandTrap e i tcAlign i.pc ea s
      else postInc e i n false ((localStore .imem e off n i.d s).modEng e (fun x => { x with imemAt := some x.cycle }))
    | .ownReg off => if !regAligned off n then strandTrap e i tcAlign i.pc ea s else go .ownReg off s
    | .granary a => if 8 < a.toNat % 8 + n then strandTrap e i tcAlign i.pc ea s else go (.granary 0) a.toNat s
    | .pathReg a => if !regAligned a.toNat n then strandTrap e i tcAlign i.pc ea s else go .path a.toNat s
    | .pathMem a => if a.toNat % n ≠ 0 then strandTrap e i tcAlign i.pc ea s else go .path a.toNat s) s

/-- LADD: D ← D + sign-extended load from the frame store (R126). -/
def execLadd (e : EngNo) (u : Upset) (s : State) : Host.Outcome State Fault Refusal :=
  onStrand e (hasOp 0x13) (fun i s =>
    let n := siSize i.word
    match memRegion s e i n with
    | .frame off =>
      frameLoad e i off n u (fun i v lam s => postInc e i n true (writeD e i (i.d + extend true n v) (lam + 1) s)) s
    | _ => strandTrap e i tcAddress i.pc (effAddr i) s) s

/-- LFADD: D[31:0] ← D[31:0] + binary32 load; D[63:32] ← 0 (R126). -/
def execLfadd (e : EngNo) (u : Upset) (s : State) : Host.Outcome State Fault Refusal :=
  onStrand e (hasOp 0x14) (fun i s =>
    match memRegion s e i 4 with
    | .frame off =>
      frameLoad e i off 4 u (fun i v lam s =>
        let r := vendorOp 0x30 i.rm i.ftz i.d v 0
        strandFloat e i r (lam + 4) true (incWrite i 4 true) s) s
    | _ => strandTrap e i tcAddress i.pc (effAddr i) s) s

/-- LR: an 8-byte load that sets a reservation on its granule (R143). -/
def execLr (e : EngNo) (u : Upset) (s : State) : Host.Outcome State Fault Refusal :=
  onStrand e (hasOp 0x15) (fun i s =>
    match memRegion s e i 8 with
    | .frame off =>
      if off % 8 ≠ 0 then strandTrap e i tcAlign i.pc (effAddr i) s
      else
        frameLoad e i off 8 u (fun i v lam s =>
          let s := s.modEng e (fun x => { x with resv := some (BitVec.ofNat 9 (off / 64)) })
          postInc e i 8 true (writeD e i v lam (writeResult e i tLrv 1 lam s))) s
    | _ => strandTrap e i tcAddress i.pc (effAddr i) s) s

/-- SC: waits for the store buffer to empty, then stores D if the reservation names its granule; D ← 0 or 1 (R143). -/
def execSc (e : EngNo) (s : State) : Host.Outcome State Fault Refusal :=
  onStrand e (hasOp 0x16) (fun i s =>
    match memRegion s e i 8 with
    | .frame off =>
      if off % 8 ≠ 0 then strandTrap e i tcAlign i.pc (effAddr i) s
      else if !(s.eng e).stores.isEmpty then stayInExec e i s
      else if portStalled s e ∧ (s.eng e).resv = some (BitVec.ofNat 9 (off / 64)) then stallInExec e i s
      else
        let i := reissue s e i
        let ok := (s.eng e).resv = some (BitVec.ofNat 9 (off / 64))
        let s := s.modEng e (fun x => { x with resv := none })
        let s := if ok then usePort e 1 (localStore .frame e off 8 i.d s) else s
        postInc e i 8 false (writeD e i (if ok then 0 else 1) 3 (writeResult e i tLrv 0 3 s))
    | _ => strandTrap e i tcAddress i.pc (effAddr i) s) s

/-- TAS: D ← word and word ← 1, in the frame store or as one granary operation (R142). -/
def execTas (e : EngNo) (u : Upset) (s : State) : Host.Outcome State Fault Refusal :=
  onStrand e (hasOp 0x17) (fun i s =>
    let ea := effAddr i
    match memRegion s e i 8 with
    | .frame off =>
      if off % 8 ≠ 0 then strandTrap e i tcAlign i.pc ea s
      else if (youngestOverlap (s.eng e) off 8).isSome then stayInExec e i s
      else if portStalled s e then stallInExec e i s
      else
        let i := reissue s e i
        let s := (usePort e 1 s).upset (frameBase e + off) u
        let r := localLoad .frame e off 8 s
        match r.1 with
        | some v => postInc e i 8 true (writeD e i v 3 (localStore .frame e off 8 1 r.2))
        | none => strandTrap e i tcData i.pc ea r.2
    | .granary a =>
      if a.toNat % 8 ≠ 0 then strandTrap e i tcAlign i.pc ea s
      else if granaryOverlap (s.eng e) a.toNat 8 then stayInExec e i s
      else
        let i := reissue s e i
        postInc e i 8 true (granaryRead e i a 8 false 3 s)
    | _ => strandTrap e i tcAddress i.pc ea s) s

/-- A GMEM instruction on its granary word, or its trap (R126, R127). An access that runs past the granary's end is an
ADDRESS trap, misaligned as it is, as it is for LD, ST and TAS: DESIGN CHOICE (R125, R127; assumption log 99). -/
def gmemInst (e : EngNo) (sz : BitVec 2) (g : SIssue → BitVec 26 → State → State) (s : State) :
    Host.Outcome State Fault Refusal :=
  onStrand e (fun w => hasOp 0x18 w && bits w 16 2 == sz) (fun i s =>
    match memRegion s e i 8 with
    | .granary a => if a.toNat % 8 ≠ 0 then strandTrap e i tcAlign i.pc (effAddr i) s else g i a s
    | _ => strandTrap e i tcAddress i.pc (effAddr i) s) s

/-- A blocking GMEM read (R126, R128, R141). -/
def gmemRead (e : EngNo) (op : BitVec 3) (i : SIssue) (a : BitVec 26) (s : State) : State :=
  if granaryOverlap (s.eng e) a.toNat 8 then stayInExec e i s
  else
    let i := reissue s e i
    postInc e i 8 true (granaryRead e i a 8 false op s)

/-- GMEM take: the word into D, leaving it EMPTY (R126). -/
def execGmemTake (e : EngNo) (s : State) : Host.Outcome State Fault Refusal := gmemInst e 0 (gmemRead e 1) s

/-- GMEM query: the presence code into D (R126). -/
def execGmemQuery (e : EngNo) (s : State) : Host.Outcome State Fault Refusal := gmemInst e 1 (gmemRead e 2) s

/-- GMEM store: D into the word, which becomes FULL (R126). -/
def execGmemStore (e : EngNo) (s : State) : Host.Outcome State Fault Refusal :=
  gmemInst e 2 (fun i a s => postInc e i 8 false (bufferStore e (storeEntry s e i (.granary 1) a.toNat 8) s)) s

/-- GMEM clear: the word becomes EMPTY (R126). -/
def execGmemClear (e : EngNo) (s : State) : Host.Outcome State Fault Refusal :=
  gmemInst e 3 (fun i a s => postInc e i 8 false (bufferStore e (storeEntry s e i (.granary 2) a.toNat 8) s)) s

/-! ## Replies (R128, R129) -/

/-- The bytes an access takes of the word that holds them. -/
def accessValue (a : Access) (w : Word) : Word :=
  extend a.signed a.size (if a.accNo.isSome then w >>> (8 * (a.addr.toNat % 8)) else w)

/-- A reply completes the running strand's access: D is written two cycles later and issue resumes two cycles after
that; a poisoned reply is a DATA_ECC trap, and the instruction's update of A is taken back (R128, R129, R156). -/
def finishAccess (e : EngNo) (a : Access) (w : Word) (poison : Bool) (s : State) : State :=
  if poison then
    trapCtx e tcData a.pc (a.addr.setWidth 64) id (match a.undo with
      | some k => modStrand e (fun t => { t with ctx := setW (drained (s.eng e).cycle t) k.1 k.2, writes := [] }) s
      | none => s)
  else
    let c := a.arrives.getD (s.eng e).cycle
    let s := pushWrite e { due := c + 2, issued := c, target := a.d.setWidth 5, value := accessValue a w, rep := false,
                           direct := false } s
    modStrand e (fun t => { t with block := .none, issueAt := max t.issueAt (c + 4) }) s

/-- A reply is written into the saved image of a strand that has been switched out (R129, R154). -/
def finishPending (e : EngNo) (m : PendingAccess) (w : Word) (poison : Bool) (s : State) : State :=
  let d := m.desc.toNat
  let s := s.modEng e (fun x => { x with pend := x.pend.filter (fun k => k.slot != m.slot) })
  let ww := ctxBase d + 0xB8
  let s := s.store ww 8 (putBit (s.load ww 8) 9 false)
  if poison then
    let s := s.store (ctxBase d + 0xA8) 8 ((0x100 : Word) ||| tcData.setWidth 64)
    let s := s.store (ctxBase d + 0xB0) 8 (m.acc.addr.setWidth 64)
    let pcw := s.load (ctxBase d + 0x78) 8
    let s := s.store (ctxBase d + 0x78) 8 (put pcw 0 m.acc.pc)
    let s := match m.acc.undo with
      | some k => s.store (ctxBase d + 8 * (k.1.toNat - 1)) 8 k.2
      | none => s
    let s := raiseEngine e (recordTrap e tcData m.desc m.acc.pc (m.acc.addr.setWidth 64) s)
    notify (e.val / 17) (.accessDone m.desc true) s
  else
    let s := if m.acc.d = 0 then s else s.store (ctxBase d + 8 * (m.acc.d.toNat - 1)) 8 (accessValue m.acc w)
    notify (e.val / 17) (.accessDone m.desc false) s

/-- STRAND_REPLY: a granary reply for the strand side completes the running strand's access, is written into a saved
image, or is stale (R129). -/
def execStrandReply (e : EngNo) (s : State) : Host.Outcome State Fault Refusal :=
  let x := s.eng e
  match x.strandIn with
  | [] => .next s
  | f :: fs =>
    let s := s.setEng e { x with strandIn := fs }
    let n := tagIter f.tag
    let run : Option Access := match x.strand with
      | some t => (match t.block with
        | .access a => if a.accNo = some n then some a else none
        | _ => none)
      | none => none
    let rec_ (s : State) : State := if f.poison then detect (tokenDetect 0x14 e f 0) s else s
    match run with
    | some a => .next (finishAccess e a f.data f.poison (rec_ s))
    | none =>
      match x.pend.find? (fun m => m.acc.accNo == some n) with
      | some m => .next (finishPending e m f.data f.poison (rec_ s))
      | none => .next (s.satInc (ereg e 0x130) 0 16)

/-! ## System instructions (R136, R147 to R153) -/

/-- REP takes its cycle outside EXEC (R136): the prefix in READ acts when its cycle comes, within EXEC_ISSUE. Sent by
itself, it acts on a REP that READ holds and that can issue now. -/
def execRep (e : EngNo) (s : State) : Host.Outcome State Fault Refusal :=
  match strandHas s e (s.eng e).cycle with
  | some (t, i) => if isRep t i then .next (issueRep e t i s) else .next s
  | none => .next s

/-- The running strand leaves at the instruction in EXEC with its PC after it. -/
def leaveAt (e : EngNo) (i : SIssue) (why : LeaveReason) (deadline : Word) (g : Ctx → Ctx) (s : State) : State :=
  leaveEngine e why deadline (fun c => g { c with pc := i.pc + 4 }) s

/-- AWAIT: D into the wait word, and the strand is offered to the Dibber with deadline A (R152). -/
def execAwait (e : EngNo) (s : State) : Host.Outcome State Fault Refusal :=
  onStrand e (isSys 0x01) (fun i s =>
    leaveAt e i .await i.a (fun c => { c with waitWord := (0x100 : Word) ||| (siD i.word).setWidth 64 }) s) s

/-- YIELD: the strand returns to its ready list (R147). -/
def execYield (e : EngNo) (s : State) : Host.Outcome State Fault Refusal :=
  onStrand e (isSys 0x0C) (fun i s => leaveAt e i .yield 0 id s) s

/-- EXIT: the strand ends (R147, R313). -/
def execExit (e : EngNo) (s : State) : Host.Outcome State Fault Refusal :=
  onStrand e (isSys 0x0D) (fun i s => leaveAt e i .exit 0 id s) s

/-- TRAP: a SOFT trap with code c = D, PC after it (R147, R156). -/
def execTrap (e : EngNo) (s : State) : Host.Outcome State Fault Refusal :=
  onStrand e (isSys 0x0B) (fun i s => strandTrap e i tcSoft (i.pc + 4) ((siD i.word).setWidth 64) s) s

/-- A token of the running strand leaves through EMIT in the cycle after issue, or the instruction traps as TOKEN
(R51, R148). -/
def strandToken (e : EngNo) (i : SIssue) (k : Proto) (s : State) : State :=
  if malformed s k then strandTrap e i tcToken i.pc 0 s
  else
    s.modEng e (addResult
      { due := i.issued + 1, issued := i.issued, origin := .strand i.pc (runDesc s e), toks := [k] })

/-- SEND: one OPERAND with tag A, data B and PRI D[1:0] (R148). -/
def execStrandSend (e : EngNo) (s : State) : Host.Outcome State Fault Refusal :=
  onStrand e (isSys 0x02) (fun i s => strandToken e i (proto1 kOperand (bits (siD i.word) 0 2) i.a i.b) s) s

/-- BSEND: one BLOCK token with tag A and data B (R148). -/
def execBsend (e : EngNo) (s : State) : Host.Outcome State Fault Refusal :=
  onStrand e (isSys 0x03) (fun i s => strandToken e i (proto1 kBlock 3 i.a i.b) s) s

/-- The payloads of a sheaf from the frame store, and whether a word is uncorrectable. -/
def sheafPayloads (e : EngNo) (off : Nat) : Nat → State → List Entry × Bool × State
  | 0, s => ([], false, s)
  | n + 1, s =>
    let lo := localLoad .frame e off 8 s
    let hi := localLoad .frame e (off + 8) 8 lo.2
    let r := sheafPayloads e (off + 16) n hi.2
    ((hi.1.getD 0 ++ lo.1.getD 0) :: r.1, lo.1.isNone || hi.1.isNone || r.2.1, r.2.2)

/-- SHF: one sheaf of n + 1 data flits from frame offset B (R149). Where several of its refusals hold, the first in the
order in which the rule lists them is taken: DESIGN CHOICE (assumption log 100). A source word that is uncorrectable makes a
DATA_ECC trap with trap address B, and no sheaf leaves: DESIGN CHOICE (R149, R156; assumption log 131). -/
def execShf (e : EngNo) (s : State) : Host.Outcome State Fault Refusal :=
  onStrand e (isSys 0x04) (fun i s =>
    let n := (siD i.word).toNat + 1
    let b := i.b.toNat
    let head := proto1 kSheafReq (flagsMP i.flags) i.a (ownId s ++ logicalD s e ++ (0 : BitVec 42))
    if b % 16 ≠ 0 then strandTrap e i tcAlign i.pc i.b s
    else if 0x8000 < b + 16 * n then strandTrap e i tcAddress i.pc i.b s
    else if malformed s head then strandTrap e i tcToken i.pc 0 s
    else if tagSpace i.a ≠ 0 ∧ !runK s e then strandTrap e i tcPriv i.pc 0 s
    else if (youngestOverlap (s.eng e) b (16 * n)).isSome then stayInExec e i s
    else if portStalled s e then stallInExec e i s
    else
      let i := reissue s e i
      let slips := sheafSlips (s.eng e) n
      let r := sheafPayloads e b n (usePort e n s)
      if r.2.1 then strandTrap e i tcData i.pc i.b r.2.2
      else
        let s := r.2.2.modEng e (addResult
          { due := i.issued + 1, issued := i.issued, origin := .strand i.pc (runDesc s e),
            toks := [{ head with payloads := r.1 }] })
        let s := if tagSpace i.a = 0 then countWrite e s else s
        modStrand e (fun t => { t with issueAt := max t.issueAt (i.issued + 1 + n + slips) }) s) s

/-- FENCE: the store buffer drains, a slot is taken, and the strand waits for its target (R150). -/
def execStrandFence (e : EngNo) (s : State) : Host.Outcome State Fault Refusal :=
  onStrand e (isSys 0x05) (fun i s => fenceSlotStep e (modStrand e (fun t => { t with block := .fenceSlot i.pc i.issued }) s)) s

/-- SYNC.I: the instructions behind it are discarded and fetched again (R146). -/
def execSyncI (e : EngNo) (s : State) : Host.Outcome State Fault Refusal :=
  onStrand e (isSys 0x06) (fun i s => jumpTo e i (i.pc + 4) 0 s) s

/-- MFF: D ← FLAGS (R147). -/
def execMff (e : EngNo) (s : State) : Host.Outcome State Fault Refusal :=
  onStrand e (isSys 0x07) (fun i s => writeD e i i.flags 1 s) s

/-- MTF: FLAGS ← A, RW fields only (R117, R147). -/
def execMtf (e : EngNo) (s : State) : Host.Outcome State Fault Refusal :=
  onStrand e (isSys 0x08) (fun i s => writeResult e i tMtf i.a 1 s) s

/-- MFC: D ← CNT (R147). -/
def execMfc (e : EngNo) (s : State) : Host.Outcome State Fault Refusal :=
  onStrand e (isSys 0x09) (fun i s => writeD e i i.cnt 1 s) s

/-- MTC: CNT ← A (R147). -/
def execMtc (e : EngNo) (s : State) : Host.Outcome State Fault Refusal :=
  onStrand e (isSys 0x0A) (fun i s => writeResult e i tCnt i.a 1 s) s

/-- CTXN: a context of the own plot at priority FLAGS.MP, or all ones (R151). -/
def execCtxn (e : EngNo) (s : State) : Host.Outcome State Fault Refusal :=
  onStrand e (isSys 0x0E) (fun i s =>
    let r := requestCtx e (flagsMP i.flags) s
    writeD e i (match r.1 with
      | some c => c.setWidth 64
      | none => BitVec.allOnes 64) 2 r.2) s

/-- CTXF: a pending exception is an FP trap; otherwise context A[15:0] is freed and D ← 0, or all ones when refused
(R151, R187). -/
def execCtxf (e : EngNo) (s : State) : Host.Outcome State Fault Refusal :=
  onStrand e (isSys 0x0F) (fun i s =>
    if s.flag (ereg e 0x80) 30 then strandTrap e i tcFp i.pc 0 (s.setFlag (ereg e 0x80) 30 false)
    else
      match freeContext e (bits i.a 0 16) s with
      | some s => writeD e i 0 2 s
      | none => writeD e i (BitVec.allOnes 64) 2 s) s

/-! ## The sheaf intake (R56, R79) -/

/-- A 64-bit word of a sheaf is written to the frame store or the instruction memory (R56, R298). -/
def sheafWord (m : LocalMem) (e : EngNo) (off : Nat) (v : Word) (s : State) : State :=
  if off + 8 ≤ 0x8000 then localStore m e off 8 v s else s

/-- Whether a sheaf's flits break R46: LAST and the source word of the head, the count, and the fields that follow the head.
-/
def badSheaf (head : Flit) (body : List Flit) : Bool :=
  head.last || (head.kind == kSheafReq && bits head.data 0 42 != 0) || body.length != head.len.toNat + 1 ||
    body.zipIdx.any (fun p => Flit.kind p.1 != kSheafData || Flit.pri p.1 != head.pri || Flit.epoch p.1 != head.epoch ||
      Flit.seq p.1 != head.seq || Flit.vc p.1 != head.vc || (Flit.len p.1).toNat != p.2 || Flit.last p.1 != decide (p.2 + 1 = body.length))

/-- Whether a sheaf that an engine takes into a memory breaks R42 or R46. A SHEAF_REQ carries its source word. -/
def badSheafRsp (s : State) (head : Flit) (body : List Flit) : Bool :=
  let t := head.tag
  tagDev t != ownId s || !(tagSpace t == 1 || tagSpace t == 2) || tagMask t != 0 || tagOp t != 0 || bit t 19 ||
    (head.kind == kSheafRsp && head.data != 0) || badSheaf head body

/-- Whether a flit of a sheaf is uncorrectable (R47). -/
def sheafBroken (fs : List Flit) : Bool := fs.any (fun f => match checkFlit f with
  | .bad _ => true
  | _ => false)

/-- The words that the data flits of a sheaf are written to. -/
def sheafWords (head : Flit) (body : List Flit) : List SheafWord :=
  body.zipIdx.map (fun p =>
    { imem := tagSpace head.tag == 2, off := 8 * (tagAddr head.tag).toNat + 16 * p.2, payload := Flit.payload p.1 })

/-- With no sheaf in hand the memory intake takes the next one that has arrived whole, first from the response channel; a
poisoned, broken or malformed one is discarded whole (R47, R52, R56, R149; assumption log 15). -/
def takeSheaf (e : EngNo) (s : State) : State :=
  let x := s.eng e
  if !x.sheafWr.isEmpty then s
  else
    let rsp := !(takePacket x.sheafIn).1.isEmpty
    match takePacket (if rsp then x.sheafIn else x.sheafReq) with
    | (head :: body, rest) =>
      let s := s.setEng e (if rsp then { x with sheafIn := rest } else { x with sheafReq := rest })
      if sheafBroken (head :: body) then s
      else if (head :: body).any Flit.poison then detect (tokenDetect 0x14 e head 0) s
      else if badSheafRsp s head body then detect (tokenDetect 0x12 e head 0) s
      else s.modEng e (fun x => { x with sheafWr := sheafWords head body, sheafWait := 0 })
    | ([], _) => s

/-- Whether the strand side wants the write port of a sheaf flit in this cycle: that of the instruction memory for a store,
or the frame store's for an access of EXEC or a drain (R79). -/
def strandWants (s : State) (e : EngNo) (imem : Bool) : Bool :=
  let x := s.eng e
  if imem then
    x.imemAt == some x.cycle || (match x.sx with
      | some i => siOp i.word == 0x12 && (match memRegion s e i (siSize i.word) with
        | .imem _ => true
        | _ => false)
      | none => false)
  else portTaken s e || (drainDue s e && x.stores.head?.any (fun k => k.kind == .frame))

/-- Whether a data flit of a sheaf waits in this cycle: the strand side has the port, unless it is the frame store's, the
flit has waited four cycles and the strand side's access has not begun in this cycle (R79). -/
def sheafWaits (s : State) (e : EngNo) (f : SheafWord) : Bool :=
  let x := s.eng e
  strandWants s e f.imem && (f.imem || decide (x.sheafWait < 4) || portBegun x)

/-- The next data flit of the sheaf in hand is written, one a cycle, or waits for its port (R56, R79). -/
def writeSheaf (e : EngNo) (s : State) : State :=
  let x := s.eng e
  match x.sheafWr with
  | [] => s
  | f :: fs =>
    if x.sheafTurn.map (·.1) = some x.cycle then s
    else if sheafWaits s e f then
      s.setEng e { x with sheafWait := x.sheafWait + 1, sheafTurn := some (x.cycle, false) }
    else
      let m : LocalMem := if f.imem then .imem else .frame
      let s := s.setEng e { x with sheafWr := fs, sheafWait := 0, sheafTurn := some (x.cycle, !f.imem) }
      sheafWord m e (f.off + 8) (bits f.payload 64 64) (sheafWord m e f.off (bits f.payload 0 64) s)

/-- SHEAF_RSP_WRITE: the memory intake takes a sheaf that has arrived whole and writes its next data flit (R47, R56, R79).
-/
def execSheafRspWrite (e : EngNo) (s : State) : Host.Outcome State Fault Refusal := .next (writeSheaf e (takeSheaf e s))

end Sys2Proof.Machine
end

