-- ==== Sys2Proof/Machine/Micro.lean ====
section
/-! DEFINITION. Customer operations and the microsequencer (R193 to R216, R219): one command for each kind of microword,
the start of a routine, POLL and END, aborts, and the read window. -/

namespace Sys2Proof.Machine

/-! ## The store (R194) -/

/-- A microword of the image that every slot holds. -/
def microword (s : State) (w : Nat) : BitVec 32 := SMap.get s.ucode w 0

/-- The internal address of a slot's microword. -/
def uaddr (e w : Nat) : Nat := ucodeBase e + 4 * w

/-- A UCODE_ECC detection (R194, R456). -/
def ucodeEcc (code : BitVec 8) (e : EngNo) (w : Nat) (s : State) : State :=
  detect (memDetect code e (4 * w) ((microword s w).setWidth 64)) s

/-- A read of a microword: a single-bit error is corrected and recorded; the answer says whether the word is
uncorrectable. The stored word keeps its error until the scrub writes it back (R194). -/
def readMicro (e : EngNo) (w : Nat) (s : State) : Bool × State :=
  match s.mark (uaddr e w) with
  | .clean => (false, s)
  | .single => (false, ucodeEcc 0x07 e w s)
  | .double => (true, s)

/-! ## Aborts (R215) -/

/-- ENG_UABORT records an abort (R220). -/
def recordAbort (e : Nat) (cause : BitVec 4) (strand : Bool) (upc : BitVec 11) (s : State) : State :=
  let a := s.rd (ereg e 0x208)
  s.wr (ereg e 0x208) ((1 : BitVec 1) ++ BitVec.ofBool (bit a 31 || bit a 30) ++ BitVec.ofBool strand ++ (0 : BitVec 1) ++
    cause ++ (0 : BitVec 13) ++ upc)

/-- The sequencer is free. -/
def freeSeq (e : Nat) (s : State) : State := s.modEng e (fun x => { x with seqr := none })

/-- The running strand's instruction is no longer a routine. -/
def endRoutineBlock (e : Nat) (s : State) : State := modStrand e (fun t => { t with block := .none }) s

/-- Each event that the routine's end or suspension serves more than 32 microcycles after it arose is counted in
ENG_UCOUNT.LATE (R214). -/
def countLate (e : Nat) (r : Routine) (s : State) : State :=
  let late (since : Option Nat) : Nat := match since with
    | some t => if t + 32 < (s.eng e).cycle then 1 else 0
    | none => 0
  s.satAdd (ereg e 0x20C) 16 16 (late r.fireSince + late r.strandSince)

/-- A routine aborts: no result for a node, a trap for a strand (R215). The records of causes 0x7 and 0x8 have the memory
layout of R456: DESIGN CHOICE (assumption log 133). `addr`: the frame-store address of causes 0x4 and 0x8. -/
def abortRoutine (e : EngNo) (r : Routine) (cause : BitVec 4) (addr : Word) (s : State) : State :=
  let s := countLate e r s
  match r.owner with
  | .node f _ =>
    let s := freeSeq e (recordAbort e cause false r.upc s)
    let d : Detection :=
      { code := 0x0F, plot := some (plotOf e), phys := some e, locus := cause ++ f.node, a := f.tag, b := r.upc.setWidth 16,
        c := f.word, inj := false }
    if cause = 7 then ucodeEcc 0x08 e r.upc.toNat s
    else if cause = 8 then s
    else detect d s
  | .strand i =>
    let s := endRoutineBlock e (freeSeq e (recordAbort e cause true r.upc s))
    let s := if cause = 7 then ucodeEcc 0x08 e r.upc.toNat s else s
    let code := if cause = 4 then tcAddress else if cause = 8 then tcData else tcIllegal
    strandTrap e { i with rep := false } code i.pc (if cause = 4 ∨ cause = 8 then addr else 0) s

/-! ## Micro-registers (R195) -/

/-- The running strand's register as a microword reads it: after the writes of the end of the cycle before (R132, R195). -/
def strandW (s : State) (e : Nat) (i : BitVec 4) : Word :=
  match (s.eng e).strand with
  | some t => getW (commitDue ((s.eng e).cycle - 1) t).ctx i
  | none => 0

/-- A micro-register as read; none for a reserved number. -/
def microRead (s : State) (e : Nat) (r : Routine) (n : BitVec 5) : Option Word :=
  let k := n.toNat
  if h : k < 8 then some (if k = 0 then 0 else r.t[k])
  else if k = 0x0B then some r.res
  else if k = 0x0D then some ((0 : BitVec 38) ++ logicalD s e ++ (0 : BitVec 5) ++ BitVec.ofNat 11 e)
  else if 0x0E ≤ k then none
  else
    match r.owner with
    | .node f _ =>
      if k = 8 then some r.xl else if k = 9 then some r.xr else if k = 0xA then some r.xd
      else some ((0 : BitVec 36) ++ f.iter ++ f.ctx)
    | .strand i =>
      if k = 8 then some (strandW s e (siA i.word)) else if k = 9 then some (strandW s e (siB i.word))
      else if k = 0xA then some (strandW s e (siD i.word))
      else some ((0 : BitVec 49) ++ BitVec.ofBool (runK s e) ++ runDesc s e)

/-- Whether a routine may write a micro-register. -/
def microWritable (n : BitVec 5) : Bool := decide (n.toNat ≤ 0x0B)

/-- A write of a register of the running strand at the end of the last of a microword's `cost` microcycles (R195, R205). -/
def strandSetW (e : Nat) (i : BitVec 4) (v : Word) (cost : Nat) (s : State) : State :=
  let c := (s.eng e).cycle
  pushWrite e { due := c + cost - 1, issued := c, target := i.setWidth 5, value := v, rep := false, direct := true } s

/-- A micro-register written: the routine after it, and the state. -/
def microWrite (e : Nat) (r : Routine) (n : BitVec 5) (v : Word) (cost : Nat) (s : State) : Routine × State :=
  let k := n.toNat
  if h : k < 8 then (if k = 0 then r else { r with t := r.t.set k v }, s)
  else if k = 0x0B then ({ r with res := v }, s)
  else
    match r.owner with
    | .node _ _ =>
      (if k = 8 then { r with xl := v } else if k = 9 then { r with xr := v } else if k = 0xA then { r with xd := v } else r, s)
    | .strand i =>
      (r, if k = 8 then strandSetW e (siA i.word) v cost s else if k = 9 then strandSetW e (siB i.word) v cost s
          else if k = 0xA then strandSetW e (siD i.word) v cost s else s)

/-! ## Running a microword -/

/-- A routine at its start, with everything cleared at entry (R195, R203). -/
def startRoutine (s : State) (e : Nat) (k : Nat) (o : RoutineOwner) (issued : Nat) (xl xr : Word) : Routine :=
  let u := uentry s e k
  { owner := o, upc := bits u 0 11, t := Vector.replicate 8 0, xl := xl, xr := xr, xd := 0, res := 0, z := false, n := false,
    c := false, v := false, stack := [], fma := bit u 27, div := bit u 26, since := 0, readyAt := issued + 1,
    fireSince := none, strandSince := none }

/-- The routine goes on at a micro-PC after `cost` microcycles, or aborts: outside the customer region (R202), or with
no safe point for 1,024 microcycles (R214). -/
def goOn (e : EngNo) (r : Routine) (next : Nat) (cost : Nat) (s : State) : State :=
  if next < 0x610 ∨ 0x7FF < next then abortRoutine e r 3 0 s
  else if 1024 ≤ r.since + cost then abortRoutine e r 6 0 s
  else
    let r := { r with upc := BitVec.ofNat 11 next, since := r.since + cost, readyAt := (s.eng e).cycle + cost }
    s.modEng e (fun x => { x with seqr := some r })

/-- The microword after this one. -/
def seqNext (e : EngNo) (r : Routine) (cost : Nat) (s : State) : State := goOn e r (r.upc.toNat + 1) cost s

/-- The microword waits one cycle for a port. -/
def holdMicro (e : EngNo) (r : Routine) (s : State) : State := goOn e r r.upc.toNat 1 s

/-- A microword command acts on the routine in the sequencer when its time has come and its word has the command's
kind; an uncorrectable word aborts (R197, R215). -/
def onMicro (e : EngNo) (u : Upset) (kind : BitVec 32 → Bool) (g : Routine → BitVec 32 → State → State) (s : State) :
    Host.Outcome State Fault Refusal :=
  match (s.eng e).seqr with
  | none => .next s
  | some r =>
    let w := microword s r.upc.toNat
    if r.readyAt ≤ (s.eng e).cycle ∧ kind w then
      let m := readMicro e r.upc.toNat (s.upset (uaddr e r.upc.toNat) u)
      if m.1 then .next (abortRoutine e r 7 0 m.2) else .next (g r w m.2)
    else .next s

/-- A value written into DST and the next microword, or abort 0x1 for a DST that may not be written. -/
def microResult (e : EngNo) (r : Routine) (n : BitVec 5) (v : Word) (cost : Nat) (s : State) : State :=
  if microWritable n then
    let m := microWrite e r n v cost s
    seqNext e m.1 cost m.2
  else abortRoutine e r 1 0 s

/-! ## OPER and LIT (R198, R199) -/

/-- Result, C and V of a UOP; none for a reserved one. -/
def microOp (u : Nat) (a b : Word) : Option (Word × Bool × Bool) :=
  let op (c : Nat) : Option (Word × Bool × Bool) := some ((intOp c a b).1, false, false)
  match u with
  | 0x01 =>
    let r := a + b
    some (r, decide (2 ^ 64 ≤ a.toNat + b.toNat), bit a 63 == bit b 63 && bit r 63 != bit a 63)
  | 0x02 =>
    let r := a - b
    some (r, decide (a.toNat < b.toNat), bit a 63 != bit b 63 && bit r 63 != bit a 63)
  | 0x03 => op 0x10
  | 0x04 => op 0x11
  | 0x05 => op 0x12
  | 0x06 => some (a &&& ~~~b, false, false)
  | 0x07 => op 0x14
  | 0x08 => op 0x15
  | 0x09 => op 0x16
  | 0x0A => op 0x17
  | 0x0B => op 0x0E
  | 0x0C => op 0x0F
  | 0x0D => op 0x0C
  | 0x0E => op 0x0D
  | 0x0F => op 0x1A
  | 0x10 => op 0x1B
  | 0x11 => op 0x24
  | 0x12 => op 0x22
  | 0x13 => op 0x20
  | _ => none

/-- OPER: DST ← SA op SB, with the micro flags under SETC (R198). -/
def execOper (e : EngNo) (u : Upset) (s : State) : Host.Outcome State Fault Refusal :=
  onMicro e u (fun w => uwFmt w == 0) (fun r w s =>
    let uop := (uwOp w).toNat
    let bad := bits w 0 9 ≠ 0 ∨ ((uop = 0x0F ∨ uop = 0x10) ∧ uwSb w ≠ 0) ∨ ¬ microWritable (uwDst w)
    match microRead s e r (uwSa w), microRead s e r (uwSb w) with
    | some a, some b =>
      (match microOp uop a b with
       | some (v, c, ov) =>
         if bad then abortRoutine e r 1 0 s
         else
           let r := if bit w 9 then { r with z := v == 0, n := bit v 63, c := c, v := ov } else r
           microResult e r (uwDst w) v 1 s
       | none => abortRoutine e r 1 0 s)
    | _, _ => abortRoutine e r 1 0 s) s

/-- LIT: sixteen bits of DST, the others cleared or kept (R199). -/
def execLit (e : EngNo) (u : Upset) (s : State) : Host.Outcome State Fault Refusal :=
  onMicro e u (fun w => uwFmt w == 1) (fun r w s =>
    let dst := uwOp w
    match microRead s e r dst with
    | some old =>
      if bits w 16 6 ≠ 0 then abortRoutine e r 1 0 s
      else
        let base : Word := if bit w 22 then 0 else old
        microResult e r dst (put base (16 * (bits w 23 2).toNat) (bits w 0 16)) 1 s
    | none => abortRoutine e r 1 0 s) s

/-! ## Branches (R202) -/

/-- KIND of a BR microword. -/
def brKind (w : BitVec 32) : BitVec 2 := bits w 28 2

/-- The condition bits c2 c1 c0 of a group; none for a reserved CSEL. -/
def condBits (s : State) (e : Nat) (r : Routine) (csel : BitVec 3) : Option (BitVec 3) :=
  let strand := match r.owner with
    | .strand _ => true
    | .node _ _ => false
  let three (c2 c1 c0 : Bool) : Option (BitVec 3) := some (BitVec.ofBool c2 ++ BitVec.ofBool c1 ++ BitVec.ofBool c0)
  match csel.toNat with
  | 0 => three r.c r.n r.z
  | 1 => three r.v r.c r.z
  | 2 => three (bit r.t[1] 2) (bit r.t[1] 1) (bit r.t[1] 0)
  | 3 => three strand (microRead s e r 9 == some 0) (microRead s e r 8 == some 0)
  | 4 => three (s.profile == .p0100) (strand && runK s e) (eventPending s e r false)
  | _ => none

/-- The next micro-PC of a JMP or CALL; none when the word breaks R197 or R202. -/
def branchTarget (s : State) (e : Nat) (r : Routine) (w : BitVec 32) : Option Nat :=
  let csel := bits w 25 3
  let n := (bits w 23 2).toNat
  if bits w 11 12 ≠ 0 ∨ (n = 0 ∧ csel ≠ 0) then none
  else
    match condBits s e r csel with
    | none => none
    | some c =>
      let m : BitVec 11 := (c.setWidth 11) &&& BitVec.ofNat 11 (2 ^ n - 1)
      some (bits w 0 11 ||| m).toNat

/-- JMP: TARGET with condition bits ORed in; the reserved KIND aborts (R202). -/
def execMicroJmp (e : EngNo) (u : Upset) (s : State) : Host.Outcome State Fault Refusal :=
  onMicro e u (fun w => uwFmt w == 2 && (brKind w == 0 || brKind w == 3)) (fun r w s =>
    match branchTarget s e r w with
    | some t => if brKind w = 0 then goOn e r t 2 s else abortRoutine e r 1 0 s
    | none => abortRoutine e r 1 0 s) s

/-- CALL: as JMP, and the address after it is pushed (R202). -/
def execMicroCall (e : EngNo) (u : Upset) (s : State) : Host.Outcome State Fault Refusal :=
  onMicro e u (fun w => uwFmt w == 2 && brKind w == 1) (fun r w s =>
    match branchTarget s e r w with
    | some t =>
      if 4 ≤ r.stack.length then abortRoutine e r 2 0 s
      else goOn e { r with stack := (r.upc + 1) :: r.stack } t 2 s
    | none => abortRoutine e r 1 0 s) s

/-- RET: the popped micro-PC (R202). A return PC that wrapped past 0x7FF lies below the customer region. -/
def execMicroRet (e : EngNo) (u : Upset) (s : State) : Host.Outcome State Fault Refusal :=
  onMicro e u (fun w => uwFmt w == 2 && brKind w == 2) (fun r w s =>
    if bits w 0 28 ≠ 0 then abortRoutine e r 1 0 s
    else
      match r.stack with
      | [] => abortRoutine e r 2 0 s
      | t :: ts => goOn e { r with stack := ts } t.toNat 2 s) s

/-! ## SYS operations (R200, R201, R204) -/

/-- The rounding mode and FTZ of the node or strand that started a routine (R173). -/
def routineMode (r : Routine) : BitVec 3 × Bool :=
  match r.owner with
  | .node f _ => (f.rm, f.ftz)
  | .strand i => (i.rm, i.ftz)

/-- The origin of a routine's flags (R200). -/
def routineOrigin (s : State) (e : Nat) (r : Routine) : Origin :=
  match r.owner with
  | .node f _ => .node f.node f.ctx f.iter f.word
  | .strand i => .strand i.pc (runDesc s e)

/-- A microword's operation of latency `lam` will raise flags (R185, R200). -/
def microRaise (e : EngNo) (r : Routine) (fl : BitVec 6) (lam : Nat) (s : State) : State :=
  let at_ : Nat := match r.owner with
    | .node _ c => c
    | .strand i => i.issued
  let o := routineOrigin s e r
  s.modEng e (fun x => willRaise { due := x.cycle + lam, issued := at_, origin := o, flags := fl, pend := true } x)

/-- Whether a SYS microword has an SOP. -/
def isSop (n : Nat) (w : BitVec 32) : Bool := uwFmt w == 3 && (uwOp w).toNat == n

/-- Operands SA, SB and DST of a SYS microword; none when one is reserved. -/
def sysArgs (s : State) (e : Nat) (r : Routine) (w : BitVec 32) : Option (Word × Word × Word) :=
  match microRead s e r (uwSa w), microRead s e r (uwSb w), microRead s e r (uwDst w) with
  | some a, some b, some d => some (a, b, d)
  | _, _, _ => none

/-- FMA: a binary32 sum, difference, product or fused multiply-add (R101, R200, R204). -/
def execMicroFma (e : EngNo) (u : Upset) (s : State) : Host.Outcome State Fault Refusal :=
  onMicro e u (isSop 1) (fun r w s =>
    let arg := (uwArg w).toNat
    match sysArgs s e r w with
    | some (a, b, d) =>
      if 3 < arg ∨ ¬ microWritable (uwDst w) then abortRoutine e r 1 0 s
      else if !r.fma then abortRoutine e r 5 0 s
      else
        let m := routineMode r
        let v := vendorOp (0x30 + arg) m.1 m.2 a b d
        microResult e r (uwDst w) v.1 4 (microRaise e r v.2 4 s)
    | none => abortRoutine e r 1 0 s) s

/-- Whether EXEC takes the multiplier's entry in this cycle (R204). -/
def mulInExec (x : Engine) : Bool := x.mulAt == some x.cycle

/-- MUL: the low or a high half of a product, when EXEC does not take the multiplier's entry (R164, R200, R204). -/
def execMicroMul (e : EngNo) (u : Upset) (s : State) : Host.Outcome State Fault Refusal :=
  onMicro e u (isSop 2) (fun r w s =>
    let arg := (uwArg w).toNat
    match sysArgs s e r w with
    | some (a, b, _) =>
      if 2 < arg ∨ ¬ microWritable (uwDst w) then abortRoutine e r 1 0 s
      else if mulInExec (s.eng e) then holdMicro e r s
      else microResult e r (uwDst w) (vendorOp (4 + arg) 0 false a b 0).1 3 s
    | none => abortRoutine e r 1 0 s) s

/-- The operation of a DIV microword: opcode of the vendor operation, with 32-bit operands extended. -/
def microDivide (arg : Nat) (a b : Word) : Word × FFlags × Nat :=
  let signed := arg % 2 = 1
  let c := match arg % 4 with
    | 0 => 0x08
    | 1 => 0x07
    | 2 => 0x0A
    | _ => 0x09
  if 4 ≤ arg then
    let w (x : Word) : Word := if signed then (bits x 0 32).signExtend 64 else (bits x 0 32).setWidth 64
    let r := intOp c (w a) (w b)
    ((bits r.1 0 32).setWidth 64, r.2, divCycles 32 signed (bits a 0 32) (bits b 0 32))
  else
    let r := intOp c a b
    (r.1, r.2, divCycles 64 signed a b)

/-- DIV: a quotient or remainder of 64 or 32 bits, which holds the divider for its cycles; a zero divisor sets DZ (R100,
R165, R166, R200). -/
def execMicroDiv (e : EngNo) (u : Upset) (s : State) : Host.Outcome State Fault Refusal :=
  onMicro e u (isSop 3) (fun r w s =>
    let arg := (uwArg w).toNat
    match sysArgs s e r w with
    | some (a, b, _) =>
      if 7 < arg ∨ ¬ microWritable (uwDst w) then abortRoutine e r 1 0 s
      else if !r.div then abortRoutine e r 5 0 s
      else
        let v := microDivide arg a b
        let s := s.modEng e (fun x => { x with divFree := x.cycle + v.2.2 })
        microResult e r (uwDst w) v.1 v.2.2 (microRaise e r v.2.1 v.2.2 s)
    | none => abortRoutine e r 1 0 s) s

/-- A frame-store access of a routine: it waits for the port, which it then takes, and for overlapping buffered stores; a
bad offset aborts (R79, R200, R201). -/
def microFrame (e : EngNo) (r : Routine) (a : Word) (g : Nat → State → State) (s : State) : State :=
  if bits a 0 3 ≠ 0 ∨ 0x7FF8 < a.toNat then abortRoutine e r 4 a s
  else if portTaken s e ∨ portStalled s e ∨ (youngestOverlap (s.eng e) a.toNat 8).isSome then holdMicro e r s
  else g a.toNat (usePort e 1 s)

/-- LDF: DST ← frame-store word at SA + 8 × ARG (R200). -/
def execLdf (e : EngNo) (u : Upset) (s : State) : Host.Outcome State Fault Refusal :=
  onMicro e u (isSop 4) (fun r w s =>
    match sysArgs s e r w with
    | some (a, _, _) =>
      if uwSb w ≠ 0 ∨ ¬ microWritable (uwDst w) then abortRoutine e r 1 0 s
      else
        let ea := a + 8 * (uwArg w).setWidth 64
        microFrame e r ea (fun off s =>
          let l := localLoad .frame e off 8 s
          match l.1 with
          | some v => microResult e r (uwDst w) v 2 l.2
          | none => abortRoutine e r 8 ea l.2) s
    | none => abortRoutine e r 1 0 s) s

/-- STF: the frame-store word at SA + 8 × ARG ← SB (R200). -/
def execStf (e : EngNo) (u : Upset) (s : State) : Host.Outcome State Fault Refusal :=
  onMicro e u (isSop 5) (fun r w s =>
    match sysArgs s e r w with
    | some (a, b, _) =>
      if uwDst w ≠ 0 then abortRoutine e r 1 0 s
      else microFrame e r (a + 8 * (uwArg w).setWidth 64)
        (fun off s => seqNext e r 2 (localStore .frame e off 8 b s)) s
    | none => abortRoutine e r 1 0 s) s

/-! ## Safe points (R205, R206, R210 to R214) -/

/-- POLL: with an event pending a node routine suspends and a strand routine ends; otherwise the routine continues
(R211 to R213). The microcycles without a safe point count from the POLL's own after a POLL with no event, and from the
first microword after a resume: DESIGN CHOICE (R214; assumption log 102). -/
def execPoll (e : EngNo) (u : Upset) (s : State) : Host.Outcome State Fault Refusal :=
  onMicro e u (isSop 6) (fun r w s =>
    if bits w 0 25 ≠ 0 then abortRoutine e r 1 0 s
    else if !eventPending s e r false then
      seqNext e { r with since := 0, fireSince := none, strandSince := none } 1 s
    else
      let exit (s : State) : State := (countLate e r s).satInc (ereg e 0x20C) 0 16
      match r.owner with
      | .node _ _ =>
        if 0x7FF < r.upc.toNat + 1 then abortRoutine e r 3 0 s
        else
          (exit s).modEng e (fun x => { x with
            seqr := none, susp := some { r with upc := r.upc + 1, since := 0, fireSince := none, strandSince := none } })
      | .strand i =>
        let s := exit s
        jumpTo e { i with issued := (s.eng e).cycle } i.pc 0 (endRoutineBlock e (freeSeq e s))) s

/-- END: RES goes to D1 and D2 or into W[D] under WR, and the sequencer is free (R203, R205, R206). The reserved SOPs
abort. -/
def execMicroEnd (e : EngNo) (u : Upset) (s : State) : Host.Outcome State Fault Refusal :=
  onMicro e u (fun w => isSop 7 w || (uwFmt w == 3 && ((uwOp w).toNat == 0 || decide (8 ≤ (uwOp w).toNat)))) (fun r w s =>
    if !isSop 7 w ∨ bits w 1 24 ≠ 0 then abortRoutine e r 1 0 s
    else
      let s := freeSeq e (countLate e r s)
      let c := (s.eng e).cycle
      match r.owner with
      | .node f t =>
        s.modEng e (addResult
          { due := c + 1, issued := t, origin := .node f.node f.ctx f.iter f.word,
            toks := if bit w 0 then bothDests s e f r.res else [] })
      | .strand i =>
        let s := if bit w 0 then strandSetW e (siD i.word) r.res 1 s else s
        modStrand e (fun t => { t with block := .none, issueAt := max t.issueAt (c + 2) }) s) s

/-- CUSTOMER_NODE: the routine of a customer opcode starts for the fire in EXEC (R112, R203, R209). -/
def execCustomerNode (e : EngNo) (s : State) : Host.Outcome State Fault Refusal :=
  match (s.eng e).exec with
  | none => .next s
  | some f =>
    let o := (nwOpc f.word).toNat
    if o < 0xE0 ∨ (s.eng e).seqr.isSome then .next s
    else
      let s := s.modEng e (fun x => { x with exec := none })
      if f.closed then .next (nodeResult e f [] 0 1 s)
      else
        let r := startRoutine s e (o - 0xE0) (.node f f.issued) f.issued f.l f.r
        .next (s.modEng e (fun x => { x with seqr := some r }))

/-- CUSTOMER_INSTR: the routine of a customer opcode starts for the instruction in EXEC, and the strand waits for it
(R203, R206, R209). -/
def execCustomerInstr (e : EngNo) (s : State) : Host.Outcome State Fault Refusal :=
  if (s.eng e).seqr.isSome then .next s
  else onStrand e (fun w => hasOp 1 w && decide (0xE0 ≤ (siSub w).toNat)) (fun i s =>
    let r := startRoutine s e ((siSub i.word).toNat - 0xE0) (.strand i) i.issued 0 0
    modStrand e (fun t => { t with block := .routine i.pc }) (s.modEng e (fun x => { x with seqr := some r }))) s

/-- ROUTINE_RESUME: the suspended routine takes the sequencer back once it and its units are free and no condition of
R211 holds for it; two cycles pass before its next microword (R212). -/
def execRoutineResume (e : EngNo) (s : State) : Host.Outcome State Fault Refusal :=
  let x := s.eng e
  match x.susp with
  | none => .next s
  | some r =>
    let c := x.cycle
    if routineReady s e c r.fma r.div ∧ ¬ eventPending s e r true then
      .next (s.setEng e { x with susp := none, seqr := some { r with readyAt := c + 2 } })
    else .next s

/-! ## The window (R219) -/

/-- UCODE_WINDOW_READ: a word of the store as corrected; an uncorrectable word is recorded (R194, R219). -/
def execUcodeWindowRead (req : Requester) (e : EngNo) (off : BitVec 13) (u : Upset) (s : State) :
    Host.Outcome State Fault Refusal :=
  if unserved req s then .next (countUr s)
  else if !reaches s req e then .next (answer req 0 s.rsvd)
  else
    let w := off.toNat / 4
    let m := readMicro e w (s.upset (uaddr e w) u)
    let s := if m.1 then ucodeEcc 0x08 e w m.2 else m.2
    .next (answer req ((microword s w).setWidth 64) s)

end Sys2Proof.Machine
end

