-- ==== Sys2Proof/Machine/Mesh.lean ====
section
/-! DEFINITION. The token mesh (R252 to R264): channels, sites, routes, dual-clock queues (R265 to R271), routers and the
plot crossbar. -/

namespace Sys2Proof.Machine

/-! ## Channels, sites and routes (R252 to R255, R260, R276, R368) -/

/-- Site codes of R276. -/
def siteDib : Nat := 0x40
def siteLck : Nat := 0x41
def siteEvio : Nat := 0x42
def siteHost : Nat := 0x43
def siteMc : Nat := 0x44
def siteRun (n : Nat) : Nat := 0x48 + n
def siteGrn (q j : Nat) : Nat := 0x50 + 4 * q + j

/-- The attach router of a site and the side of its port: 1 west, 2 east, 3 south, 4 north; the local port for a plot
(R253). -/
def attach (site : Nat) : Nat × Nat :=
  if site < 64 then (site, 0)
  else if site = siteDib then (0, 1)
  else if site = siteLck then (8, 1)
  else if site = siteEvio then (7, 2)
  else if site = siteHost then (48, 1)
  else if site = siteMc then (56, 1)
  else if 0x48 ≤ site ∧ site < 0x4C then (8 * (site - 0x48 + 2), 1)
  else if 0x4C ≤ site ∧ site < 0x50 then (8 * (site - 0x4C + 2) + 7, 2)
  else if 0x50 ≤ site ∧ site < 0x58 then (site - 0x50, 3)
  else (site - 0x58 + 56, 4)

/-- The input of the attach router that a site's edge link enters: the edges come after the neighbours (R258). -/
def edgeInput (site : Nat) : Nat :=
  let a := attach site
  if a.2 = 0 then 0 else if a.2 ≤ 2 then 5 else 6

/-- The output of a router towards a site: XY (R260). -/
def routeOut (p dest : Nat) : Nat :=
  let a := attach dest
  if p % 8 < a.1 % 8 then 2 else if a.1 % 8 < p % 8 then 1
  else if p / 8 < a.1 / 8 then 4 else if a.1 / 8 < p / 8 then 3 else a.2

/-- The neighbour of a router in a direction. -/
def neighbour (p out : Nat) : Nat := if out = 1 then p - 1 else if out = 2 then p + 1 else if out = 3 then p - 8 else p + 8

/-- The input at which a flit that left by an output arrives. -/
def oppositeIn (out : Nat) : Nat := if out = 1 then 2 else if out = 2 then 1 else if out = 3 then 4 else 3

/-- The column of a site's attach router. -/
def column (site : Nat) : Nat := (attach site).1 % 8

/-- The mesh port of a quadrant that a source or destination uses (R254). -/
def portFor (site : Nat) : Nat :=
  if site < 64 then site % 4 else if 0x48 ≤ site ∧ site < 0x50 then (site - 0x48) % 4 else 0

/-- Whether a table write is being copied to the lookup sites (R369). -/
def rtBusy (s : State) : Bool := decide (s.time.now.toNat < s.fabric.rtUntil.toNat)

/-- A lookup while a write is being copied draws which entry it finds (R369; assumption log 68). -/
def lookupDraw (s : State) : State := if rtBusy s then s.draw.2 else s

/-- The routing-table entry for a device (R368): while a write is being copied, the old one or the new one (R369). -/
def rtEntry (s : State) (dev : BitVec 12) : BitVec 8 :=
  let a := breg .run (0x4000 + 4 * (dev.toNat / 4))
  let old : Bool := rtBusy s && bit (Config.freeValue s.free) 0
  bits (if old then SMap.get s.fabric.rtOld a (s.rd a) else s.rd a) (8 * (dev.toNat % 4)) 8

/-- Whether a kind crosses Runner links (R29). -/
def crosses (k : BitVec 4) : Bool :=
  k == kOperand || k == kGrnReply || k == kGrnAck || k == kSheafReq || k == kSheafRsp || k == kSheafData || k == kBlock

/-- The site a token travels to from a source site; none when its routing-table entry is not valid (R36, R37, R44,
R254, R368). -/
def destSite (s : State) (src : Nat) (f : Flit) : Option Nat :=
  let t := f.tag
  if crosses f.kind ∧ f.dev ≠ ownId s then
    let r := rtEntry s f.dev
    if bit r 7 then some (siteRun (bits r 0 3).toNat) else none
  else if f.kind = kGrnRead ∨ f.kind = kBlkRead then some (siteGrn (quadOf (rdAddr f.data)) (portFor src))
  else if f.kind = kGrnWrite ∨ (f.kind = kSheafReq ∧ tagSpace t = 0) then
    some (siteGrn (quadOf (tagAddr t)) (portFor src))
  else if f.kind = kBlock then
    some (if tagBlk t = 1 then siteDib else if tagBlk t = 2 then siteLck else siteEvio)
  else some (f.engOf.toNat / 16)

/-! ## Queues (R265 to R269) -/

/-- The key of a queue. -/
def qkey (site : Nat) (toMesh : Bool) (chan : Nat) : Nat := (site * 8 + chan) * 2 + toMesh.toNat

/-- Whether a site is a Runner port. -/
def isRun (site : Nat) : Bool := decide (0x48 ≤ site ∧ site < 0x50)

/-- Entries of a queue: R265's, and of a Runner receive queue, whose channel number is raised by three for VC 1, those of
R363. -/
def qcap (site chan : Nat) : Nat := if chan % 3 = chCtl then (if site < 64 then 4 else 8) else 16

/-- Entries of a queue by its direction: the receive buffers of a link are deeper (R265, R363). -/
def qdepth (site : Nat) (toMesh : Bool) (chan : Nat) : Nat :=
  if isRun site && toMesh then (if chan % 3 = chCtl then 8 else 32) else qcap site chan

/-- Whether a plot takes no token: quarantined, in reset or without power (R52, R260, R431). -/
def plotGone (s : State) (p : Nat) : Bool :=
  let x := s.plot p
  x.absent || x.resetting.isSome || !x.powered

/-- Whether the first token of a list of flits is a sheaf that has not arrived whole. -/
def midSheaf (fs : List Flit) : Bool := !fs.isEmpty && (takePacket fs).1.isEmpty

/-- Whether a writer may write a flit: there is room, and a queue under a flush takes no head flit (R267, R269). -/
def canWrite (s : State) (site : Nat) (toMesh : Bool) (chan : Nat) (f : Flit) : Bool :=
  let k := qkey site toMesh chan
  decide ((s.q k).length < qdepth site toMesh chan) && !(SMap.get s.flushing k false && f.kind != kSheafData)

/-- A flit is discarded with MESH_QDISC counting it (R269, R271). -/
def countDiscard (n : Nat) (s : State) : State := s.satAdd (breg .mesh 0x10) 0 32 n

/-- The reader of a queue or a router FIFO takes a flit: its read pointer moves on (R270). -/
def State.noteRead (s : State) (w : Nat) : State :=
  { s with reads := SMap.set s.reads w ((SMap.get s.reads w 0 + 1) % 64) 0 }

/-- Flits left of the sheaf that the writer of a queue or FIFO has begun. -/
def leftOf (s : State) (w : Nat) : Nat := SMap.get s.wleft w 0

/-- The writer of a queue or FIFO writes a flit: what is left of its sheaf. -/
def noteWrite (w : Nat) (f : Flit) (s : State) : State :=
  let n := leftOf s w
  { s with wleft := SMap.set s.wleft w (if n = 0 then f.follow else n - 1) 0 }

/-- A flit that a writer writes after a reset: the rest of the sheaf it had begun is discarded; none where the flit is to be
written (R271). -/
def dropWrite (w : Nat) (f : Flit) (s : State) : Option State :=
  if !SMap.get s.dropping w false then none
  else
    let s := noteWrite w f (countDiscard 1 s)
    some (if leftOf s w = 0 then { s with dropping := SMap.set s.dropping w false false } else s)

/-- A writer writes a flit; after a reset the rest of a sheaf it had begun is discarded (R271). -/
def pushQ (site : Nat) (toMesh : Bool) (chan : Nat) (f : Flit) (s : State) : State :=
  let k := qkey site toMesh chan
  match dropWrite k f s with
  | some s => s
  | none =>
    let s := if site < 64 ∧ !toMesh then stir site s else stirDevice s
    (noteWrite k f s).setQ k (s.q k ++ [f])

/-- A sheaf under way at a key: what holds it and the flits that remain. -/
def holdAt (s : State) (k : Nat) : Option (Nat × Nat) := SMap.get s.holds k none

/-- The state with a sheaf's hold replaced. -/
def setHold (k : Nat) (v : Option (Nat × Nat)) (s : State) : State := { s with holds := SMap.set s.holds k v none }

/-- Keys of the holds of router outputs, crossbar outputs and queue readers. -/
def holdRouter (p out chan : Nat) : Nat := (p * 5 + out) * 3 + chan
def holdXbar (p out chan : Nat) : Nat := 10000 + (p * 32 + out) * 3 + chan
def holdQueue (k : Nat) : Nat := 20000 + k

/-- The hold after a flit has passed: a head takes it, and the last flit of the sheaf returns it. -/
def passHold (k who : Nat) (f : Flit) (s : State) : State :=
  match holdAt s k with
  | some (w, n) => setHold k (if n ≤ 1 then none else some (w, n - 1)) s
  | none => if f.follow = 0 then s else setHold k (some (who, f.follow)) s

/-- A flit as the data flit of a sheaf whose check code is inverted, so that the receiver discards the sheaf whole: its
header, payload and HOPS stand (R47, R269). -/
def breakFlit (f : Flit) (last : Bool) : Flit :=
  sealFlit (putBit (put f 156 kSheafData) 6 last) ^^^ ((0x1FF : Flit) <<< 7)

/-- A flit with which a queue completes a sheaf (R269, R271). -/
def brokenFlit (last : Bool) : Flit := breakFlit 0 last

/-- `n` such flits, the last of them ending the sheaf. -/
def brokenFlits : Nat → List Flit
  | 0 => []
  | n + 1 => brokenFlit (n == 0) :: brokenFlits n

/-! ## Router FIFOs (R255) -/

/-- The key of a router input FIFO. -/
def rkey (p inp chan : Nat) : Nat := (p * 7 + inp) * 3 + chan

/-- A router input FIFO. -/
def rq (s : State) (k : Nat) : List Hop := SMap.get s.routers k []

/-- The state with a router input FIFO replaced. -/
def setRq (k : Nat) (hs : List Hop) (s : State) : State := { s with routers := SMap.set s.routers k hs [] }

/-- Flits of a router input FIFO (R255). -/
def rcap (chan : Nat) : Nat := if chan = chCtl then 4 else 8

/-- The key of a router FIFO among the writers' and readers' sheaves of the queues. -/
def rwkey (k : Nat) : Nat := 0x10000 + k

/-- A flit arrives at a router input, whose writer discards the rest of a sheaf after a reset (R271). -/
def arrive (k dest : Nat) (f : Flit) (s : State) : State :=
  match dropWrite (rwkey k) f s with
  | some s => s
  | none =>
    let h : Hop := { dest := dest, at_ := s.arrivals, wait := 0, flit := f }
    let s := noteWrite (rwkey k) f (stirDevice s)
    setRq k (rq s k ++ [h]) { s with arrivals := s.arrivals + 1 }

/-! ## Detections on the way -/

/-- A check error counted by MESH_ECC: CE in the high half, UC in the low (R276). -/
def countEcc (uc : Bool) (s : State) : State := s.satInc (breg .mesh 0x14) (if uc then 0 else 16) 16

/-- Whether a flit is malformed at its first check point (R52). -/
def malformedFlit (f : Flit) : Bool :=
  decide (0xB ≤ f.kind.toNat) || (f.kind != kSheafReq && f.kind != kSheafRsp && f.kind != kSheafData && f.len != 0) ||
    decide (17 ≤ f.hops.toNat)

/-! ## Blocks (R44, R52) -/

/-- The block number of a block's site. -/
def blkOfSite (site : Nat) : BitVec 4 := if site = siteDib then 1 else if site = siteLck then 2 else 0xA

/-- Whether a reply word breaks R315. -/
def badReplyWord (w : Word) : Bool :=
  bits w 62 2 == 3 || bits w 52 10 != 0 || bits w 14 14 != 0 || (bits w 62 2 == 1 && bits w 0 14 != 0) ||
    (bits w 62 2 == 2 && bits w 28 24 != 0)

/-- Whether a lock word breaks R334 for a function. -/
def badLockWord (fn : BitVec 6) (w : Word) : Bool :=
  let mode := bits w 62 2
  mode == 0 || mode == 3 || bits w 57 5 != 0 || bit w 14 || (mode == 1 && bits w 0 14 != 0) ||
    (mode == 2 && bits w 28 24 != 0) || (bit w 15 && fn != 4 && fn != 5)

/-- Whether a function's data word holds a bit outside its fields or a reserved value (R314, R315, R327, R334). -/
def badFnData (blk : BitVec 4) (fn : BitVec 6) (w : Word) : Bool :=
  let f := fn.toNat
  if blk = 1 then
    if f = 1 then false
    else if f = 4 then (w &&& ~~~(0x011FFFFF : Word)) != 0
    else if f = 6 then decide (32 ≤ w.toNat)
    else if f = 7 then decide (0x10000 ≤ w.toNat)
    else if f = 8 then decide (0x4000 ≤ w.toNat)
    else if f = 0x10 ∨ f = 0x11 then badReplyWord w
    else w != 0
  else if blk = 2 then badLockWord fn w
  else if f = 3 ∨ f = 0xA then w != 0
  else if f = 9 then decide (w.toNat < 100)
  else if f = 0x10 ∨ f = 0x11 then badReplyWord w
  else false

/-- Whether a block refuses a token as malformed: the kind, the own ID, the block, the function, its UNIT range
and its data word (R44, R52, R314, R327, R334, R338). -/
def badBlockToken (s : State) (site : Nat) (f : Flit) : Bool :=
  let t := f.tag
  f.kind != kBlock || tagDev t != ownId s || tagBlk t != blkOfSite site || tagCtx t == 0xFFFF ||
    badFunction (tagBlk t) (tagFn t) (tagUnit t) || badFnData (tagBlk t) (tagFn t) f.data

/-- A token at a block's intake: discarded when poisoned or malformed, otherwise it joins the intake (R52). -/
def toBlock (site : Nat) (f : Flit) (s : State) : State :=
  if f.poison then detect (blockDetect 0x55 (BitVec.ofNat 8 site) f) s
  else if badBlockToken s site f then detect (blockDetect 0x42 (BitVec.ofNat 8 site) f) s
  else if site = siteDib then { s with dib := { s.dib with intake := s.dib.intake ++ [f] } }
  else if site = siteLck then { s with lck := { s.lck with intake := s.lck.intake ++ [f] } }
  else { s with evio := { s.evio with intake := s.evio.intake ++ [f], intakeAt := s.time.now } }

/-- The intake of a block. -/
def intakeOf (s : State) (site : Nat) : List Flit :=
  if site = siteDib then s.dib.intake else if site = siteLck then s.lck.intake else s.evio.intake

/-- Tokens a block's intake holds: 64 in the Dibber and the lock unit; the spec names no FIFO of EVIO, which takes
one at a time (R309, R343; assumption log 16). -/
def intakeCap (site : Nat) : Nat := if site = siteEvio then 1 else 64

/-! ## Reading a queue (R266 to R268) -/

/-- Whether the head of a queue of a depth may be read: of a sheaf, the whole or MESH_CFG.CT flits are present (R268). A
sheaf of 17 flits never fits whole in a queue of 16, so a full queue is read too (assumption log 17). -/
def headReadable (s : State) (depth : Nat) (fs : List Flit) : Bool :=
  match fs with
  | [] => false
  | f :: _ =>
    let ct := s.fld (breg .mesh 0) 0 5
    decide (f.follow + 1 ≤ fs.length) || (ct != 0 && decide (ct ≤ fs.length)) || decide (depth ≤ fs.length)

/-- The mesh channel of a queue's channel number: a Runner receive queue has one queue for each VC, numbered channel plus
three for VC 1 (R363). -/
def meshChan (chan : Nat) : Nat := chan % 3

/-- Whether a queue has a channel number (R265, R272, R363): a plot's boundary and the ports of the blocks, the host, the MC
and the quadrants have the channels of R253, a Runner receive port those of its VCs, and the plots, the CPCLK and MCCLK
blocks, the host and the quadrants register queues; the overflow channels stand at the plots and at the overflow ports. -/
def legalChan (q : QueueKey) : Bool :=
  let site := q.site.toNat
  let c := q.chan.toNat
  if site < 64 then decide (c < 7)
  else if site < 0x43 then decide (c = chCtl ∨ c = chRegReq ∨ c = chRegRsp)
  else if site < 0x45 then decide (c < 3 ∨ c = chRegReq ∨ c = chRegRsp)
  else if isRun site then decide (c < 3) || (decide (c < 6) && q.toMesh)
  else if 0x50 ≤ site ∧ site < 0x60 then decide (c < 2) || (decide (site % 4 = 0) && decide (c = chRegReq ∨ c = chRegRsp))
  else if 0x60 ≤ site ∧ site < 0x64 then decide (c = chOvfOut ∨ c = chOvfRet)
  else decide (0x80 ≤ site ∧ site < 0xC0 ∧ c < 3)

/-- The channel code of a Runner receive queue (R363). -/
def linkCode (chan : Nat) : Nat := 2 * (chan % 3) + chan / 3

/-- A link. -/
def link (s : State) (n : Nat) : Link := SMap.get s.fabric.links n Link.reset

/-- The state with a link replaced. -/
def setLink (n : Nat) (x : Link) (s : State) : State :=
  { s with fabric := { s.fabric with links := SMap.set s.fabric.links n x Link.reset } }

/-- The state with a link changed. -/
def modLink (n : Nat) (g : Link → Link) (s : State) : State := setLink n (g (link s n)) s

/-- A flit leaves a receive buffer of a link, which returns its credit (R363). -/
def returnCredit (site chan : Nat) (toMesh : Bool) (s : State) : State :=
  if isRun site && toMesh then
    modLink (site - 0x48) (fun x =>
      { x with left := SMap.set x.left (linkCode chan) (SMap.get x.left (linkCode chan) 0 + 1) 0 }) s
  else s

/-- A flit that a receive port takes has EPOCH replaced by the current epoch, and its check field formed anew; one that
fails its check stays broken (R33, R47, R366). -/
def restamp (s : State) (site : Nat) (toMesh : Bool) (f : Flit) : Flit :=
  if isRun site && toMesh then
    let g := putBit f 153 (curEpoch s)
    match checkFlit f with
    | .bad _ => breakFlit g f.last
    | _ => sealFlit g
  else f

/-- Requests in RQ of a mesh port. -/
def quadRq (s : State) (q j : Nat) : List Flit := (quad s q).rq[j % 4]'(Nat.mod_lt _ (by decide))

/-- The state with the requests in RQ of a mesh port replaced. -/
def setQuadRq (q j : Nat) (fs : List Flit) (s : State) : State :=
  let x := quad s q
  setQuad q { x with rq := x.rq.set (j % 4) fs (Nat.mod_lt _ (by decide)) } s

/-- Replies of a mesh port that wait for its response queue. -/
def quadTx (s : State) (q j : Nat) : List Flit := (quad s q).tx[j % 4]'(Nat.mod_lt _ (by decide))

/-- Flits enter a queue one after another as far as it takes them; the others wait (R267, R269). -/
def pushAll (site chan : Nat) : List Flit → State → List Flit × State
  | [], s => ([], s)
  | f :: fs, s => if canWrite s site true chan f then pushAll site chan fs (pushQ site true chan f s) else (f :: fs, s)

/-- Replies of a mesh port enter its response queue as far as it takes them (R267, R269, R283). -/
def drainTx (q j : Nat) (s : State) : State :=
  let r := pushAll (siteGrn (q % 4) (j % 4)) chRsp (quadTx s q j) s
  let x := quad r.2 q
  setQuad q { x with tx := x.tx.set (j % 4) r.1 (Nat.mod_lt _ (by decide)) } r.2

/-- Flits of a block that wait for its control queue. -/
def blockTx (s : State) (site : Nat) : List Flit := SMap.get s.tx site []

/-- Flits of a block enter its control queue as far as it takes them (R223, R267, R269). -/
def drainBlock (site : Nat) (s : State) : State :=
  let r := pushAll site chCtl (blockTx s site) s
  { r.2 with tx := SMap.set r.2.tx site r.1 [] }

/-- A block sends a control flit. -/
def blockSend (site : Nat) (f : Flit) (s : State) : State :=
  drainBlock site { stirDevice s with tx := SMap.set s.tx site (blockTx s site ++ [f]) [] }

/-- Whether the reader's side of a queue takes a flit for a destination. -/
def readerRoom (s : State) (site chan : Nat) (toMesh : Bool) : Bool :=
  if toMesh then
    decide ((rq s (rkey (attach site).1 (edgeInput site) (meshChan chan))).length < rcap (meshChan chan))
  else if site < 64 then
    let x := s.plot site
    !plotGone s site && (if chan = chReq then x.xreq else if chan = chRsp then x.xrsp else x.xctl).isEmpty
  else if site = siteDib ∨ site = siteLck ∨ site = siteEvio then decide ((intakeOf s site).length < intakeCap site)
  else if 0x50 ≤ site ∧ site < 0x60 then
    match quadRq s ((site - 0x50) / 4) ((site - 0x50) % 4) with
    | [] => true
    | fs => midSheaf fs
  else false

/-- A request flit reaches RQ of a quadrant's mesh port (R283). -/
def toQuad (q j : Nat) (f : Flit) (s : State) : State := setQuadRq q j (quadRq s q j ++ [f]) s

/-- A flit is delivered to the reader of a queue. -/
def deliverFlit (site chan : Nat) (toMesh : Bool) (dest : Nat) (f : Flit) (s : State) : State :=
  if toMesh then arrive (rkey (attach site).1 (edgeInput site) (meshChan chan)) dest (restamp s site toMesh f) s
  else if site < 64 then
    s.modPlot site (fun x =>
      if chan = chReq then { x with xreq := x.xreq ++ [(x.xcycle, f)] }
      else if chan = chRsp then { x with xrsp := x.xrsp ++ [(x.xcycle, f)] }
      else { x with xctl := x.xctl ++ [(x.xcycle, f)] })
  else if site = siteDib ∨ site = siteLck ∨ site = siteEvio then toBlock site f s
  else toQuad ((site - 0x50) / 4) ((site - 0x50) % 4) f s

/-- A flushed queue appends what it owes its sheaf, as far as it has room (R269). -/
def topUp (site : Nat) (toMesh : Bool) (chan : Nat) (s : State) : State :=
  let k := qkey site toMesh chan
  let n := SMap.get s.appends k 0
  let m := min n (qdepth site toMesh chan - (s.q k).length)
  if m = 0 then s
  else
    let s := { s with appends := SMap.set s.appends k (n - m) 0 }
    countDiscard m (s.setQ k (s.q k ++ (brokenFlits n).take m))

/-- Whether a link's queues are all flushed. -/
def linkFlushed (s : State) (n : Nat) : Bool :=
  (List.range 6).all (fun c => !SMap.get s.flushing (qkey (siteRun n) true c) false) &&
    (List.range 3).all (fun c => !SMap.get s.flushing (qkey (siteRun n) false c) false)

/-- The domain of a link whose queues are flushed goes off (R269, R415). -/
def seeLinkOff (s : State) : State :=
  let off := s.power.linkDown.filter (fun n => linkFlushed s n.val)
  if off.isEmpty then s
  else off.foldl (fun s n => s.setFlag (breg .pwr 0x24) n.val false)
    { s with power := { s.power with linkDown := s.power.linkDown.filter (fun n => !off.contains n) } }

/-- The flush of a queue ends when the reader has emptied it and no sheaf is partly written (R269). -/
def endFlush (k : Nat) (s : State) : State :=
  if (s.q k).isEmpty && (leftOf s k == 0 || SMap.get s.dropping k false) && SMap.get s.appends k 0 == 0 then
    seeLinkOff { s with flushing := SMap.set s.flushing k false false }
  else s

/-- The flits of a block or quadrant that wait to be written to a queue enter it. -/
def drainWriter (site : Nat) (toMesh : Bool) (chan : Nat) (s : State) : State :=
  if 0x50 ≤ site ∧ toMesh ∧ chan = chRsp then drainTx ((site - 0x50) / 4) ((site - 0x50) % 4) s
  else if 0x40 ≤ site ∧ site < 0x43 ∧ toMesh ∧ chan = chCtl then drainBlock site s
  else s

/-- The engine slot that serves the engine a token for a plot names, if it names one there. -/
def engineAt (s : State) (p : Nat) (f : Flit) : Option EngNo :=
  if f.kind = kSheafData ∨ f.engOf.toNat / 16 ≠ p then none
  else (slotOf s f.engOf).map (fun e => ⟨e % 1088, Nat.mod_lt _ (by decide)⟩)

/-- The record of a token error at the reader of a queue: the plot's collector at a plot boundary, the device's at a port. A
malformed token's record names the engine of the plot that the token is for (R52, R271, R451, R456; assumption log 144). -/
def siteDetect (site chan : Nat) (toMesh : Bool) (plotCode devCode : BitVec 8) (f : Flit) (s : State) : State :=
  let ch := BitVec.ofNat 3 (if isRun site then meshChan chan else chan)
  if h : site < 64 then
    let d : Detection := { Detection.bare plotCode with plot := some ⟨site, h⟩, a := f.tag, b := f.hdr, c := f.data }
    detectAt ch (if plotCode = 0x12 then { d with phys := if toMesh then none else engineAt s site f }
      else { d with locus := BitVec.ofNat 16 site }) s
  else detectAt ch (blockDetect devCode (BitVec.ofNat 8 site) f) s

/-- What a read leaves: the queue appends what it owes, and a flush can end. -/
def afterRead (site : Nat) (toMesh : Bool) (chan : Nat) (s : State) : State :=
  endFlush (qkey site toMesh chan) (topUp site toMesh chan s)

/-- A single-flit token or a sheaf's head that a queue's reader takes: it is checked and routed, or discarded; a discarded
head leaves the rest of its sheaf to be discarded too (hold value 0x1000) (R47, R52, R368). A data flit with no head before
it is a breach of R46, and DEV 0xFFF one of R37 once an ID is assigned. From a link, a token is discarded too while no ID is
assigned, and when its kind does not cross links (R37, R52, R366; assumption log 107). -/
def takeHead (site chan : Nat) (toMesh : Bool) (f : Flit) (s : State) : State :=
  let k := qkey site toMesh chan
  let drop (s : State) : State := passHold (holdQueue k) 0x1000 f s
  if malformedFlit f ∨ f.kind = kSheafData ∨ (toMesh ∧ ownId s ≠ 0xFFF ∧ f.dev = 0xFFF) ∨
      (isRun site ∧ toMesh ∧ (ownId s = 0xFFF ∨ !crosses f.kind)) ∨
      (!toMesh ∧ f.dev ≠ ownId s ∧ (site < 64 ∨ site = siteDib ∨ site = siteLck ∨ site = siteEvio)) then
    drop (siteDetect site chan toMesh 0x12 0x42 f s)
  else if toMesh then
    match destSite s site f with
    | some d => passHold (holdQueue k) d f (deliverFlit site chan toMesh d f s)
    | none => drop (detect (blockDetect 0x44 (BitVec.ofNat 8 site) f) (s.satInc (breg .run 8) 0 16))
  else passHold (holdQueue k) site f (deliverFlit site chan toMesh site f s)

/-- A broken flit completes the sheaf that the reader of a reset queue had begun (R271). -/
def payOwed (site chan : Nat) (toMesh : Bool) (s : State) : State :=
  let k := qkey site toMesh chan
  let n := SMap.get s.owed k 0
  match holdAt s (holdQueue k) with
  | some (d, _) =>
    let f := brokenFlit (decide (n ≤ 1))
    deliverFlit site chan toMesh d f (passHold (holdQueue k) d f { s with owed := SMap.set s.owed k (n - 1) 0 })
  | none => { s with owed := SMap.set s.owed k 0 0 }

/-- A data flit that follows its head: a correctable one as corrected, and one that the check code cannot correct or whose
HOPS or KIND R52 refuses as a broken one, so that its receiver discards the sheaf whole (R47, R50, R52). -/
def followHead (site chan : Nat) (toMesh : Bool) (d n : Nat) (g : Flit) (s : State) : State :=
  let broken := breakFlit g (decide (n ≤ 1))
  let pass (f : Flit) (s : State) : State :=
    if malformedFlit f then deliverFlit site chan toMesh d broken (siteDetect site chan toMesh 0x12 0x42 f s)
    else deliverFlit site chan toMesh d f s
  match checkFlit g with
  | .clean => pass g s
  | .corrected h => pass h s
  | .bad _ => deliverFlit site chan toMesh d broken s

/-- A flit that is no data flit stands where the sheaf that the reader has begun wants one: the sheaf breaks R46. The breach
is recorded, flits that break the sheaf complete it, and the flit stays as the next token: DESIGN CHOICE (R46, R47;
assumption log 132). -/
def cutSheaf (site chan : Nat) (toMesh : Bool) (d n : Nat) (f : Flit) (s : State) : State :=
  let k := qkey site toMesh chan
  if d = 0x1000 then setHold (holdQueue k) none s
  else
    let s := siteDetect site chan toMesh 0x12 0x42 f s
    { s with owed := SMap.set s.owed k n 0 }

/-- Whether a flit that the check code can read is no data flit of a sheaf. -/
def noData (g : Flit) : Bool :=
  match checkFlit g with
  | .clean => Flit.kind g != kSheafData
  | .corrected h => Flit.kind h != kSheafData
  | .bad _ => false

/-- The flit at a queue's head, with the bits that an upset inverts as it is read, passes to the reader (R49, R52, R267). -/
def moveFlit (q : QueueKey) (upset f : Flit) (fs : List Flit) (s : State) : State :=
  let site := q.site.toNat
  let chan := q.chan.toNat
  let k := qkey site q.toMesh chan
  let hold := holdAt s (holdQueue k)
  let s := lookupDraw (returnCredit site chan q.toMesh (afterRead site q.toMesh chan ((s.setQ k fs).noteRead k)))
  let s := drainWriter site q.toMesh chan s
  let g := f ^^^ upset
  let found : Check := checkFlit g
  let s := match found with
    | .clean => s
    | .corrected h => countEcc false (siteDetect site chan q.toMesh 0x10 0x40 h s)
    | .bad _ => countEcc true (siteDetect site chan q.toMesh 0x11 0x41 g s)
  match hold, found with
  | none, .clean => takeHead site chan q.toMesh g s
  | none, .corrected h => takeHead site chan q.toMesh h s
  | none, .bad _ => passHold (holdQueue k) 0x1000 f s
  | some (d, n), _ =>
    let s := passHold (holdQueue k) d f s
    if d = 0x1000 then s else followHead site chan q.toMesh d n g s

/-- QUEUE_TRANSFER: a dual-clock queue moves a flit from its writer to its reader, with the flit check on the way; the
upset inverts bits of the flit as read (R49, R52, R266 to R268). The Runner transmit ports read their queues
themselves. -/
def execQueueTransfer (q : QueueKey) (upset : Flit) (s : State) : Host.Outcome State Fault Refusal :=
  let site := q.site.toNat
  let chan := q.chan.toNat
  let k := qkey site q.toMesh chan
  if !legalChan q ∨ 0x60 ≤ site ∨ (isRun site ∧ !q.toMesh) ∨ (3 ≤ chan ∧ !isRun site) then .next s
  else if SMap.get s.owed k 0 ≠ 0 then
    .next (if readerRoom s site chan q.toMesh then payOwed site chan q.toMesh s else s)
  else
    match s.q k with
    | [] => .next (drainWriter site q.toMesh chan (endFlush k s))
    | f :: fs =>
      let hold := holdAt s (holdQueue k)
      if !readerRoom s site chan q.toMesh ∨ (hold.isNone ∧ !headReadable s (qdepth site q.toMesh chan) (f :: fs)) then
        .next s
      else
        match hold with
        | some (d, n) =>
          if noData (f ^^^ upset) then .next (cutSheaf site chan q.toMesh d n (f ^^^ upset) s)
          else .next (moveFlit q upset f fs s)
        | none => .next (moveFlit q upset f fs s)

/-- The flush of a queue starts: a sheaf partly written is completed by its writer or, where the writer's own side is being
reset, with flits that break it; an empty queue with no sheaf begun is flushed already (R269). -/
def flushQueue (site : Nat) (toMesh : Bool) (chan : Nat) (writerReset : Bool) (s : State) : State :=
  let k := qkey site toMesh chan
  let s := { s with flushing := SMap.set s.flushing k true false }
  let left := leftOf s k
  let s := if !writerReset ∨ left = 0 ∨ SMap.get s.dropping k false then s
    else
      { s with appends := SMap.set s.appends k left 0, dropping := SMap.set s.dropping k true false }
  afterRead site toMesh chan s

/-- Whether the side that writes a queue is being reset: a plot's, for its outbound queues, and a link's whose domain is off
or goes off, for its receive queues (R269, R415, R431). -/
def writerInReset (s : State) (site : Nat) (toMesh : Bool) : Bool :=
  toMesh && ((decide (site < 64) && (s.plot site).resetting.isSome) ||
    (isRun site && (!s.flag (breg .pwr 0x24) (site - 0x48) || s.power.linkDown.any (fun n => n.val == site - 0x48))))

/-- QUEUE_FLUSH: the MC flushes a queue at a packet boundary; the tokens in it are delivered (R269). -/
def execQueueFlush (q : QueueKey) (s : State) : Host.Outcome State Fault Refusal :=
  let site := q.site.toNat
  if !legalChan q ∨ 0x60 ≤ site ∨ (3 ≤ q.chan.toNat ∧ !isRun site) then .next s
  else .next (flushQueue site q.toMesh q.chan.toNat (writerInReset s site q.toMesh) s)

/-- The channel code of a queue (R276): both VCs of a Runner receive queue have the code of their channel. -/
def queueCode (q : QueueKey) : BitVec 3 := if isRun q.site.toNat then BitVec.ofNat 3 (meshChan q.chan.toNat) else q.chan

/-- MESH_QRST and its event, and the record of a pointer mismatch (R271, R276, R456). -/
def recordReset (q : QueueKey) (n : Nat) (s : State) : State :=
  let ch := queueCode q
  let s := s.satInc (breg .mesh 0xC) 24 8
  let s := s.wr (breg .mesh 0xC) (bits (s.rd (breg .mesh 0xC)) 24 8 ++ (0 : BitVec 8) ++ q.site ++ BitVec.ofBool q.toMesh ++
    ch ++ (0 : BitVec 4))
  let s := if s.flag (breg .mesh 0) 9 then raiseEvent 1923 s else s
  let locus : BitVec 16 := (0 : BitVec 4) ++ BitVec.ofBool q.toMesh ++ ch ++ q.site
  let a := BitVec.ofNat 64 n
  let d : Detection := if h : q.site.toNat < 64 then
      { Detection.bare 0x24 with plot := some ⟨q.site.toNat, h⟩, locus := locus, a := a }
    else { Detection.bare 0x45 with locus := locus, a := a }
  addMask (.queue q.site ch) (collectorOf d s) (some (s.time.now + BitVec.ofNat 64 (sieveTime s 0))) (detect d s)

/-- What a reset of a queue or FIFO leaves at its two sides: the rest of a sheaf that its writer had begun is to be
discarded, and one that its reader had begun is to be completed with `n` broken flits, which are counted (R271). -/
def resetSides (w n : Nat) (s : State) : State :=
  let s := if leftOf s w = 0 then s else { s with dropping := SMap.set s.dropping w true false }
  if n = 0 ∨ SMap.get s.owed w 0 ≠ 0 then s else countDiscard n { s with owed := SMap.set s.owed w n 0 }

/-- A queue is emptied at a reset: its flits are discarded and counted, and leave a link's receive buffer (R271, R363). -/
def emptyQueue (site : Nat) (toMesh : Bool) (chan : Nat) (s : State) : State :=
  let k := qkey site toMesh chan
  let fs := s.q k
  let s := countDiscard fs.length { s.setQ k [] with reads := SMap.set s.reads k 0 0 }
  let s := fs.foldl (fun s _ => returnCredit site chan toMesh s) s
  let s := { s with appends := SMap.set s.appends k 0 0 }
  endFlush k (match holdAt s (holdQueue k) with
    | some (d, n) => if d = 0x1000 then resetSides k 0 (setHold (holdQueue k) none s) else resetSides k n s
    | none => resetSides k 0 s)

/-- The output of a router that a FIFO's reader has begun a sheaf to, and the flits that remain of it. -/
def fifoHold (s : State) (p inp chan : Nat) : Option (Nat × Nat) :=
  (List.range 5).findSome? (fun out => match holdAt s (holdRouter p out chan) with
    | some (i, n) => if i = inp then some (out, n) else none
    | none => none)

/-- A value from its Gray code. -/
def grayValue (g : BitVec 6) : Nat :=
  (g ^^^ (g >>> 1) ^^^ (g >>> 2) ^^^ (g >>> 3) ^^^ (g >>> 4) ^^^ (g >>> 5)).toNat

/-- The Gray code of a pointer. -/
def grayCode (n : Nat) : BitVec 6 := BitVec.ofNat 6 n ^^^ (BitVec.ofNat 6 n >>> 1)

/-- The steps between two Gray-coded pointers of a queue of a depth, whose pointers count modulo twice that. -/
def graySteps (depth : Nat) (a b : BitVec 6) : Nat :=
  let m := 2 * depth
  let d := (grayValue a % m + m - grayValue b % m) % m
  min d (m - d)

/-- The bits in which two pointers differ. -/
def bitsApart (a b : BitVec 6) : Nat := (List.range 6).countP (fun i => bit (a ^^^ b) i)

/-- The copies of a pointer as the checkers see them, for a queue or FIFO of a depth that holds `n` flits: the read pointer
counts the flits read, and the write pointer is as far ahead of it as the flits held (R270). -/
def ptrSeen (v : PtrView) (depth reads n : Nat) : PtrView :=
  let g := grayCode ((if v.write then reads + n else reads) % (2 * depth))
  { v with local0 := g ^^^ v.local0, local1 := g ^^^ v.local1, sync0 := g ^^^ v.sync0, sync1 := g ^^^ v.sync1
           before0 := g ^^^ v.before0, before1 := g ^^^ v.before1 }

/-- Whether what the checkers see of a pointer's copies is a pointer mismatch (R270). -/
def ptrMismatch (v : PtrView) (router : Bool) (depth : Nat) : Bool :=
  v.local0 != v.local1 ||
    (!router && (decide (1 < graySteps depth v.sync0 v.sync1) || (graySteps depth v.sync0 v.sync1 == 1 && decide (2 < v.cycles.toNat)) ||
      decide (1 < bitsApart v.sync0 v.before0) || decide (1 < bitsApart v.sync1 v.before1)))

/-- The site code of a target of the register path (R273, R276). -/
def pathSite (a : Nat) : BitVec 8 :=
  match place a with
  | .imem e _ => BitVec.ofNat 8 (e / 17)
  | .frame e _ => BitVec.ofNat 8 (e / 17)
  | .ms e _ => BitVec.ofNat 8 (e / 17)
  | .engReg e _ => BitVec.ofNat 8 (e / 17)
  | .ucode e _ => BitVec.ofNat 8 (e / 17)
  | .plotReg p _ => BitVec.ofNat 8 p
  | .ctxStore p _ => BitVec.ofNat 8 p
  | .block .dib _ => 0x40
  | .block .lck _ => 0x41
  | .block .evio _ => 0x42
  | .block .host _ => 0x43
  | .block .run _ => 0x48
  | .block .grn _ => 0x50
  | _ => 0x44

/-- Whether an access on the register access path can stand in the register request queue of a site: of a plot's, its own
accesses; on the side of the targets, those of every plot to the site (R265, R273). -/
def standsAt (site : Nat) (out : Bool) (k : RPath) : Bool :=
  k.travels && !k.lost && (if out then (match k.req with
    | .plot q => decide (q.val = site)
    | _ => false) else (pathSite k.addr.toNat).toNat == site)

/-- A register request queue is emptied: of the accesses that can stand in it, those that a free value picks are discarded;
a read among them gets no reply. How far an access has come is not held: DESIGN CHOICE (R271, R273, R275; assumption log
108). -/
def emptyRegQueue (site : Nat) (out : Bool) : List RPath → State → List RPath × State
  | [], s => ([], s)
  | k :: ks, s =>
    let d := if standsAt site out k then s.draw else (0, s)
    let r := emptyRegQueue site out ks d.2
    if !bit d.1 0 then (k :: r.1, r.2)
    else (if k.wr.isSome then r.1 else { k with lost := true } :: r.1, countDiscard 1 r.2)

/-- Entries of a register or overflow queue (R265). -/
def sideDepth (site chan : Nat) : Nat := if chan = chRegReq ∨ chan = chRegRsp then 4 else if site < 64 then 8 else 16

/-- QUEUE_RESET: a pointer mismatch resets a queue or a router FIFO. Its flits are discarded, a sheaf its reader had begun
is completed with flits that break it, and the rest of one its writer had begun is discarded (R270, R271). The overflow
queues and the register reply queues hold nothing between steps (assumption log 108). -/
def execQueueReset (c : PtrCheck) (s : State) : Host.Outcome State Fault Refusal :=
  let q := c.queue
  let site := q.site.toNat
  let chan := q.chan.toNat
  if !legalChan q then .next s
  else if 0x80 ≤ site then
    let p := site - 0x80
    let k := rkey p q.input.val chan
    let n := (rq s k).length
    if !ptrMismatch (ptrSeen c.view (rcap chan) (SMap.get s.reads (rwkey k) 0) n) true (rcap chan) then .next s
    else
      let s := setRq k [] (countDiscard n { s with reads := SMap.set s.reads (rwkey k) 0 0 })
      .next (recordReset q n (resetSides (rwkey k) (((fifoHold s p q.input.val chan).map (·.2)).getD 0) s))
  else if 3 ≤ chan ∧ !isRun site then
    let m := sideDepth site chan
    if !ptrMismatch (ptrSeen c.view m 0 0) false m then .next s
    else
      let r := if chan = chRegReq ∧ q.toMesh = decide (site < 64) then emptyRegQueue site q.toMesh s.rpath s else (s.rpath, s)
      let n := (s.rpath.filter (!·.lost)).length - (r.1.filter (!·.lost)).length
      .next (recordReset q n { r.2 with rpath := r.1 })
  else
    let k := qkey site q.toMesh chan
    let n := (s.q k).length
    let m := qdepth site q.toMesh chan
    if !ptrMismatch (ptrSeen c.view m (SMap.get s.reads k 0) n) false m then .next s
    else .next (recordReset q n (emptyQueue site q.toMesh chan s))

/-! ## Routers (R257 to R260) -/

/-- The input and channel of a request for a router output, with its flit. -/
structure Ask where
  inp : Nat
  chan : Nat
  hop : Hop
  deriving DecidableEq, Repr

/-- Whether a router output has a credit for a flit (R255, R267). -/
def outRoom (s : State) (p out chan : Nat) (h : Hop) : Bool :=
  if out = 0 then plotGone s p || canWrite s p false chan h.flit
  else if (attach h.dest).1 = p ∧ (attach h.dest).2 = out then canWrite s h.dest false chan h.flit
  else decide ((rq s (rkey (neighbour p out) (oppositeIn out) chan)).length < rcap chan)

/-- The head of a router FIFO: a flit with which it completes a sheaf after a reset, or its first flit. -/
def fifoHead (s : State) (p inp chan : Nat) : Option Hop :=
  let k := rkey p inp chan
  let n := SMap.get s.owed (rwkey k) 0
  if n = 0 then (rq s k).head?
  else some { dest := SMap.get s.dests (rwkey k) 0, at_ := 0, wait := 0, flit := brokenFlit (decide (n ≤ 1)) }

/-- The FIFO heads of a router that wait for an output. -/
def waiters (s : State) (p out : Nat) : List Ask :=
  (List.range 7).flatMap (fun inp => (List.range 3).filterMap (fun chan =>
    match fifoHead s p inp chan with
    | none => none
    | some h => if routeOut p h.dest = out then some { inp := inp, chan := chan, hop := h } else none))

/-- The FIFO heads that request an output of a router and can be granted (R258, R259). -/
def asks (s : State) (p out : Nat) : List Ask :=
  (waiters s p out).filter (fun a =>
    (match holdAt s (holdRouter p out a.chan) with
      | some (i, _) => i == a.inp
      | none => true) && outRoom s p out a.chan a.hop)

/-- A FIFO loses its head, or has written one of the flits with which it completes a sheaf; the destination of a sheaf's
head stands until its last flit has passed (R259, R271). -/
def popFifo (p : Nat) (a : Ask) (s : State) : State :=
  let k := rkey p a.inp a.chan
  let n := SMap.get s.owed (rwkey k) 0
  if n = 0 then
    let s := setRq k ((rq s k).drop 1) (s.noteRead (rwkey k))
    if a.hop.flit.follow = 0 then s else { s with dests := SMap.set s.dests (rwkey k) a.hop.dest 0 }
  else { s with owed := SMap.set s.owed (rwkey k) (n - 1) 0 }

/-- A P3 head has waited another cycle for its output, behind a grant or for a credit (R276). -/
def waitFifo (p : Nat) (a : Ask) (s : State) : State :=
  let k := rkey p a.inp a.chan
  if Flit.pri a.hop.flit = 3 ∧ SMap.get s.owed (rwkey k) 0 = 0 then
    setRq k ({ a.hop with wait := a.hop.wait + 1 } :: (rq s k).drop 1) s
  else s

/-- Whether a request goes before another (R258). -/
def Ask.before (a b : Ask) : Bool :=
  if (a.chan == chCtl) != (b.chan == chCtl) then a.chan == chCtl
  else if Flit.pri a.hop.flit ≠ Flit.pri b.hop.flit then decide ((Flit.pri b.hop.flit).toNat < (Flit.pri a.hop.flit).toNat)
  else if a.chan ≠ b.chan then a.chan == chRsp
  else if a.hop.at_ ≠ b.hop.at_ then decide (a.hop.at_ < b.hop.at_)
  else decide (a.inp < b.inp)

/-- The request that an output grants. -/
def bestAsk : List Ask → Option Ask
  | [] => none
  | a :: as => match bestAsk as with
    | none => some a
    | some b => if b.before a then some b else some a

/-- A P3 flit leaves a router output after a wait: the longest wait and the waits at or above the limit (R276). -/
def countWait (w : Nat) (s : State) : State :=
  let a := breg .mesh 8
  let s := if s.fld a 16 8 < w then s.setFld a 16 8 (min w 255) else s
  if s.fld (breg .mesh 4) 0 8 ≤ w then
    let full : Bool := s.fld a 0 16 == 0xFFFF
    let s := s.satInc a 0 16
    if s.flag (breg .mesh 0) 8 && !full then raiseEvent 1922 s else s
  else s

/-- The selected link counter counts a flit (R276). -/
def countLink (p out chan : Nat) (s : State) : State :=
  let r := s.rd (breg .mesh 0x18)
  if bits r 8 6 = BitVec.ofNat 6 p ∧ bits r 4 3 = BitVec.ofNat 3 chan ∧ bits r 0 3 = BitVec.ofNat 3 out then
    s.inc64 (breg .mesh 0x1C)
  else s

/-- A token for a plot that takes none is discarded at its router (R52, R260). -/
def tokenAbsent (p : Nat) (f : Flit) (s : State) : State :=
  if h : p < 64 then
    detect { blockDetect 0x43 (BitVec.ofNat 8 (0x80 + p)) f with plot := some ⟨p, h⟩ } s
  else s

/-- ROUTER_FLIT: an output of a router grants one flit by the order of R258, and the flit passes to the next router, to
the plot or to the edge port; the other heads for the output wait (R257 to R260, R276). -/
def execRouterFlit (p : PlotNo) (out : Fin 5) (s : State) : Host.Outcome State Fault Refusal :=
  let best := bestAsk (asks s p.val out.val)
  let s := (waiters s p.val out.val).foldl (fun s b => if best = some b then s else waitFifo p.val b s) s
  match best with
  | none => .next s
  | some a =>
    let s := popFifo p.val a s
    let f := a.hop.flit
    let held := (holdAt s (holdRouter p.val out.val a.chan)).isSome
    let s := passHold (holdRouter p.val out.val a.chan) a.inp f s
    let s := countLink p.val out.val a.chan (if Flit.pri f = 3 then countWait a.hop.wait s else s)
    if out.val = 0 then
      if plotGone s p.val then
        .next (match dropWrite (qkey p.val false a.chan) f s with
          | some s => s
          | none => if held then s else tokenAbsent p.val f s)
      else .next (pushQ p.val false a.chan f s)
    else if (attach a.hop.dest).1 = p.val ∧ (attach a.hop.dest).2 = out.val then
      .next (pushQ a.hop.dest false a.chan f s)
    else .next (arrive (rkey (neighbour p.val out.val) (oppositeIn out.val) a.chan) a.hop.dest f s)

/-- MESH_LINKSEL_WRITE: the fields are written and the link counter is cleared (R276). -/
def execMeshLinkselWrite (req : Requester) (v : Reg32) (s : State) : Host.Outcome State Fault Refusal :=
  if unserved req s then .next (countUr s)
  else if outsider req then .next s
  else
  match findRow s.profile .mesh 0x18 with
  | some (r, _) => .next ((plainWrite (breg .mesh 0x18) r v s).wr64 (breg .mesh 0x1C) 0)
  | none => .next s.rsvd

/-! ## The plot crossbar (R263, R264) -/

/-- A head that waits at the crossbar: input number, cycle of arrival, flit, and output: slots 0 to 16, the outbound
channels 17 to 19, the agent 20; `main` names the second lane of an output row or of the agent. -/
structure XHead where
  inp : Nat
  main : Bool
  at_ : Nat
  flit : Flit
  out : Nat
  chan : Nat
  deriving DecidableEq, Repr

/-- Whether a GRN_REPLY is for the strand side (R129). -/
def isStrandReply (f : Flit) : Bool :=
  f.kind == kGrnReply && tagNode f.tag == 0xFFF && tagPort f.tag == 2 && tagCtx f.tag == 0

/-- Whether deposit mode can take a token: an OPERAND below P3 or a node GRN_REPLY (R240). -/
def depositable (f : Flit) : Bool := (f.kind == kOperand && f.pri != 3) || (f.kind == kGrnReply && !isStrandReply f)

/-- Whether a flit from a plot's own engines stays in the plot. -/
def staysHome (s : State) (p : Nat) (f : Flit) : Bool :=
  f.dev == ownId s && decide (f.engOf.toNat / 16 = p) &&
    (f.kind == kOperand || f.kind == kGrnReply || f.kind == kGrnAck || f.kind == kSheafRsp || f.kind == kDispatch ||
      (f.kind == kSheafReq && tagSpace f.tag != 0))

/-- The output that a sheaf's data flit follows its head to. -/
def heldOut (s : State) (p inp chan : Nat) : Option Nat :=
  (List.range 21).find? (fun o => match holdAt s (holdXbar p o chan) with
    | some (i, _) => i == inp
    | none => false)

/-- The output of a flit at an input of the crossbar; a flit of an engine that is being retired waits (R462). -/
def xbarOut (s : State) (p inp chan : Nat) (f : Flit) : Option Nat :=
  if f.kind = kSheafData then heldOut s p inp chan
  else if 17 ≤ inp ∨ staysHome s p f then
    if inp ≠ 20 ∧ depositable f ∧ !((s.plot p).deposit.isEmpty && (s.plot p).xinj.isEmpty) then some 20
    else if retiring s f.engOf then none
    else (slotOf s f.engOf).map (fun e => e % 17)
  else some (17 + chanOf f)

/-- Whether an output takes a flit now. -/
def xbarRoom (s : State) (p out : Nat) (f : Flit) : Bool :=
  if out = 20 then !lookupWaits s p && !placementWaits s p && (readyPool s p (s.plot p).deposit.getLast?).isSome
  else if 17 ≤ out then canWrite s p true (out - 17) f
  else
    let x := s.eng (17 * p + out)
    if f.kind = kOperand ∨ (f.kind = kGrnReply ∧ !isStrandReply f) then
      decide ((if f.pri = 3 then x.inP3.length else if f.pri = 2 then x.inP2.length
        else if f.pri = 1 then x.inP1.length else x.inP0.length) < (if f.pri = 3 then 4 else 8))
    else true

/-- A head at an input, when its output takes it: a sheaf holds its output's channel (R259). -/
def xhead (s : State) (p inp chan : Nat) (main : Bool) (l : List (Nat × Flit)) : Option XHead :=
  match l with
  | [] => none
  | (t, f) :: _ =>
    let ch := if 17 ≤ inp ∧ inp < 20 then chan else if f.kind = kSheafData then (if inp = 20 then chRsp else chReq) else chanOf f
    match xbarOut s p inp ch f with
    | none => none
    | some o =>
      let free : Bool := match holdAt s (holdXbar p o ch) with
        | some (i, _) => i == inp
        | none => true
      if free ∧ xbarRoom s p o f then some { inp := inp, main := main, at_ := t, flit := f, out := o, chan := ch } else none

/-- What each input of a plot's crossbar offers: one flit, the P3 lane of an output row and the agent's refill answers
first (R263). -/
def xheads (s : State) (p : Nat) : List XHead :=
  ((List.range 17).filterMap (fun i =>
    let x := s.eng (17 * p + i)
    match xhead s p i 0 false x.outP3 with
    | some h => some h
    | none => xhead s p i 0 true x.outMain)) ++
  (xhead s p 17 chReq false (s.plot p).xreq).toList ++ (xhead s p 18 chRsp false (s.plot p).xrsp).toList ++
  (xhead s p 19 chCtl false (s.plot p).xctl).toList ++
  (match xhead s p 20 chRsp false (s.plot p).xfill with
   | some h => [h]
   | none => (xhead s p 20 chReq true (s.plot p).xinj).toList)

/-- Whether a head goes before another at one output (R263). -/
def XHead.before (a b : XHead) : Bool :=
  if Flit.pri a.flit ≠ Flit.pri b.flit then decide ((Flit.pri b.flit).toNat < (Flit.pri a.flit).toNat)
  else if a.at_ ≠ b.at_ then decide (a.at_ < b.at_) else decide (a.inp < b.inp)

/-- The head that an output takes. -/
def bestHead : List XHead → Option XHead
  | [] => none
  | a :: as => match bestHead as with
    | none => some a
    | some b => if b.before a then some b else some a

/-- Whether the input lane of an engine for a token has room. -/
def intakeRoom (x : Engine) (f : Flit) : Bool :=
  decide ((if Flit.pri f = 3 then x.inP3.length else if Flit.pri f = 2 then x.inP2.length
    else if Flit.pri f = 1 then x.inP1.length else x.inP0.length) < (if Flit.pri f = 3 then 4 else 8))

/-- Whether a token waits because its engine's input lane is full. -/
def laneHolds (s : State) (f : Flit) : Bool :=
  match slotOf s f.engOf with
  | some e => !intakeRoom (s.eng e) f
  | none => false

/-- The heads of a plot's held request and response queues that deposit mode moves (R240). -/
def heldHeads (s : State) (p : Nat) : List XHead :=
  let head (inp chan : Nat) (l : List (Nat × Flit)) : List XHead := match l with
    | (t, f) :: _ =>
      if depositable f && laneHolds s f then
        [{ inp := inp, main := false, at_ := t, flit := f, out := 20, chan := chan }]
      else []
    | [] => []
  head 17 chReq (s.plot p).xreq ++ head 18 chRsp (s.plot p).xrsp

/-- Whether a deposit write can start: candidate 3. -/
def depositWaits (s : State) (p : Nat) : Bool :=
  (s.plot p).depositMode && (freePool s p).isSome && !(heldHeads s p).isEmpty

/-- Whether the head of the deposit chain can be re-injected: candidate 4. -/
def reinjectWaits (s : State) (p : Nat) : Bool :=
  match (s.plot p).deposit with
  | [] => false
  | k :: _ =>
    let f := poolFlit s p k
    slotBad s (poolAddr s p k) 4 || (match slotOf s f.engOf with
      | some e => !retiring s f.engOf && intakeRoom (s.eng e) f && (s.plot p).xinj.isEmpty
      | none => true)

/-- Deposit mode ends when its chain is empty, the last token re-injected from it has crossed, and no queue is held by a
token that it would move (R240; assumption log 103). -/
def endDeposit (p : Nat) (s : State) : State :=
  let x := s.plot p
  if x.depositMode ∧ x.deposit.isEmpty ∧ x.xinj.isEmpty ∧ (heldHeads s p).isEmpty then
    seeRefusals p (s.modPlot p (fun x => { x with depositMode := false }))
  else s

/-- An input without its head. -/
def dropHead (p : Nat) (h : XHead) (s : State) : State :=
  if h.inp < 17 then
    s.modEng (17 * p + h.inp) (fun x =>
      if h.main then { x with outMain := x.outMain.drop 1 } else { x with outP3 := x.outP3.drop 1 })
  else
    let ends (s : State) : State := if h.inp = 20 ∧ h.main then endDeposit p s else s
    ends (s.modPlot p (fun x =>
      if h.inp = 17 then { x with xreq := x.xreq.drop 1 } else if h.inp = 18 then { x with xrsp := x.xrsp.drop 1 }
      else if h.inp = 19 then { x with xctl := x.xctl.drop 1 }
      else if h.main then { x with xinj := x.xinj.drop 1 } else { x with xfill := x.xfill.drop 1 }))

/-- A flit enters the intake of a slot (R56, R129): a refill answer comes from the agent, and other sheaves by their
channels. -/
def toSlotIntake (e inp chan : Nat) (f : Flit) (s : State) : State :=
  s.modEng e (fun x =>
    if f.kind = kGrnAck then { x with acks := x.acks ++ [f] }
    else if isStrandReply f then { x with strandIn := x.strandIn ++ [f] }
    else if f.kind = kDispatch then { x with dispIn := x.dispIn ++ [f] }
    else if f.kind = kSheafRsp ∨ f.kind = kSheafReq ∨ f.kind = kSheafData then
      (if inp = 20 then { x with refillIn := x.refillIn ++ [f] }
       else if chan = chReq then { x with sheafReq := x.sheafReq ++ [f] }
       else { x with sheafIn := x.sheafIn ++ [f] })
    else toInput f x)

/-- A token joins the end of the plot's deposit chain (R237, R240). -/
def depositToken (p : Nat) (f : Flit) (s : State) : State :=
  match freePool s p with
  | none => s
  | some k =>
    let s := writePool p k f (s.plot p).deposit.getLast? s
    let s := s.modPlot p (fun x => { x with deposit := x.deposit ++ [k] })
    s.satInc (preg p 0x124) 0 16

/-- A head crosses to its output. -/
def crossHead (p : Nat) (h : XHead) (s : State) : State :=
  let s := passHold (holdXbar p h.out h.chan) h.inp h.flit (dropHead p h s)
  if h.out = 20 then depositToken p h.flit s
  else if 17 ≤ h.out then pushQ p true (h.out - 17) h.flit s
  else toSlotIntake (17 * p + h.out) h.inp h.chan h.flit s

/-- The agent's overflow transfer for held tokens in a cycle of the crossbar in which none that goes before has started: a
token of a hold intake joins its chain, which ranks with the deposit writes (assumption log 138), or a window release reads
a slot (R227, R228, R236). -/
def transferHeld (p : PlotNo) (s : State) : State :=
  if lookupWaits s p || placementWaits s p || depositWaits s p then s
  else
    match (s.plot p).holdIn.findSome? (fun h => poolIntake p h s) with
    | some t => t
    | none =>
      let s := (s.plot p).holdIn.foldl (fun s h => wantPool p (lastSlot s p h) s) s
      if reinjectWaits s p then s
      else
        match (s.plot p).windows.findSome? (fun w => releaseOne p w s) with
        | some t => t
        | none => wantReleases p s

/-- CROSSBAR_TRANSFER: in one cycle of a plot's crossbar each output takes at most one flit, by the order of R263. -/
def execCrossbarTransfer (p : PlotNo) (s : State) : Host.Outcome State Fault Refusal :=
  let s := wantPool p (s.plot p).deposit.getLast? (releaseHeld p s)
  let hs := if s.sieve.diverged.contains (BitVec.ofNat 8 p.val) then [] else xheads s p.val
  let s := (List.range 21).foldl (fun s o =>
    match bestHead (hs.filter (fun h => h.out == o)) with
    | some h => crossHead p.val h s
    | none => s) s
  let s := if hs.any (fun h => h.out == 20) then s else transferHeld p s
  .next (s.modPlot p (fun x => { x with xcycle := x.xcycle + 1 }))

end Sys2Proof.Machine
end

