-- ==== Sys2Proof/Machine/Pruner.lean ====
section
/-! DEFINITION. The Pruner: spill placement, refill lookups, purges, windows, deposit, quiescence, the stall audit and
exhaustion (R229 to R249). -/

namespace Sys2Proof.Machine

/-! ## Spill placement (R232) -/

/-- SPILL_DRAIN: a unit waiting in the spill intake is placed if it can be; otherwise the first spill queue whose intake
is free gives up a unit, which is placed or held there (R68, R232). A lookup read goes before it (R236). -/
def execSpillDrain (p : PlotNo) (s : State) : Host.Outcome State Fault Refusal :=
  let wait := (s.plot p).spillIn
  let held := wait.flatMap (fun w => unitWords s p w.1 w.2)
  if lookupWaits s p then .next s
  else if !held.isEmpty then .next (wantWords held s)
  else match wait.findSome? (fun w => (placeUnit p w.1 w.2 s).map (fun t => (w.1, t))) with
  | some (i, t) => .next ((stir p t).modPlot p (fun x => { x with spillIn := x.spillIn.filter (fun w => w.1 != i) }))
  | none =>
    match (localEngines s p.val).find? (fun r => !(s.eng r.2).spillQ.isEmpty && !(wait.any (fun w => w.1 == r.1))) with
    | none => .next s
    | some (i, e) =>
      match (s.eng e).spillQ with
      | [] => .next s
      | u :: us =>
        if !(unitWords s p i u).isEmpty then .next (wantWords (unitWords s p i u) s) else
        let s := stir p (s.modEng e (fun x => { x with spillQ := us }))
        match placeUnit p i u s with
        | some t => .next t
        | none =>
          let s := s.satInc (preg p 0x124) 16 16
          .next (s.modPlot p (fun x => { x with spillIn := x.spillIn ++ [(i, u)] }))

/-! ## Refill lookups (R233) -/

/-- The entry in a bucket slot. -/
def slotEntry (s : State) (p k : Nat) : Entry :=
  let w := areaWord (bucketAddr s p k)
  grnWord s (w + 1) ++ grnWord s w

/-- A bucket slot is freed. -/
def freeSlot (p k : Nat) (s : State) : State := seeRefusals p (setSlotUsed p k false s)

/-- Bucket slots are read through the overflow port: those whose content is lost are recorded and freed (R237, R281). -/
def dropLost (p : PlotNo) (ks : List Nat) (s : State) : State :=
  ks.foldl (fun s k =>
    let a := bucketAddr s p k
    let t := port1Read 0 (agentCode p) a 2 s
    if slotBad s a 2 then freeSlot p k (slotLost p a t) else t) s

/-- The words of bucket slots an access to which waits (R295, R444). -/
def bucketsHeld (s : State) (p : Nat) (ks : List Nat) : List (BitVec 23) :=
  (ks.flatMap (fun k => slotWords (bucketAddr s p k) 2)).filter (wordHeld s)

/-- The set an entry in a bucket slot belongs to, recomputed from its key (R233). -/
def slotSet (s : State) (e : Nat) (n : Entry) : BitVec 10 := setOf s e (enNode n) (enCtx n) (enIter n)

/-- REFILL_LOOKUP: the oldest lookup of an engine is answered from its probe buckets: the unit with its key, or NOT_FOUND,
with the entries of its set that remain (R69, R233, R237). The upset is of the first slot read. -/
def execRefillLookup (e : EngNo) (u : Upset) (s : State) : Host.Outcome State Fault Refusal :=
  let x := s.eng e
  match x.mpb.find? (fun m => !m.asked), logicalOf s e with
  | some m, some own =>
    let p := plotOf e
    let i : BitVec 4 := bits own 0 4
    let set := m.tok.set
    let f := m.tok.tok.flit
    let key := flitKey s e f
    let ks := usedProbes s p i set
    if !(bucketsHeld s p ks).isEmpty then .next (wantWords (bucketsHeld s p ks) s) else
    let s := match ks with
      | k :: _ => s.upset (bucketAddr s p k) u
      | [] => s
    let s := dropLost p ks s
    let mine := (usedProbes s p i set).filter (fun k => slotLocal (slotEntry s p k) == i)
    let hits := mine.filter (fun k => enKey (slotEntry s p k) == key)
    let prim := hits.filter (fun k => enType (slotEntry s p k) != 2)
    let comp := hits.filter (fun k => enType (slotEntry s p k) == 2)
    let found := (prim ++ comp).map (fun k => slotEntry s p k)
    let rest := mine.filter (fun k => !hits.contains k && slotSet s e (slotEntry s p k) == set)
    let remain := min 15 rest.length
    let s := hits.foldl (fun s k => freeSlot p k s) s
    let payloads : List Entry := match found with
      | [] => [BitVec.ofNat 128 (remain * 2 ^ 112)]
      | ns => ns.map (fun n => fromSlot n remain)
    let tag := addrTag (ownId s) own (BitVec.ofNat 23 (8 * set.toNat)) 3 0 0 (BitVec.ofNat 5 m.slot)
    let fs := mkSheaf kSheafRsp f.pri f.epoch f.seq tag 0 (payloads.map (fun n => (n, false)))
    let s := s.modPlot p (fun x => { x with xfill := x.xfill ++ fs.map (fun g => (x.xcycle, g)) })
    .next (s.modEng e (fun x => { x with
      mpb := x.mpb.map (fun k => if k.slot = m.slot then { k with asked := true } else k) }))
  | _, _ => .next s

/-! ## Context frees (R226, R229, R235) -/

/-- The token-pool slots of a list are freed and counted as purged. -/
def purgePool (p : Nat) (ks : List Nat) (s : State) : State :=
  countPurged p ks.length (s.modPlot p (fun x => { x with
    pool := ks.foldl (fun m k => SMap.set m k false false) x.pool }))

/-- The token-pool slots of a plot's wait chain, in order. -/
def waitSlots (s : State) (p : Nat) : List Nat := (s.plot p).waitChain.map (fun q => q.2.slot)

/-- The window entry of a freed context is freed with its chain, and the context at the head of the wait chain takes
it: its tokens are decided by its new window, in chain order. A token in a hold intake counts as behind those of the
chain, so with none there its context takes the entry (R226, R227, R229). -/
def freeWindow (p : PlotNo) (c : BitVec 16) (s : State) : State :=
  match windowOf (s.plot p) c with
  | none => s
  | some w =>
    let s := purgePool p (w.chain.map (·.slot)) s
    let s := s.modPlot p (fun x => { x with windows := x.windows.filter (fun v => v.ctx != c) })
    let s := match (s.plot p).waitChain with
      | [] =>
        (match (s.plot p).holdIn.find? (fun h => (windowOf (s.plot p) h.ctx).isNone) with
         | some h => s.modPlot p (fun x => { x with windows := x.windows ++ [newWindow s p h.ctx] })
         | none => s)
      | (d, _) :: _ =>
        let mine := ((s.plot p).waitChain.filter (fun q => q.1 == d)).map (·.2)
        let old := waitSlots s p
        let s := relink p old ((waitSlots s p).filter (fun k => !(mine.map (·.slot)).contains k)) s
        let s := relink p old (mine.map (·.slot)) s
        let n : Window := { newWindow s p d with chain := mine }
        s.modPlot p (fun x => { x with
          windows := x.windows ++ [n], waitChain := x.waitChain.filter (fun q => q.1 != d) })
    releaseHeld p (seeWindows p s)

/-- WINDOW_ENTRY_FREE: the entry of a context that has been freed frees, and the wait chain's head takes it (R229). -/
def execWindowEntryFree (p : PlotNo) (s : State) : Host.Outcome State Fault Refusal :=
  match (s.plot p).windows.find? (fun w => !ctxAllocated s p w.ctx) with
  | some w =>
    if !(poolHeld s p (waitSlots s p)).isEmpty then .next (wantWords (poolHeld s p (waitSlots s p)) s)
    else .next (freeWindow p w.ctx s)
  | none => .next s

/-! ## Deposit (R240) -/

/-- Whether an inbound queue of a plot is full. -/
def inboundFull (s : State) (p chan : Nat) : Bool := decide (qcap p chan ≤ (s.q (qkey p false chan)).length)

/-- DEPOSIT_MODE_ENTER: an inbound request or response queue has stood full for the time of PLOT_PRN_TIME.DEP
(R240, R247). -/
def execDepositModeEnter (p : PlotNo) (s : State) : Host.Outcome State Fault Refusal :=
  if (s.plot p).depositMode ∨ !(inboundFull s p chReq || inboundFull s p chRsp) then .next s
  else
    .next (seeRefusals p (alert p (s.modPlot p (fun x => { x with depositMode := true }))))

/-- DEPOSIT_MOVE: in deposit mode the token at the head of a held queue joins the deposit chain, after the transfers that
go before it; with none to move, an empty chain ends the mode (R236, R240). -/
def execDepositMove (p : PlotNo) (s : State) : Host.Outcome State Fault Refusal :=
  if !(s.plot p).depositMode then .next s
  else
    match bestHead (heldHeads s p) with
    | none => .next (endDeposit p s)
    | some h =>
      let held := poolHeld s p ((freePool s p).toList ++ (s.plot p).deposit.getLast?.toList)
      if (freePool s p).isNone || lookupWaits s p || placementWaits s p then .next s
      else if !held.isEmpty then .next (wantWords held s)
      else .next (depositToken p h.flit (dropHead p h s))

/-- The deposit chain without its head. -/
def popDeposit (p : Nat) (s : State) : State :=
  endDeposit p (s.modPlot p (fun x => { x with deposit := x.deposit.drop 1 }))

/-- REINJECT: the head of the deposit chain leaves for its engine's input lane, through the crossbar, when that has room and
the engine is not being retired, after the transfers that go before it; an empty chain ends the mode (R236, R237, R240,
R462). -/
def execReinject (p : PlotNo) (s : State) : Host.Outcome State Fault Refusal :=
  match (s.plot p).deposit with
  | [] => .next (endDeposit p s)
  | k :: _ =>
    if lookupWaits s p || placementWaits s p || depositWaits s p then .next s
    else if !(poolHeld s p [k]).isEmpty then .next (wantWords (poolHeld s p [k]) s)
    else if slotBad s (poolAddr s p k) 4 then .next (popDeposit p (takePool p k s).2)
    else
      let f := poolFlit s p k
      match slotOf s f.engOf with
      | some e =>
        if !retiring s f.engOf ∧ intakeRoom (s.eng e) f ∧ (s.plot p).xinj.isEmpty then
          let s := (takePool p k s).2
          .next (popDeposit p (s.modPlot p (fun x => { x with xinj := [(x.xcycle, f)] })))
        else .next s
      | none => .next (popDeposit p (takePool p k s).2)

/-! ## The purge (R235, R237) -/

/-- The deposit chain as the purge reads it: slots whose content is lost are recorded and leave it (R237, R281). -/
def dropLostDeposits (p : PlotNo) (s : State) : State :=
  (s.plot p).deposit.foldl (fun s k =>
    if slotBad s (poolAddr s p k) 4 then
      let old := (s.plot p).deposit
      relink p old (old.filter (· != k))
        ((takePool p k s).2.modPlot p (fun x => { x with deposit := x.deposit.filter (· != k) }))
    else port1Read 0 (agentCode p) (poolAddr s p k) 4 s) s

/-- The token-pool slots of the deposit chain whose token belongs to a context. -/
def depositOf (s : State) (p : Nat) (c : BitVec 16) : List Nat :=
  (s.plot p).deposit.filter (fun k => tagCtx (poolFlit s p k).tag == c)

/-- OVERFLOW_PURGE: the purge of the oldest freed context: its bucket slots, spill-intake units, held and deposited tokens
go, and are counted (R229, R235, R237). Every other transfer goes before its reads (R236), and the slots before those that
leave a chain take the indices behind them (assumption log 137). -/
def execOverflowPurge (p : PlotNo) (s : State) : Host.Outcome State Fault Refusal :=
  match (s.plot p).purges with
  | [] => .next s
  | c :: cs =>
    if lookupWaits s p || placementWaits s p || depositWaits s p || reinjectWaits s p || releaseWaits s p then .next s else
    let used := ((s.plot p).buckets.map (·.1))
    let held := bucketsHeld s p used ++ poolHeld s p ((s.plot p).deposit ++ waitSlots s p)
    if !held.isEmpty then .next (wantWords held s) else
    let s := dropLostDeposits p (dropLost p used s)
    let mine := ((s.plot p).buckets.map (·.1)).filter (fun k => enCtx (slotEntry s p k) == c)
    let s := countPurged p mine.length (mine.foldl (fun s k => setSlotUsed p k false s) s)
    let units := (s.plot p).spillIn.filter (fun w => w.2.entries.any (fun n => enCtx n == c))
    let s := countPurged p (units.map (fun w => w.2.entries.length)).sum s
    let heldIn := (s.plot p).holdIn.filter (fun h => h.ctx == c)
    let s := countPurged p (heldIn.map (fun h => h.flits.length)).sum s
    let waits := ((s.plot p).waitChain.filter (fun q => q.1 == c)).map (fun q => q.2.slot)
    let s := relink p (waitSlots s p) ((waitSlots s p).filter (fun k => !waits.contains k)) (purgePool p waits s)
    let deps := depositOf s p c
    let dep := (s.plot p).deposit
    let s := relink p dep (dep.filter (fun k => !deps.contains k)) (purgePool p deps s)
    let s := s.modPlot p (fun x =>
      let spill := x.spillIn.filter (fun w => !(w.2.entries.any (fun n => enCtx n == c)))
      let dep := x.deposit.filter (fun k => !deps.contains k)
      { x with
        spillIn := spill, holdIn := x.holdIn.filter (fun h => h.ctx != c),
        waitChain := x.waitChain.filter (fun q => q.1 != c), deposit := dep,
        purges := cs })
    .next (seeRefusals p (freeWindow p c (endDeposit p s)))

/-! ## Quiescence (R243, R244) -/

/-- Whether an engine has nothing in its rows and stages, no strand and no routine. -/
def engineIdle (x : Engine) : Bool :=
  x.inP3.isEmpty && x.inP2.isEmpty && x.inP1.isEmpty && x.inP0.isEmpty && x.reentry.isNone && x.hash.isNone &&
    x.fire.isNone && x.exec.isNone && x.results.isEmpty && x.raises.isEmpty && x.holdP3.isEmpty && x.holdMain.isEmpty &&
    x.outP3.isEmpty && x.outMain.isEmpty && x.sheafWr.isEmpty && x.bufHeld.isEmpty && x.mpb.isEmpty &&
      x.spillQ.isEmpty && x.strand.isNone && x.standby.isNone && x.susp.isNone &&
    x.seqr.isNone

/-- The boundary queues of a site. -/
def siteQueues (site : Nat) : List Nat := [0, 1, 2].flatMap (fun c => [qkey site false c, qkey site true c])

/-- Whether a plot meets the conditions of R243 now. -/
def plotIdle (s : State) (p : Nat) : Bool :=
  let x := s.plot p
  (List.range 17).all (fun i => engineIdle (s.eng (17 * p + i))) && (siteQueues p).all (fun k => (s.q k).isEmpty) &&
    x.xreq.isEmpty && x.xrsp.isEmpty && x.xctl.isEmpty && x.xfill.isEmpty && x.xinj.isEmpty &&
      x.deposit.isEmpty && x.spillIn.isEmpty && x.purges.isEmpty

/-- PLOT_QUIESCENT: the plot has been idle for QTIME × 64 cycles; QUIET is set and the event can be raised (R243). -/
def execPlotQuiescent (p : PlotNo) (s : State) : Host.Outcome State Fault Refusal :=
  if s.flag (preg p 0x118) 0 ∨ !plotIdle s p then .next s
  else
    let s := s.setFlag (preg p 0x118) 0 true
    .next (if s.flag (preg p 0x100) 8 then raiseEvent (1792 + p.val) s else s)

/-- Whether a plot is in service. -/
def plotInService (s : State) (p : Nat) : Bool := !plotGone s p

/-- Whether a Runner link carries token traffic: token frames not yet acknowledged, or a sheaf partly received (R244). -/
def linkTraffic (x : Link) : Bool :=
  !x.part.isEmpty || (x.replay ++ x.resend).any (fun k => k.2.ftype == 1)

/-- Whether the device meets the conditions of R244 now. -/
def deviceIdle (s : State) : Bool :=
  (List.range 64).all (fun p => !plotInService s p || (s.flag (preg p 0x118) 0 && plotIdle s p)) &&
    s.routers.isEmpty && s.queues.isEmpty && s.dib.ready.isEmpty && s.fabric.links.all (fun r => !linkTraffic r.2)

/-- DEVICE_QUIESCENT: the device has been quiescent for QTIME cycles; DQUIET is set and EV_1920 raised (R244). -/
def execDeviceQuiescent (s : State) : Host.Outcome State Fault Refusal :=
  if s.flag (breg .mesh 0x4008) 16 ∨ !deviceIdle s then .next s
  else .next (raiseEvent 1920 (s.setFlag (breg .mesh 0x4008) 16 true))

/-! ## The stall audit (R245, R246) -/

/-- The words through which an audit log that is enabled waits for its ring: one of each bank that holds a part of its unit,
in the stripe that holds all of it (R278, R295, R444). -/
def logHeld (s : State) : List (BitVec 23) :=
  let l := s.rd (breg .mesh 0x4004)
  if bit l 15 then (slotWords ((bits l 16 10).toNat * 0x10000) 128).filter (wordHeld s) else []

/-- A record of the audit log: 32 bytes at the next index of the ring, written through port 1. The requester that a record
of a bank that is not ON names is a free value, as the spec gives the writer no code (R246, R282; assumption log 80). -/
def logRecord (type : Nat) (phys : Option Nat) (a b : Word) (s : State) : State :=
  let l := s.rd (breg .mesh 0x4004)
  if !bit l 15 then s
  else
    let base := (bits l 16 10).toNat * 0x10000 + 32 * (bits l 0 11).toNat
    let w0 : Word := BitVec.ofNat 64 (type + (phys.getD 0x7FF) * 2 ^ 16 + s.fld (breg .mesh 0x400C) 0 16 * 2 ^ 32)
    let d := if slotBad s base 4 then s.draw else (0, s)
    let s := port1Words 3 (bits d.1 0 16) base [w0, a, b, s.time.now] d.2
    s.wr (breg .mesh 0x4004) (put l 0 (bits l 0 11 + 1))

/-- The windows under which the agent holds tokens of an engine's fires, in their chains or in the hold intake (R227,
R245). -/
def heldOf (s : State) (p : Nat) (own : BitVec 4) : List Window :=
  (s.plot p).windows.filter (fun w => w.chain.any (fun h => h.eng == own) ||
    (s.plot p).holdIn.any (fun h => h.ctx == w.ctx && h.eng == own))

/-- Whether the agent holds a token of an engine's fires, in a chain, in the wait chain or in the hold intake. -/
def holdsOf (s : State) (p : Nat) (own : BitVec 4) : Bool :=
  let x := s.plot p
  x.windows.any (fun w => w.chain.any (fun h => h.eng == own)) || x.waitChain.any (fun q => q.2.eng == own) ||
    x.holdIn.any (fun h => h.eng == own)

/-- The held tokens of a context with a window: those of its chain and those in hold intakes (R246). -/
def heldCount (s : State) (p : Nat) (w : Window) : Nat :=
  w.chain.length + (((s.plot p).holdIn.filter (fun h => h.ctx == w.ctx)).map (fun h => h.flits.length)).sum

/-- Whether an engine has residue (R245). -/
def hasResidue (s : State) (e : Nat) : Bool :=
  let x := s.eng e
  decide (0 < msTotal x) || !x.spillCnt.isEmpty || !x.fences.isEmpty || !x.pend.isEmpty ||
    holdsOf s (e / 17) (bits (logicalD s e) 0 4)

/-- The first matching entries of an engine in set order. -/
def residue (x : Engine) (n : Nat) : List (Nat × Entry) := (x.ms.filter (fun p => enV p.2)).take n

/-- The records of a stalled engine, its residue read through the matching-store debug path (R245, R246). -/
def reportEngine (e : Nat) (s : State) : State :=
  let x := s.eng e
  let a : Word := BitVec.ofNat 64 (msTotal x + min 255 x.stall * 2 ^ 16)
  let s := logRecord 1 (some e) a ((x.wcnt ++ x.acnt).setWidth 64) s
  let s := match x.fences with
    | f :: _ => logRecord 3 (some e) (f.target.setWidth 64) (x.acnt.setWidth 64) s
    | [] => s
  let s := (heldOf s (e / 17) (bits (logicalD s e) 0 4)).foldl (fun s w =>
    logRecord 4 (some e) (BitVec.ofNat 64 (w.ctx.toNat + w.b.toNat * 2 ^ 16 + w.h.toNat * 2 ^ 32))
      (BitVec.ofNat 64 (heldCount s (e / 17) w)) s) s
  let s := x.pend.foldl (fun s m =>
    logRecord 7 (some e) (BitVec.ofNat 64 (m.desc.toNat + (m.acc.accNo.getD 0).toNat * 2 ^ 16)) (m.acc.d.setWidth 64) s) s
  (residue x (s.fld (breg .mesh 0x4000) 16 8)).foldl (fun s r =>
    let s := if h : e < 1088 then debugSee ⟨e, h⟩ (r.1 / 4) (r.1 % 4) s else s
    logRecord 2 (some e) (bits r.2 64 64) (BitVec.ofNat 64 (r.1 / 4 + r.1 % 4 * 2 ^ 16)) s) s

/-- One engine in an audit pass: its progress, its stalled passes and its report; the answer says whether it was
reported. -/
def auditEngine (passes : Nat) (r : State × Bool) (e : Nat) : State × Bool :=
  let s := r.1
  if !inService s e then r
  else
    let x := s.eng e
    let prog : BitVec 32 := s.rd (ereg e 0x30) + s.rd (ereg e 0x38)
    if prog ≠ x.progress then (s.setEng e { x with progress := prog, stall := 0, stalled := false }, r.2)
    else if !hasResidue s e then r
    else
      let n := x.stall + 1
      let s := s.setEng e { x with stall := n }
      if n = passes ∧ !x.stalled then
        (reportEngine e (s.modEng e (fun x => { x with stalled := true })), true)
      else (s, r.2)

/-- One waiting descriptor in an audit pass (R245). -/
def auditDesc (passes : Nat) (r : State × Bool) (d : Nat) : State × Bool :=
  let s := r.1
  let x := s.desc d
  if x.state ≠ .waiting then r
  else
    let s := s.setDesc d { x with passes := x.passes + 1 }
    if x.passes + 1 = passes then (logRecord 5 none (BitVec.ofNat 64 d) x.waitAt s, true) else (s, r.2)

/-- The parked readers of one quadrant in an audit pass (R245). -/
def auditQuad (passes : Nat) (r : State × Bool) (q : Fin 4) : State × Bool :=
  let s := r.1
  let x := s.quads[q.val]
  let s := { s with quads := s.quads.set q.val { x with dir := x.dir.map (fun d => { d with passes := d.passes + 1 }) } }
  (x.dir.filter (fun d => d.passes + 1 == passes)).foldl (fun r d =>
    (logRecord 6 none (d.word.setWidth 64) (BitVec.ofNat 64 d.readers.length) r.1, true)) (s, r.2)

/-- AUDIT_PASS: every PERIOD µs each engine, waiting descriptor and parked read is looked at, and what has stalled is
reported (R245). -/
def execAuditPass (s : State) : Host.Outcome State Fault Refusal :=
  let c := s.rd (breg .mesh 0x4000)
  let period := (bits c 0 16).toNat
  if period = 0 ∨ now s < s.auditAt.toNat + 1000 * period then .next s
  else if !(logHeld s).isEmpty then .next (wantWords (logHeld s) s)
  else
    let s := { s with auditAt := s.time.now }
    let s := s.setFld (breg .mesh 0x400C) 0 16 (s.fld (breg .mesh 0x400C) 0 16 + 1)
    let passes := (bits c 24 4).toNat
    let r := (List.range 1088).foldl (auditEngine passes) (s, false)
    let r := (r.1.dib.descs.map (·.1)).foldl (auditDesc passes) r
    let r := (List.finRange 4).foldl (auditQuad passes) r
    let n := (r.1.engines.filter (fun p => p.2.stalled)).length
    let s := r.1.setFld (breg .mesh 0x400C) 16 11 n
    .next (if r.2 ∧ s.flag (breg .mesh 0x4004) 15 then raiseEvent 1921 s else s)

/-! ## Exhaustion and the agent's registers (R247, R249) -/

/-- PLOT_PRN_FILL. -/
def prnFill (s : State) (p : Nat) : Reg32 :=
  BitVec.ofNat 32 ((s.plot p).pool.length * 2 ^ 17 + (s.plot p).buckets.length)

/-- Whether the agent holds work that it cannot place: a spilled unit or a held token in an intake, or, with no slot free in
the token pool, a token that is to join the deposit chain: one that deposit mode is to move, or one of the plot's own
engines or of an inbound queue behind the chain (R240, R247). -/
def unplaced (s : State) (p : Nat) : Bool :=
  let x := s.plot p
  let chain : Bool := !(x.deposit.isEmpty && x.xinj.isEmpty)
  let joins (l : List (Nat × Flit)) : Bool := match l with
    | (_, f) :: _ => depositable f && (chain || (x.depositMode && laneHolds s f))
    | [] => false
  let own (l : List (Nat × Flit)) : Bool := match l with
    | (_, f) :: _ => depositable f && chain && staysHome s p f
    | [] => false
  !x.spillIn.isEmpty || !x.holdIn.isEmpty || ((freePool s p).isNone && (joins x.xreq || joins x.xrsp ||
    (List.range 17).any (fun i => own (s.eng (17 * p + i)).outP3 || own (s.eng (17 * p + i)).outMain)))

/-- PRUNER_EXHAUSTED: work has waited for EXH × 1,024 cycles (R247). -/
def execPrunerExhausted (p : PlotNo) (s : State) : Host.Outcome State Fault Refusal :=
  if s.fld (preg p 0x114) 24 8 = 0 ∨ !unplaced s p then .next s
  else if !(logHeld s).isEmpty then .next (wantWords (logHeld s) s)
  else
    let fill := prnFill s p
    let d : Detection :=
      { Detection.bare 0x23 with plot := some p, locus := BitVec.ofNat 16 p.val, a := fill.setWidth 64 }
    let s := raiseEvent (1856 + p.val) ((detect d s).setFlag (preg p 0x118) 6 true)
    .next (logRecord 8 none (BitVec.ofNat 64 p.val) (fill.setWidth 64) s)

/-- The agent's registers as read: the fields that show its state (R249). -/
def viewPruner (s : State) (p off : Nat) : Option Reg32 :=
  let x := s.plot p
  if off = 0x118 then
    let v := s.rd (preg p off)
    some ((0 : BitVec 18) ++ BitVec.ofNat 6 x.windows.length ++ bits v 6 2 ++ BitVec.ofBool (decide (32 ≤ x.windows.length)) ++
      BitVec.ofBool x.depositMode ++ refusing s p ++ BitVec.ofBool (bit v 0 && plotIdle s p))
  else if off = 0x11C then some (prnFill s p)
  else none

/-- A write of PLOT_PRN_OVF: only while both maps are empty and nothing is outstanding, and within the granary
(R249). -/
def writeOvf (p : Nat) (r : RRow) (v : Reg32) (s : State) : State :=
  let x := s.plot p
  let busy := !x.buckets.isEmpty || !x.pool.isEmpty || !x.deposit.isEmpty || !x.spillIn.isEmpty || !x.holdIn.isEmpty ||
    !x.waitChain.isEmpty || !x.purges.isEmpty || x.depositMode || x.windows.any (fun w => !w.chain.isEmpty)
  if busy then s.setFlag (preg p 0x118) 7 true
  else
    let w := (writeFields r.fields (s.rd (preg p 0x104)) v).1
    let b := (bits w 16 4).toNat
    let t := (bits w 20 4).toNat
    let size := (if b = 0 then 0 else 64 * 2 ^ b) + (if t = 0 then 0 else 32 * 2 ^ t)
    if 0x4000000 < (bits w 0 10).toNat * 0x10000 + size then s.rsvd else seeRefusals p (plainWrite (preg p 0x104) r v s)

end Sys2Proof.Machine
end

