-- ==== Sys2Proof/Machine/Granary.lean ====
section
/-! DEFINITION. The granary (R277 to R300): address mapping, word checks, presence operations, deferred reads, protection
windows, the presence port and bank power. -/

namespace Sys2Proof.Machine

/-! ## Who asks (R293) -/

/-- The requester of a granary access. -/
inductive Asker where
  | plot (p : Nat)
  | host
  | mc
  | fabric (src : BitVec 22)
  deriving DecidableEq, Repr

/-- Requester codes of R456. The spec gives none to a sheaf of another device: a free value (assumption log 18). -/
def Asker.code : Asker → BitVec 16
  | .plot p => BitVec.ofNat 16 p
  | .host => 0x40
  | .mc => 0x41
  | .fabric src => Config.fabricCode src

/-- The requester of a register access. -/
def askerOf : Requester → Asker
  | .host => .host
  | .mc => .mc
  | .smbus => .mc
  | .relay => .mc
  | .plot p => .plot p.val

/-- The requester of a request token (R293). -/
def askerFlit (s : State) (f : Flit) : Asker :=
  if f.kind = kSheafReq then
    (if bits f.data 52 12 ≠ ownId s then .fabric (bits f.data 42 22) else .plot ((bits f.data 42 10).toNat / 16))
  else .plot (f.engOf.toNat / 16)

/-- Whether one protection window admits an operation (R293). -/
def windowAdmits (s : State) (n : Nat) (a : Asker) (write : Bool) : Bool :=
  let c := s.rd (breg .grn (0x300 + 16 * n))
  let admitted := match a with
    | .plot p => bit (s.rd64 (breg .grn (0x304 + 16 * n))) p
    | .host => bit c 29
    | .mc => bit c 28
    | .fabric _ => bit c 27
  admitted || (!write && bit c 30)

/-- Whether the protection windows permit an operation on a word (R293). -/
def permitted (s : State) (a : Asker) (write : Bool) (w : BitVec 23) : Bool :=
  let unit := wbyte w / 0x10000
  (List.range 8).all (fun n =>
    let c := s.rd (breg .grn (0x300 + 16 * n))
    !(bit c 31 && decide ((bits c 0 10).toNat ≤ unit ∧ unit ≤ (bits c 16 10).toNat)) || windowAdmits s n a write)

/-- A refused operation is recorded as GRN_PROT (R293, R456). -/
def protFault (a : Asker) (w : BitVec 23) (s : State) : State :=
  detect { Detection.bare 0x4A with locus := BitVec.ofNat 16 (bankOf w), a := w.setWidth 64, b := a.code } s

/-- An access of port 0 to a bank that is not ON (R295, R296). -/
def offFault (a : Asker) (w : BitVec 23) (s : State) : State := offBy a.code w s

/-! ## Replies (R35, R283) -/

/-- The mesh port of a quadrant through which an answer leaves (R254). -/
def answerPort (s : State) (q : Nat) (fs : List Flit) : Nat :=
  match fs with
  | [] => 0
  | f :: _ => match destSite s (siteGrn q 0) f with
    | some d => portFor d
    | none => 0

/-- An answer, which takes the quadrant's emission count, enters the response queue of the port that leads to its
destination (R35, R254; assumption log 106). One whose DEV may not be emitted, which a sheaf's source word can name, is
discarded and recorded with the site of the quadrant's port 0 (R37; assumption log 135). -/
def respond (q : Nat) (g : BitVec 4 → List Flit) (s : State) : State :=
  let x := quad s q
  let fs := g x.seq
  let j := answerPort s q fs
  match fs.find? (fun f => f.kind == kGrnAck && badDev s f.kind f.dev) with
  | some f => detect (blockDetect 0x42 (BitVec.ofNat 8 (siteGrn (q % 4) 0)) f) s
  | none =>
    drainTx q j (setQuad q { x with
      tx := x.tx.set (j % 4) (quadTx s q j ++ fs) (Nat.mod_lt _ (by decide)), seq := x.seq + 1 } s)

/-- A GRN_REPLY to a GRN_READ: tag, PRI, EPOCH and SEQ are copied (R33, R42; the example after R52). -/
def replyTo (f : Flit) (v : Word) (poison : Bool) : List Flit :=
  [mkToken kGrnReply f.pri f.epoch f.seq f.tag v poison]

/-- A GRN_ACK of a write; a sheaf's goes to its source word (R42, R46). -/
def ackTo (f : Flit) (seq : BitVec 4) : List Flit :=
  let t := if f.kind = kSheafReq then bits f.data 42 22 ++ bits f.tag 0 42 else f.tag
  [mkToken kGrnAck f.pri f.epoch seq t 0]

/-- The SHEAF_RSP that answers a block read (R43, R46). -/
def blockTo (f : Flit) (ps : List (Entry × Bool)) (seq : BitVec 4) : List Flit :=
  mkSheaf kSheafRsp f.pri f.epoch seq f.tag 0 ps

/-- The answer to a request, as far as its destination goes. -/
def requestAnswer (f : Flit) : List Flit :=
  if f.kind = kGrnRead then replyTo f 0 false else if f.kind = kBlkRead then blockTo f [] 0 else ackTo f 0

/-! ## Requests (R279, R286, R287, R293) -/

/-- The first word of a request. -/
def firstWord (f : Flit) : BitVec 23 :=
  if f.kind = kGrnRead ∨ f.kind = kBlkRead then rdAddr f.data else tagAddr f.tag

/-- The words of a request: one, or those of a sheaf or block read. -/
def requestWords (f : Flit) : List (BitVec 23) :=
  if f.kind = kBlkRead then (List.range (2 * ((rdLen f.data).toNat + 1))).map (fun i => rdAddr f.data + BitVec.ofNat 23 i)
  else if f.kind = kSheafReq then (List.range (2 * (f.len.toNat + 1))).map (fun i => tagAddr f.tag + BitVec.ofNat 23 i)
  else [firstWord f]

/-- Whether the words of a sheaf or block read cross a 2 MiB block (R279). -/
def crossesBlock (ws : List (BitVec 23)) : Bool :=
  match ws.head?, ws.getLast? with
  | some a, some b => bits a 18 5 != bits b 18 5 || decide (b.toNat < a.toNat)
  | _, _ => false

/-- Whether a request is of a kind the granary serves. -/
def grnKind (f : Flit) : Bool := f.kind == kGrnRead || f.kind == kGrnWrite || f.kind == kSheafReq || f.kind == kBlkRead

/-- Whether a request is a well-formed GRN_READ. -/
def goodRead (s : State) (f : Flit) : Bool :=
  f.kind == kGrnRead && !badReadDesc f.kind f.data && f.dev == ownId s && tagPort f.tag != 3 && tagCtx f.tag != 0xFFFF

/-- Whether a request, with the data flits of a sheaf, is one that the quadrant's intake lets pass (R46, R52, R279, R286,
R287). -/
def goodRequest (s : State) (f : Flit) (body : List Flit) : Bool :=
  if f.kind = kGrnRead then goodRead s f
  else if f.kind = kGrnWrite then !badAddrTag f.kind f.tag && f.dev == ownId s
  else if f.kind = kSheafReq then
    !badSheaf f body && !badAddrTag f.kind f.tag && tagSpace f.tag == 0 && f.dev == ownId s && !crossesBlock (requestWords f)
  else if f.kind = kBlkRead then
    !badReadDesc f.kind f.data && !badAddrTag f.kind f.tag && f.dev == ownId s && !crossesBlock (requestWords f)
  else false

/-- Whether a request is a write-class operation (R293). -/
def writeClass (f : Flit) : Bool :=
  f.kind == kGrnWrite || f.kind == kSheafReq || (f.kind == kGrnRead && (rdOp f.data == 1 || rdOp f.data == 3))

/-- The first word of a request that the protection windows refuse (R293). -/
def refusedWord (s : State) (f : Flit) : Option (BitVec 23) :=
  (requestWords f).find? (fun w => !permitted s (askerFlit s f) (writeClass f) w)

/-- The words of the banks that the request at the head of a mesh port's RQ needs. -/
def headWords (s : State) (q j : Nat) : List (BitVec 23) :=
  match takePacket (quadRq s q j) with
  | (f :: body, _) =>
    if (f :: body).any Flit.poison || !goodRequest s f body || (refusedWord s f).isSome then [] else requestWords f
  | ([], _) => []

/-- The mesh ports of a quadrant from `j` on whose request needs the bank of a word first, and is not held (R284). -/
def rivals (s : State) (q j : Nat) (w : BitVec 23) : List Nat :=
  (List.range 4).filter (fun i => decide (j ≤ i) && match headWords s q i with
    | v :: _ => bankOf v == bankOf w && !wordHeld s v
    | [] => false)

/-- Port 0 of a word's bank is taken: each mesh port of the quadrant from `j` on that needs it loses a cycle (R284;
assumption log 113). -/
def loseFrom (q j : Nat) (w : BitVec 23) (s : State) : State :=
  let n := (rivals s q j w).length
  if n = 0 then s else s.satAdd (breg .grn (0x10 + 4 * q)) 0 32 n

/-! ## The write-back (R281) -/

/-- GRN_ECC_WRITEBACK: a corrected word is written back through port 0, whose lowest requester this is: while a mesh port
needs the bank it loses the cycle, which counts unless that request writes the word; it waits for a waking bank and a
borrowed stripe (R281, R284, R285, R295, R444). -/
def execGrnEccWriteback (waddr : BitVec 23) (s : State) : Host.Outcome State Fault Refusal :=
  let q := quadOf waddr
  let ahead := rivals s q 0 waddr
  if s.mark (wbyte waddr) ≠ .single ∨ bankDark s waddr then .next s
  else if wordHeld s waddr then .next (wantWords [waddr] s)
  else if ahead.isEmpty then .next (s.setMark (wbyte waddr) .clean)
  else if ahead.any (fun i => (headWords s q i).head? == some waddr && match quadRq s q i with
      | f :: _ => writeClass f
      | [] => false) then .next s
  else .next (s.satInc (breg .grn (0x10 + 4 * q)) 0 32)

/-! ## Deferred reads (R289 to R291) -/

/-- Readers in a quadrant's pool. -/
def poolUsed (x : Quad) : Nat := (x.dir.map (fun d => d.readers.length)).sum

/-- The ring's capacity: 2^SIZE entries, none for 0. -/
def ringSize (s : State) (q : Nat) : Nat :=
  let n := s.fld (breg .grn (0x40 + 4 * q)) 24 4
  if n = 0 then 0 else 2 ^ n

/-- The granary address of a ring entry. -/
def ringAddr (s : State) (q k : Nat) : Nat := s.fld (breg .grn (0x40 + 4 * q)) 0 10 * 0x10000 + 32 * k

/-- A ring entry is written into the granary through port 1: the flit in bytes 0–19 and zeros (R291). -/
def writeRing (code : BitVec 16) (q k : Nat) (f : Flit) (s : State) : State :=
  port1Words 1 code (ringAddr s q k) [bits f 0 64, bits f 64 64, (bits f 128 32).setWidth 64, 0] s

/-- The request flit in a ring entry, as the granary holds it. -/
def ringFlit (s : State) (q k : Nat) : Flit :=
  let w := areaWord (ringAddr s q k)
  bits (grnWord s (w + 2)) 0 32 ++ grnWord s (w + 1) ++ grnWord s w

/-- The directory entry of a word. -/
def dirEntry (x : Quad) (w : BitVec 23) : Option DirEntry := x.dir.find? (fun d => d.word == w)

/-- The state with a directory entry changed. -/
def modDir (q : Nat) (w : BitVec 23) (g : DirEntry → DirEntry) (s : State) : State :=
  let x := quad s q
  setQuad q { x with dir := x.dir.map (fun d => if d.word = w then g d else d) } s

/-- Whether a read that parks on a word does so in the directory (R289). -/
def dirRoom (x : Quad) (w : BitVec 23) : Bool :=
  decide (poolUsed x < 4096) && ((dirEntry x w).isSome || decide (x.dir.length < 1024))

/-- Whether a read that finds no place in the directory finds one in the ring (R291). -/
def ringRoom (s : State) (q : Nat) : Bool := decide ((quad s q).ring.length < ringSize s q)

/-- The index of the ring's next entry. -/
def ringNext (s : State) (q : Nat) : Nat := (quad s q).ringWr % ringSize s q

/-- A read parks on a word: in the directory, in the deferred ring, or it is lost with the presence left as it was
(R289, R291). -/
def park (q : Nat) (w : BitVec 23) (f : Flit) (s : State) : State :=
  let x := quad s q
  let code := (askerFlit s f).code
  if dirRoom x w then
    let y := match dirEntry x w with
      | some _ => { x with dir := x.dir.map (fun d => if d.word = w then { d with readers := d.readers ++ [f] } else d) }
      | none => { x with dir := x.dir ++ [{ word := w, readers := [f], ring := false, passes := 0 }] }
    setQuad q y (putPres w pDeferred s)
  else if ringRoom s q then
    let y := { x with ring := x.ring ++ [ringNext s q], ringWr := x.ringWr + 1 }
    modDir q w (fun d => { d with ring := true }) (setQuad q y (writeRing code q (ringNext s q) f (putPres w pDeferred s)))
  else
    let d : Detection :=
      { Detection.bare 0x4C with locus := BitVec.ofNat 16 (bankOf w), a := w.setWidth 64, b := code }
    let t := (detect d s).satInc (breg .grn (0x50 + 4 * q)) 0 16
    if t.flag (breg .grn 0) 1 then raiseEvent 1925 t else t

/-- The words of the ring entry that a request would take (R289, R291). -/
def ringWords (s : State) (q : Nat) (f : Flit) : List (BitVec 23) :=
  let w := rdAddr f.data
  if f.kind == kGrnRead && rdOp f.data != 2 && !wordBad s w && !bankDark s w && presOf s w != pFull &&
      !dirRoom (quad s q) w && ringRoom s q then
    slotWords (ringAddr s q (ringNext s q)) 4
  else []

/-- A read-class operation on a FULL word: its reply's data and the word after it (R286). -/
def readFull (op : BitVec 3) (w : BitVec 23) (s : State) : Word × State :=
  let v := grnWord s w
  if op = 1 then (v, putPres w pEmpty s)
  else if op = 2 then (1, s)
  else if op = 3 then (v, portWrite w 0xFF 1 pFull s)
  else (v, s)

/-- A GRN_READ reaches its word: it is answered or parks (R281, R286, R289). -/
def serveRead (q : Nat) (f : Flit) (s : State) : State :=
  let w := rdAddr f.data
  let op := rdOp f.data
  let c := checkWord w s
  let s := c.2
  if c.1 then
    let d := s.draw
    respond q (fun _ => replyTo f d.1 true) d.2
  else if op = 2 then respond q (fun _ => replyTo f ((presOf s w).setWidth 64) false) s
  else if presOf s w = pFull then
    let r := readFull op w s
    respond q (fun _ => replyTo f r.1 false) r.2
  else park q w f s

/-- A GRN_READ in BK: a bank that is not ON answers it with zero and poison (R295). -/
def readRequest (q : Nat) (f : Flit) (s : State) : State :=
  let w := rdAddr f.data
  if bankDark s w then respond q (fun _ => replyTo f 0 true) (offFault (askerFlit s f) w s) else serveRead q f s

/-- An acknowledgement that is due in a cycle leaves by then. -/
def payAck (q c : Nat) (due : Option (Nat × Flit)) (s : State) : Option (Nat × Flit) × State :=
  match due with
  | some (t, f) => if t ≤ c then (none, respond q (ackTo f) s) else (due, s)
  | none => (due, s)

/-- The readers of a word are served in arrival order from cycle `c` on, one a cycle, until the word is not FULL; an
acknowledgement that falls due leaves in its cycle (R287, R290). -/
def releaseReaders (q : Nat) (w : BitVec 23) : List Flit → Nat → Option (Nat × Flit) → State → Nat × Option (Nat × Flit) × State
  | [], c, due, s => (c, due, s)
  | f :: fs, c, due, s =>
    if presOf s w = pFull then
      let k := payAck q c due s
      let r := readFull (rdOp f.data) w (loseFrom q 0 w k.2)
      let s := respond q (fun _ => replyTo f r.1 false) r.2
      releaseReaders q w fs (c + 1) k.1 (modDir q w (fun d => { d with readers := fs }) s)
    else (c, due, s)

/-- The release engine runs for a word that a FILL has left FULL while DEFERRED, from cycle `c` on (R290, R291). -/
def release (q : Nat) (w : BitVec 23) (c : Nat) (due : Option (Nat × Flit)) (s : State) : Nat × Option (Nat × Flit) × State :=
  let e := dirEntry (quad s q) w
  let readers := match e with
    | some d => d.readers
    | none => []
  let r := releaseReaders q w readers c due s
  let s := r.2.2
  let left := match dirEntry (quad s q) w with
    | some d => d.readers.length
    | none => 0
  let s := if 0 < left then putPres w pDeferred s else s
  let ringSet := match e with
    | some d => d.ring
    | none => true
  let freed := decide (left < readers.length)
  let x := quad s q
  let x := { x with
    dir := x.dir.filter (fun d => d.word != w || !d.readers.isEmpty)
    replay := x.replay || (!x.ring.isEmpty && (ringSet || freed)) }
  (r.1, r.2.1, setQuad q x s)

/-- Releases run one after another, in the order of their FILL writes, each after the cycle of its own (R290). -/
def releaseAll (q : Nat) : List (Nat × BitVec 23) → Nat → Option (Nat × Flit) → State → State
  | [], _, due, s => match due with
    | some (_, f) => respond q (ackTo f) s
    | none => s
  | (t, w) :: rest, c, due, s =>
    let r := release q w (max c (t + 1)) due s
    releaseAll q rest r.1 r.2.1 r.2.2

/-! ## Writes (R281, R287) -/

/-- A write-class operation of a request on a word (R287), and whether it is a FILL that leaves a DEFERRED word FULL. -/
def writeStore (op : BitVec 3) (w : BitVec 23) (mask : BitVec 8) (v : Word) (s : State) : Bool × State :=
  let bad := wordBad s w
  let p := presOf s w
  if bad ∧ ¬ (mask = 0xFF ∧ op = 1) then (false, grnEcc true w s)
  else
    let s := if bad then grnEcc true w s else if s.mark (wbyte w) = .single then grnEcc false w s else s
    if op = 2 then (false, if p = pFull then putPres w pEmpty s else s)
    else
      let new := State.mergeMask (grnWord s w) v mask
      if op = 1 then (p == pDeferred, portWrite w mask new pFull s) else (false, portWrite w mask new p s)

/-- A write-class operation on a word, with the release that it starts (R287, R290). -/
def writeOp (q : Nat) (op : BitVec 3) (w : BitVec 23) (mask : BitVec 8) (v : Word) (s : State) : State :=
  let r := writeStore op w mask v s
  if r.1 then (release q w 1 none r.2).2.2 else r.2

/-! ## The stages of a mesh port (R283, R284) -/

/-- A malformed request is discarded and recorded (R279, R286, R287). -/
def grnMalformed (q j : Nat) (f : Flit) (s : State) : State :=
  detect (blockDetect 0x42 (BitVec.ofNat 8 (siteGrn q j)) f) s

/-- A request that a protection window refuses is answered at once: a read with zero and poison, a write with its
acknowledgement (R293). -/
def refuse (q : Nat) (f : Flit) (w : BitVec 23) (s : State) : State :=
  let s := protFault (askerFlit s f) w s
  if f.kind = kGrnRead then respond q (fun _ => replyTo f 0 true) s
  else if f.kind = kBlkRead then respond q (blockTo f (List.replicate ((rdLen f.data).toNat + 1) (0, true))) s
  else respond q (ackTo f) s

/-- What the intake of a quadrant does at once with a request: a poisoned, broken or malformed one is discarded, and a
refused one answered; none for one that goes on to its bank (R47, R52, R279, R293). -/
def intakeStops (q j : Nat) (f : Flit) (body : List Flit) (s : State) : Option State :=
  if sheafBroken (f :: body) then some s
  else if (f :: body).any Flit.poison then some (detect (blockDetect 0x55 (BitVec.ofNat 8 (siteGrn q j)) f) s)
  else if !goodRequest s f body then some (grnMalformed q j f s)
  else (refusedWord s f).map (fun w => refuse q f w s)

/-- The request at the head of a mesh port's RQ passes the intake and is served when it fits: it waits while its answer has
no place, a bank wakes or its stripe is borrowed (R283, R295, R444). -/
def onRequest (q : QuadNo) (j : PortNo) (u : Upset) (fits : Flit → Bool) (g : Flit → List Flit → State → State) (s : State) :
    Host.Outcome State Fault Refusal :=
  let s := drainTx q j s
  match takePacket (quadRq s q j) with
  | (f :: body, rest) =>
    if !fits f then .next s
    else if goodRequest s f body ∧ !(quadTx s q (answerPort s q (requestAnswer f))).isEmpty then .next s
    else
      let t := setQuadRq q j rest s
      match intakeStops q j f body t with
      | some t => .next t
      | none =>
        let held := (requestWords f ++ ringWords s q f).filter (wordHeld s)
        if !held.isEmpty then .next (wantWords held s)
        else .next (g f body (t.upset (wbyte (firstWord f)) u))
  | ([], _) => .next s

/-- Whether a request is a GRN_READ of an OP. -/
def isRead (op : BitVec 3) (f : Flit) : Bool := f.kind == kGrnRead && rdOp f.data == op

/-- A GRN_READ of mesh port `j` takes its bank. -/
def onRead (q : QuadNo) (j : PortNo) (f : Flit) (s : State) : State :=
  readRequest q f (loseFrom q (j.val + 1) (rdAddr f.data) s)

/-- READ: a FULL word is returned; any other parks the request. A reserved OP or KIND is discarded as malformed
(R286). -/
def execGrnRead (q : QuadNo) (j : PortNo) (u : Upset) (s : State) : Host.Outcome State Fault Refusal :=
  onRequest q j u (fun f => isRead 0 f || (f.kind == kGrnRead && decide (4 ≤ (rdOp f.data).toNat)) || !grnKind f)
    (fun f _ s => onRead q j f s) s

/-- TAKE: a FULL word is returned and becomes EMPTY (R286). -/
def execGrnTake (q : QuadNo) (j : PortNo) (u : Upset) (s : State) : Host.Outcome State Fault Refusal :=
  onRequest q j u (isRead 1) (fun f _ s => onRead q j f s) s

/-- PRES: the presence code is returned (R286). -/
def execPres (q : QuadNo) (j : PortNo) (u : Upset) (s : State) : Host.Outcome State Fault Refusal :=
  onRequest q j u (isRead 2) (fun f _ s => onRead q j f s) s

/-- TAS: the old data of a FULL word is returned and the word takes 1 (R286). -/
def execGrnTas (q : QuadNo) (j : PortNo) (u : Upset) (s : State) : Host.Outcome State Fault Refusal :=
  onRequest q j u (isRead 3) (fun f _ s => onRead q j f s) s

/-- Whether a request is a GRN_WRITE of an OP. -/
def isWrite (op : BitVec 3) (f : Flit) : Bool := f.kind == kGrnWrite && tagOp f.tag == op

/-- A GRN_WRITE takes its bank: it is acknowledged whether or not it is performed (R281, R287, R295). -/
def writeRequest (q : QuadNo) (j : PortNo) (f : Flit) (s : State) : State :=
  let w := tagAddr f.tag
  if bankDark s w then respond q (ackTo f) (offFault (askerFlit s f) w s)
  else writeOp q (tagOp f.tag) w (tagMask f.tag) f.data (respond q (ackTo f) (loseFrom q (j.val + 1) w s))

/-- KEEP: bytes are written and the presence stays. A reserved OP is discarded as malformed (R287). -/
def execKeep (q : QuadNo) (j : PortNo) (u : Upset) (s : State) : Host.Outcome State Fault Refusal :=
  onRequest q j u (fun f => isWrite 0 f || (f.kind == kGrnWrite && decide (3 ≤ (tagOp f.tag).toNat)))
    (fun f _ s => writeRequest q j f s) s

/-- FILL: bytes are written, the word becomes FULL and parked readers are released (R287, R290). -/
def execFill (q : QuadNo) (j : PortNo) (u : Upset) (s : State) : Host.Outcome State Fault Refusal :=
  onRequest q j u (isWrite 1) (fun f _ s => writeRequest q j f s) s

/-- CLEAR: a FULL word becomes EMPTY and keeps its data (R287). -/
def execClear (q : QuadNo) (j : PortNo) (u : Upset) (s : State) : Host.Outcome State Fault Refusal :=
  onRequest q j u (isWrite 2) (fun f _ s => writeRequest q j f s) s

/-- The words of a sheaf are written in address order from cycle `c` on, those in a bank that is not ON apart: the FILLs
that start a release, each with its cycle (R283, R287, R295). -/
def sheafWrite (q j : Nat) (a : Asker) (op : BitVec 3) : List (BitVec 23 × Word) → Nat → State → List (Nat × BitVec 23) × State
  | [], _, s => ([], s)
  | (w, v) :: rest, c, s =>
    let one := if bankDark s w then (false, offFault a w s) else writeStore op w 0xFF v (loseFrom q (j + 1) w s)
    let r := sheafWrite q j a op rest (c + 1) one.2
    (if one.1 then (c, w) :: r.1 else r.1, r.2)

/-- SHEAF_REQ: a sheaf is written to the granary whole, or not at all, and acknowledged in the cycle of its last word, while
the releases of earlier words go on (R46, R47, R279, R287, R290, R293). -/
def execSheafReq (q : QuadNo) (j : PortNo) (u : Upset) (s : State) : Host.Outcome State Fault Refusal :=
  onRequest q j u (fun f => f.kind == kSheafReq) (fun f body s =>
    let vs := body.flatMap (fun p => [bits (Flit.payload p) 0 64, bits (Flit.payload p) 64 64])
    let r := sheafWrite q j (askerFlit s f) (tagOp f.tag) ((requestWords f).zip vs) 0 s
    releaseAll q r.1 0 (some ((requestWords f).length - 1, f)) r.2) s

/-- The words of a block read, each with its poison (R281, R286, R295). -/
def blockWords (q j : Nat) (a : Asker) : List (BitVec 23) → State → List (Word × Bool) × State
  | [], s => ([], s)
  | w :: ws, s =>
    if bankDark s w then
      let r := blockWords q j a ws (offFault a w s)
      ((0, true) :: r.1, r.2)
    else
      let c := checkWord w (loseFrom q (j + 1) w s)
      let d := c.2.draw
      let s := if c.1 then d.2 else c.2
      let v := if c.1 then d.1 else grnWord s w
      let r := blockWords q j a ws s
      ((v, c.1) :: r.1, r.2)

/-- Words in pairs, as the payloads of a sheaf. -/
def pairWords : List (Word × Bool) → List (Entry × Bool)
  | lo :: hi :: rest => (hi.1 ++ lo.1, lo.2 || hi.2) :: pairWords rest
  | _ => []

/-- BLK_READ: 2 × (LEN + 1) words whatever their presence, returned as a SHEAF_RSP with the request's tag
(R43, R279, R286, R293). -/
def execBlkRead (q : QuadNo) (j : PortNo) (u : Upset) (s : State) : Host.Outcome State Fault Refusal :=
  onRequest q j u (fun f => f.kind == kBlkRead) (fun f _ s =>
    let r := blockWords q j (askerFlit s f) (requestWords f) s
    respond q (blockTo f (pairWords r.1)) r.2) s

/-! ## Ring replays (R291) -/

/-- A read that a replay has taken from the ring is presented as a new arrival, with the checks of a request (R49, R52,
R291, R293; assumption log 110). -/
def present (q : Nat) (f : Flit) (s : State) : State :=
  let site := BitVec.ofNat 8 (siteGrn q 0)
  let go (f : Flit) (s : State) : State :=
    match intakeStops q 0 f [] s with
    | some t => t
    | none => if f.kind = kGrnRead then readRequest q f (loseFrom q 0 (rdAddr f.data) s) else grnMalformed q 0 f s
  match checkFlit f with
  | .clean => go f s
  | .corrected g => go g (countEcc false (detect (blockDetect 0x40 site g) s))
  | .bad _ => countEcc true (detect (blockDetect 0x41 site f) s)

/-- The entries of a replay pass are read, in ring order, and each read presented; one that cannot be read is gone (R281,
R291, R295; assumption log 110). -/
def replayEach (q : Nat) : List Nat → State → State
  | [], s => s
  | k :: ks, s =>
    let a := ringAddr s q k
    let f := ringFlit s q k
    let t := port1Read 1 (askerFlit s f).code a 4 s
    replayEach q ks (if slotBad s a 4 then t else present q f t)

/-- DEFERRED_REPLAY_PASS: a pass that is due presents every read that the ring held when it began, once no bank that it
needs wakes and no stripe is borrowed (R291, R295, R444). -/
def execDeferredReplayPass (q : QuadNo) (s : State) : Host.Outcome State Fault Refusal :=
  let x := quad s q
  let next := (List.range x.ring.length).map (fun i => (x.ringWr + i) % ringSize s q)
  let held := (x.ring.flatMap (fun k => rdAddr (ringFlit s q k).data :: slotWords (ringAddr s q k) 4) ++
    next.flatMap (fun k => slotWords (ringAddr s q k) 4)).filter (wordHeld s)
  if !x.replay ∨ x.ring.isEmpty then .next s
  else if !held.isEmpty then .next (wantWords held s)
  else .next (replayEach q x.ring (setQuad q { x with replay := false, ring := [] } s))

/-! ## The presence port (R288, R300) -/

/-- Whether a presence-port operation is one that R286 or R287 gives. -/
def popLegal (wr : Bool) (op : BitVec 3) : Bool := if wr then decide (op.toNat ≤ 2) else decide (op.toNat ≤ 4)

/-- A read-class operation of the presence port on a word that is not FULL changes nothing and parks nothing (R288). -/
def popRead (op : BitVec 3) (w : BitVec 23) (s : State) : State :=
  let c := checkWord w s
  if c.1 then c.2
  else
    let s := c.2
    let put (r : Word × State) : State := r.2.wr64 (breg .grn 0x68) r.1
    if op = 2 then put ((presOf s w).setWidth 64, s)
    else if op = 4 then put (grnWord s w, s)
    else if presOf s w = pFull then put (readFull op w s)
    else s

/-- The result code of the presence port: the presence before the operation, or 3 (R288, R300). A refused or dark word
counts as uncorrectable, since its answer is poisoned (assumption log 19). -/
def popResult (a : Asker) (wr : Bool) (w : BitVec 23) (s : State) : BitVec 2 :=
  if !permitted s a wr w ∨ bankDark s w ∨ wordBad s w then 3 else presOf s w

/-- Whether an operation of the presence port is of the write class of R293. -/
def PopOp.writes (o : PopOp) : Bool := o.wr || o.op == 1 || o.op == 3

/-- Whether an operation of the presence port waits for its word; a refused one is answered at once (R293, R295, R444). -/
def popHeld (s : State) (o : PopOp) : Bool := permitted s (askerOf o.req) o.writes o.word && wordHeld s o.word

/-- An operation of the presence port is carried out: it sets DONE and RESULT (R288, R293, R295, R300). -/
def runPop (o : PopOp) (s : State) : State :=
  let a := askerOf o.req
  let c := breg .grn 0x60
  let res := popResult a o.writes o.word s
  let s :=
    if !permitted s a o.writes o.word then protFault a o.word s
    else if bankDark s o.word then offFault a o.word s
    else
      let s := loseFrom (quadOf o.word) 1 o.word s
      if o.wr then writeOp (quadOf o.word) o.op o.word 0xFF o.data s else popRead o.op o.word s
  s.wr c (put (putBit (s.rd c) 30 true) 28 res)

/-- The operation of the presence port that is in progress is carried out once its word can be reached. -/
def resumePop (s : State) : State :=
  match s.pop with
  | none => s
  | some o => if popHeld s o then s else runPop o { s with pop := none }

/-- PRESENCE_PORT_GO: a write of GRN_POP_CTL sets WR and OP, and GO starts one operation on the word of GRN_POP_ADDR, unless
one is in progress (R288, R300). -/
def execPresencePortGo (req : Requester) (v : Reg32) (u : Upset) (s : State) : Host.Outcome State Fault Refusal :=
  if unserved req s then .next (countUr s)
  else if outsider req then .next s
  else
  let c := breg .grn 0x60
  let old := s.rd c
  let wr := bit v 3
  let legal := popLegal wr (bits v 0 3)
  let op : BitVec 3 := if legal then bits v 0 3 else bits old 0 3
  let s := if legal then s else s.rsvd
  let s := s.wr c (put (putBit (putBit old 3 wr) 30 (bit old 30 && !bit v 30)) 0 op)
  let w : BitVec 23 := bits (s.rd (breg .grn 0x64)) 0 23
  if !bit v 8 ∨ !popLegal wr op then .next s
  else if s.pop.isSome then .next (s.setFlag (breg .grn 4) 7 true)
  else
    let o : PopOp := { req := req, wr := wr, op := op, word := w, data := s.rd64 (breg .grn 0x68) }
    .next (resumePop (wantWords (if popHeld s o then [w] else []) { s.upset (wbyte w) u with pop := some o }))

/-! ## Bank power (R295, R296) -/

/-- The state GRN_BANKREQ asks of a bank: 0 OFF, 1 RETAIN, 3 ON. -/
def bankAsked (s : State) (b : Nat) : BitVec 2 :=
  match s.profile with
  | .p0100 => bits (s.rd (breg .grn (0x100 + 4 * (b / 16)))) (2 * (b % 16)) 2
  | _ => if s.flag (breg .grn (0x100 + 4 * (b / 32))) (b % 32) then 3 else 0

/-- The state GRN_BANKSTAT shows of a bank. -/
def bankShown (s : State) (b : Nat) : BitVec 2 :=
  match bankState s b with
  | .on => 3
  | .retain => 1
  | _ => 0

/-- GRN_BANKSTAT as read. -/
def viewBanks (s : State) (k : Nat) : Reg32 :=
  match s.profile with
  | .p0100 => (List.range 16).foldl (fun v i => put v (2 * i) (bankShown s (16 * k + i))) 0
  | _ => (List.range 32).foldl (fun v i => putBit v i (bankShown s (32 * k + i) == 3)) 0

/-- The transition goes on to the next bank: one that is to wake starts to, and with none left the transition is
complete (R295). -/
def nextBank (s : State) : State :=
  match s.bankQ with
  | [] =>
    let s := s.setFlag (breg .grn 0x200) 31 false
    if s.flag (breg .grn 0) 2 then raiseEvent 1926 s else s
  | b :: _ =>
    if bankAsked s b = 3 then
      match bankState s b with
      | .off => setBank b (.waking true) s
      | .retain => setBank b (.waking false) s
      | _ => s
    else s

/-- Whether a fault reaction is running or due: the queued ones come before any operation of meeting point 3 (R19). -/
def reacting (s : State) : Bool := s.sieve.running.isSome || !s.sieve.queue.isEmpty

/-- The transition of the banks whose state is not the requested one starts (R295). -/
def startBanks (s : State) : State :=
  let bs := (List.range 512).filter (fun b => bankAsked s b != bankShown s b)
  let s := { s with bankWait := false }
  if bs.isEmpty then s else nextBank { s.setFlag (breg .grn 0x200) 31 true with bankQ := bs }

/-- BANK_REQUEST: a write of GRN_BANKREQ starts the transition of the banks it changes, once no fault reaction runs or is
due, or is dropped while one is in progress (R19, R295, R296). -/
def execBankRequest (req : Requester) (k : Fin 32) (v : Reg32) (s : State) : Host.Outcome State Fault Refusal :=
  if unserved req s then .next (countUr s)
  else if outsider req then .next s
  else
  let a := breg .grn (0x100 + 4 * k.val)
  match findRow s.profile .grn (0x100 + 4 * k.val) with
  | none => .next s.rsvd
  | some (r, _) =>
    if s.flag (breg .grn 0x200) 31 then .next (s.setFlag (breg .grn 4) 7 true)
    else
      let s : State := plainWrite a r v s
      .next (if reacting s then { s with bankWait := true } else startBanks s)

/-- A bank loses its contents: data zero, presence EMPTY, no error, once it wakes (R295). -/
def clearBank (b : Nat) (s : State) : State :=
  let ofBank (a : Nat) : Bool := decide (a < 0x4000000) && bankOf (BitVec.ofNat 23 (a / 8)) == b
  { s with
    mem := s.mem.filter (fun c => !ofBank c.1)
    marks := s.marks.filter (fun c => !ofBank c.1)
    pres := s.pres.filter (fun c => bankOf (BitVec.ofNat 23 c.1) != b) }

/-- A waking bank accepts its first access; one that was OFF has been cleared, and the transition goes on (R295, R296). -/
def wakeBank (b : Nat) (s : State) : State :=
  match bankState s b with
  | .waking c =>
    let s := setBank b .on (if c then clearBank b s else s)
    resumePop (nextBank { s with bankQ := s.bankQ.filter (· != b) })
  | _ => s

/-- BANK_WAKE_COMPLETE (R295, R296). -/
def execBankWakeComplete (b : Fin 512) (s : State) : Host.Outcome State Fault Refusal := .next (wakeBank b s)

/-- Whether a bank holds parked readers, so that it is not put to sleep (R295, R296). -/
def bankHolds (s : State) (b : Nat) : Bool :=
  let x := quad s (b / 128)
  x.dir.any (fun d => bankOf d.word == b) || !x.ring.isEmpty

/-- Whether a granary byte address lies in a stripe. -/
def inStripe (q bank stripe a : Nat) : Bool :=
  decide (a < 0x4000000) && bankOf (BitVec.ofNat 23 (a / 8)) == 128 * q + bank &&
    rowOf (BitVec.ofNat 23 (a / 8)) / 512 == stripe

/-- RESTORE: what the shadow buffer holds is written back into the stripe (R441). -/
def restoreStripe (q : Nat) (b : Borrow) (s : State) : State :=
  let mine := inStripe (q % 4) b.bank b.stripe
  let s := (b.shadow.filter (fun c => mine c.1)).foldl (fun s c => s.setByte c.1 c.2) { s with
    mem := s.mem.filter (fun c => !mine c.1), pres := s.pres.filter (fun p => !mine (8 * p.1)) }
  (b.shadowPres.filter (fun p => mine (8 * p.1))).foldl (fun s p => { s with pres := SMap.set s.pres p.1 p.2 0 }) s

/-- A quadrant's borrow ends: its stripe is restored and released (R441). -/
def endBorrow (q : Nat) (s : State) : State :=
  let s := match (quad s q).borrow with
    | some b => restoreStripe q b s
    | none => s
  resumePop ((setQuad q { quad s q with borrow := none } s).setFlag (breg .upk (0x20 + 4 * q)) 31 false)

/-- A quadrant's borrow is aborted: its stripe holds what it held, and UPK_WABORT counts (R442, R444). -/
def abortBorrow (q : Nat) (s : State) : State := (endBorrow q s).satInc (breg .upk 0x34) 0 32

/-- A quadrant whose 128 banks are all OFF is switched off: the queues of its ports are flushed before (R269, R415). -/
def quadOff (q : Nat) (s : State) : State :=
  if !(List.range 128).all (fun i => bankState s (128 * q + i) == .off) then s
  else (List.range 4).foldl (fun s j =>
    flushQueue (siteGrn q j) true chRsp false (flushQueue (siteGrn q j) false chReq false s)) s

/-- BANK_SLEEP: the first bank of the transition goes to OFF or RETAIN, unless readers are parked on it or in its
quadrant's ring; a borrow in it is aborted (R295, R296, R442). -/
def execBankSleep (b : Fin 512) (s : State) : Host.Outcome State Fault Refusal :=
  match s.bankQ with
  | [] => .next s
  | k :: ks =>
    if k ≠ b.val ∨ bankAsked s b = 3 then .next s
    else
      let q := b.val / 128
      let x := quad s q
      let s := match x.borrow with
        | some w => if w.bank = b.val % 128 then abortBorrow q s else s
        | none => s
      let s := { s with bankQ := ks }
      if bankHolds s b then
        let s := (s.setFlag (breg .grn 0x200) 30 true).setFld (breg .grn 0x200) 0 9 b.val
        let s := if s.flag (breg .grn 0) 2 then raiseEvent 1926 s else s
        .next (nextBank s)
      else
        let dst : BankState := if bankAsked s b = 1 then .retain else .off
        .next (nextBank (quadOff q (setBank b dst (if dst = .off then clearBank b s else s))))

/-! ## The host and the MC (R288) -/

/-- What holds an access to a word ends: its bank wakes, or the borrow of its stripe is aborted. Only a command that makes
many accesses gets here with a word that is held: its accesses wait within it: DESIGN CHOICE (R295, R444; assumption log
139). -/
def awaitWord (w : BitVec 23) (s : State) : State :=
  let s := if bankWaking s w then wakeBank (bankOf w) s else s
  if borrowed s w then abortBorrow (quadOf w) s else s

/-- One PEEK of a word through mesh port 0: its data, or none where the answer is poisoned (R254, R281, R284, R288, R293,
R295). -/
def peekWord (a : Asker) (w : BitVec 23) (s : State) : Option Word × State :=
  if !permitted s a false w then (none, protFault a w s)
  else if bankDark s w then (none, offFault a w s)
  else
    let c := checkWord w (loseFrom (quadOf w) 1 w (awaitWord w s))
    (if c.1 then none else some (grnWord c.2 w), c.2)

/-- One write-class operation of the host or the MC on a word, by byte enables, through mesh port 0 (R254, R284, R287, R288,
R293, R295). -/
def portOp (a : Asker) (op : BitVec 3) (w : BitVec 23) (mask : BitVec 8) (v : Word) (s : State) : State :=
  if !permitted s a true w then protFault a w s
  else if bankDark s w then offFault a w s
  else writeOp (quadOf w) op w mask v (loseFrom (quadOf w) 1 w (awaitWord w s))

/-- One KEEP of a word by byte enables (R288). -/
def keepWord (a : Asker) (w : BitVec 23) (mask : BitVec 8) (v : Word) (s : State) : State := portOp a 0 w mask v s

/-- Whether requests stand in RQ of mesh port 0 of a word's quadrant, before which an access of the host or the MC is not
served (R254, R283, R288; assumption log 139). -/
def portQueued (s : State) (w : BitVec 23) : Bool := !(quadRq s (quadOf w) 0).isEmpty

/-- PEEK: a read of 1 to 8 bytes within one word by the host or the MC; a poisoned one reads as ones (R286, R288,
R386). It waits for the requests in RQ of its port, a waking bank and a borrowed stripe (R283, R295, R444). -/
def execPeek (req : Requester) (addr : BitVec 26) (len : BitVec 4) (u : Upset) (s : State) : Host.Outcome State Fault Refusal :=
  if unserved req s then .next (countUr s) else
  let w : BitVec 23 := bits addr 3 23
  let n := min len.toNat (8 - addr.toNat % 8)
  if portQueued s w then .next s
  else if permitted s (askerOf req) false w ∧ wordHeld s w then .next (wantWords [w] s)
  else
    let r := peekWord (askerOf req) w (s.upset (wbyte w) u)
    let v := (r.1.getD (BitVec.allOnes 64)) >>> (8 * (addr.toNat % 8))
    .next (answer req (v &&& BitVec.ofNat 64 (2 ^ (8 * n) - 1)) r.2)

/-! ## Registers (R294, R300) -/

/-- The granary's registers as read: the fields that show its state. -/
def viewGrn (s : State) (off : Nat) : Reg32 :=
  let raw := s.rd (breg .grn off)
  let q := off / 4 % 4
  let x := quad s q
  if off = 4 then
    (List.range 4).foldl (fun v i => putBit v i (!(quad s i).ring.isEmpty)) raw
  else if 0x30 ≤ off ∧ off < 0x40 then BitVec.ofNat 32 (poolUsed x * 2 ^ 16 + x.dir.length)
  else if 0x50 ≤ off ∧ off < 0x60 then put raw 16 (BitVec.ofNat 15 x.ring.length)
  else if off = 0x60 then putBit raw 31 s.pop.isSome
  else if 0x180 ≤ off ∧ off < 0x200 then viewBanks s ((off - 0x180) / 4)
  else raw

/-- Whether a write to a granary register is dropped: window registers and LOCK once LOCK is 1 or from a strand, and a
ring's registers while it holds entries (R294, R300). -/
def grnDrops (s : State) (req : Requester) (off : Nat) : Bool :=
  let win := decide (0x300 ≤ off ∧ off < 0x380)
  let lockRegs := win && (s.flag (breg .grn 0) 7 || (match req with
    | .plot _ => true
    | _ => false))
  let ring := decide (0x40 ≤ off ∧ off < 0x50) && !(quad s (off / 4 % 4)).ring.isEmpty
  lockRegs || ring

end Sys2Proof.Machine
end

