-- ==== Sys2Proof/Machine/Dibber.lean ====
section
/-! DEFINITION. The Dibber (R301 to R331): descriptors, notices, wakes, functions, selection, dispatch, switching,
deadlines and events, and the vectors that the host link sends (R390). -/

namespace Sys2Proof.Machine

/-! ## The host link's vectors (R390) -/

/-- Whether the conditions of R390 hold for a vector. -/
def vectorOpen (s : State) (v : BitVec 6) : Bool :=
  let cfg := s.rd (breg .bar4 0x10000)
  bit cfg 0 && !bit cfg 1 && bit cfg 2 && !s.flag (breg .bar4 (0x800C + 16 * v.toNat)) 0 && !s.host.d3

/-- The message of a vector, by its table entry. -/
def sendVector (v : BitVec 6) (s : State) : State :=
  let t := 0x8000 + 16 * v.toNat
  let m := (s.rd (breg .bar4 (t + 4)) ++ s.rd (breg .bar4 t), s.rd (breg .bar4 (t + 8)))
  { s with host := { s.host with msgs := s.host.msgs ++ [m] } }

/-- The Dibber passes a vector to the host link: it is sent, held, or merged into one that is held (R390). -/
def passVector (v : BitVec 6) (s : State) : State :=
  if s.host.pba.contains v then s.satInc (breg .host 4) 16 16
  else if vectorOpen s v then sendVector v s
  else { s.satInc (breg .host 4) 0 16 with host := { s.host with pba := s.host.pba ++ [v] } }

/-! ## Descriptors (R303, R304) -/

/-- The encoding of STATUS.STATE. -/
def DState.code : DState → BitVec 3
  | .free => 0
  | .idle => 1
  | .ready => 2
  | .standby => 3
  | .running => 4
  | .waiting => 5
  | .trapped => 6
  | .cancelled => 7

/-- STATUS.HOLD (R304). -/
def Desc.holds (x : Desc) : Bool := x.accHold || x.moving || x.stopping

/-- The eight words of the mirror, bytes 0xC0 to 0xFF (R304). -/
def mirrorWord (x : Desc) (i : Nat) : Word :=
  match i with
  | 0 => (0 : BitVec 26) ++ BitVec.ofBool x.inhV ++ x.inh ++ (0 : BitVec 1) ++ BitVec.ofBool x.lost ++ BitVec.ofBool x.can ++
      BitVec.ofBool x.mrc ++ BitVec.ofBool x.pw ++ BitVec.ofBool x.tmo ++ BitVec.ofBool x.holds ++ BitVec.ofBool x.k ++
      (0 : BitVec 3) ++ x.epri ++ (0 : BitVec 3) ++ x.base ++ (0 : BitVec 5) ++ x.state.code
  | 1 => (0 : BitVec 38) ++ x.lastEng ++ x.aff
  | 2 => x.wakeVal
  | 3 => x.deadline
  | 4 => (0 : BitVec 32) ++ x.wovr ++ BitVec.ofBool x.fwdV ++ (0 : BitVec 1) ++ x.fwd
  | 5 => (0 : BitVec 32) ++ x.wakes
  | _ => 0

/-- A descriptor changed. -/
def modDesc (d : BitVec 14) (g : Desc → Desc) (s : State) : State := s.setDesc d.toNat (g (s.desc d.toNat))

/-- The ready list of a plot. -/
def readyOf (s : State) (p : Nat) : List (BitVec 14) := SMap.get s.dib.ready p []

/-- The state with a plot's ready list replaced. -/
def setReady (p : Nat) (l : List (BitVec 14)) (s : State) : State :=
  { s with dib := { s.dib with ready := SMap.set s.dib.ready p l [] } }

/-- A descriptor leaves its ready list. -/
def unready (d : BitVec 14) (s : State) : State :=
  setReady (d.toNat / 256) ((readyOf s (d.toNat / 256)).filter (· != d)) s

/-- A descriptor becomes READY at the head or the tail of its priority (R310, R313, R316). -/
def makeReady (d : BitVec 14) (head : Bool) (s : State) : State :=
  let p := d.toNat / 256
  let s := unready d (modDesc d (fun x => { x with state := .ready, sent := none }) s)
  let s := stirDevice s
  setReady p (if head then d :: readyOf s p else readyOf s p ++ [d]) s

/-- A descriptor's deadline is disarmed. -/
def disarm (d : BitVec 14) (s : State) : State :=
  let s := { s with dib := { s.dib with deadlines := s.dib.deadlines.filter (fun k => k.2 != d) } }
  modDesc d (fun x => { x with deadline := 0 }) s

/-- DIB_DISCARD counts a lost wake (0) or an overrun (1), and EV_1945 is raised (R310). -/
def wakeLost (overs : Bool) (s : State) : State :=
  raiseEvent 1945 (s.satInc (breg .dib 8) (if overs then 0 else 16) 16)

/-- DIB_REFUSE counts a refused function. -/
def countRefuse (s : State) : State := s.satInc (breg .dib 0xC) 0 16

/-- The descriptor that a forward leads to (R310, R320). -/
def forwarded (s : State) : Nat → BitVec 14 → BitVec 14
  | 0, d => d
  | n + 1, d =>
    let x := s.desc d.toNat
    if x.state = .free ∧ x.fwdV then forwarded s n x.fwd else d

/-- The target of a wake or function (R310, R320). -/
def target (s : State) (d : BitVec 14) : BitVec 14 := forwarded s 16384 d

/-- A wake with a value reaches a descriptor (R310). -/
def wakeDesc (d : BitVec 14) (v : Word) (s : State) : State :=
  let d := target s d
  let x := s.desc d.toNat
  match x.state with
  | .free => wakeLost false s
  | .cancelled => wakeLost false (modDesc d (fun x => { x with mrc := true }) s)
  | .idle => makeReady d false (modDesc d (fun x => { x with deliver := some v, tmo := false }) s)
  | .waiting => makeReady d false (modDesc d (fun x => { x with deliver := some v, tmo := false }) (disarm d s))
  | _ =>
    let s := if x.pw then wakeLost true (modDesc d (fun x => { x with wovr := satInc16 x.wovr }) s) else s
    modDesc d (fun x => { x with wakeVal := v, pw := true }) s

/-! ## Orders to the engines (R307, R316 to R319) -/

/-- The engine slot that serves a logical number. -/
def engAt (s : State) (e : BitVec 10) : Nat := (slotOf s e).getD 1088

/-- A control flit of the Dibber at P3, stamped with the current epoch and the Dibber's count (R33, R35). -/
def dibSend (kind : BitVec 4) (tag : BitVec 64) (data : Word) (s : State) : State :=
  let f := mkToken kind 3 (curEpoch s) s.dib.seq tag data
  blockSend siteDib f { s with dib := { s.dib with seq := s.dib.seq + 1 } }

/-- A DISPATCH of a descriptor to an engine, whose notice is awaited (R45, R311, R316). -/
def sendDispatch (d : BitVec 14) (e : BitVec 10) (recalling : Bool) (thenTo : Option (BitVec 10)) (s : State) : State :=
  let x := s.desc d.toNat
  let s := { s with dib := { s.dib with outst := s.dib.outst ++ [{ eng := e, desc := d, recalling := recalling, thenTo := thenTo }] } }
  dibSend kDispatch (ownId s ++ e ++ d ++ (0 : BitVec 28)) (if recalling then 0 else x.deliver.getD 0) s

/-- Whether a DISPATCH to an engine awaits its notice (R316). -/
def awaited (s : State) (e : BitVec 10) : Bool := s.dib.outst.any (fun o => o.eng == e)

/-- A descriptor becomes STANDBY at an engine, and its DISPATCH is sent (R316). -/
def dispatchTo (d : BitVec 14) (e : BitVec 10) (s : State) : State :=
  let s := unready d (modDesc d (fun x => { x with state := .standby, sent := some e }) s)
  sendDispatch d e false none s

/-- STR_HALT of a logical engine, as the notices report it (R321). -/
def haltedAt (s : State) (e : BitVec 10) : Bool := SMap.get s.dib.halt e.toNat true

/-- Whether AFF admits a logical engine. -/
def admits (x : Desc) (e : BitVec 10) : Bool := bit x.aff (e.toNat % 16)

/-- A stop order for the strand of an engine, when it is this descriptor's (R318). -/
def stopOrder (d : BitVec 14) (e : BitVec 10) (s : State) : State :=
  s.modEng (engAt s e) (fun x => match x.strand with
    | some t => if t.desc = d then { x with stop := true } else x
    | none => x)

/-- A standby descriptor is recalled, unless a DISPATCH to its engine awaits its notice: then the notice brings it about
(R314, R317). -/
def recallFrom (d : BitVec 14) (e : BitVec 10) (s : State) : State :=
  if SMap.get s.dib.sby e.toNat none = some d ∧ ¬ s.dib.outst.any (fun o => o.eng == e) then
    sendDispatch d e true none s
  else s

/-- A descriptor's priority reaches the engine that holds it (R319). -/
def priorityUpdate (d : BitVec 14) (e : BitVec 10) (p : BitVec 5) (s : State) : State :=
  s.modEng (engAt s e) (fun x => { x with
    strand := x.strand.map (fun t => if t.desc = d then { t with epri := p } else t)
    standby := x.standby.map (fun b => if b.desc = d then { b with epri := p } else b) })

/-- EPRI is recomputed after BASE, INH or INH_V has changed (R304, R319). -/
def recompute (d : BitVec 14) (s : State) : State :=
  let x := s.desc d.toNat
  let p := if x.inhV ∧ x.base.toNat < x.inh.toNat then x.inh else x.base
  let s := modDesc d (fun x => { x with epri := p }) s
  match x.state with
  | .ready => makeReady d false s
  | .standby => match x.sent with
    | some e => priorityUpdate d e p s
    | none => s
  | .running => priorityUpdate d x.lastEng p s
  | _ => s

/-! ## Notices (R307, R311 to R313, R316, R321) -/

/-- A plot's next engine notice acts when it is of the kind (R307). -/
def onNotice (p : PlotNo) (g : Notice → Option (State → State)) (s : State) : Host.Outcome State Fault Refusal :=
  match (s.plot p.val).notices with
  | [] => .next s
  | n :: ns => match g n with
    | some f => .next (f (s.modPlot p.val (fun x => { x with notices := ns })))
    | none => .next s

/-- The awaited DISPATCHes without those that a predicate names. -/
def clearOutst (f : Outstanding → Bool) (s : State) : State :=
  { s with dib := { s.dib with outst := s.dib.outst.filter (fun o => !f o) } }

/-- The state with the Dibber's view of an engine's running strand replaced. -/
def setRun (e : BitVec 10) (v : Option (BitVec 14)) (s : State) : State :=
  { s with dib := { s.dib with run := SMap.set s.dib.run e.toNat v none } }

/-- The state with the Dibber's view of an engine's standby slot replaced. -/
def setSby (e : BitVec 10) (v : Option (BitVec 14)) (s : State) : State :=
  { s with dib := { s.dib with sby := SMap.set s.dib.sby e.toNat v none } }

/-- The slot's descriptor leaves the Dibber's view of it. -/
def leaveSby (e : BitVec 10) (d : BitVec 14) (s : State) : State :=
  if SMap.get s.dib.sby e.toNat none = some d then setSby e none s else s

/-- RUN: the descriptor is RUNNING, a wake it was sent with is delivered, and one that may not run there is stopped
(R311, R314, R316, R321). -/
def execNoticeRun (p : PlotNo) (s : State) : Host.Outcome State Fault Refusal :=
  onNotice p (fun n => match n with
    | .run d e => some (fun s =>
      let x := s.desc d.toNat
      let ok : Bool := x.state == .standby
      let s := setRun e (some d) (leaveSby e d (clearOutst (fun o => o.desc == d) s))
      let s := modDesc d (fun x => { x with
        lastEng := e
        state := if ok then .running else x.state
        wakes := if x.deliver.isSome then x.wakes + 1 else x.wakes
        deliver := none
        sent := none }) (if ok then s else unready d s)
      if ok ∧ ¬ haltedAt s e ∧ admits x e then s else stopOrder d e s)
    | _ => none) s

/-- LOADED: the standby slot holds the descriptor; one that was cancelled, halted or moved meanwhile is recalled
(R314, R316, R321). -/
def execLoaded (p : PlotNo) (s : State) : Host.Outcome State Fault Refusal :=
  onNotice p (fun n => match n with
    | .loaded d e => some (fun s =>
      let x := s.desc d.toNat
      let s := setSby e (some d) (clearOutst (fun o => o.eng == e && o.desc == d && !o.recalling) s)
      if x.state = .standby ∧ x.sent = some e ∧ admits x e ∧ ¬ haltedAt s e then s else recallFrom d e s)
    | _ => none) s

/-- A stop or recall that a CANCEL started is over: HOLD clears, and a RESUME accepted meanwhile takes effect
(R313, R314). -/
def endStop (d : BitVec 14) (s : State) : State :=
  let x := s.desc d.toNat
  let s := modDesc d (fun x => { x with stopping := false, resumeAfter := false }) s
  if x.resumeAfter then makeReady d false (modDesc d (fun x => { x with deliver := none }) s) else s

/-- RECALLED: the descriptor returns to the head of its FIFO, and goes to the engine that the selector chose for it, unless
a DISPATCH to that engine now awaits its notice (R314, R316; assumption log 116). -/
def execRecalled (p : PlotNo) (s : State) : Host.Outcome State Fault Refusal :=
  onNotice p (fun n => match n with
    | .recalled d e => some (fun s =>
      let x := s.desc d.toNat
      let dst := (s.dib.outst.find? (fun o => o.eng == e && o.desc == d && o.recalling)).bind (·.thenTo)
      let s := leaveSby e d (clearOutst (fun o => o.eng == e && o.desc == d) s)
      if x.stopping then endStop d s
      else if x.state ≠ .standby then s
      else
        let s := makeReady d true s
        match dst with
        | some f => if ¬ x.holds ∧ admits x f ∧ ¬ haltedAt s f ∧ (slotOf s f).isSome ∧ ¬ awaited s f then dispatchTo d f s else s
        | none => s)
    | _ => none) s

/-- A descriptor's deadline joins the table in time order. -/
def insertDeadline (k : BitVec 64 × BitVec 14) : List (BitVec 64 × BitVec 14) → List (BitVec 64 × BitVec 14)
  | [] => [k]
  | m :: ms => if k.1.toNat < m.1.toNat then k :: m :: ms else m :: insertDeadline k ms

/-- A deadline is met: the descriptor is READY with value zero and TO (R312). -/
def expire (d : BitVec 14) (s : State) : State :=
  makeReady d false (modDesc d (fun x => { x with deliver := none, tmo := true }) s)

/-- A strand leaves by AWAIT (R312). -/
def leaveAwait (d : BitVec 14) (deadline : Word) (s : State) : State :=
  let x := s.desc d.toNat
  if x.pw then
    makeReady d false (modDesc d (fun x => { x with deliver := some x.wakeVal, pw := false, tmo := false }) s)
  else if deadline ≠ 0 ∧ deadline.toNat ≤ now s then expire d s
  else if deadline ≠ 0 ∧ 4096 ≤ s.dib.deadlines.length then
    expire d (raiseEvent 1944 (s.satInc (breg .dib 0x10) 16 16))
  else
    let s := modDesc d (fun x => { x with
      state := .waiting, deadline := deadline, waitAt := s.time.now, passes := 0 }) s
    if deadline = 0 then s
    else { s with dib := { s.dib with deadlines := insertDeadline (deadline, d) s.dib.deadlines } }

/-- Whether an access of a descriptor's strand is still pending, or its ACCESS_DONE is on the way (R154). -/
def accessPending (s : State) (p : Nat) (d : BitVec 14) : Bool :=
  (List.range 17).any (fun i => (s.eng (17 * p + i)).pend.any (fun m => m.desc == d)) ||
    (s.plot p).notices.any (fun n => match n with
      | .accessDone k _ => k == d
      | _ => false)

/-- LEAVE: the descriptor takes its next state by the reason (R312, R313). -/
def execLeave (p : PlotNo) (s : State) : Host.Outcome State Fault Refusal :=
  onNotice p (fun n => match n with
    | .leave d why dl => some (fun s =>
      let x := s.desc d.toNat
      let s := if SMap.get s.dib.run x.lastEng.toNat none = some d then setRun x.lastEng none s else s
      if x.state = .free then s
      else
        let acc := accessPending s p.val d
        let s := modDesc d (fun x => { x with accHold := acc }) s
        if x.state = .cancelled then endStop d s
        else match why with
          | .preempt => makeReady d true s
          | .quantum => makeReady d false s
          | .yield => makeReady d false s
          | .stop => makeReady d true s
          | .trap => modDesc d (fun x => { x with state := .trapped }) s
          | .exit =>
            let s := modDesc d (fun x => { x with state := .idle, pw := false }) s
            if x.pw then wakeLost false s else s
          | .await => leaveAwait d dl s)
    | _ => none) s

/-- ACCESS_DONE: HOLD clears; an access that ended in poison leaves the descriptor TRAPPED, or CANCELLED if it was
(R129, R154). -/
def execAccessDone (p : PlotNo) (s : State) : Host.Outcome State Fault Refusal :=
  onNotice p (fun n => match n with
    | .accessDone d poison => some (fun s =>
      let x := s.desc d.toNat
      let s := modDesc d (fun x => { x with accHold := false }) s
      if ¬ poison ∨ x.state = .cancelled ∨ x.state = .free then s
      else modDesc d (fun x => { x with state := .trapped }) (disarm d (unready d s)))
    | _ => none) s

/-- HALT: with STR_HALT set the standby is recalled and the running strand stopped, and the engine receives no DISPATCH
until it is clear (R321). -/
def execHalt (p : PlotNo) (s : State) : Host.Outcome State Fault Refusal :=
  onNotice p (fun n => match n with
    | .halt e v => some (fun s =>
      let s := { s with dib := { s.dib with halt := SMap.set s.dib.halt e.toNat v true } }
      if v then
        let s := match SMap.get s.dib.sby e.toNat none with
          | some d => recallFrom d e s
          | none => s
        match SMap.get s.dib.run e.toNat none with
        | some d => stopOrder d e s
        | none => s
      else s)
    | _ => none) s

/-! ## The function port (R308, R309, R314, R315, R331) -/

/-- Where a function comes from: the command port, a reply of the Dibber's own, the lock unit's direct path, or the
intake. -/
inductive FnFrom where
  | cmd | own | direct | intake
  deriving DecidableEq, Repr

/-- A function at the function port. -/
structure FnReq where
  src : FnFrom
  unit : BitVec 14
  data : Word
  /-- CTX and ITER of the BLOCK token -/
  ctxIter : BitVec 28
  deriving DecidableEq, Repr

/-- The function that the port takes next when it has the code: the command port first, then the direct path, the
Dibber's own wakes, and the intake. -/
def nextFn (s : State) (fn : BitVec 6) : Option (FnReq × State) :=
  let c := s.rd (breg .dib 0x20)
  if bit c 31 ∧ bits c 16 6 = fn then
    some ({ src := .cmd, unit := bits c 0 14, data := s.rd64 (breg .dib 0x24), ctxIter := 0 }, s)
  else
    match (if fn = 1 then s.lck.direct else []) with
    | .wake d v :: ms => some ({ src := .direct, unit := d, data := v, ctxIter := 0 }, { s with lck := { s.lck with direct := ms } })
    | _ =>
      match (if fn = 1 then s.dib.wakes else []) with
      | (d, v) :: ws => some ({ src := .own, unit := d, data := v, ctxIter := 0 }, { s with dib := { s.dib with wakes := ws } })
      | [] =>
        match s.dib.intake with
        | f :: fs =>
          if tagFn f.tag = fn then
            some ({ src := .intake, unit := tagUnit f.tag, data := f.data, ctxIter := bits f.tag 0 28 },
              { s with dib := { s.dib with intake := fs } })
          else none
        | [] => none

/-- DIB_CMD shows that its function has been applied, and the result of one that replies (R331). -/
def finishCmd (refused : Bool) (res : Option Word) (s : State) : State :=
  let a := breg .dib 0x20
  let s := ((s.setFlag a 31 false).setFlag a 30 true).setFlag a 29 refused
  match res with
  | some v => s.wr64 (breg .dib 0x2C) v
  | none => s

/-- The reply of a Dibber function by its reply word (R315). -/
def replyDib (w v : Word) (ctxIter : BitVec 28) (s : State) : State :=
  if bits w 62 2 = 1 then
    dibSend kOperand (ownId s ++ bits w 42 10 ++ bits w 30 12 ++ bits w 28 2 ++ ctxIter) v s
  else if bits w 62 2 = 2 then { s with dib := { s.dib with wakes := s.dib.wakes ++ [(bits w 0 14, v)] } }
  else s

/-- A function ends: the command port shows it, or a BLOCK token's reply is sent. -/
def finishFn (r : FnReq) (refused : Bool) (res : Option Word) (s : State) : State :=
  let s := if refused then countRefuse s else s
  match r.src with
  | .cmd => finishCmd refused res s
  | .intake => match res with
    | some v => replyDib r.data v r.ctxIter s
    | none => s
  | _ => s

/-- A function that has no reply acts on the descriptor it names when that one's state is accepted; it waits while the
Dibber's port cannot take what it sends (R223, R314). -/
def onFunction (fn : BitVec 6) (follow : Bool) (ok : State → FnReq → BitVec 14 → Bool)
    (g : FnReq → BitVec 14 → State → State) (s : State) : Host.Outcome State Fault Refusal :=
  if ¬ (blockTx s siteDib).isEmpty then .next s
  else match nextFn s fn with
    | none => .next s
    | some (r, s) =>
      let d := if follow then target s r.unit else r.unit
      if ok s r d then .next (finishFn r false none (g r d s)) else .next (finishFn r true none s)

/-- The state of a descriptor. -/
def dstate (s : State) (d : BitVec 14) : DState := (s.desc d.toNat).state

/-- Whether a descriptor's plot is quarantined (R322). -/
def plotAbsent (s : State) (d : BitVec 14) : Bool := (s.plot (d.toNat / 256)).absent

/-- WAKE (R310, R314). -/
def execWake (s : State) : Host.Outcome State Fault Refusal :=
  onFunction 0x01 false (fun _ _ _ => true) (fun r d s => wakeDesc d r.data s) s

/-- CANCEL: the descriptor is CANCELLED; a STANDBY one is recalled and a RUNNING one stopped (R314). -/
def execCancel (s : State) : Host.Outcome State Fault Refusal :=
  onFunction 0x02 true (fun s _ d => dstate s d != .free) (fun _ d s =>
    let x := s.desc d.toNat
    let live : Bool := x.state == .standby || x.state == .running
    let s := disarm d (unready d s)
    let s := modDesc d (fun x => { x with
      state := .cancelled, can := true, pw := false, deliver := none, resumeAfter := false,
      stopping := x.stopping || live }) s
    if x.state = .standby then
      (match x.sent with
       | some e => recallFrom d e s
       | none => s)
    else if x.state = .running then stopOrder d x.lastEng s
    else s) s

/-- RESUME: a TRAPPED or CANCELLED descriptor is READY with no wake value, once a stop in progress is over (R314). -/
def execResume (s : State) : Host.Outcome State Fault Refusal :=
  onFunction 0x03 true (fun s _ d => dstate s d == .trapped || dstate s d == .cancelled) (fun _ d s =>
    if (s.desc d.toNat).stopping then modDesc d (fun x => { x with resumeAfter := true }) s
    else makeReady d false (modDesc d (fun x => { x with deliver := none }) s)) s

/-- INIT: the mirror is written afresh, IDLE (R314, R322). -/
def execDibInit (s : State) : Host.Outcome State Fault Refusal :=
  onFunction 0x04 false (fun s _ d => (dstate s d == .free || dstate s d == .idle) && !plotAbsent s d) (fun r d s =>
    s.setDesc d.toNat { Desc.free with
      state := .idle, base := bits r.data 16 5, epri := bits r.data 16 5, k := bit r.data 24, aff := bits r.data 0 16 }) s

/-- RELEASE: an IDLE or CANCELLED descriptor is FREE (R314). -/
def execRelease (s : State) : Host.Outcome State Fault Refusal :=
  onFunction 0x05 true (fun s _ d => dstate s d == .idle || dstate s d == .cancelled) (fun _ d s =>
    modDesc d (fun x => { Desc.free with fwd := x.fwd, fwdV := x.fwdV }) s) s

/-- SETPRI: BASE takes the value and EPRI is recomputed (R314, R319). -/
def execSetpri (s : State) : Host.Outcome State Fault Refusal :=
  onFunction 0x06 true (fun s _ d => dstate s d != .free) (fun r d s =>
    if (s.desc d.toNat).base = bits r.data 0 5 then s
    else recompute d (modDesc d (fun x => { x with base := bits r.data 0 5 }) s)) s

/-- SETAFF: AFF takes the value; a standby strand no longer admitted is recalled, a running one stopped (R314, R318). -/
def execSetaff (s : State) : Host.Outcome State Fault Refusal :=
  onFunction 0x07 true (fun s _ d => dstate s d != .free) (fun r d s =>
    let s := modDesc d (fun x => { x with aff := bits r.data 0 16 }) s
    let x := s.desc d.toNat
    match x.state, x.sent with
    | .standby, some e => if admits x e then s else recallFrom d e s
    | .running, _ => if admits x x.lastEng then s else stopOrder d x.lastEng s
    | _, _ => s) s

/-- Whether a MIGRATE of d to the descriptor its data names is accepted (R320, R322). -/
def migrates (s : State) (r : FnReq) (d : BitVec 14) : Bool :=
  let x := s.desc d.toNat
  let t : BitVec 14 := bits r.data 0 14
  let y := s.desc t.toNat
  y.state == .free && !y.fwdV && !x.holds && !plotAbsent s d && !plotAbsent s t &&
    (x.state == .idle || x.state == .ready || x.state == .waiting || x.state == .trapped || x.state == .cancelled)

/-- MIGRATE: the target takes the mirror, the READY position or the deadline, and the source forwards to it (R320). -/
def execMigrate (s : State) : Host.Outcome State Fault Refusal :=
  onFunction 0x08 true migrates (fun r d s =>
    let t : BitVec 14 := bits r.data 0 14
    let x := s.desc d.toNat
    let p := d.toNat / 256
    let s := s.setDesc t.toNat { x with moving := true }
    let s := s.setDesc d.toNat { Desc.free with fwd := t, fwdV := true }
    let s := { s with dib := { s.dib with
      deadlines := s.dib.deadlines.map (fun k => if k.2 = d then (k.1, t) else k)
      migr := s.dib.migr ++ [(d, t)] } }
    if x.state ≠ .ready then s
    else if t.toNat / 256 = p then setReady p ((readyOf s p).map (fun k => if k = d then t else k)) s
    else makeReady t false (unready d s)) s

/-- MIGRATE_COPY_DONE: the saved context reaches the target, HOLD clears and EV_1943 is raised (R320). -/
def execMigrateCopyDone (s : State) : Host.Outcome State Fault Refusal :=
  match s.dib.migr with
  | [] => .next s
  | (d, t) :: ms =>
    let s := { s with dib := { s.dib with migr := ms } }
    let s := (List.range 24).foldl (fun s i =>
      (s.store (ctxBase t.toNat + 8 * i) 8 (s.load (ctxBase d.toNat + 8 * i) 8)).setMark (ctxBase t.toNat + 8 * i)
        (s.mark (ctxBase d.toNat + 8 * i))) s
    .next (raiseEvent 1943 (modDesc t (fun x => { x with moving := false }) s))

/-- A function with a reply answers (R314, R315). -/
def onQuery (fn : BitVec 6) (g : State → FnReq → Word) (s : State) : Host.Outcome State Fault Refusal :=
  if ¬ (blockTx s siteDib).isEmpty then .next s
  else match nextFn s fn with
    | none => .next s
    | some (r, s) => .next (finishFn r false (some (g s r)) s)

/-- QUERY: mirror bytes 0xC0 to 0xC7 (R314). -/
def execQuery (s : State) : Host.Outcome State Fault Refusal :=
  onQuery 0x10 (fun s r => mirrorWord (s.desc (target s r.unit).toNat) 0) s

/-- FINDFREE: the lowest FREE descriptor of the plot with FWD_V 0, or all ones (R314). -/
def execFindfree (s : State) : Host.Outcome State Fault Refusal :=
  onQuery 0x11 (fun s r =>
    let p := (bits r.unit 0 6).toNat
    match (List.range 256).find? (fun i => (s.desc (256 * p + i)).state == .free && !(s.desc (256 * p + i)).fwdV) with
    | some i => BitVec.ofNat 64 (256 * p + i)
    | none => BitVec.allOnes 64) s

/-- RAISE: software event i (R314). -/
def execRaise (s : State) : Host.Outcome State Fault Refusal :=
  onFunction 0x18 false (fun _ _ _ => true) (fun r _ s => raiseEvent (2032 + r.unit.toNat) s) s

/-- INHERITANCE_UPDATE: the lock unit sets or clears a descriptor's inheritance, and EPRI is recomputed (R319, R344). -/
def execInheritanceUpdate (s : State) : Host.Outcome State Fault Refusal :=
  match s.lck.direct with
  | .inh d v :: ms =>
    let s := { s with lck := { s.lck with direct := ms } }
    let d := target s d
    let x := s.desc d.toNat
    let y : Desc := match v with
      | some i => { x with inh := i, inhV := true }
      | none => { x with inhV := false }
    if x.state = .free ∨ y = x then .next s else .next (recompute d (s.setDesc d.toNat y))
  | _ => .next s

/-! ## Selection (R316) -/

/-- The engines of a plot that may take a DISPATCH, in the order of R316: those without a running strand first, then by
rising EPRI of it, then by local index. -/
def engineOrder (s : State) (p : Nat) : List (BitVec 10) :=
  let es := ((List.range 16).map (fun i => BitVec.ofNat 10 (16 * p + i))).filter (fun e =>
    (slotOf s e).isSome && !haltedAt s e)
  let key (e : BitVec 10) : Nat := match SMap.get s.dib.run e.toNat none with
    | some d => 1 + (s.desc d.toNat).epri.toNat
    | none => 0
  (List.range 33).flatMap (fun k => es.filter (fun e => key e == k))

/-- The descriptor that stands by at an engine, loaded or being loaded: the one of the latest DISPATCH to it that awaits its
notice, none for a recall, else the one in its standby slot (R303, R316; assumption log 116). -/
def standsBy (s : State) (e : BitVec 10) : Option (BitVec 14) :=
  match (s.dib.outst.filter (fun o => o.eng == e)).getLast? with
  | some o => if o.recalling then none else some o.desc
  | none => SMap.get s.dib.sby e.toNat none

/-- The standby descriptors of a plot that may move to another engine: the engine that holds one runs a strand of EPRI
at or above its own (R316). -/
def movable (s : State) (p : Nat) : List (BitVec 14 × BitVec 10) :=
  (List.range 16).filterMap (fun i =>
    let e := BitVec.ofNat 10 (16 * p + i)
    match standsBy s e, SMap.get s.dib.run e.toNat none with
    | some d, some r =>
      if (s.desc d.toNat).epri.toNat ≤ (s.desc r.toNat).epri.toNat ∧ dstate s d = .standby then some (d, e) else none
    | _, _ => none)

/-- The candidates for an engine, each with the engine that holds it in standby, if one does. -/
def candidates (s : State) (p : Nat) (e : BitVec 10) : List (BitVec 14 × Option (BitVec 10)) :=
  let ok (d : BitVec 14) : Bool := admits (s.desc d.toNat) e && !(s.desc d.toNat).holds
  ((movable s p).filter (fun k => k.2 != e && ok k.1)).map (fun k => (k.1, some k.2)) ++
    ((readyOf s p).filter ok).map (fun d => (d, none))

/-- The candidate of the highest EPRI, the oldest of equals. -/
def bestCandidate (s : State) : List (BitVec 14 × Option (BitVec 10)) → Option (BitVec 14 × Option (BitVec 10))
  | [] => none
  | c :: cs => match bestCandidate s cs with
    | none => some c
    | some b => if (s.desc c.1.toNat).epri.toNat < (s.desc b.1.toNat).epri.toNat then some b else some c

/-- The dispatch that the selector makes: the engine, the descriptor, and where it stands by. -/
def selectFor (s : State) (p : Nat) : List (BitVec 10) → Option (BitVec 10 × BitVec 14 × Option (BitVec 10))
  | [] => none
  | e :: es =>
    if awaited s e then selectFor s p es
    else match bestCandidate s (candidates s p e) with
      | none => selectFor s p es
      | some (d, at_) =>
        let beats : Bool := match SMap.get s.dib.sby e.toNat none with
          | none => true
          | some b => decide ((s.desc b.toNat).epri.toNat < (s.desc d.toNat).epri.toNat)
        if beats then some (e, d, at_) else selectFor s p es

/-- SELECT_DISPATCH: the selector makes at most one dispatch in a plot (R316). -/
def execSelectDispatch (p : PlotNo) (s : State) : Host.Outcome State Fault Refusal :=
  if plotGone s p.val ∨ ¬ (blockTx s siteDib).isEmpty then .next s
  else match selectFor s p.val (engineOrder s p.val) with
    | none => .next s
    | some (e, d, some f) => .next (sendDispatch d f true (some e) s)
    | some (e, d, none) => .next (dispatchTo d e s)

/-! ## The engine's standby slot and switches (R311, R317, R318, R323) -/

/-- A load of a descriptor into the standby slot (R306, R311, R317). -/
def loadStandby (e : EngNo) (d : BitVec 14) (v : Word) (s : State) : State :=
  let x := s.desc d.toNat
  let b : Standby :=
    { desc := d, ctx := loadCtx s d.toNat x.k, k := x.k, epri := x.epri, value := v, timeout := x.tmo }
  notify (e.val / 17) (.loaded d (logicalD s e)) (s.modEng e (fun x => { x with standby := some b }))

/-- DISPATCH: an engine loads the descriptor, recalls it, replaces its standby or discards the token (R52, R317). -/
def execDispatch (e : EngNo) (s : State) : Host.Outcome State Fault Refusal :=
  let x := s.eng e
  match x.dispIn with
  | [] => .next s
  | f :: fs =>
    let s := s.setEng e { x with dispIn := fs }
    let d := tagDesc f.tag
    if f.poison then .next (detect (tokenDetect 0x14 e f 0) s)
    else if bits f.tag 0 28 ≠ 0 then .next (detect (tokenDetect 0x12 e f 0) s)
    else match x.standby with
      | none =>
        if x.strand.map (·.desc) = some d then .next s else .next (loadStandby e d f.data s)
      | some b =>
        let s := notify (e.val / 17) (.recalled b.desc (logicalD s e)) (s.modEng e (fun x => { x with standby := none }))
        if b.desc = d then .next s else .next (loadStandby e d f.data s)

/-- The context with the DISPATCH value delivered, when its wait word marks it waiting (R311). -/
def deliverWake (b : Standby) : Ctx :=
  let c := b.ctx
  if bit c.waitWord 8 then
    { setW c (bits c.waitWord 0 4) b.value with
      flags := putBit c.flags 2 b.timeout
      waitWord := putBit c.waitWord 8 false }
  else c

/-- The strand in standby takes the engine in cycle s (R318, R323). -/
def startStandby (e : EngNo) (s : State) : State :=
  let x := s.eng e
  match x.standby with
  | none => s
  | some b =>
    let old := s.profile = .p0100
    let ctx := deliverWake b
    let first := x.cycle + (if old then 10 else 8)
    let t : Strand :=
      { desc := b.desc, k := b.k, epri := b.epri, ctx := ctx, npc := ctx.pc, fetchAt := x.cycle + (if old then 7 else 5),
        fetch := none, dec := none, read := none, writes := [], issueAt := first, block := .none, quantum := false,
        startAt := first, since := now s, fullWait := false, leave := none }
    notify (e.val / 17) (.run b.desc (logicalD s e)) (s.setEng e { x with standby := none, strand := some t, dueAt := none })

/-- A free entry of the pending-access table (R154). -/
def freePend (x : Engine) : Option Nat := (List.range 4).find? (fun i => !x.pend.any (fun m => m.slot == i))

/-- Whether EXEC holds an operation that entered it before the switch became due, a node micro-routine apart (R323). -/
def execOlder (x : Engine) : Bool :=
  let due := x.dueAt.getD x.cycle
  x.exec.isSome || x.results.any (fun r => decide (r.issued < due ∧ x.cycle < r.due) && (match r.origin with
    | .node _ _ _ w => nwOpc w != 0x34 && nwOpc w != 0x35 && decide ((nwOpc w).toNat < 0xE0)
    | _ => true))

/-- Whether the outgoing strand has nothing left in EXEC or EMIT: its writes are done, its tokens have left, and what EXEC
holds is an SC that waits and is abandoned (R154, R323). -/
def strandDrained (x : Engine) (t : Strand) : Bool :=
  t.writes.all (fun w => decide (w.due < x.cycle)) &&
    !x.results.any (fun r => match r.origin with
      | .strand _ _ => true
      | _ => false) && (match t.block with
    | .routine _ => false
    | .precise _ _ _ _ _ => false
    | _ => true) &&
    (match x.sx with
     | none => true
     | some i => siOp i.word == 0x16 && i.waited)

/-- The reason and the AWAIT deadline with which the running strand leaves (R307, R313, R318). -/
def switchReason (x : Engine) (t : Strand) : LeaveReason × Word :=
  match t.leave with
  | some l => l
  | none =>
    if x.stop then (.stop, 0)
    else match x.standby with
      | some b => if t.epri.toNat < b.epri.toNat then (.preempt, 0) else (.quantum, 0)
      | none => (.stop, 0)

/-- The context that is saved at a switch: PC at the next instruction not issued, or at the abandoned FENCE or SC; an
outstanding access is marked (R118, R154). -/
def outgoingCtx (x : Engine) (t : Strand) : Ctx :=
  let c := drained x.cycle t
  let c := { c with flags := putBit c.flags 13 false }
  match t.block, x.sx with
  | .fence pc, _ => { c with pc := pc }
  | .fenceSlot pc _, _ => { c with pc := pc }
  | .access a, _ => { c with waitWord := put (putBit c.waitWord 9 true) 16 (a.accNo.getD 0) }
  | _, some i => { c with pc := i.pc }
  | _, none => c

/-- SWITCH_START: a due switch starts once nothing of the outgoing strand is left in EXEC or EMIT: RUN is sent and the
strand in standby takes the engine, the outgoing context is saved, except after EXIT, and LEAVE is sent. With an empty slot
a strand that leaves or has a stop order leaves the engine without a strand (R154, R155, R307, R318, R323). -/
def execSwitchStart (e : EngNo) (s : State) : Host.Outcome State Fault Refusal :=
  let x := s.eng e
  if !inService s e ∨ !switchDue x ∨ execOlder x then .next s
  else match x.strand with
    | none => .next (startStandby e s)
    | some t =>
      if !strandDrained x t then .next s
      else
        let slot := freePend x
        match t.block, slot with
        | .access _, none =>
          if t.fullWait then .next s
          else .next ((modStrand e (fun t => { t with fullWait := true }) s).satInc (ereg e 0x120) 8 8)
        | b, _ =>
          let c := outgoingCtx x t
          let (why, deadline) := switchReason x t
          let s := match b, slot with
            | .access a, some k => s.modEng e (fun x => { x with pend := x.pend ++ [{ slot := k, desc := t.desc, acc := a }] })
            | _, _ => s
          let s := startStandby e (clearStrand e (if why = .exit then s else saveCtx t.desc.toNat c s))
          .next (notify (e.val / 17) (.leave t.desc why deadline) (s.modEng e (fun x => { x with dueAt := none })))

/-- DIB_CFG.QUANTUM in the layout of the profile, in µs (R318, R329). -/
def quantum (s : State) : Nat :=
  if s.profile = .p0100 then s.fld (breg .dib 0) 0 16 else s.fld (breg .dib 0) 16 16

/-- QUANTUM_EXPIRY: the running strand has held the engine for QUANTUM while one of its priority stands by, and a switch
becomes due (R318). -/
def execQuantumExpiry (e : EngNo) (s : State) : Host.Outcome State Fault Refusal :=
  let x := s.eng e
  match x.strand, x.standby with
  | some t, some b =>
    if quantum s ≠ 0 ∧ t.epri = b.epri ∧ t.since + 1000 * quantum s ≤ now s then
      .next (modStrand e (fun t => { t with quantum := true }) s)
    else .next s
  | _, _ => .next s

/-! ## Deadlines and events (R312, R324, R325) -/

/-- DEADLINE_EXPIRY: the earliest deadline that the time base has reached makes its descriptor READY with TO (R312). -/
def execDeadlineExpiry (s : State) : Host.Outcome State Fault Refusal :=
  match s.dib.deadlines with
  | (t, d) :: _ => if t.toNat ≤ now s then .next (expire d (disarm d s)) else .next s
  | [] => .next s

/-- The event that the event port serves next (R325). -/
def nextEvent (s : State) : Option Nat :=
  let ns := (s.dib.events.filter (fun p => p.2.pend)).map (·.1)
  match ns.find? (fun n => (routeOf s n).urg) with
  | some n => some n
  | none => match ns.find? (fun n => decide (s.dib.evPtr.toNat ≤ n)) with
    | some n => some n
    | none => ns.head?

/-- EVENT_SERVE: one pending event wakes its descriptor and signals its vector by its route, and is cleared; under
CFG_DIVERGE of the routes it does neither (R324, R325, R468). -/
def execEventServe (s : State) : Host.Outcome State Fault Refusal :=
  match nextEvent s with
  | none => .next s
  | some n =>
    let ev := SMap.get s.dib.events n Event.none
    let r := routeOf s n
    let s := { s with dib := { s.dib with
      events := SMap.set s.dib.events n Event.none Event.none
      evPtr := if r.urg then s.dib.evPtr else BitVec.ofNat 11 (n + 1) } }
    if s.sieve.diverged.contains 0x45 then .next s
    else
      let s := if r.str then wakeDesc r.desc (ev.stamp ++ ev.count ++ (0 : BitVec 5) ++ BitVec.ofNat 11 n) s else s
      .next (if r.msi then passVector r.vec s else s)

/-! ## Registers (R330, R331) -/

/-- Whether a function submitted at the command port would be malformed as a BLOCK token; MODE of the data word is
ignored (R331). -/
def badCmdFn (fn : BitVec 6) (unit : BitVec 14) (data : Word) : Bool :=
  badFunction 1 fn unit ||
    (if fn = 0x10 ∨ fn = 0x11 then bits data 52 10 != 0 || bits data 14 14 != 0 else badFnData 1 fn data)

/-- DIB_CMD_GO: a write of DIB_CMD; GO submits the function, a malformed one is refused at once, and a write while BUSY
is dropped (R331). -/
def execDibCmdGo (req : Requester) (v : Reg32) (s : State) : Host.Outcome State Fault Refusal :=
  if unserved req s then .next (countUr s)
  else if outsider req then .next s
  else
  let a := breg .dib 0x20
  if s.flag a 31 then .next (s.setFlag (breg .dib 4) 31 true)
  else match findRow s.profile .dib 0x20 with
    | none => .next s.rsvd
    | some (r, _) =>
      let s := plainWrite a r v s
      let c := s.rd a
      if !bit v 28 then .next s
      else if badCmdFn (bits c 16 6) (bits c 0 14) (s.rd64 (breg .dib 0x24)) then
        .next (finishCmd true (some (BitVec.allOnes 64)) (countRefuse s))
      else .next (s.setFlag a 31 true)

/-- DIB_SWEV_WRITE: each 1 raises its software event (R330). -/
def execDibSwevWrite (req : Requester) (v : Reg32) (s : State) : Host.Outcome State Fault Refusal :=
  if unserved req s then .next (countUr s)
  else if outsider req then .next s
  else
  .next ((List.range 16).foldl (fun s i => if bit v i then raiseEvent (2032 + i) s else s) s)

/-- EVPEND_CLEAR: each 1 discards a pending event and its count (R330). -/
def execEvpendClear (req : Requester) (k : Fin 64) (v : Reg32) (s : State) : Host.Outcome State Fault Refusal :=
  if unserved req s then .next (countUr s)
  else if outsider req then .next s
  else
  .next { s with dib := { s.dib with
    events := s.dib.events.filter (fun p => !(decide (p.1 / 32 = k.val) && bit v (p.1 % 32))) } }

/-- The Dibber's registers as read: the fields that show its state (R330, R331). -/
def viewDib (s : State) (off : Nat) : Reg32 :=
  let raw := s.rd (breg .dib off)
  if off = 4 then
    put (put raw 16 (BitVec.ofNat 7 s.dib.intake.length)) 0
      (BitVec.ofNat 15 ((s.dib.ready.map (fun p => p.2.length)).sum))
  else if off = 0x10 then put raw 0 (BitVec.ofNat 13 s.dib.deadlines.length)
  else if 0x100 ≤ off ∧ off < 0x200 then
    (List.range 32).foldl (fun v i =>
      putBit v i (SMap.get s.dib.events (32 * ((off - 0x100) / 4) + i) Event.none).pend) 0
  else raw

/-- Whether a write to a Dibber register is dropped: DIB_CMD_DATA while a function is in progress (R331). -/
def dibDrops (s : State) (off : Nat) : Bool := (off == 0x24 || off == 0x28) && s.flag (breg .dib 0x20) 31

end Sys2Proof.Machine
end

