-- ==== Sys2Proof/Machine/Evio.lean ====
section
/-! DEFINITION. EVIO (R25, R327, R379, R380, R479 to R483): output schedules, timers, input filters, the PPS input and
the rate of the time base. -/

namespace Sys2Proof.Machine

/-- A control flit of EVIO at P3 (R33, R35). -/
def evioSend (kind : BitVec 4) (tag : BitVec 64) (data : Word) (s : State) : State :=
  let f := mkToken kind 3 (curEpoch s) s.evio.seq tag data
  blockSend siteEvio f { s with evio := { s.evio with seq := s.evio.seq + 1 } }

/-- The reply of an EVIO function: an OPERAND, or a WAKE of the own device's Dibber across the mesh, which keeps the
request's CTX and ITER (R315, R327; assumption log 21). -/
def replyEvio (w v : Word) (ctxIter : BitVec 28) (s : State) : State :=
  if bits w 62 2 = 1 then
    evioSend kOperand (ownId s ++ bits w 42 10 ++ bits w 30 12 ++ bits w 28 2 ++ ctxIter) v s
  else if bits w 62 2 = 2 then
    evioSend kBlock (ownId s ++ (1 : BitVec 4) ++ (1 : BitVec 6) ++ bits w 0 14 ++ ctxIter) v s
  else s

/-- The function at the head of EVIO's intake acts when it has the code, unless a reply of EVIO still waits (R327). -/
def onEvio (fn : BitVec 6) (g : Flit → State → State) (s : State) : Host.Outcome State Fault Refusal :=
  match s.evio.intake with
  | [] => .next s
  | f :: fs =>
    if tagFn f.tag ≠ fn ∨ ¬ (blockTx s siteEvio).isEmpty then .next s
    else .next (g f { s with evio := { s.evio with intake := fs } })

/-- The land of an EVOUT. -/
def outLevel (s : State) (n : Nat) : Level := SMap.get s.evio.outs n .z

/-- The state with the land of an EVOUT driven. -/
def setOut (n : Nat) (v : Level) (s : State) : State :=
  { s with evio := { s.evio with outs := SMap.set s.evio.outs n v .z } }

/-- The schedules of an EVOUT. -/
def schedules (s : State) (n : Nat) : List (BitVec 64 × Bool) := SMap.get s.evio.queues n []

/-- The state with the schedules of an EVOUT replaced. -/
def setSchedules (n : Nat) (l : List (BitVec 64 × Bool)) (s : State) : State :=
  { s with evio := { s.evio with queues := SMap.set s.evio.queues n l [] } }

/-- A schedule joins those of its EVOUT in time order, after those of the same time (R327). -/
def insertSchedule (k : BitVec 64 × Bool) : List (BitVec 64 × Bool) → List (BitVec 64 × Bool)
  | [] => [k]
  | m :: ms => if k.1.toNat < m.1.toNat then k :: m :: ms else m :: insertSchedule k ms

/-- A schedule reaches EVIO's intake (R25, R327, R445, R465): it is discarded in the safe state, under a mode set that
disables the output, or at a full queue; a late one is counted and takes effect at once. -/
def schedule (level : Bool) (f : Flit) (s : State) : State :=
  let n := (tagUnit f.tag).toNat
  if s.sieve.safe.isSome then s.satInc (breg .sieve 0x48) 16 16
  else
    let m := modeSet s f.epoch
    let s := m.2
    if !s.flag (breg .upk (0x200 + 16 * m.1.toNat)) n then s.satInc (breg .upk 0x6C) 0 16
    else if 8 ≤ (schedules s n).length then
      detect { Detection.bare 0x4D with locus := BitVec.ofNat 16 n, a := f.data } s
    else
      let s := setSchedules n (insertSchedule (f.data, level) (schedules s n)) s
      if f.data.toNat ≤ now s then raiseEvent (1968 + n) (s.satInc (breg .evio 8) 0 32) else s

/-- OUT_HIGH (R327). -/
def execOutHigh (s : State) : Host.Outcome State Fault Refusal := onEvio 0x01 (schedule true) s

/-- OUT_LOW (R327). -/
def execOutLow (s : State) : Host.Outcome State Fault Refusal := onEvio 0x02 (schedule false) s

/-- OUT_FLUSH: the queued schedules of the output are discarded and no level changes (R327, R481). -/
def execOutFlush (s : State) : Host.Outcome State Fault Refusal :=
  onEvio 0x03 (fun f s => setSchedules (tagUnit f.tag).toNat [] s) s

/-- SCHEDULE_APPLY: the schedules that the time base has reached take effect; the last one sets the level (R25, R327). -/
def execScheduleApply (n : Fin 32) (s : State) : Host.Outcome State Fault Refusal :=
  let due := (schedules s n.val).filter (fun k => decide (k.1.toNat ≤ now s))
  match due.getLast? with
  | none => .next s
  | some k =>
    let s := setSchedules n.val ((schedules s n.val).filter (fun k => !decide (k.1.toNat ≤ now s))) s
    .next (setOut n.val (if k.2 then .high else .low) s)

/-! ## Timers (R327) -/

/-- The state with a timer replaced. -/
def setTimer (t : Nat) (x : Timer) (s : State) : State :=
  { s with evio := { s.evio with timers := SMap.set s.evio.timers t x Timer.off } }

/-- A timer expires: its event is raised, and a periodic one is armed for the next expiry. -/
def expireTimer (t : Nat) (x : Timer) (s : State) : State :=
  raiseEvent (1088 + t) (setTimer t (if x.period = 0 then Timer.off else { x with expiry := x.expiry + x.period }) s)

/-- The timer a token names. -/
def timerOf (f : Flit) : Nat := (tagUnit f.tag).toNat - 0x100

/-- TMR_AT: one expiry; one already passed raises the event at once (R327). -/
def execTmrAt (s : State) : Host.Outcome State Fault Refusal :=
  onEvio 0x08 (fun f s =>
    let x : Timer := { armed := true, expiry := f.data.toNat, period := 0 }
    if x.expiry ≤ now s then expireTimer (timerOf f) x s else setTimer (timerOf f) x s) s

/-- TMR_EVERY: expiries at T + k × period, T the time base at intake (R327). -/
def execTmrEvery (s : State) : Host.Outcome State Fault Refusal :=
  onEvio 0x09 (fun f s =>
    let x : Timer := { armed := true, expiry := s.evio.intakeAt.toNat + f.data.toNat, period := f.data.toNat }
    if x.expiry ≤ now s then expireTimer (timerOf f) x s else setTimer (timerOf f) x s) s

/-- TMR_STOP: the timer is disarmed (R327). -/
def execTmrStop (s : State) : Host.Outcome State Fault Refusal :=
  onEvio 0x0A (fun f s => setTimer (timerOf f) Timer.off s) s

/-- TIMER_EXPIRY: the time base has reached a timer's expiry (R327). -/
def execTimerExpiry (t : Fin 256) (s : State) : Host.Outcome State Fault Refusal :=
  let x := SMap.get s.evio.timers t.val Timer.off
  if x.armed ∧ x.expiry ≤ now s then .next (expireTimer t.val x s) else .next s

/-- TIME: the reply is the time base at intake (R327). -/
def execTime (s : State) : Host.Outcome State Fault Refusal :=
  onEvio 0x10 (fun f s => replyEvio f.data s.evio.intakeAt (bits f.tag 0 28) s) s

/-- The filter of an input: EVIN_0 to EVIN_63, and PPS_IN as 64. -/
def filterOf (s : State) (n : Nat) : Filter := if n = 64 then s.evio.pps else SMap.get s.evio.inputs n Filter.reset

/-- The state with the filter of an input replaced. -/
def setFilter (n : Nat) (x : Filter) (s : State) : State :=
  if n = 64 then { s with evio := { s.evio with pps := x } }
  else { s with evio := { s.evio with inputs := SMap.set s.evio.inputs n x Filter.reset } }

/-- The stamp of an input's last change that matched EDGE when it happened; zero while EDGE is 0b00 (R327; assumption log
117). -/
def stampOf (s : State) (n : Nat) : BitVec 64 :=
  if s.fld (breg .evio (0x100 + 4 * n)) 8 2 = 0 then 0 else (filterOf s n).stamp

/-- STAMP: the reply is the stamp of the input's last matching change (R327). -/
def execStamp (s : State) : Host.Outcome State Fault Refusal :=
  onEvio 0x11 (fun f s => replyEvio f.data (stampOf s ((tagUnit f.tag).toNat - 0x200)) (bits f.tag 0 28) s) s

/-! ## Inputs (R479, R480) -/

/-- F of an input: EVIO_IN_n_CFG.FILT, and 4 for PPS_IN. -/
def filtOf (s : State) (n : Nat) : Nat := if n = 64 then 4 else s.fld (breg .evio (0x100 + 4 * n)) 0 8

/-- Whether the lands are sampled: not while PD_CTRL is held in a reset, which ends in step POWER; a POWER that fails after
its row 3 has released it (R414, R480; assumption log 145). -/
def sampling (s : State) : Bool :=
  s.opState != .off && (s.opState != .boot || bootStep s != 0 || (bootFail s != 0 && s.flag (breg .pwr 0x24) 12))

/-- CLK_STATUS.PLLM_LOCK: TBCLK has a cycle for each ns of the time base, and without the lock one for each 10 ns (R414). -/
def pllmLocked (s : State) : Bool := s.flag (breg .clk 0) 1

/-- The samples taken from a time on, the present one included (R414, R479). -/
def samplesFrom (s : State) (t : BitVec 64) : Nat :=
  let n := now s
  let u := s.time.unlockAt.toNat
  if n < t.toNat then 0
  else if pllmLocked s then n - t.toNat + 1
  else if u ≤ t.toNat then (n - t.toNat) / 10 + 1
  else (u - t.toNat) + (n - u) / 10 + 1

/-- The time of the sample `k` samples before the present one (R414, R479). -/
def sampleBack (s : State) (k : Nat) : BitVec 64 :=
  let m := (now s - s.time.unlockAt.toNat) / 10
  if pllmLocked s then s.time.now - BitVec.ofNat 64 k
  else if k ≤ m then s.time.now - BitVec.ofNat 64 (10 * k)
  else s.time.unlockAt - BitVec.ofNat 64 (k - m)

/-- The time of the next sample. -/
def nextSample (s : State) : BitVec 64 := s.time.now + (if pllmLocked s then 1 else 10)

/-- Whether F samples have been taken since the count of an input last restarted (R479). -/
def counted (s : State) (n : Nat) : Bool := sampling s && decide (filtOf s n ≤ samplesFrom s (filterOf s n).since)

/-- The count of an input's samples starts anew at the next one (R479, R480). -/
def recount (n : Nat) (s : State) : State := setFilter n { filterOf s n with since := nextSample s } s

/-- The filter after its level has changed, and the time of the first sample at the new level (R479). -/
def changed (s : State) (n : Nat) (hit : Bool) : Filter × BitVec 64 :=
  let x := filterOf s n
  let t := sampleBack s (filtOf s n - 1)
  ({ level := !x.level, since := nextSample s, stamp := if hit then t else x.stamp }, t)

/-- EVIN_EDGE: F samples have shown a new level, which becomes the filtered level; a matching edge raises its event with
the time of the first of them (R479). -/
def execEvinEdge (n : Fin 64) (s : State) : Host.Outcome State Fault Refusal :=
  if !counted s n.val then .next s
  else
    let rising : Bool := !(filterOf s n.val).level
    let hit := s.flag (breg .evio (0x100 + 4 * n.val)) (if rising then 8 else 9)
    let c := changed s n.val hit
    let s := setFilter n.val c.1 s
    .next (if hit then raiseEventAt (1344 + n.val) c.2 s else s)

/-- EVIN_GLITCH: a land has returned to its old level before the F-th sample: the count restarts and GLITCH counts
(R479). -/
def execEvinGlitch (n : Fin 65) (s : State) : Host.Outcome State Fault Refusal :=
  .next (if sampling s then (recount n.val s).satInc (breg .evio (if n.val = 64 then 0x20 else 0x100 + 4 * n.val)) 16 16 else s)

/-- EVIN_CFG_WRITE: the filter's count restarts at the next sample, and its level is kept (R480, R483). -/
def execEvinCfgWrite (req : Requester) (n : Fin 64) (v : Reg32) (s : State) : Host.Outcome State Fault Refusal :=
  if unserved req s then .next (countUr s)
  else if s.opState = .off ∨ outsider req then .next s
  else match findRow s.profile .evio (0x100 + 4 * n.val) with
  | none => .next s.rsvd
  | some (r, _) => .next (recount n.val (plainWrite (breg .evio (0x100 + 4 * n.val)) r v s))

/-! ## The rate of the time base (R379, R380, R382) -/

/-- A rate in parts per 10^9 within the limit of R379. -/
def clampRate (r : Int) : Int := if r < -200000 then -200000 else if 200000 < r then 200000 else r

/-- The state with RUN_TBRATE at a rate. -/
def setRate (r : Int) (s : State) : State := s.wr (breg .run 0x30) (BitVec.ofInt 32 (clampRate r))

/-- RUN_TSCFG.SRC. -/
def timeSource (s : State) : Nat := s.fld (breg .run 0x20) 12 2

/-- LOCKED changes, and EV_1942 is raised at each change (R382). -/
def setLocked (b : Bool) (s : State) : State :=
  if s.flag (breg .run 0x24) 31 = b then s else raiseEvent 1942 (s.setFlag (breg .run 0x24) 31 b)

/-- PPS_OK changes: EV_1941 is raised, and LOCKED follows it with SRC 0b01 (R380, R382). -/
def setPpsOk (b : Bool) (s : State) : State :=
  let s := if s.flag (breg .run 0x24) 30 = b then s else raiseEvent 1941 (s.setFlag (breg .run 0x24) 30 b)
  if timeSource s = 1 then setLocked b s else s

/-- The error of a time from the nearest second, less the cable delay, in ns (R380). -/
def ppsError (s : State) (t : BitVec 64) : Int :=
  let x : Int := (t.toNat : Int) - (s.fld (breg .run 0x34) 16 16 : Int)
  let r := x % 1000000000
  if 500000000 ≤ r then r - 1000000000 else r

/-- PPS_EDGE: the filtered level of PPS_IN changes; an edge of the selected kind sets the rate so as to cancel the error
over 8 s (R380, R479). -/
def execPpsEdge (s : State) : Host.Outcome State Fault Refusal :=
  if !counted s 64 then .next s
  else
    let rising : Bool := !(filterOf s 64).level
    let cfg := s.rd (breg .run 0x34)
    let hit : Bool := rising != bit cfg 1
    let c := changed s 64 hit
    let s := setFilter 64 c.1 s
    if !hit ∨ !bit cfg 0 ∨ timeSource s ≠ 1 then .next s
    else
      let s := setRate (Int.tdiv (-(ppsError s c.2)) 8) s
      .next (setPpsOk true { s with evio := { s.evio with ppsAt := c.2 } })

/-- PPS_LOSS: 1.5 s pass with no edge: PPS_OK clears and the rate holds (R380). -/
def execPpsLoss (s : State) : Host.Outcome State Fault Refusal :=
  if s.flag (breg .run 0x24) 30 ∧ s.evio.ppsAt.toNat + 1500000000 ≤ now s then .next (setPpsOk false s) else .next s

/-! ## Registers (R483) -/

/-- A mask of the outputs for which a condition holds. -/
def outMask (s : State) (p : Level → Bool) : Reg32 := (List.range 32).foldl (fun v n => putBit v n (p (outLevel s n))) 0

/-- Filtered levels of 32 inputs from a number. -/
def pinsIn (s : State) (lo : Nat) : Reg32 := (List.range 32).foldl (fun v i => putBit v i (filterOf s (lo + i)).level) 0

/-- The registers of EVIO as read: the time base and the lands (R26, R483). -/
def viewEvio (s : State) (off : Nat) : Reg32 :=
  if off = 0 then bits s.time.now 0 32
  else if off = 4 then bits s.time.now 32 32
  else if off = 0x10 then pinsIn s 0
  else if off = 0x14 then pinsIn s 32
  else if off = 0x18 then outMask s (· == .high)
  else if off = 0x1C then outMask s (· == .z)
  else if off = 0x20 then putBit (s.rd (breg .evio off)) 0 s.evio.pps.level
  else s.rd (breg .evio off)

end Sys2Proof.Machine
end

