-- ==== Sys2Proof/Machine/Clock.lean ====
section
/-! DEFINITION. The time base (R26, R379, R414): what passes when no command waits. -/

namespace Sys2Proof.Machine

/-- The rate in force, in parts per 10^9, within its limit (R379). -/
def tbRate (s : State) : Int := clampRate (s.rd (breg .run 0x30)).toInt

/-- One cycle of TBCLK: once step POWER has begun the time base adds 1 ns, corrected by the rate through the accumulator;
while PLL_M is not locked one cycle of REFCLK adds 10 ns with the correction held (R379, R414). -/
def nextTime (s : State) : TimeBase :=
  if !s.time.started then s.time
  else if s.flag (breg .clk 0) 1 then
    let f := (s.time.frac : Int) + 1000000000 + tbRate s
    { s.time with now := s.time.now + BitVec.ofInt 64 (f / 1000000000), frac := (f % 1000000000).toNat }
  else { s.time with now := s.time.now + 10 }

/-- Time passes in a powered device (assumption log 31). -/
def tick (s : State) : State := if s.opState = .off then s else { s with time := nextTime s }

end Sys2Proof.Machine
end

