-- ==== Sys2Proof/Machine/Crc.lean ====
section
/-! DEFINITION. The CRC-32 of R356: the IEEE 802.3 polynomial, all ones at the start, the most significant bit first, the
result complemented. -/

namespace Sys2Proof.Machine

/-- One bit. -/
def crcBit (c : BitVec 32) (b : Bool) : BitVec 32 :=
  if c.msb != b then (c <<< 1) ^^^ 0x04C11DB7 else c <<< 1

/-- Bits in their order. -/
def crcBits (bs : List Bool) : BitVec 32 := ~~~(bs.foldl crcBit 0xFFFFFFFF)

/-- The bits of a value from bit `hi` down, `n` of them. -/
def bitsDown {w : Nat} (v : BitVec w) (hi n : Nat) : List Bool := (List.range n).map (fun i => bit v (hi - i))

/-- The CRC of bytes, each from its most significant bit (R217, R399; assumption log 23). -/
def crcBytes (bs : List Byte) : BitVec 32 :=
  ~~~(bs.foldl (fun c b => (List.range 8).foldl (fun c i => crcBit c (bit b (7 - i))) c) 0xFFFFFFFF)

end Sys2Proof.Machine
end

