-- ==== Sys2Proof/Machine/Locks.lean ====
section
/-! DEFINITION. The lock unit (R332 to R352): rights, functions, passes, replies, inheritance, reset notices and group
events. -/

namespace Sys2Proof.Machine

/-! ## Codes (R342) -/

def lcGranted : BitVec 8 := 0x01
def lcGrantedAbn : BitVec 8 := 0x02
def lcBusy : BitVec 8 := 0x03
def lcFreed : BitVec 8 := 0x04
def lcFreedAbn : BitVec 8 := 0x05
def lcReleased : BitVec 8 := 0x06
def lcDenied : BitVec 8 := 0x07
def lcNoSpace : BitVec 8 := 0x08
def lcNotOwner : BitVec 8 := 0x09
def lcOwned : BitVec 8 := 0x0A
def lcStuck : BitVec 8 := 0x0B
def lcWithdrawn : BitVec 8 := 0x0C
def lcNotWaiting : BitVec 8 := 0x0D
def lcInvalid : BitVec 8 := 0x0E
def lcNotHeld : BitVec 8 := 0x0F

/-- The encoding of LCK_LSTAT.STATE. -/
def LState.code : LState → BitVec 2
  | .free => 0
  | .held => 1
  | .stuck => 2

/-- An owner in the layout of LCK_LSTAT_n_HI (R351). -/
def Owner.word : Owner → Reg32
  | .none => 0
  | .desc dev d => (1 : BitVec 4) ++ dev ++ (0 : BitVec 2) ++ d
  | .eng dev e => (2 : BitVec 4) ++ dev ++ (0 : BitVec 6) ++ e
  | .host => (3 : BitVec 4) ++ (0 : BitVec 28)
  | .mc => (4 : BitVec 4) ++ (0 : BitVec 28)

/-! ## Requesters and rights (R335 to R337) -/

/-- RDEV of a lock word. -/
def lwDev (w : Word) : BitVec 12 := bits w 16 12
/-- WPRI of a lock word. -/
def lwPri (w : Word) : BitVec 5 := bits w 52 5

/-- The owner identity of a lock word (R335). -/
def wordOwner (w : Word) : Owner :=
  if bits w 62 2 = 2 then .desc (lwDev w) (bits w 0 14) else .eng (lwDev w) (bits w 42 10)

/-- Whether a group admits an owner (R337), by the layout of the profile (R352). -/
def groupAdmits (s : State) (g : Nat) (o : Owner) : Bool :=
  let c := s.rd (breg .lck (0x100 + 16 * g))
  let old : Bool := s.profile == .p0100
  let plots := s.rd64 (breg .lck (0x104 + 16 * g))
  !s.sieve.diverged.contains 0x44 && match o with
  | .none => false
  | .host => bit c (if old then 31 else 0)
  | .mc => bit c (if old then 30 else 1)
  | .desc dev d => if dev = ownId s then bit plots (d.toNat / 256) else bit c (if old then 29 else 2)
  | .eng dev e => if dev = ownId s then bit plots (e.toNat / 16) else bit c (if old then 29 else 2)

/-! ## Passes (R339 to R341) -/

/-- An answer to a waiter: its lock word, its CTX and ITER, and the code. -/
structure LockReply where
  word : Word
  ctxIter : BitVec 28
  code : BitVec 8
  lock : BitVec 12
  deriving DecidableEq, Repr

/-- The answer of a waiter. -/
def answerOf (n : BitVec 12) (code : BitVec 8) (w : Waiter) : LockReply :=
  { word := w.word, ctxIter := w.ctxIter, code := code, lock := n }

/-- A lock after a pass, and the answers in their order (R341). -/
def passedLock (n : BitVec 12) (f : Bool) (x : Lock) : Lock × List LockReply :=
  let watchers := (x.waiters.filter (·.watch)).map (answerOf n (if f then lcFreedAbn else lcFreed))
  match x.waiters.filter (fun w => !w.watch) with
  | a :: as =>
    ({ state := .held, abn := false, owner := a.who, waiters := as },
      watchers ++ [answerOf n (if f then lcGrantedAbn else lcGranted) a])
  | [] => ({ state := .free, abn := f, owner := .none, waiters := [] }, watchers)

/-- A lock passes (R341). -/
def passLock (n : BitVec 12) (f : Bool) (s : State) : List LockReply × State :=
  let r := passedLock n f (s.lock n.toNat)
  (r.2, s.setLock n.toNat r.1)

/-- Waiter entries in use (R340). -/
def lockPool (s : State) : Nat := (s.lck.locks.map (fun p => p.2.waiters.length)).sum

/-- A waiter joins a queue: highest WPRI first, oldest first within one (R340). -/
def insertWaiter (w : Waiter) : List Waiter → List Waiter
  | [] => [w]
  | v :: vs => if (lwPri v.word).toNat < (lwPri w.word).toNat then w :: v :: vs else v :: insertWaiter w vs

/-! ## Inheritance (R344, R345) -/

/-- The highest WPRI among the acquirers queued on the HELD locks of a local descriptor (R344). -/
def inhOf (s : State) (d : BitVec 14) : Option (BitVec 5) :=
  let ws := (s.lck.locks.filter (fun p => p.2.state == .held && p.2.owner == .desc (ownId s) d)).flatMap
    (fun p => p.2.waiters.filter (fun w => !w.watch))
  ws.foldl (fun m w => match m with
    | none => some (lwPri w.word)
    | some p => if p.toNat < (lwPri w.word).toNat then some (lwPri w.word) else some p) none

/-- An update enters the direct path in place of an unsent one for the same descriptor (R344). -/
def pushInh (d : BitVec 14) (v : Option (BitVec 5)) (s : State) : State :=
  let same (m : DirectMsg) : Bool := match m with
    | .inh k _ => k == d
    | .wake _ _ => false
  let direct := if s.lck.direct.any same then s.lck.direct.map (fun m => if same m then .inh d v else m)
    else s.lck.direct ++ [.inh d v]
  { s with lck := { s.lck with direct := direct, inh := SMap.set s.lck.inh d.toNat v none } }

/-- The local descriptors that own a lock. -/
def lockDescs (s : State) : List (BitVec 14) :=
  s.lck.locks.filterMap (fun p => match p.2.owner with
    | .desc dev d => if dev = ownId s then some d else none
    | _ => none)

/-- Updates are sent for the descriptors whose inheritance an update cycle has changed (R344). -/
def syncInh (old : State) (s : State) : State :=
  if !s.flag (breg .lck 0) 0 then s
  else (lockDescs old ++ lockDescs s).foldl (fun s d =>
    let v := inhOf s d
    if SMap.get s.lck.inh d.toNat none = v then s else pushInh d v s) s

/-! ## Group events (R349) -/

/-- The events of one lock between the states before and after an update cycle. -/
def lockEvents (old s : State) (n : Nat) : List Nat :=
  let a := old.lock n
  let b := s.lock n
  let g := n / 64
  let c := s.rd (breg .lck (0x100 + 16 * g))
  let p : Bool := s.profile == .p0100
  let freed : Bool := b.state == .free && a.state != .free
  let attn : Bool := (freed && b.abn) || (b.state == .stuck && a.state != .stuck) || (a.waiters.isEmpty && !b.waiters.isEmpty)
  (if freed && bit c (if p then 0 else 7) then [1664 + 2 * g] else []) ++
    (if attn && bit c (if p then 1 else 6) then [1665 + 2 * g] else [])

/-- The group events between two states of the locks. -/
def eventsOf (old s : State) : List Nat := (((old.lck.locks ++ s.lck.locks).map (·.1)).eraseDups).flatMap (lockEvents old s)

/-- The group events of an update cycle, each once: of its notice, which leads from `old` to `mid`, and of its function. -/
def groupEvents (old mid s : State) : State := ((eventsOf old mid ++ eventsOf mid s).eraseDups).foldl (fun s n => raiseEvent n s) s

/-! ## Replies (R342) -/

/-- A control flit of the lock unit at P3; one whose DEV may not be emitted is discarded and recorded (R33, R35, R37). -/
def lckSend (kind : BitVec 4) (tag : BitVec 64) (data : Word) (s : State) : State :=
  let f := mkToken kind 3 (curEpoch s) s.lck.seq tag data
  if badDev s kind (tagDev tag) then detect (blockDetect 0x42 (BitVec.ofNat 8 siteLck) f) s
  else blockSend siteLck f { s with lck := { s.lck with seq := s.lck.seq + 1 } }

/-- The 64-bit result. -/
def lockResult (n : BitVec 12) (code : BitVec 8) : Word := (0 : BitVec 20) ++ n ++ (0 : BitVec 24) ++ code

/-- A reply leaves by the form of its lock word (R342; assumption log 21). -/
def sendReply (s : State) (r : LockReply) : State :=
  let w := r.word
  let v := lockResult r.lock r.code
  if bits w 62 2 = 1 then
    lckSend kOperand (lwDev w ++ bits w 42 10 ++ bits w 30 12 ++ bits w 28 2 ++ r.ctxIter) v s
  else if lwDev w = ownId s then
    { s with lck := { s.lck with direct := s.lck.direct ++ [.wake (bits w 0 14) v] } }
  else lckSend kBlock (lwDev w ++ (1 : BitVec 4) ++ (1 : BitVec 6) ++ bits w 0 14 ++ r.ctxIter) v s

/-- An update cycle ends: inheritance updates, replies and events follow from what its notice, which leads to `mid`, and its
function changed (R344, R349). -/
def endUpdate (old mid : State) (r : List LockReply × State) : State :=
  groupEvents old mid (r.1.foldl sendReply (syncInh old r.2))

/-! ## Holder reset (R346, R347) -/

/-- Whether a reset notice names an owner. -/
def ResetMsg.names (m : ResetMsg) (o : Owner) : Bool :=
  match m.dev with
  | none => m.who == o
  | some x => (match o with
    | .desc dev _ => dev == x
    | .eng dev _ => dev == x
    | _ => false)

/-- The waiter entries that a notice names leave every queue, and are counted (R347). -/
def purgeWaiters (m : ResetMsg) (s : State) : State :=
  let before := lockPool s
  let s := (s.lck.locks.map (·.1)).foldl (fun s n =>
    let x := s.lock n
    s.setLock n { x with waiters := x.waiters.filter (fun w => !m.names w.who) }) s
  let n := before - lockPool s
  if n = 0 then s else s.satAdd (breg .lck 0xC) 0 16 n

/-- Each lock of a list is abandoned, in rising order (R346). -/
def abandonLocks : List Nat → List LockReply → State → List LockReply × State
  | [], rs, s => (rs, s)
  | n :: ns, rs, s =>
    let p := passLock (BitVec.ofNat 12 n) true (s.satInc (breg .lck 0x10) 0 16)
    abandonLocks ns (rs ++ p.1) p.2

/-- The HELD locks become STUCK, which is recorded once (R346, R456). -/
def stickLocks (ns : List Nat) (s : State) : State :=
  match ns with
  | [] => s
  | n :: _ =>
    let o := (s.lock n).owner
    let s := ns.foldl (fun s n => s.setLock n { s.lock n with state := .stuck }) s
    raiseEvent 1940 (detect { Detection.bare 0x4E with
      locus := BitVec.ofNat 16 n, a := o.word.setWidth 64, b := BitVec.ofNat 16 ns.length } s)

/-- What the notice at the front does in its update cycle: the owner's waiter entries go, and its HELD locks become STUCK in
SERVICE or pass as abandoned in the other states (R346, R347). -/
def noticeStep (s : State) : List LockReply × State :=
  match s.lck.notices with
  | [] => ([], s)
  | m :: ms =>
    let t := purgeWaiters m { s with lck := { s.lck with notices := ms } }
    let ns := (t.lck.locks.filter (fun p => p.2.state == .held && m.names p.2.owner)).map (·.1)
    if m.service then ([], stickLocks ns t) else abandonLocks ns [] t

/-! ## Functions (R338, R343) -/

/-- LCK_CMD: BUSY, FN and UNIT in the layout of the profile (R351, R352). -/
def lckCmd (s : State) : Bool × BitVec 6 × BitVec 12 :=
  let c := s.rd (breg .lck 0x20)
  match s.profile with
  | .p0100 => (bit c 30, bits c 0 6, bits c 16 12)
  | _ => (bit c 31, bits c 16 6, bits c 0 12)

/-- LCK_CMD and LCK_CMD_RES show a function that has been applied (R351). -/
def finishLckCmd (n : BitVec 12) (code : BitVec 8) (s : State) : State :=
  let a := breg .lck 0x20
  let old : Bool := s.profile == .p0100
  let s := (s.setFlag a (if old then 30 else 31) false).setFlag a (if old then 29 else 30) true
  s.wr (breg .lck 0x24) ((0 : BitVec 4) ++ n ++ (0 : BitVec 8) ++ code)

/-- A lock function: who asks, the lock, and for a token its lock word, CTX and ITER. -/
structure LockReq where
  who : Owner
  lock : BitVec 12
  word : Word
  ctxIter : BitVec 28
  /-- at the command port -/
  cmd : Bool
  /-- its provenance breaks R336 -/
  strange : Bool
  deriving DecidableEq, Repr

/-- Whether the update stage holds: the direct path is full or a reply waits for its queue (R223, R344). -/
def lckHolds (s : State) : Bool := decide (64 ≤ s.lck.direct.length) || !(blockTx s siteLck).isEmpty

/-- The function that the update stage takes next when it has the code: the command port before the intake (R343). -/
def nextLock (s : State) (fn : BitVec 6) : Option (LockReq × State) :=
  let c := lckCmd s
  if c.1 then
    if c.2.1 = fn then
      some ({ who := if s.lck.cmdMc then .mc else .host, lock := c.2.2, word := 0, ctxIter := 0, cmd := true,
              strange := false }, s)
    else none
  else
    match s.lck.intake with
    | [] => none
    | f :: fs =>
      if tagFn f.tag ≠ fn then none
      else
        let w := f.data
        some ({ who := wordOwner w, lock := bits f.tag 28 12, word := w, ctxIter := bits f.tag 0 28, cmd := false,
                strange := (f.hops == 0) != (lwDev w == ownId s) },
          { s with lck := { s.lck with intake := fs } })

/-- The answers and the state of a function: its code, unless the request queues. -/
abbrev LockStep := Option (BitVec 8) × List LockReply × State

/-- A function of the lock unit, in an update cycle that first applies a reset notice that waits: its checks in the order of
R337, then its effect, its own reply after those of a pass, unless QUIET is set. `port` says whether the command port may
send it (R338, R343). -/
def onLock (fn : BitVec 6) (port : LockReq → Bool) (g : LockReq → Lock → State → LockStep) (s : State) :
    Host.Outcome State Fault Refusal :=
  if lckHolds s then .next s
  else match nextLock s fn with
    | none => .next s
    | some (r, s₁) =>
      let n := noticeStep s₁
      let s := n.2
      let x := s.lock r.lock.toNat
      let res : LockStep :=
        if r.strange ∨ (r.cmd ∧ ¬ port r) ∨ (¬ r.cmd ∧ fn = 8) then (some lcInvalid, [], s)
        else if fn ≠ 8 ∧ ¬ groupAdmits s (r.lock.toNat / 64) r.who then (some lcDenied, [], s.satInc (breg .lck 8) 16 16)
        else g r x s
      let own : List LockReply := match res.1 with
        | some c => if r.cmd ∨ bit r.word 15 then [] else [{ word := r.word, ctxIter := r.ctxIter, code := c, lock := r.lock }]
        | none => []
      let t := endUpdate s₁ s (n.1 ++ res.2.1 ++ own, res.2.2)
      if r.cmd then .next (finishLckCmd r.lock (res.1.getD 0) t) else .next t

/-- A FREE lock is granted (R339). -/
def grant (r : LockReq) (x : Lock) (s : State) : LockStep :=
  (some (if x.abn then lcGrantedAbn else lcGranted), [],
    s.setLock r.lock.toNat { state := .held, abn := false, owner := r.who, waiters := x.waiters })

/-- A request joins the queue, unless the pool is full (R340). -/
def queueUp (r : LockReq) (watch : Bool) (x : Lock) (s : State) : LockStep :=
  if 2048 ≤ lockPool s then (some lcNoSpace, [], s.satInc (breg .lck 8) 0 16)
  else
    (none, [], s.setLock r.lock.toNat { x with
      waiters := insertWaiter { who := r.who, word := r.word, ctxIter := r.ctxIter, watch := watch } x.waiters })

/-- ACQUIRE (R338). -/
def execAcquire (s : State) : Host.Outcome State Fault Refusal :=
  onLock 0x01 (fun _ => false) (fun r x s =>
    if x.state = .free then grant r x s
    else if x.owner = r.who then (some lcOwned, [], s)
    else queueUp r false x s) s

/-- TRY: never queues (R338). -/
def execLockTry (s : State) : Host.Outcome State Fault Refusal :=
  onLock 0x02 (fun _ => true) (fun r x s =>
    if x.state = .free then grant r x s
    else if x.owner = r.who then (some lcOwned, [], s)
    else (some (if x.state = .held then lcBusy else lcStuck), [], s)) s

/-- WAIT: a watcher is answered at the next release or abandonment (R338). -/
def execLockWait (s : State) : Host.Outcome State Fault Refusal :=
  onLock 0x03 (fun _ => false) (fun r x s =>
    if x.state = .free then (some (if x.abn then lcFreedAbn else lcFreed), [], s) else queueUp r true x s) s

/-- RELEASE: from the owner of a HELD lock, the lock passes; otherwise LCK_MISC.NOTOWN counts it (R338, R351). -/
def execLockRelease (s : State) : Host.Outcome State Fault Refusal :=
  onLock 0x04 (fun _ => true) (fun r x s =>
    if x.state = .held ∧ x.owner = r.who then
      let p := passLock r.lock x.abn s
      (some lcReleased, p.1, p.2)
    else
      let code := if x.state = .held then lcNotOwner else if x.state = .stuck then lcStuck else lcNotHeld
      (some code, [], s.satInc (breg .lck 0xC) 16 16)) s

/-- The waiters without the first entry of an owner. -/
def dropWaiter (o : Owner) : List Waiter → List Waiter
  | [] => []
  | w :: ws => if w.who = o then ws else w :: dropWaiter o ws

/-- WITHDRAW: the requester's waiter entry leaves the queue, of a lock that it owns too (R338; assumption log 114). -/
def execWithdraw (s : State) : Host.Outcome State Fault Refusal :=
  onLock 0x05 (fun _ => false) (fun r x s =>
    let owns : Bool := x.state != .free && x.owner == r.who
    if x.waiters.any (fun w => w.who == r.who) then
      (some (if owns then lcOwned else lcWithdrawn), [],
        s.setLock r.lock.toNat { x with waiters := dropWaiter r.who x.waiters })
    else (some (if owns then lcOwned else lcNotWaiting), [], s)) s

/-- FORCE on a lock: a HELD or STUCK one passes as abandoned (R348). -/
def forceStep (n : BitVec 12) (s : State) : BitVec 8 × List LockReply × State :=
  if (s.lock n.toNat).state = .free then (lcNotHeld, [], s)
  else
    let p := passLock n true (s.satInc (breg .lck 0x10) 16 16)
    (lcReleased, p.1, p.2)

/-- The MC submits FORCE for a lock at the command port: LCK_CMD takes its FN and UNIT (R348, R351). -/
def submitForce (n : BitVec 12) (s : State) : State :=
  let a := breg .lck 0x20
  let old : Bool := s.profile == .p0100
  let s := (s.setFld a (if old then 0 else 16) 6 8).setFld a (if old then 16 else 0) 12 n.toNat
  { s with lck := { s.lck with cmdMc := true } }

/-- FORCE as one update cycle of the command port, with its result there (R343, R348). -/
def forceLock (n : BitVec 12) (s : State) : BitVec 8 × State :=
  let s := submitForce n s
  let k := noticeStep s
  let r := forceStep n k.2
  (r.1, finishLckCmd n r.1 (endUpdate s k.2 (k.1 ++ r.2.1, r.2.2)))

/-- FORCE: the function in progress at the command port or at the head of the intake when it is a FORCE, which only the
MC's is allowed; with the port free and no such token, the MC's own submission for the lock named (R338, R348). -/
def execForce (lock : BitVec 12) (s : State) : Host.Outcome State Fault Refusal :=
  if lckHolds s then .next s
  else if (nextLock s 8).isSome then
    onLock 0x08 (fun r => r.who == .mc) (fun r _ s =>
      let f := forceStep r.lock s
      (some f.1, f.2.1, f.2.2)) s
  else if (lckCmd s).1 then .next (s.setFlag (breg .lck 4) 31 true)
  else .next (forceLock lock s).2

/-- Whether the host or the MC makes an access; no other requester writes the lock unit's registers (R351). -/
def lckWriter (req : Requester) : Bool := req == .host || req == .mc

/-- LCK_CMD_GO: a write of LCK_CMD; GO submits the function, and an unlisted one is INVALID at once (R338, R351). -/
def execLckCmdGo (req : Requester) (v : Reg32) (s : State) : Host.Outcome State Fault Refusal :=
  if unserved req s then .next (countUr s) else
  let a := breg .lck 0x20
  if !lckWriter req ∨ (lckCmd s).1 then .next (s.setFlag (breg .lck 4) 31 true)
  else match findRow s.profile .lck 0x20 with
    | none => .next s.rsvd
    | some (r, _) =>
      let old : Bool := s.profile == .p0100
      let s := plainWrite a r v s
      let c := lckCmd s
      if !bit v (if old then 31 else 28) then .next s
      else
        let s := { s with lck := { s.lck with cmdMc := req == .mc } }
        if (1 ≤ c.2.1.toNat ∧ c.2.1.toNat ≤ 5) ∨ c.2.1 = 8 then .next (s.setFlag a (if old then 30 else 31) true)
        else .next (finishLckCmd c.2.2 lcInvalid s)

/-! ## Holder reset (R346) -/

/-- RESET_NOTICE: an update cycle with a notice and no function (R343, R346, R347). -/
def execResetNotice (s : State) : Host.Outcome State Fault Refusal :=
  if s.lck.notices.isEmpty ∨ lckHolds s then .next s
  else
    let n := noticeStep s
    .next (endUpdate s n.2 n)

/-- A reset notice for an owner, with the state in which its cause began (R346). -/
def sendReset (o : Owner) (service : Bool) (s : State) : State :=
  { s with lck := { s.lck with notices := s.lck.notices ++ [{ who := o, dev := none, service := service }] } }

/-- INH_DISABLE: clearing INH_EN clears inheritance on every descriptor that has it (R345). -/
def execInhDisable (req : Requester) (s : State) : Host.Outcome State Fault Refusal :=
  if unserved req s then .next (countUr s)
  else if !lckWriter req then .next (s.setFlag (breg .lck 4) 31 true)
  else
    let ds := (s.lck.inh.filter (fun p => p.2.isSome)).map (·.1)
    .next (ds.foldl (fun s d => pushInh (BitVec.ofNat 14 d) none s) (s.setFlag (breg .lck 0) 0 false))

/-! ## Registers (R351) -/

/-- The lock unit's registers as read: the fields that show its state. -/
def viewLck (s : State) (off : Nat) : Reg32 :=
  let raw := s.rd (breg .lck off)
  if off = 4 then
    put (put raw 16 (BitVec.ofNat 13 ((s.lck.locks.filter (fun p => p.2.state == .stuck)).length))) 0 (BitVec.ofNat 12 (lockPool s))
  else if 0x8000 ≤ off then
    let x := s.lock ((off - 0x8000) / 8)
    if off % 8 = 4 then x.owner.word
    else
      let top : BitVec 5 := match x.waiters with
        | w :: _ => lwPri w.word
        | [] => 0
      (0 : BitVec 11) ++ top ++ BitVec.ofNat 12 x.waiters.length ++ (0 : BitVec 1) ++ BitVec.ofBool x.abn ++ x.state.code
  else raw

end Sys2Proof.Machine
end

