-- ==== Sys2Proof/Machine/Resets.lean ====
section
/-! DEFINITION. The resets of R429 to R431: of an engine slot, of a plot and of the device, with what they do to
descriptors and locks (R322, R346). -/

namespace Sys2Proof.Machine

/-! ## Registers -/

/-- The registers from an address to below another return to their reset values. -/
def dropRegs (lo hi : Nat) (s : State) : State := { s with regs := SMap.dropRange s.regs lo hi }

/-- An engine slot after an engine reset: empty, its ENG registers at their reset values with both halt bits 1; the
microcode version and the entry latches are kept (R220, R430). The pointer of its plot's binary64 unit starts anew
(R170). -/
def resetSlot (e : Nat) (s : State) : State :=
  let s := dropRegs (ereg e 0) (ereg e 0x200) s
  let s := dropRegs (ereg e 0x204) (ereg e 0x240) s
  (s.setEng e Engine.reset).modPlot (e / 17) (fun x => { x with b64ptr := 15 })

/-! ## Descriptors (R322) -/

/-- A descriptor is lost: LOST is set, and the lock unit receives the reset notice of its owner (R322, R346). -/
def loseDesc (d : BitVec 14) (service : Bool) (s : State) : State :=
  sendReset (.desc (ownId s) d) service (modDesc d (fun x => { x with lost := true, accHold := false }) s)

/-- A descriptor becomes CANCELLED with LOST (R322). -/
def cancelLost (d : BitVec 14) (service : Bool) (s : State) : State :=
  let s := disarm d (unready d s)
  loseDesc d service (modDesc d (fun x => { x with state := .cancelled, sent := none, stopping := false,
                                                   resumeAfter := false, deliver := none }) s)

/-- One descriptor after the reset of the engines that a predicate names: RUNNING there, it is lost; STANDBY there, it is
READY at the head of its priority. -/
def resetDesc (engs : BitVec 10 → Bool) (service : Bool) (s : State) (d : Nat) : State :=
  let x := s.desc d
  let d : BitVec 14 := BitVec.ofNat 14 d
  if x.state = .running ∧ engs x.lastEng then cancelLost d service s
  else if x.state = .standby ∧ (x.sent.map engs).getD false then makeReady d true s
  else s

/-- The Dibber applies R322 to the engines that a predicate names; `pend` are the descriptors of their pending
accesses. -/
def resetStrands (engs : BitVec 10 → Bool) (pend : List (BitVec 14)) (service : Bool) (s : State) : State :=
  let s := (s.dib.descs.map (·.1)).foldl (resetDesc engs service) s
  let s := pend.foldl (fun s d => if (s.desc d.toNat).state = .free then s else loseDesc d service s) s
  let keep (k : Nat) : Bool := !engs (BitVec.ofNat 10 k)
  { s with dib := { s.dib with
    outst := s.dib.outst.filter (fun o => !engs o.eng)
    halt := s.dib.halt.filter (fun p => keep p.1)
    run := s.dib.run.filter (fun p => keep p.1)
    sby := s.dib.sby.filter (fun p => keep p.1) } }

/-- The descriptors whose accesses are pending in an engine slot (R154). -/
def pendOf (s : State) (e : Nat) : List (BitVec 14) := (s.eng e).pend.map (·.desc)

/-- The engine that a notice names. -/
def Notice.eng? : Notice → Option (BitVec 10)
  | .run _ e => some e
  | .loaded _ e => some e
  | .recalled _ e => some e
  | .halt e _ => some e
  | .leave _ _ _ => none
  | .accessDone _ _ => none

/-! ## The plot reset (R431) -/

/-- A plot's reset begins: it takes no token, its register path answers as absent, and its queues are flushed: in its
inbound ones too a sheaf partly written is broken, since its router discards the rest (R269, R431). -/
def beginPlotReset (p : PlotNo) (by_ : ResetBy) (s : State) : State :=
  let s := s.modPlot p.val (fun x => { x with resetting := some { origin := by_, service := s.opState == .service } })
  (List.range 3).foldl (fun s c => flushQueue p.val false c true (flushQueue p.val true c true s)) s

/-- The reader of a plot's inbound queue has lost a sheaf that it had begun: the rest of it is discarded as it is read. -/
def abandonRead (p chan : Nat) (s : State) : State :=
  let k := qkey p false chan
  match holdAt s (holdQueue k) with
  | some (_, n) =>
    if SMap.get s.owed k 0 = 0 then setHold (holdQueue k) (some (0x1000, n)) s
    else setHold (holdQueue k) none { s with owed := SMap.set s.owed k 0 0 }
  | none => s

/-- What the reset of a plot clears: flits left in its outbound queues, its slots, its crossbar and agent, and the registers
that a plot reset resets (R249, R430, R431). Its time out of an epoch advance ends: it takes CUR (R448), and copies of both
mode sets (assumption log 140). -/
def clearPlot (p : PlotNo) (s : State) : State :=
  let s := (List.range 3).foldl (fun s c =>
    let k := qkey p.val true c
    let s := emptyQueue p.val true c s
    abandonRead p.val c { s with dropping := SMap.set s.dropping k false false, wleft := SMap.set s.wleft k 0 0 }) s
  let s := (List.range 17).foldl (fun s i => resetSlot (17 * p.val + i) s) s
  let s := (List.range 32).foldl (fun s o => (List.range 3).foldl (fun s c => setHold (holdXbar p.val o c) none s) s) s
  let s := dropRegs (preg p.val 0x100) (preg p.val 0x200) s
  let s := dropRegs (preg p.val 0x10000) (preg p.val 0x20000) s
  let x := s.plot p.val
  copyPages p.val true (copyPages p.val false
    (s.setPlot p.val { Plot.reset with epoch := curEpoch s, absent := x.absent, powered := x.powered }))

/-- The lock unit receives the reset notice of each engine of a plot (R346). -/
def resetOwners (p : PlotNo) (service : Bool) (s : State) : State :=
  (List.range 16).foldl (fun s i => sendReset (.eng (ownId s) (BitVec.ofNat 10 (16 * p.val + i))) service s) s

/-- TBLOCK holds while a plot that timed out of an epoch advance has been neither reset nor quarantined (R448). -/
def seeTblock (s : State) : State :=
  let late := (s.plots.any (fun q => q.2.epochLate && !q.2.absent))
  if s.flag (breg .upk 0x64) 1 = late then s else s.setFlag (breg .upk 0x64) 1 late

/-- An epoch advance whose last plot has acknowledged drains (R446). -/
def seeWaiting (s : State) : State :=
  if epochBusy s ∧ s.upkeep.waiting = [] ∧ s.upkeep.drainAt = none then
    { s with upkeep := { s.upkeep with drainAt := some s.time.now } }
  else s

/-- A plot owes no acknowledgement of an epoch order any more (R448). -/
def dropWaiting (p : PlotNo) (s : State) : State :=
  seeWaiting { s with upkeep := { s.upkeep with waiting := s.upkeep.waiting.filter (fun w => w.1 != p) } }

/-- A plot's reset ends: it is delivered to again and is not quiescent, and its strands and locks follow (R244, R322, R346,
R431). -/
def finishPlotReset (p : PlotNo) (s : State) : State :=
  match (s.plot p.val).resetting with
  | none => s
  | some r =>
    let pend := (List.range 17).flatMap (fun i => pendOf s (17 * p.val + i))
    let s := clearPlot p s
    let s := resetStrands (fun e => e.toNat / 16 == p.val) pend r.service s
    seeTblock (dropWaiting p (resetOwners p r.service (stirDevice s)))

/-! ## The power ceiling (R418, R421) -/

/-- CLK_PLOT_n_REQ. -/
def clkReq (p : Nat) : Nat := breg .clk (0x100 + 8 * p)
/-- CLK_PLOT_n_STAT. -/
def clkStat (p : Nat) : Nat := breg .clk (0x104 + 8 * p)
/-- PWR_LDO_n. -/
def ldoReg (p : Nat) : Nat := breg .pwr (0x100 + 4 * p)

/-- Whether a plot's domain is on and the plot is not quarantined. -/
def plotOn (s : State) (p : Nat) : Bool := s.opState != .off && (s.plot p).powered && !(s.plot p).absent

/-- CLK_PLOT_n_REQ.TARGET. -/
def targetCode (s : State) (p : Nat) : Nat := s.fld (clkReq p) 0 6

/-- PWR_CEIL.CODE. -/
def ceilCode (s : State) : Nat := s.fld (breg .pwr 0x14) 0 6

/-- Whether the ceiling governs a plot. -/
def capped (s : State) (p : Nat) : Bool := plotOn s p && !s.flag (clkReq p) 8

/-- The highest TARGET among plots in service with CAPX = 0 (R421). -/
def topTarget (s : State) : Nat :=
  if (List.range 64).any (capped s) then
    (List.range 64).foldl (fun m p => if capped s p then max m (targetCode s p) else m) 0
  else Config.noTarget.toNat

/-- PWR_STATUS.CAP follows the ceiling, and EV_1933 is raised whenever it changes (R421). -/
def seeCap (s : State) : State :=
  let cap := decide (ceilCode s < topTarget s)
  if s.flag (breg .pwr 0) 6 = cap then s else raiseEvent 1933 (s.setFlag (breg .pwr 0) 6 cap)

/-! ## Quarantine -/

/-- A plot is quarantined: every descriptor of it that is not FREE is lost, its locks are told, SIEVE_QUAR shows it and
its domain is switched off (R322, R415, R464). -/
def quarantinePlot (p : PlotNo) (service : Bool) (s : State) : State :=
  let s := clearPlot p s
  let s := (List.range 3).foldl (fun s c => emptyQueue p.val false c s) s
  let ds := (s.dib.descs.map (·.1)).filter (fun d => d / 256 == p.val && (s.desc d).state != .free)
  let s := ds.foldl (fun s d => cancelLost (BitVec.ofNat 14 d) service s) s
  let s := resetStrands (fun e => e.toNat / 16 == p.val) [] service s
  let s := resetOwners p service s
  let s := s.setFlag (breg .sieve (0x30 + 4 * (p.val / 32))) (p.val % 32) true
  let s := s.setFlag (breg .pwr (0x1C + 4 * (p.val / 32))) (p.val % 32) false
  let s := s.setFld (ldoReg p.val) 0 10 0
  let s := (s.setFlag (clkStat p.val) 31 false).setFlag (clkStat p.val) 30 false
  let s := s.setFld (clkStat p.val) 0 6 0
  let s := s.modPlot p.val (fun x => { x with absent := true, powered := false, resetting := none })
  seeTblock (dropWaiting p (seeCap s))

/-! ## Engine retirement (R16, R462) -/

/-- What the reset of a slot throws away (R462 step 2). -/
def slotContents (x : Engine) : Nat :=
  x.inP3.length + x.inP2.length + x.inP1.length + x.inP0.length + x.acks.length + x.sheafIn.length +
    x.sheafReq.length + x.strandIn.length +
    x.refillIn.length + x.dispIn.length + x.results.length + x.holdP3.length + x.holdMain.length + x.outP3.length +
    x.outMain.length + msTotal x + x.p3ovf.length + (x.spillQ.map (fun u => u.entries.length)).sum + x.mpb.length +
    x.pend.length + x.fences.length + x.sheafWr.length + x.bufHeld.length

/-- One word of a local memory goes to the spare: it is checked as any read is, and an uncorrectable one goes as zero with
an uncorrectable check pattern (R298, R462). -/
def copyWord (m : LocalMem) (e : EngNo) (spare : Nat) (s : State) (i : Nat) : State :=
  let b := m.base spare + 8 * i
  let r := localCheck m e [m.base e + 8 * i] s
  if r.1 then (r.2.store b 8 0).setMark b .double else (r.2.store b 8 (s.load (m.base e + 8 * i) 8)).setMark b .clean

/-- The refill answers of a list without the sheaves for one engine; `skip` says that the first flits end such a sheaf. -/
def dropAnswers (eng : BitVec 10) (skip : Bool) : List (Nat × Flit) → List (Nat × Flit)
  | [] => []
  | q :: qs =>
    let drop : Bool := if q.2.kind = kSheafData then skip else q.2.engOf == eng
    if drop then dropAnswers eng true qs else q :: dropAnswers eng false qs

/-- The agent's refill answers for an engine slot that is being retired go with it (R462). -/
def dropFills (p : PlotNo) (e : Nat) (eng : BitVec 10) (s : State) : State :=
  let k := holdXbar p.val (e % 17) chRsp
  let mid : Bool := match holdAt s k with
    | some (i, _) => i == 20
    | none => false
  let s := if mid then setHold k none s else s
  s.modPlot p.val (fun x => { x with xfill := dropAnswers eng mid x.xfill })

/-- The agent purges the bucket slots and the spill intake of a local index, and counts them; it reads the slots as the
purge of a context does, and waits for those that a waking bank or a borrow holds (R281, R295, R444, R462; assumption log
139). -/
def purgeIndex (p : PlotNo) (i : BitVec 4) (s : State) : State :=
  let used := (s.plot p.val).buckets.map (·.1)
  let s := (used.flatMap (fun k => slotWords (bucketAddr s p.val k) 2)).foldl (fun s w => awaitWord w s) s
  let s := dropLost p used s
  let own (k : Nat) : Bool := slotLocal (BitVec.ofNat 128 (s.bytesAt (bucketAddr s p.val k) 16)) == i
  let ks := ((s.plot p.val).buckets.map (·.1)).filter own
  let units := (s.plot p.val).spillIn.filter (fun u => u.1 == i)
  let n := ks.length + (units.map (fun u => u.2.entries.length)).sum
  let s := ks.foldl (fun s k => setSlotUsed p.val k false s) s
  countPurged p.val n (s.modPlot p.val (fun x => { x with spillIn := x.spillIn.filter (fun u => u.1 != i) }))

/-- The registers that the spare takes over from the retired slot (R462 step 3). -/
def sparedRegs : List Nat := [0x10, 0x14, 0x80, 0x84, 0x88, 0x8C, 0x90, 0x94]

/-- The steps of R462: the retired slot is emptied, the spare takes its memories and its logical number. The answer is
what the retired slot held. -/
def retireSlot (p : PlotNo) (sl : Nat) (service : Bool) (s : State) : Nat × State :=
  let e := 17 * p.val + sl
  let spare := 17 * p.val + 16
  let l := logicalD s e
  let n := slotContents (s.eng e)
  let pend := pendOf s e
  let regs := sparedRegs.map (fun o => (o, s.rd (ereg e o)))
  let loop := s.flag (ereg e 4) 2
  let s := purgeIndex p (bits l 0 4) (dropFills p e l (resetSlot e s))
  let en : EngNo := ⟨e % 1088, Nat.mod_lt _ (by decide)⟩
  let s := (List.range 4096).foldl (copyWord .imem en spare) s
  let s := (List.range 4096).foldl (copyWord .frame en spare) s
  let s := resetSlot spare s
  let s := regs.foldl (fun s r => s.wr (ereg spare r.1) r.2) s
  let s := s.setFlag (ereg spare 4) 2 loop
  let m := s.rd (preg p.val 0)
  let m := putBit (putBit (putBit (put m 21 (BitVec.ofNat 5 sl)) 31 true) 30 false) sl true
  let s := s.wr (preg p.val 0) m
  let s := s.modPlot p.val (fun x => { x with notices := x.notices.filter (fun k => k.eng? != some l) })
  let s := resetStrands (fun k => k == l) pend service s
  (n, sendReset (.eng (ownId s) l) service s)

/-! ## The device reset (R429, R430) -/

/-- Registers that a device reset keeps: under DEVICE_RESET the endpoint's configuration and its link status. -/
def keptRegs (cmd : Bool) (a : Nat) : Bool :=
  cmd && (decide (breg .bar4 0x8000 ≤ a) || a == breg .host 0)

/-- RUN_DEVID at a device reset (R371). -/
def devidReset (root : Bool) : Reg32 := if root then 0x80000000 else 0x00000FFF

/-- A device reset: every block but the time base, the fuses, the TAP and, under DEVICE_RESET, the endpoint (R397,
R414, R429, R430, R481). `cause` is the bit of PWR_RSTCAUSE. -/
def deviceReset (cause : Nat) (rootSel testMode : Bool) (s : State) : State :=
  let cmd := cause == 2
  let lock := s.flag (breg .clk 0) 1
  let t := State.reset
  let s := { t with
    pending := s.pending, free := s.free, time := s.time, tap := s.tap, pwrGood := s.pwrGood, opState := .boot
    prevState := .boot, rootSel := rootSel, testMode := testMode
    mem := s.mem.filter (fun c => decide (c.1 < 0x4000000))
    marks := s.marks.filter (fun c => decide (c.1 < 0x4000000))
    pres := s.pres
    regs := s.regs.filter (fun r => keptRegs cmd r.1)
    upkeep := { t.upkeep with passAt := s.time.now, calAt := s.time.now, tickAt := s.time.now, eyeAt := s.time.now }
    host := if cmd then { s.host with pba := [] } else t.host }
  let s := (List.range 8).foldl (fun s n => modLink n (fun x => { x with since := s.time.now }) s) s
  let s := ([.host, .mc, .smbus] : List Requester).foldl (fun s r => noteAccess r s) s
  let s := s.setFlag (breg .clk 0) 1 lock
  let s := s.wr (breg .run 0) (devidReset rootSel)
  let s := s.wr (breg .pwr 0x2C) (put (0 : Reg32) cause (1 : BitVec 1))
  (s.setFlag (breg .bar4 0x14) 31 true).setFld (breg .bar4 0x14) 0 8 (if cmd then 7 else 0)

/-- Loss of power: nothing is held but what the fuses hold (R411, R429). -/
def powerOff (s : State) : State := { State.reset with pending := s.pending, free := s.free }

end Sys2Proof.Machine
end

