-- ==== Sys2Proof/Machine/Sieve.lean ====
section
/-! DEFINITION. The Sieve (R450 to R472): detections, records and the history queue, the reactions and the safe state,
the voting pass and the FIFO resets. -/

namespace Sys2Proof.Machine

/-! ## Records (R453 to R459) -/

/-- Codes that R451 lists. -/
def listedCode (c : Nat) : Bool := (defaultReact c).isSome

/-- FAULT_DETECT: a detector reports; INJ is set only by factory equipment (R451, R453, R470). -/
def execFaultDetect (d : Detection) (s : State) : Host.Outcome State Fault Refusal :=
  let c := d.code.toNat
  if s.opState = .off ∨ !listedCode c ∨ (c < 0x40 ∧ d.plot.isNone) then .next s
  else .next (detect { d with inj := d.inj && s.testMode } s)

/-- SIEVE_HIST.HEAD. -/
def histHead (s : State) : Nat := s.fld (breg .sieve 8) 0 6
/-- SIEVE_HIST.COUNT. -/
def histCount (s : State) : Nat := s.fld (breg .sieve 8) 8 7

/-- An entry of the history queue. -/
def histAt (s : State) (i : Nat) : Option Rec := SMap.get s.sieve.hist i none

/-- The state with an entry of the history queue replaced. -/
def setHist (i : Nat) (r : Option Rec) (s : State) : State :=
  { s with sieve := { s.sieve with hist := SMap.set s.sieve.hist i r none } }

/-- A record is lost at a full queue (R454). -/
def loseRecord (s : State) : State :=
  raiseEvent 1937 ((s.satInc (breg .sieve 8) 16 8).setFlag (breg .sieve 8) 31 true)

/-- The youngest closed non-FATAL entry of a full queue (R454). -/
def youngestClosed (s : State) : Option Nat :=
  ((List.range (histCount s)).reverse.map (fun k => (histHead s + k) % 64)).find? (fun i => match histAt s i with
    | some r => !r.open_ && r.cls != 3
    | none => false)

/-- A record is written to the history queue, or lost (R454). -/
def writeHist (c : Nat) (r : Rec) (s : State) : State :=
  let n := histCount s
  if n < 64 then
    setRec c { r with hist := some (BitVec.ofNat 6 (histHead s + n)) } (s.setFld (breg .sieve 8) 8 7 (n + 1))
  else if r.cls = 3 then
    match youngestClosed s with
    | some i => setRec c { r with hist := some (BitVec.ofNat 6 i) } s
    | none => loseRecord s
  else loseRecord s

/-- RECORD_ARRIVAL: the record that travels reaches the device collector: it is written to the history queue, EV_1936 is
raised for EVENT and above, and a reaction above EVENT is queued (R453, R454, R460, R465). -/
def execRecordArrival (s : State) : Host.Outcome State Fault Refusal :=
  match s.sieve.travel with
  | [] => .next s
  | c :: cs =>
    let s := { s with sieve := { s.sieve with travel := cs } }
    match recOf s c with
    | none => .next s
    | some r =>
      let s := writeHist c r s
      let s := if r.react = reLog then s else raiseEvent 1936 s
      if !aboveEvent r.react then .next s
      else match s.sieve.safe with
        | some k => if k = c then .next s else .next (dropReaction k c s)
        | none => .next (requeue c (r.worstCls == 3) s)

/-- RECORD_CLOSE: a record of LOG or EVENT closes HOLD after it opened, another one TAIL after its last reaction; a
DEVICE_SAFE record stays open (R459). -/
def execRecordClose (i : Fin 66) (s : State) : Host.Outcome State Fault Refusal :=
  match recOf s i.val with
  | none => .next s
  | some r =>
    if !r.open_ ∨ s.sieve.travel.contains i.val then .next s
    else if r.react = reSafe then .next s
    else if r.phase = .none ∧ !aboveEvent r.react then
      if r.tDet.toNat + sieveTime s 8 ≤ now s then .next (closeRec i.val s) else .next s
    else if r.phase = .done ∧ (r.tDone.getD r.tDet).toNat + sieveTime s 0 ≤ now s then .next (closeRec i.val s)
    else .next s

/-! ## Running reactions (R460 to R465) -/

/-- The plot and slot of an engine-target record. -/
def recSlot (r : Rec) : Nat := r.phys.toNat % 17

/-- The mask of a reaction (R467). -/
def reactMask (s : State) (r : Rec) (react : BitVec 3) : Option Mask :=
  if react = reSafe then some .device
  else match r.tplot with
  | none => none
  | some p =>
    if react = reRetire then some (.engine p (logicalD s r.phys.toNat) (BitVec.ofNat 5 (recSlot r)))
    else if react = reReset ∨ react = reQuarantine then some (.plot p)
    else none

/-- A record's reaction is over without having run: REACT reads another value, and the record closes as one that has run
none, or after the last one it has run (R459, R461, R463; assumption log 91). -/
def settle (c : Nat) (r : Rec) (react : BitVec 3) (s : State) : State :=
  setRec c { r with react := react, phase := if r.tDone.isSome then .done else .none } s

/-- The running reaction of a record, which starts: its mask comes into force, the state that its reset notices carry is
taken, and a plot's reset begins (R346, R431, R464, R467). -/
def startReaction (c : Nat) (r : Rec) (react : BitVec 3) (s : State) : State :=
  let s := { s with sieve := { s.sieve with running := some c, runReact := react, service := s.opState == .service } }
  let s := setRec c { r with react := react, phase := .running } s
  let s := match reactMask s r react with
    | some m => addMask m c none s
    | none => s
  match r.tplot with
  | none => s
  | some p =>
    if (react = reReset ∨ react = reQuarantine) ∧ (s.plot p.val).resetting.isNone then
      beginPlotReset p (if react = reReset then .reaction else .quarantine) s
    else s

/-- A record's reaction starts, or cannot act on its target (R461 to R463); a retirement of a record that names no engine
cannot (assumption log 144). -/
def beginReaction (c : Nat) (r : Rec) (s : State) : State :=
  match r.tplot with
  | none => startReaction c r r.react s
  | some p =>
    if r.react = reSafe then startReaction c r r.react s
    else if (s.plot p.val).absent then settle c r reLog s
    else if r.react = reRetire then
      if r.phys = 0x7FF then settle c r reLog s
      else
      let sl := recSlot r
      let spare := s.flag (preg p.val 0) 30
      if sl = outSlot s p.val then
        if sl = 16 ∧ spare then
          settle c r reEvent ((s.setFlag (preg p.val 0) 30 false).setFlag (preg p.val 0) 16 true)
        else settle c r reLog s
      else if spare then startReaction c r reRetire s
      else
        startReaction c { r with react := reQuarantine, esc := true, target := 2 } reQuarantine (raiseEvent 1936 s)
    else startReaction c r r.react s

/-- Whether the LDO of a plot that is on slews (R417). -/
def slewing (s : State) : Bool :=
  !s.power.frozen && (List.range 64).any (fun p => plotOn s p && !s.flag (ldoReg p) 31)

/-- Whether a transition of meeting point 3 is in progress, so that a reaction waits: an epoch advance that a FATAL
reaction has not frozen, a bank transition, an LDO's slew, or a link's power-up (R19, R295, R428, R448). -/
def transiting (s : State) : Bool :=
  (epochBusy s && !s.flag (breg .upk 0x64) 30) || s.flag (breg .grn 0x200) 31 || slewing s || !s.power.linkUp.isEmpty

/-- The power-downs of links whose power has not been removed are rolled back (R428). -/
def keepLinks (s : State) : State :=
  s.power.linkDown.foldl (fun s n => s.setFlag (breg .pwr 0x18) n.val true)
    { s with power := { s.power with linkDown := [] } }

/-- A FATAL reaction holds every LDO, PLL and domain where it stands: a plot's transition ends with TRUNC, and no domain
change goes on (R19, R428). -/
def freezePower (s : State) : State :=
  let s := { s with power := { s.power with frozen := true, linkUp := [], linkDown := [], linkAsk := none } }
  (List.range 64).foldl (fun s p =>
    if s.flag (clkStat p) 31 then (s.setFlag (clkStat p) 31 false).setFlag (clkStat p) 29 true else s) s

/-- Plots to which an epoch order is sent, in ascending order: those in service (R446, R448). -/
def orderedPlots (s : State) : List PlotNo := (List.finRange 64).filter (fun p => !plotGone s p)

/-- An epoch advance starts: CUR changes, the staging set is copied to every plot in service, and each is sent an order
(R446). -/
def startEpoch (s : State) : State :=
  let s := (s.setFlag (breg .upk 0x64) 0 (!curEpoch s)).setFlag (breg .upk 0x64) 31 true
  let s := (orderedPlots s).foldl (fun s p => copyPages p.val (curEpoch s) s) s
  let u := { s.upkeep with waiting := (orderedPlots s).map (fun p => (p, s.time.now)), drainAt := none, asked := false }
  seeWaiting { s with upkeep := u }

/-- The running record when its reaction is one, with its plot. -/
def runningAs (s : State) (react : BitVec 3) : Option (Nat × Rec × PlotNo) :=
  match s.sieve.running with
  | none => none
  | some c => match recOf s c with
    | none => none
    | some r => match r.tplot with
      | none => none
      | some p => if s.sieve.runReact = react ∧ r.phase = .running then some (c, r, p) else none

/-- The work of the running reaction is done; it has yet to complete. -/
def acted (c : Nat) (s : State) : State :=
  match recOf s c with
  | some r => setRec c { r with phase := .acted } s
  | none => s

/-- CONSEQ of a record takes a number of consequential losses (R462). -/
def addConseqs (c n : Nat) (s : State) : State :=
  match recOf s c with
  | some r => setRec c { r with conseq := if 0xFFFF ≤ r.conseq.toNat + n then 0xFFFF else r.conseq + BitVec.ofNat 16 n } s
  | none => s

/-- ENGINE_RETIRE: the running retirement replaces the slot by the spare (R16, R462). -/
def execEngineRetire (s : State) : Host.Outcome State Fault Refusal :=
  match runningAs s reRetire with
  | none => .next s
  | some (c, r, p) =>
    let t := retireSlot p (recSlot r) s.sieve.service s
    .next (acted c (addConseqs c t.1 t.2))

/-- PLOT_RESET_REACTION: the running plot reset ends; one that a command started ends with the command (R431, R461,
R464). -/
def execPlotResetReaction (s : State) : Host.Outcome State Fault Refusal :=
  match runningAs s reReset with
  | none => .next s
  | some (c, _, p) =>
    match (s.plot p.val).resetting with
    | some x => if x.origin = .command then .next s else .next (acted c (finishPlotReset p s))
    | none => .next (acted c s)

/-- PLOT_QUARANTINE: the running quarantine ends; its notices carry the state in which it began (R346, R464). -/
def execPlotQuarantine (s : State) : Host.Outcome State Fault Refusal :=
  match runningAs s reQuarantine with
  | none => .next s
  | some (c, _, p) =>
    .next (acted c (quarantinePlot p s.sieve.service s))

/-! ## DEVICE_SAFE (R465, R482) -/

/-- The fail-safe level of an EVOUT; high impedance under CFG_DIVERGE of the levels (R468, R471, R482). -/
def safeLevel (s : State) (n : Nat) : Level :=
  if s.sieve.diverged.contains 0x41 then .z
  else
    let v := s.fld (breg .sieve (0x40 + 4 * (n / 16))) (2 * (n % 16)) 2
    if v = 0 then .low else if v = 1 then .high else .z

/-- The frame of a notice is queued on every ACTIVE link (R377). -/
def sendNotice (reason : BitVec 4) (s : State) : State :=
  if ownId s = 0xFFF ∨ !s.flag (breg .run 4) 1 then s
  else
    let f : BitVec 160 := ownId s ++ reason ++ s.fabric.nseq ++ (0 : BitVec 136)
    let s := { s with fabric := { s.fabric with nseq := s.fabric.nseq + 1 } }
    (List.range 8).foldl (fun s n =>
      if s.fld (breg .run (0x104 + 0x40 * n)) 0 4 = 5 then modLink n (fun x => { x with noticeTx := x.noticeTx ++ [f] }) s
      else s) s

/-- Both halt bits are set in an engine; a change of STR_HALT is noticed (R82, R307). -/
def haltEngine (s : State) (e : Nat) : State :=
  if !inService s e then s
  else
    let was := s.flag (ereg e 4) 1
    let s := (s.setFlag (ereg e 4) 0 true).setFlag (ereg e 4) 1 true
    match logicalOf s e with
    | some l => if was then s else notify (e / 17) (.halt l true) s
    | none => s

/-- A link that a boundary-scan instruction held in DISABLED trains again (R359, R488). -/
def releaseLink (s : State) (n : Nat) : State :=
  let a := breg .run (0x104 + 0x40 * n)
  if s.fld a 0 4 = 0 ∧ s.flag (breg .run (0x100 + 0x40 * n)) 0 ∧ s.flag (breg .pwr 0x24) n then
    modLink n (fun x => { x with since := s.time.now }) (s.setFld a 0 4 1)
  else s

/-- The safe state begins under a record: the lands take their safe levels, FAULT_N goes low, schedules and queued
reactions are dropped, notices leave, and the engines halt (R428, R448, R460, R465, R488). -/
def enterSafe (c : Nat) (fatal : Bool) (s : State) : State :=
  let scan := s.tap.instr.drives
  let s := (List.range 32).foldl (fun s n => setOut n (safeLevel s n) s) s
  let s := { s with
    faultN := true
    evio := { s.evio with queues := [] }
    tap := if scan then { s.tap with instr := .bypass } else s.tap }
  let s := if fatal then freezePower s else s
  let s := if scan then (List.range 8).foldl releaseLink s else s
  let s := if fatal then s.setFlag (breg .upk 0x64) 30 true else s
  let q := s.sieve.queue.filter (· != c)
  let s := { s with sieve := { s.sieve with safe := some c, queue := [] } }
  let s := q.foldl (fun s k => dropReaction c k s) s
  let s := sendNotice 1 s
  if s.flag (breg .sieve 0x38) 0 then (List.range 1088).foldl haltEngine s else s

/-- A record of DEVICE_SAFE that starts at once, because a FATAL detection brought it there (R458, R460). -/
def fatalSafe (s : State) : Option Nat :=
  if s.sieve.safe.isSome then none
  else ((s.sieve.recs.map (·.1)).find? (fun c => !s.sieve.travel.contains c && (match recOf s c with
    | some r => r.open_ && r.react == reSafe && r.worstCls == 3
    | none => false)))

/-- DEVICE_SAFE: a FATAL record's reaction starts and acts at once, even beside another; any other acts when it is the
running one (R460, R465). -/
def execDeviceSafe (s : State) : Host.Outcome State Fault Refusal :=
  match fatalSafe s with
  | some c =>
    let s := enterSafe c true s
    match recOf s c with
    | none => .next s
    | some r =>
      if s.sieve.running = some c then .next (if s.sieve.runReact = reSafe then acted c s else s)
      else .next (setRec c { r with phase := .done, tDone := some s.time.now } s)
  | none =>
    match s.sieve.running with
    | none => .next s
    | some c => match recOf s c with
      | none => .next s
      | some r =>
        if s.sieve.runReact = reSafe ∧ r.phase = .running ∧ s.sieve.safe.isNone then
          .next (acted c (enterSafe c false s))
        else .next s

/-- SERVICE becomes RECOVERY when a reaction has reset part of the device; a self-test takes note of it (R3). -/
def afterReset (s : State) : State :=
  let s := match s.cmd with
    | some c => { s with cmd := some { c with dirty := true } }
    | none => s
  if s.opState = .service then { s with opState := .recovery } else s

/-! ## Software's commands (R454, R466) -/

/-- Whether a requester may write the registers of a management block: the host or the MC (R432, R449, R471). -/
def hostOrMc (req : Requester) : Bool := req == .host || req == .mc

/-- SIEVE_STATUS.CFG_DROP. -/
def sieveDrop (s : State) : State := s.setFlag (breg .sieve 4) 31 true

/-- SIEVE_HIST_POP: the closed entry at HEAD is freed (R454). -/
def execSieveHistPop (req : Requester) (v : Reg32) (s : State) : Host.Outcome State Fault Refusal :=
  if unserved req s then .next (countUr s)
  else if !hostOrMc req then .next (sieveDrop s)
  else if !bit v 0 then .next s
  else
    match histAt s (histHead s) with
    | none => .next (sieveDrop s)
    | some r =>
      if r.open_ then .next (sieveDrop s)
      else
        let h := histHead s
        let n := histCount s
        .next (((setHist h none s).setFld (breg .sieve 8) 0 6 ((h + 1) % 64)).setFld (breg .sieve 8) 8 7 (n - 1))

/-- SW_SAFE: a write of SIEVE_SAFE_CTL sets HALT, and ENTER opens an SW_SAFE record (R466). -/
def execSwSafe (req : Requester) (v : Reg32) (s : State) : Host.Outcome State Fault Refusal :=
  if unserved req s then .next (countUr s)
  else if !hostOrMc req then .next (sieveDrop s)
  else
    let s := s.setFlag (breg .sieve 0x38) 0 (bit v 0)
    .next (if bit v 31 then detect (Detection.bare 0x67) s else s)

/-! ## FIFOs (R469) -/

/-- A record without its history entry. -/
def unlisted (r : Rec) : Rec := { r with hist := none }

/-- The entries of a device FIFO, and the state with it empty (R469). -/
def emptyFifo (site : Nat) (s : State) : Nat × State :=
  if site = 0 then (s.dib.intake.length, { s with dib := { s.dib with intake := [] } })
  else if site = 1 then (s.lck.intake.length, { s with lck := { s.lck with intake := [] } })
  else if site = 2 then (s.lck.direct.length, { s with lck := { s.lck with direct := [] } })
  else if site < 7 then
    let x := quad s (site - 3)
    (x.ring.length, setQuad (site - 3) { x with ring := [] } s)
  else if site = 7 then (s.dib.deadlines.length, { s with dib := { s.dib with deadlines := [] } })
  else
    let n := histCount s
    let recs := s.sieve.recs.map (fun (p : Nat × Option Rec) => (p.1, p.2.map unlisted))
    let s := { s with sieve := { s.sieve with hist := [], recs := recs } }
    (n, ((s.setFld (breg .sieve 8) 8 7 0).satAdd (breg .sieve 8) 16 8 n))

/-- The FIFO_PTR record of the history queue, if `t` after `s` has opened one, arrives there before any other (R469). -/
def firstRecord (site : FifoSite) (s t : State) : State :=
  if site = 8 ∧ t.sieve.recno ≠ s.sieve.recno then
    { t with sieve := { t.sieve with travel := 64 :: t.sieve.travel.filter (· != 64) } }
  else t

/-- FIFO_PTR: a pointer mismatch resets a device FIFO; its entries are discarded and counted (R456, R469). -/
def execFifoPtr (site : FifoSite) (s : State) : Host.Outcome State Fault Refusal :=
  let r := emptyFifo site.val s
  let s := (r.2.satInc (breg .sieve 0x24) 24 8).setFld (breg .sieve 0x24) 8 8 site.val
  let s := s.satAdd (breg .sieve 0x28) 0 32 r.1
  .next (firstRecord site s (detect { Detection.bare 0x46 with locus := BitVec.ofNat 16 site.val, a := BitVec.ofNat 64 r.1 } s))

/-- MC_WDOG: the MC's firmware has not served its watchdog for 10 ms (R451). -/
def execMcWdog (s : State) : Host.Outcome State Fault Refusal :=
  if s.opState = .off then .next s else .next (detect (Detection.bare 0x66) s)

/-! ## Registers (R471, R472) -/

/-- The Sieve's registers as read. -/
def viewSieve (s : State) (off : Nat) : Reg32 :=
  let raw := s.rd (breg .sieve off)
  if off = 4 then
    let run : Reg32 := match s.sieve.running with
      | none => raw
      | some c =>
        let p : BitVec 6 := match recOf s c with
          | some r => (r.tplot.map (fun p => BitVec.ofNat 6 p.val)).getD 0
          | none => 0
        put (put (putBit raw 29 true) 24 s.sieve.runReact) 16 p
    put (putBit run 30 s.sieve.safe.isSome) 0 (BitVec.ofNat 7 s.sieve.queue.length)
  else if 0x1000 ≤ off ∧ off < 0x2000 then
    match histAt s ((off - 0x1000) / 64) with
    | some r => recWord r (off / 4 % 16)
    | none => 0
  else raw

/-- PLOT_FC_STATUS as read: OPEN shows the collector's record (R472). -/
def viewCollector (s : State) (p : Nat) : Reg32 :=
  putBit (s.rd (preg p 0x200)) 29 (match recOf s p with
    | some r => r.open_
    | none => false)

/-- A write of SIEVE_REACT_k: each field takes a reaction that its code's target and class allow (R10, R452, R471). -/
def reactAllowed (code : Nat) (v : BitVec 3) : Bool :=
  let t := codeTarget code
  let c := codeClass code
  let byTarget : Bool :=
    if t = 1 then decide (v.toNat < 6)
    else if t = 2 then decide (v.toNat < 6) && v != reRetire
    else v == reLog || v == reEvent || v == reSafe
  let floor : Nat := if c = 2 then (if t = 1 then 3 else if t = 2 then 4 else 6) else 1
  byTarget && decide (floor ≤ severity v)

/-- SIEVE_REACT_k after a write, and whether a field took a reserved value. -/
def reactWrite (k : Nat) (old v : Reg32) : Reg32 × Bool :=
  (List.range 8).foldl (fun r i =>
    let code := 8 * k + i
    if !listedCode code ∨ codeClass code = 3 then r
    else
      let x : BitVec 3 := bits v (4 * i) 3
      if reactAllowed code x then (put r.1 (4 * i) x, r.2) else (r.1, true)) (old, false)

end Sys2Proof.Machine
end

