-- ==== Sys2Proof/Machine/Runner.lean ====
section
/-! DEFINITION. The Runner links and the fabric (R353 to R384, R438): frames, training, retry, credits, transmit and
receive ports, management frames, notices and the exchange with the parent. -/

namespace Sys2Proof.Machine

/-! ## Frames (R356 to R358) -/

/-- FTYPE values (R357). -/
def ftIdle : BitVec 4 := 0
def ftFlit : BitVec 4 := 1
def ftNak : BitVec 4 := 2
def ftTsync : BitVec 4 := 3
def ftMgmt : BitVec 4 := 4
def ftNotice : BitVec 4 := 5

/-- Fields of a frame (R356). -/
def frType (f : BitVec 256) : BitVec 4 := bits f 252 4
def frSeq (f : BitVec 256) : BitVec 12 := bits f 240 12
def frAck (f : BitVec 256) : BitVec 12 := bits f 228 12
def frAckV (f : BitVec 256) : Bool := bit f 227
def frCch (f : BitVec 256) : BitVec 3 := bits f 224 3
def frCcnt (f : BitVec 256) : BitVec 8 := bits f 216 8
def frPayload (f : BitVec 256) : BitVec 160 := bits f 32 160

/-- The CRC of a frame, over bits [255:32]. -/
def frameCrc (f : BitVec 256) : BitVec 32 := crcBits (bitsDown f 255 224)

/-- A frame from its fields, with its CRC. -/
def mkFrame (t : BitVec 4) (seq ack : BitVec 12) (ackv : Bool) (cch : BitVec 3) (ccnt : BitVec 8) (p : BitVec 160) :
    BitVec 256 :=
  let f : BitVec 256 := t ++ seq ++ ack ++ BitVec.ofBool ackv ++ cch ++ ccnt ++ (0 : BitVec 24) ++ p ++ (0 : BitVec 32)
  f ||| (frameCrc f).setWidth 256

/-- Whether FTYPE is sequenced. -/
def sequenced (t : BitVec 4) : Bool := t == ftFlit || t == ftMgmt || t == ftNotice

/-- Whether a field that a payload must hold as zero is zero (R357, R378, R381). -/
def zeroFields (t : BitVec 4) (p : BitVec 160) : Bool :=
  if t = ftIdle then bits p 0 100 == 0
  else if t = ftNak then p == 0
  else if t = ftTsync then bits p 152 5 == 0 && bits p 0 48 == 0
  else if t = ftNotice then bits p 0 131 == 0
  else true

/-- Whether a frame is good (R358). -/
def goodFrame (f : BitVec 256) : Bool :=
  let t := frType f
  bits f 0 32 == frameCrc f && decide (t.toNat < 6) && bits f 192 24 == 0 && (sequenced t || frSeq f == 0) &&
    zeroFields t (frPayload f)

/-! ## Link registers and states (R359, R360, R384) -/

/-- A register of link n. -/
def rlink (n off : Nat) : Nat := breg .run (0x100 + 0x40 * n + off)

/-- RUN_n_STAT.STATE. -/
def linkState (s : State) (n : Nat) : Nat := s.fld (rlink n 4) 0 4

def lsDisabled : Nat := 0
def lsDetect : Nat := 1
def lsEqualise : Nat := 2
def lsAlign : Nat := 3
def lsConfig : Nat := 4
def lsActive : Nat := 5
def lsRetrain : Nat := 6
def lsDown : Nat := 7

/-- PD_LINK_n is on (R415). -/
def linkPowered (s : State) (n : Nat) : Bool := s.flag (breg .pwr 0x24) n

/-- Credit buffers by channel code (R363). -/
def bufferSize (code : Nat) : Nat := if code < 4 then 32 else if code < 6 then 8 else 4

/-- On leaving ACTIVE, a link that is the parent costs LOCKED, and its eye readings start again (R382, R438). -/
def leaveActive (n : Nat) (s : State) : State :=
  let s := modLink n (fun x => { x with eyeLow := 0 }) s
  if timeSource s = 2 ∧ s.fld (breg .run 0x20) 16 3 = n then setLocked false s else s

/-- A sheaf that a link has only partly received is completed with flits that break it (R47, R359). -/
def breakPart (n : Nat) (s : State) (k : Nat × BitVec 4 × Nat) : State :=
  (brokenFlits k.2.2).foldl (fun s f => pushQ (siteRun n) true k.1 f s) s

/-- On entry to DOWN, the replay buffer's frames are discarded and counted, and partly received sheaves are discarded
(R359). -/
def linkFails (n : Nat) (s : State) : State :=
  let x := link s n
  let s := x.part.foldl (breakPart n) s
  let s := s.satAdd (rlink n 0x1C) 0 16 x.replay.length
  modLink n (fun x => { x with replay := [], resend := [], part := [] }) s

/-- A new session (R359). -/
def newSession (x : Link) : Link :=
  { x with seq := 0, replay := [], resend := [], replays := 0, expect := 0, nak := false, nakDue := false, got := false,
           part := [], sent := [], returned := [], left := [], told := [] }

/-- The lanes that show signal while a link is in DISABLED, DETECT or DOWN: what the partner sends, which is a free value
(R384; assumption log 109). -/
def seeSignal (n : Nat) (dst : Nat) (s : State) : State :=
  if dst = lsDisabled ∨ dst = lsDetect ∨ dst = lsDown then
    s.draw.2.setFld (rlink n 4) 12 4 (bits s.draw.1 0 4).toNat
  else s

/-- A link enters a state (R359, R360). -/
def enterLink (n : Nat) (dst : Nat) (s : State) : State :=
  let was := linkState s n
  let s := seeSignal n dst (if was = lsActive then leaveActive n s else s)
  let s := s.setFld (rlink n 4) 0 4 dst
  let s := modLink n (fun x => { x with since := s.time.now }) s
  let s := if dst = lsActive ∨ dst = lsRetrain then modLink n (fun x => { x with upAt := s.time.now }) s else s
  let s := if dst = lsRetrain then s.satInc (rlink n 0x18) 0 16 else s
  let s := if dst = lsDown then linkFails n (s.satInc (rlink n 0x18) 16 16) else s
  if dst = lsActive ∨ dst = lsRetrain ∨ dst = lsDown then raiseEvent (1952 + n) s else s

/-- Whether a link has been in its state for a time in ns. -/
def linkWaited (s : State) (n t : Nat) : Bool := decide ((link s n).since.toNat + t ≤ now s)

/-- A link in DISABLED starts to train when EN is 1, its domain is on and no boundary-scan instruction holds it
(R359, R415, R488). -/
def tryTrain (n : Nat) (s : State) : State :=
  if linkState s n = lsDisabled ∧ s.flag (rlink n 0) 0 ∧ linkPowered s n ∧ ¬ scanDrives s then enterLink n lsDetect s
  else s

/-- LINK_DETECT: all four lanes have shown signal for 1 ms; no link trains while a boundary-scan instruction is in force
(R359, R488). -/
def execLinkDetect (n : LinkNo) (s : State) : Host.Outcome State Fault Refusal :=
  if s.opState ≠ .off ∧ linkState s n.val = lsDetect ∧ linkWaited s n.val 1000000 ∧ ¬ scanDrives s then
    .next (enterLink n.val lsEqualise (s.setFld (rlink n.val 4) 12 4 0xF))
  else .next s

/-- The partner's values, as CONFIG brings them (R359, R360). -/
def takePeer (n : Nat) (p : Peer) (s : State) : State :=
  let s := (s.setFld (rlink n 4) 28 3 p.port.toNat).setFld (rlink n 4) 16 12 p.id.toNat
  s.wr64 (rlink n 8) p.uid

/-- The limit of a training phase in ns (R359). -/
def phaseLimit (st : Nat) : Option Nat :=
  if st = lsEqualise then some 20000000
  else if st = lsAlign then some 2000000
  else if st = lsConfig then some 1000000
  else if st = lsRetrain then some 5000000
  else none

/-- LINK_TRAIN_STEP: a phase of training ends within its limit; from CONFIG a new session begins, from RETRAIN the session
goes on with a replay from the last acknowledged frame (R359, R362). -/
def execLinkTrainStep (n : LinkNo) (peer : Peer) (s : State) : Host.Outcome State Fault Refusal :=
  let st := linkState s n.val
  let late : Bool := match phaseLimit st with
    | some t => linkWaited s n.val t
    | none => false
  if s.opState = .off ∨ late ∨ scanDrives s then .next s
  else if st = lsEqualise then .next (enterLink n.val lsAlign s)
  else if st = lsAlign then .next (enterLink n.val lsConfig s)
  else if st = lsConfig then
    .next (enterLink n.val lsActive (modLink n.val newSession (takePeer n.val peer s)))
  else if st = lsRetrain then
    .next (enterLink n.val lsActive (modLink n.val (fun x => { x with resend := x.replay, replays := 0 }) s))
  else .next s

/-- LINK_STATE_TIMEOUT: a phase has exceeded its limit (R359). -/
def execLinkStateTimeout (n : LinkNo) (s : State) : Host.Outcome State Fault Refusal :=
  match phaseLimit (linkState s n.val) with
  | some t => if linkWaited s n.val t then .next (enterLink n.val lsDown s) else .next s
  | none => .next s

/-- LINK_DOWN_RESTART: 10 ms after DOWN, with AUTO set (R359). -/
def execLinkDownRestart (n : LinkNo) (s : State) : Host.Outcome State Fault Refusal :=
  if linkState s n.val = lsDown ∧ s.flag (rlink n.val 0) 1 ∧ linkWaited s n.val 10000000 ∧ ¬ scanDrives s then
    .next (enterLink n.val lsDetect s)
  else .next s

/-- An ACTIVE link retrains (R359, R362). -/
def retrain (n : Nat) (s : State) : State := if linkState s n = lsActive then enterLink n lsRetrain s else s

/-- LINK_RETRAIN: loss of block lock, or the cause that R362 names (R359). -/
def execLinkRetrain (n : LinkNo) (s : State) : Host.Outcome State Fault Refusal := .next (retrain n.val s)

/-! ## Registers (R383, R384) -/

/-- Whether a requester may write the RUN block. -/
def runWriter (req : Requester) : Bool := req == .host || req == .mc || req == .relay

/-- RUN_CTL_WRITE: EN and AUTO are set; EN = 0 leads to DISABLED, RETRAIN acts on an ACTIVE link (R359, R384). -/
def execRunCtlWrite (req : Requester) (n : LinkNo) (v : Reg32) (s : State) : Host.Outcome State Fault Refusal :=
  if unserved req s then .next (countUr s)
  else if !runWriter req then .next s.rsvd
  else
    let s := s.setFld (rlink n.val 0) 0 2 (bits v 0 2).toNat
    if !bit v 0 then
      .next (if linkState s n.val = lsDisabled then s else enterLink n.val lsDisabled s)
    else
      let s := tryTrain n.val s
      .next (if bit v 2 then retrain n.val s else s)

/-- A table write starts to be copied: until a free time of at most 200 MCLK cycles has passed, BUSY reads 1 and a lookup
finds the old entries or the new ones (R369). -/
def copyTable (a : Nat) (old : Reg32) (s : State) : State :=
  let d := s.draw
  let kept := if rtBusy s then s.fabric.rtOld else []
  { d.2 with fabric := { d.2.fabric with
    rtOld := if kept.any (fun k => k.1 == a) then kept else (a, old) :: kept
    rtUntil := s.time.now + BitVec.ofNat 64 (d.1.toNat % 134) } }

/-- RUN_RT_WRITE: four routing entries are written at every lookup site (R369). -/
def execRunRtWrite (req : Requester) (k : Fin 1024) (v : Reg32) (s : State) : Host.Outcome State Fault Refusal :=
  if unserved req s then .next (countUr s)
  else if !runWriter req then .next s.rsvd
  else match findRow s.profile .run (0x4000 + 4 * k.val) with
    | some (r, _) =>
      let a := breg .run (0x4000 + 4 * k.val)
      .next (plainWrite a r v (copyTable a (s.rd a) s))
    | none => .next s.rsvd

/-- LOCKED after a change of SRC (R382). -/
def newSource (s : State) : State :=
  let s := { s with fabric := { s.fabric with missed := 0, good := 0, waiting := false } }
  setLocked (timeSource s == 1 && s.flag (breg .run 0x24) 30) s

/-- A write of a RUN register by the host, the MC or the relay (R6 to R10, R383, R384). -/
def writeRun (req : Requester) (off : Nat) (v : Reg32) (s : State) : State :=
  if 0x100 ≤ off ∧ off < 0x300 ∧ off % 0x40 = 0 then
    outcomeState s (execRunCtlWrite req ⟨(off - 0x100) / 0x40 % 8, Nat.mod_lt _ (by decide)⟩ v s)
  else match findRow s.profile .run off with
    | none => s.rsvd
    | some (r, _) =>
      if !runWriter req then s.rsvd
      else if off = 0 then
        let id : BitVec 12 := bits v 0 12
        if s.flag (breg .run 0) 31 = (id == 0) then s.setFld (breg .run 0) 0 12 id.toNat else s.rsvd
      else if 0x4000 ≤ off ∧ off < 0x5000 then
        outcomeState s (execRunRtWrite req ⟨(off - 0x4000) / 4 % 1024, Nat.mod_lt _ (by decide)⟩ v s)
      else if off = 0x20 then
        let t := plainWrite (breg .run off) r v s
        if timeSource t = timeSource s then t else newSource t
      else if r.pair = .none then plainWrite (breg .run off) r v s
      else s

/-- Whether a RUN register has a field that a write can change (R374). -/
def runWritable (s : State) (off : Nat) : Bool :=
  match findRow s.profile .run off with
  | some (r, _) => decide (off % 4 = 0) && r.fields.any (fun f => f.acc != .ro)
  | none => false

/-! ## Receiving (R361 to R363, R366) -/

/-- A NAK is to be sent, unless one is outstanding (R361). -/
def wantNak (x : Link) : Link := if x.nak then x else { x with nak := true, nakDue := true }

/-- A bad frame arrives: it is counted and answered by a NAK (R358, R361). -/
def badRx (n : Nat) (s : State) : State := modLink n wantNak (s.satInc (rlink n 0x14) 0 16)

/-- Whether an ACKSEQ covers a frame of the replay buffer. -/
def covers (ack seq : BitVec 12) : Bool := decide ((ack - seq).toNat < 2048)

/-- A good frame's acknowledgement is applied: frames leave the replay buffer, which is progress (R358, R362). -/
def applyAck (f : BitVec 256) (x : Link) : Link :=
  if !frAckV f then x
  else
    let r := x.replay.filter (fun k => !covers (frAck f) k.1)
    { x with
      replay := r
      resend := x.resend.filter (fun k => !covers (frAck f) k.1)
      replays := if r.length < x.replay.length then 0 else x.replays }

/-- A good frame's credit return is applied (R358, R363). -/
def applyCredit (f : BitVec 256) (x : Link) : Link :=
  if (frCch f).toNat < 7 then { x with returned := SMap.set x.returned (frCch f).toNat (frCcnt f) 0 } else x

/-- A frame arrives on an ACTIVE link. A bad one is discarded; a good one of the expected type has its fields applied, and
a sequenced one is accepted in its order (R358, R361). -/
def receive (n : Nat) (f : BitVec 256) (t : BitVec 4) (g : State → State) (s : State) : State :=
  if s.opState = .off ∨ linkState s n ≠ lsActive then s
  else if !goodFrame f then badRx n s
  else if frType f ≠ t then s
  else
    let s := modLink n (fun x => applyCredit f (applyAck f x)) s
    if !sequenced t then g s
    else
      let x := link s n
      if frSeq f = x.expect then g (setLink n { x with expect := x.expect + 1, nak := false, got := true } s)
      else if (frSeq f - x.expect).toNat < 128 then setLink n (wantNak x) s
      else s

/-- BAD_FRAME: a frame that fails its checks arrives (R358). -/
def execBadFrame (n : LinkNo) (s : State) : Host.Outcome State Fault Refusal :=
  if s.opState ≠ .off ∧ linkState s n.val = lsActive then .next (badRx n.val s) else .next s

/-- IDLE: the counts of channels 0 to 5 and the partner's ID (R357, R360, R363). -/
def execIdleFrame (n : LinkNo) (frame : BitVec 256) (s : State) : Host.Outcome State Fault Refusal :=
  .next (receive n.val frame ftIdle (fun s =>
    let p := frPayload frame
    let s := modLink n.val (fun x => (List.range 6).foldl (fun x c =>
      { x with returned := SMap.set x.returned c (bits p (112 + 8 * (5 - c)) 8) 0 }) x) s
    s.setFld (rlink n.val 4) 16 12 (bits p 100 12).toNat) s)

/-- The receive queue of a flit: a head names its channel, a data flit belongs to the sheaf under way of its VC and SEQ
(R46, R363; assumption log 24). -/
def rxQueue (x : Link) (f : Flit) : Option Nat :=
  if f.kind = kSheafData then
    match x.part.find? (fun k => k.1 / 3 == f.vc.toNat && k.2.1 == f.seq) with
    | some k => some k.1
    | none => (x.part.find? (fun k => k.1 / 3 == f.vc.toNat)).map (·.1)
  else some (chanOf f + 3 * f.vc.toNat)

/-- The sheaves partly received, after a flit. -/
def partAfter (f : Flit) (c : Nat) (ps : List (Nat × BitVec 4 × Nat)) : List (Nat × BitVec 4 × Nat) :=
  if f.kind = kSheafData then
    (ps.map (fun k => if k.1 = c then (k.1, k.2.1, k.2.2 - 1) else k)).filter (fun k => k.2.2 != 0)
  else
    let ps := ps.filter (fun k => k.1 != c)
    if f.follow = 0 then ps else ps ++ [(c, f.seq, f.follow)]

/-- FLIT: an accepted flit enters its receive buffer; QUEUE_TRANSFER checks it and routes it. One that is discarded instead
gives its credit back (R361, R363, R366, R271). -/
def execFlitFrame (n : LinkNo) (frame : BitVec 256) (s : State) : Host.Outcome State Fault Refusal :=
  .next (receive n.val frame ftFlit (fun s =>
    let f : Flit := frPayload frame
    let s := s.inc64 (rlink n.val 0x2C)
    match rxQueue (link s n.val) f with
    | none =>
      returnCredit (siteRun n.val) (3 * f.vc.toNat) true (detect (blockDetect 0x42 (BitVec.ofNat 8 (siteRun n.val)) f) s)
    | some c =>
      let s := modLink n.val (fun x => { x with part := partAfter f c x.part }) s
      let gone := SMap.get s.dropping (qkey (siteRun n.val) true c) false
      let s := pushQ (siteRun n.val) true c f s
      if gone then returnCredit (siteRun n.val) c true s else s) s)

/-- The transmitter replays every frame that is not acknowledged; LIMIT replays without progress lead to RETRAIN
(R362). -/
def replayAll (n : Nat) (s : State) : State :=
  let s := s.satInc (rlink n 0x14) 16 16
  let s := modLink n (fun x => { x with resend := x.replay, replays := x.replays + 1 }) s
  if s.fld (rlink n 0x10) 16 8 ≤ (link s n).replays then retrain n s else s

/-- NAK: the frames after its ACKSEQ are sent again (R362). -/
def execNak (n : LinkNo) (frame : BitVec 256) (s : State) : Host.Outcome State Fault Refusal :=
  .next (receive n.val frame ftNak (replayAll n.val) s)

/-- REPLAY_TIMEOUT: the replay timer expires with frames unacknowledged (R362). -/
def execReplayTimeout (n : LinkNo) (s : State) : Host.Outcome State Fault Refusal :=
  if linkState s n.val = lsActive ∧ ¬ (link s n.val).replay.isEmpty then .next (replayAll n.val s) else .next s

/-! ## Transmitting (R363 to R365, R367) -/

/-- Whether a link has credit for a number of flits or frames on a channel code (R363). -/
def credit (x : Link) (code need : Nat) : Bool :=
  decide ((SMap.get x.sent code 0 - SMap.get x.returned code 0).toNat + need ≤ bufferSize code)

/-- A flit or frame is counted as sent on a channel code. -/
def countSent (code : Nat) (x : Link) : Link := { x with sent := SMap.set x.sent code (SMap.get x.sent code 0 + 1) 0 }

/-- The credit return of a frame: the channels whose counts have changed since they were last reported are taken in turn,
0b111 for none (R363). -/
def creditReturn (x : Link) : BitVec 3 × BitVec 8 × Link :=
  let turn := (List.range 7).map (fun i => (x.crPtr + 1 + i) % 7)
  match turn.find? (fun c => SMap.get x.left c 0 != SMap.get x.told c 0) with
  | some c =>
    (BitVec.ofNat 3 c, SMap.get x.left c 0, { x with told := SMap.set x.told c (SMap.get x.left c 0) 0, crPtr := c })
  | none => (7, 0, x)

/-- A frame leaves the link. -/
def emitFrame (n : Nat) (t : BitVec 4) (seq : BitVec 12) (ackv : Bool) (p : BitVec 160) (s : State) : State :=
  let x := link s n
  let c := creditReturn x
  let f := mkFrame t seq (x.expect - 1) ackv c.1 c.2.1 p
  setLink n { c.2.2 with tx := some f } s

/-- A sequenced frame is sent for the first time, and kept in the replay buffer (R362). -/
def emitNew (n : Nat) (t : BitVec 4) (p : BitVec 160) (s : State) : State :=
  let x := link s n
  let s := emitFrame n t x.seq x.got p s
  modLink n (fun y => { y with seq := x.seq + 1, replay := y.replay ++ [(x.seq, { ftype := t, payload := p })] }) s

/-- The payload of an IDLE (R357). -/
def idlePayload (s : State) (x : Link) : BitVec 160 :=
  let c (i : Nat) : BitVec 8 := SMap.get x.left i 0
  c 0 ++ c 1 ++ c 2 ++ c 3 ++ c 4 ++ c 5 ++ ownId s ++ (0 : BitVec 100)

/-- The payload of a TSYNC, with T3 at its frame boundary (R381). -/
def tsyncPayload (s : State) (d : TsyncDue) : BitVec 160 :=
  let answer : Bool := d.tt == 2
  d.tt ++ BitVec.ofBool (answer && s.flag (breg .run 0x24) 31) ++ (0 : BitVec 5) ++ d.tid ++ d.t2 ++
    (if answer then bits s.time.now 0 48 else 0) ++ (0 : BitVec 48)

/-- The channel code that a flit at the head of a transmit queue travels on: its channel, and the VC of its routing-table
entry, or that of its sheaf's head (R363, R365). -/
def txCode (s : State) (n chan : Nat) (f : Flit) : Nat :=
  match holdAt s (holdQueue (qkey (siteRun n) false chan)) with
  | some (w, _) => w
  | none => 2 * chan + (bit (rtEntry s f.dev) 3).toNat

/-- Whether the head of a transmit queue may be sent: its credit for a whole sheaf, or the sheaf is under way (R363). -/
def txReady (s : State) (n chan : Nat) : Bool :=
  let k := qkey (siteRun n) false chan
  if SMap.get s.owed k 0 ≠ 0 then true
  else match s.q k with
  | [] => false
  | f :: fs =>
    if (holdAt s (holdQueue k)).isSome then true
    else headReadable s 16 (f :: fs) &&
      credit (link s n) (txCode s n chan f) (f.follow + 1)

/-- Whether a channel goes before another in a frame slot (R258, R364): where the order leaves a tie, VC 1 goes first. -/
def txBefore (s : State) (n a b : Nat) : Bool :=
  let f (c : Nat) : Flit := (s.q (qkey (siteRun n) false c)).headD 0
  let ask (c inp : Nat) : Ask := { inp := inp, chan := c, hop := { dest := 0, at_ := 0, wait := 0, flit := f c } }
  let vc (c : Nat) : Nat := txCode s n c (f c) % 2
  Ask.before (ask a (1 - vc a)) (ask b (1 - vc b))

/-- The channel whose flit a frame slot sends. -/
def txChoice (s : State) (n : Nat) : Option Nat :=
  ((List.range 3).filter (txReady s n)).foldl (fun b c => match b with
    | none => some c
    | some d => if txBefore s n c d then some c else some d) none

/-- A token that a transmit port discards: it leaves the queue, and the rest of its sheaf with it. -/
def dropTx (n chan : Nat) (s : State) : State :=
  let k := qkey (siteRun n) false chan
  let fs := s.q k
  if SMap.get s.owed k 0 ≠ 0 then
    afterRead (siteRun n) false chan (setHold (holdQueue k) none { s with owed := SMap.set s.owed k 0 0 })
  else
    let m := match holdAt s (holdQueue k), fs with
      | some (_, m), _ => m
      | none, [] => 0
      | none, f :: _ => f.follow + 1
    let s := setHold (holdQueue k) (if fs.length < m then some (0x1000, m - fs.length) else none) (s.setQ k (fs.drop m))
    afterRead (siteRun n) false chan s

/-- Whether what a transmit queue holds is the rest of a sheaf that its port discards. -/
def discarding (s : State) (n chan : Nat) : Bool :=
  match holdAt s (holdQueue (qkey (siteRun n) false chan)) with
  | some (w, _) => w == 0x1000
  | none => false

/-- The rests of discarded sheaves leave the transmit queues. -/
def dropRests (n : Nat) (s : State) : State :=
  (List.range 3).foldl (fun s c => if discarding s n c then dropTx n c s else s) s

/-- A flit as it leaves: VC, HOPS raised by one and ECC formed anew; a flit of a sheaf that fails its check stays broken
(R49, R365). -/
def txFlit (f : Flit) (code : Nat) (last : Bool) : Flit :=
  let out (g : Flit) : Flit := put (putBit g 152 (decide (code % 2 = 1))) 0 (g.hops + 1)
  match checkFlit f with
  | .clean => sealFlit (out f)
  | .corrected g => sealFlit (out g)
  | .bad _ => breakFlit (out f) last

/-- The state after the check of a flit that a transmit port reads (R49, R52). -/
def txCheck (n : Nat) (f : Flit) (s : State) : State :=
  let site := BitVec.ofNat 8 (siteRun n)
  match checkFlit f with
  | .clean => s
  | .corrected g => countEcc false (detect (blockDetect 0x40 site g) s)
  | .bad _ => countEcc true (detect (blockDetect 0x41 site f) s)

/-- Whether a flit would leave with HOPS above 16 (R50). -/
def tooFar (f : Flit) : Bool :=
  match checkFlit f with
  | .clean => decide (16 ≤ (Flit.hops f).toNat)
  | .corrected g => decide (16 ≤ (Flit.hops g).toNat)
  | .bad _ => false

/-- The record of a flit that would leave with HOPS above 16 (R50, R52). -/
def farFlit (n : Nat) (f : Flit) (s : State) : State :=
  let g : Flit := match checkFlit f with
    | .corrected g => g
    | _ => f
  detect (blockDetect 0x42 (BitVec.ofNat 8 (siteRun n)) g) s

/-- The head of a channel, when the port discards its token: its check fails, or its HOPS would exceed 16 (R50, R365). -/
def unsendable (n chan : Nat) (s : State) : Option State :=
  let k := qkey (siteRun n) false chan
  match holdAt s (holdQueue k), s.q k with
  | none, f :: _ =>
    (match checkFlit f with
     | .bad _ => some (dropTx n chan (txCheck n f s))
     | _ => if tooFar f then some (dropTx n chan (farFlit n f (txCheck n f s))) else none)
  | _, _ => none

/-- Tokens that cannot be sent leave the heads of the channels before a frame slot chooses. -/
def dropHeads (n : Nat) : Nat → State → State
  | 0, s => s
  | fuel + 1, s =>
    let s := dropRests n s
    match txChoice s n with
    | some c => (match unsendable n c s with
      | some t => dropHeads n fuel t
      | none => s)
    | none => s

/-- A frame slot sends the flit at the head of a channel, or a broken one that completes the sheaf of a queue after its
reset (R271, R365). A data flit that would leave with HOPS above 16 is recorded and leaves broken, so that its sheaf is
discarded (R50). -/
def sendFlit (n chan : Nat) (s : State) : State :=
  let k := qkey (siteRun n) false chan
  let send (code : Nat) (g : Flit) (s : State) : State :=
    (modLink n (countSent code) (emitNew n ftFlit g s)).inc64 (rlink n 0x24)
  let owed := SMap.get s.owed k 0
  if owed ≠ 0 then
    match holdAt s (holdQueue k) with
    | some (code, _) =>
      let g := breakFlit (putBit 0 152 (decide (code % 2 = 1))) (decide (owed ≤ 1))
      send code g (passHold (holdQueue k) code g { s with owed := SMap.set s.owed k (owed - 1) 0 })
    | none => { s with owed := SMap.set s.owed k 0 0 }
  else
    match s.q k with
    | [] => s
    | f :: fs =>
      let code := txCode s n chan f
      let last : Bool := match holdAt s (holdQueue k) with
        | some (_, m) => decide (m ≤ 1)
        | none => f.follow == 0
      let s := passHold (holdQueue k) code f (txCheck n f ((s.setQ k fs).noteRead k))
      let s := if tooFar f then farFlit n f s else s
      let g := if tooFar f then breakFlit (putBit f 152 (decide (code % 2 = 1))) last else txFlit f code last
      send code g (afterRead (siteRun n) false chan s)

/-- A transmit port whose link carries no frames discards one token, whatever the flits of it that have gone or are still to
come: LINK_DROP records it and RUN_n_DROP counts it (R367, R456). -/
def linkDrop (n : Nat) (s : State) : State :=
  let s := dropRests n s
  let waits (c : Nat) : Bool :=
    let k := qkey (siteRun n) false c
    !discarding s n c && (SMap.get s.owed k 0 != 0 || !(s.q k).isEmpty)
  match (List.range 3).find? waits with
  | none => s
  | some c =>
    let s := dropTx n c (s.satInc (rlink n 0x1C) 0 16)
    detect { Detection.bare 0x4F with locus := BitVec.ofNat 16 n, a := BitVec.ofNat 64 (s.fld (rlink n 0x1C) 0 16) } s

/-- Whether a management frame may be sent: room in the replay buffer and credit (R362, R363). -/
def mgmtReady (x : Link) : Bool := decide (x.replay.length < 128) && credit x 6 1

/-- Where the routing configuration has diverged, a transmit port discards the first token of each of its queues in a frame
slot (R468). -/
def dropQueued (n : Nat) (s : State) : State :=
  (List.range 3).foldl (fun s c => if (s.q (qkey (siteRun n) false c)).isEmpty then s else dropTx n c s) s

/-- FRAME_SLOT: an ACTIVE link sends the first ready frame by R364, which is no new token's where the routing configuration
has diverged; a link in RETRAIN waits; any other discards a token that waits for it (R364, R367, R468). -/
def execFrameSlot (n : LinkNo) (s : State) : Host.Outcome State Fault Refusal :=
  let k := n.val
  let st := linkState s k
  if s.opState = .off ∨ st = lsRetrain then .next s
  else if st ≠ lsActive then .next (linkDrop k s)
  else
    let diverged := s.sieve.diverged.contains 0x43
    let s := if diverged then dropQueued k s else s
    let x := link s k
    match x.resend, x.nakDue, x.tsyncTx, x.noticeTx, x.mgmtTx with
    | (q, f) :: fs, _, _, _, _ =>
      .next (modLink k (fun y => { y with resend := fs }) (emitFrame k f.ftype q x.got f.payload s))
    | [], true, _, _, _ => .next (modLink k (fun y => { y with nakDue := false }) (emitFrame k ftNak 0 true 0 s))
    | [], false, d :: ds, _, _ =>
      let s := if d.tt = 1 then { s with fabric := { s.fabric with t1 := s.time.now } } else s
      .next (modLink k (fun y => { y with tsyncTx := ds }) (emitFrame k ftTsync 0 x.got (tsyncPayload s d) s))
    | [], false, [], ns, ms =>
      match ns, ms, mgmtReady x with
      | p :: ps, _, true =>
        .next (modLink k (fun y => countSent 6 { y with noticeTx := ps }) (emitNew k ftNotice p s))
      | [], p :: ps, true =>
        .next (modLink k (fun y => countSent 6 { y with mgmtTx := ps }) (emitNew k ftMgmt p s))
      | _, _, _ =>
        let s := if diverged then s else dropHeads k 48 (lookupDraw s)
        match if diverged then none else txChoice s k with
        | some c => if x.replay.length < 128 then .next (sendFlit k c s)
            else .next (emitFrame k ftIdle 0 x.got (idlePayload s x) s)
        | none => .next (emitFrame k ftIdle 0 x.got (idlePayload s x) s)

/-! ## Management frames (R371 to R375) -/

/-- Fields of an MGMT payload (R372). -/
def mgOp (p : BitVec 160) : BitVec 4 := bits p 156 4
def mgHidx (p : BitVec 160) : BitVec 5 := bits p 151 5
def mgPlen (p : BitVec 160) : BitVec 5 := bits p 146 5
def mgTag (p : BitVec 160) : BitVec 8 := bits p 138 8
def mgPath (p : BitVec 160) (i : Nat) : BitVec 3 := bits p (90 + 3 * i) 3
def mgOff (p : BitVec 160) : BitVec 16 := bits p 74 16
def mgData (p : BitVec 160) : BitVec 64 := bits p 10 64
def mgStatus (p : BitVec 160) : BitVec 8 := bits p 2 8

/-- Whether a payload is discarded for its format (R372). -/
def mgBad (p : BitVec 160) : Bool :=
  mgPlen p == 0 || decide (16 < (mgPlen p).toNat) || decide ((mgPlen p).toNat < (mgHidx p).toNat) ||
    !(mgOp p == 1 || mgOp p == 2 || mgOp p == 3 || mgOp p == 4 || mgOp p == 9 || mgOp p == 10 || mgOp p == 11) ||
    bits p 0 2 != 0

/-- Whether a payload is a request. -/
def mgRequest (p : BitVec 160) : Bool := !bit p 159

/-- Whether a good request is for this device: its hop index after this hop is PLEN (R373). -/
def mgTarget (p : BitVec 160) : Bool := !mgBad p && mgRequest p && mgHidx p + 1 == mgPlen p

/-- RUN_n_DROP.FMT counts a discarded frame. -/
def countFmt (n : Nat) (s : State) : State := s.satInc (rlink n 0x1C) 16 16

/-- A request that has arrived on a port: its path turns back, and its hop index has moved on (R373). -/
def mgArrived (n : Nat) (p : BitVec 160) : BitVec 160 :=
  put (put p (90 + 3 * (mgHidx p).toNat) (BitVec.ofNat 3 n)) 151 (mgHidx p + 1)

/-- An MGMT frame is queued on a link. -/
def sendMgmt (n : Nat) (p : BitVec 160) (s : State) : State := modLink n (fun x => { x with mgmtTx := x.mgmtTx ++ [p] }) s

/-- A request becomes a response, which leaves on the port before it in its path (R373, R374). -/
def mgRespond (p : BitVec 160) (status : BitVec 8) (s : State) : State :=
  let h := mgHidx p - 1
  let q := put (put (put p 156 (mgOp p ||| 8)) 151 h) 2 status
  sendMgmt (mgPath q h.toNat).toNat q s

/-- An MGMT frame arrives and leaves its buffer at once (R363, R373). -/
def receiveMgmt (n : Nat) (f : BitVec 256) (which : BitVec 160 → Bool) (g : BitVec 160 → State → State) (s : State) : State :=
  if goodFrame f && !which (frPayload f) then s
  else receive n f ftMgmt (fun s =>
    let s := modLink n (fun x => { x with left := SMap.set x.left 6 (SMap.get x.left 6 0 + 1) 0 }) s
    g (frPayload f) s) s

/-- The own UID and ID as PROBE reports them. -/
def probeOff (s : State) (n : Nat) : BitVec 16 :=
  BitVec.ofBool (s.flag (breg .run 0) 31) ++ BitVec.ofNat 3 n ++ ownId s

/-- PROBE at its target (R374). -/
def execProbe (n : LinkNo) (frame : BitVec 256) (s : State) : Host.Outcome State Fault Refusal :=
  .next (receiveMgmt n.val frame (fun p => mgTarget p && mgOp p == 1) (fun p s =>
    mgRespond (put (put (mgArrived n.val p) 10 Config.uid) 74 (probeOff s n.val)) 0 s) s)

/-- The RUN registers as read. -/
def viewRun (s : State) (off : Nat) : Reg32 :=
  if off = 8 then putBit (s.rd (breg .run off)) 31 (rtBusy s) else s.rd (breg .run off)

/-- Whether a RUN register belongs to a link whose domain is off, and so answers as a reserved offset (R275, R415). -/
def runAbsent (s : State) (off : Nat) : Bool :=
  decide (0x100 ≤ off ∧ off < 0x300) && !linkPowered s ((off - 0x100) / 0x40)

/-- A read of a RUN register by a requester with its own latch (R7, R9). -/
def readRun (req : Requester) (off : Nat) (s : State) : Option Reg32 × State :=
  if off % 4 ≠ 0 ∨ runAbsent s off then (none, s.rsvd)
  else match findRow s.profile .run off with
    | none => (none, s.rsvd)
    | some (r, _) =>
      match r.pair with
      | .none => (some (viewRun s off), s)
      | .lo => (some (viewRun s off),
          { s with latches := SMap.set s.latches (pairKey req (breg .run off)) (viewRun s (off + 4)) 0 })
      | .hi => (some (SMap.get s.latches (pairKey req (breg .run (off - 4))) 0), s)

/-- RD at its target (R374). -/
def execRd (n : LinkNo) (frame : BitVec 256) (s : State) : Host.Outcome State Fault Refusal :=
  .next (receiveMgmt n.val frame (fun p => mgTarget p && mgOp p == 2) (fun p s =>
    let r := readRun .relay (mgOff p).toNat s
    match r.1 with
    | some v => mgRespond (put (mgArrived n.val p) 10 (v.setWidth 64)) 0 r.2
    | none => mgRespond (put (mgArrived n.val p) 10 (0 : BitVec 64)) 3 r.2) s)

/-- WR at its target: refused once MLOCK is 1, and at an offset that no write changes (R374, R375). -/
def execWr (n : LinkNo) (frame : BitVec 256) (s : State) : Host.Outcome State Fault Refusal :=
  .next (receiveMgmt n.val frame (fun p => mgTarget p && mgOp p == 3) (fun p s =>
    let off := (mgOff p).toNat
    let q := mgArrived n.val p
    if s.flag (breg .run 4) 0 then mgRespond q 2 s
    else if !runWritable s off || runAbsent s off then mgRespond q 3 s.rsvd
    else mgRespond q 0 (writeRun .relay off (bits (mgData p) 0 32) s)) s)

/-- IMG at its target: outside BOOT it is counted in FMT, and in BOOT a granary word is written unless MLOCK is 1 (R374,
R375, R404). -/
def execImg (n : LinkNo) (frame : BitVec 256) (s : State) : Host.Outcome State Fault Refusal :=
  .next (receiveMgmt n.val frame (fun p => mgTarget p && mgOp p == 4) (fun p s =>
    let a := (mgTag p ++ mgOff p : BitVec 24)
    if s.opState ≠ .boot ∨ bit a 23 then countFmt n.val s
    else if s.flag (breg .run 4) 0 then s
    else
      let w : BitVec 23 := bits a 0 23
      (writeOp (quadOf w) 0 w 0xFF (mgData p) s).wr (breg .run 0x10) (s.rd (breg .run 0x10) + 1)) s)

/-- An outstanding request ends: its record joins the response queue while that has room, which raises EV_1938 (R398;
assumption log 25). -/
def endRequest (r : MgmtRec) (s : State) : State :=
  let out := s.fabric.out.filter (fun o => o.tag != r.tag)
  let rs := s.fabric.responses
  if rs.length < 16 then raiseEvent 1938 { s with fabric := { s.fabric with out := out, responses := rs ++ [r] } }
  else { s with fabric := { s.fabric with out := out } }

/-- A response reaches the root's MC: the outstanding request is answered (R371, R373, R398). -/
def takeResponse (p : BitVec 160) (s : State) : State :=
  if !s.fabric.out.any (fun o => o.tag == mgTag p) then s
  else
    endRequest { mop := mgOp p, timeout := false, tag := mgTag p, status := mgStatus p, off := mgOff p, data := mgData p } s

/-- MGMT_FORWARD: the relay passes a request or response on, answers a request whose link is not ACTIVE, hands a response
to the root's MC, or discards a frame by its format, a request that would leave by a port its PATH does not hold among them
(R372, R373; assumption log 25). -/
def execMgmtForward (n : LinkNo) (frame : BitVec 256) (s : State) : Host.Outcome State Fault Refusal :=
  .next (receiveMgmt n.val frame (fun p => !mgTarget p) (fun p s =>
    if mgBad p then countFmt n.val s
    else if mgRequest p then
      if 15 ≤ (mgHidx p).toNat then countFmt n.val s
      else
        let q := mgArrived n.val p
        let dst := (mgPath q (mgHidx q).toNat).toNat
        if linkState s dst = lsActive then sendMgmt dst q s
        else if mgOp q = 4 then s
        else mgRespond q 1 s
    else if mgHidx p = 0 then
      if s.flag (breg .run 0) 31 then takeResponse p s else countFmt n.val s
    else
      let q := put p 151 (mgHidx p - 1)
      sendMgmt (mgPath q (mgHidx q).toNat).toNat q s) s)

/-- MGMT_TIMEOUT: an outstanding request has had no response for 100 µs (R398). -/
def execMgmtTimeout (s : State) : Host.Outcome State Fault Refusal :=
  match s.fabric.out.find? (fun o => decide (o.at_.toNat + 100000 ≤ now s)) with
  | none => .next s
  | some o => .next (endRequest { mop := o.mop, timeout := true, tag := o.tag, status := 0, off := 0, data := 0 } s)

/-! ## Notices (R377, R378) -/

/-- RUN_NOTICE takes an accepted notice. -/
def recordNotice (n : Nat) (reason : BitVec 4) (odev : BitVec 12) (s : State) : State :=
  let a := breg .run 0xC
  let old := s.rd a
  s.wr a ((1 : BitVec 1) ++ BitVec.ofBool (bit old 30 || bit old 31) ++ (0 : BitVec 2) ++ reason ++ (0 : BitVec 5) ++
    BitVec.ofNat 3 n ++ (0 : BitVec 4) ++ odev)

/-- NOTICE: a fault notice is accepted once: it is recorded, its event is raised, the lock unit is told, and it is flooded
on (R346, R378). -/
def execNotice (n : LinkNo) (frame : BitVec 256) (s : State) : Host.Outcome State Fault Refusal :=
  .next (receive n.val frame ftNotice (fun s =>
    let s := modLink n.val (fun x => { x with left := SMap.set x.left 6 (SMap.get x.left 6 0 + 1) 0 }) s
    let p := frPayload frame
    let odev : BitVec 12 := bits p 148 12
    let nseq : BitVec 8 := bits p 136 8
    let hops : BitVec 5 := bits p 131 5
    if odev = ownId s ∨ s.fabric.seen.contains (odev, nseq) then s
    else
      let s := { s with fabric := { s.fabric with seen := ((odev, nseq) :: s.fabric.seen).take 16 } }
      let s := raiseEvent (1960 + n.val) (recordNotice n.val (bits p 144 4) odev s)
      let m : ResetMsg := { who := .none, dev := some odev, service := s.opState == .service }
      let s := { s with lck := { s.lck with notices := s.lck.notices ++ [m] } }
      if s.flag (breg .run 4) 2 ∧ hops.toNat < 16 then
        let q := put p 131 (hops + 1)
        (List.range 8).foldl (fun s k =>
          if k ≠ n.val ∧ linkState s k = lsActive then modLink k (fun x => { x with noticeTx := x.noticeTx ++ [q] }) s
          else s) s
      else s) s)

/-! ## The exchange with the parent (R381, R382) -/

/-- A 48-bit difference as a signed number. -/
def diff48 (a b : BitVec 48) : Int := (a - b).toInt

/-- RUN_TSOFF's saturation. -/
def clamp31 (v : Int) : Int := if v < -(2 ^ 31 - 1) then -(2 ^ 31 - 1) else if 2 ^ 31 - 1 < v then 2 ^ 31 - 1 else v

/-- PERIOD in µs. -/
def syncPeriod (s : State) : Nat := s.fld (breg .run 0x20) 24 8

/-- The parent link. -/
def parentLink (s : State) : Nat := s.fld (breg .run 0x20) 16 3

/-- The child takes an answer: offset and delay, then a step forward or a new rate, and LOCKED (R381, R382; assumption
log 26). -/
def takeAnswer (plock : Bool) (t2 t3 : BitVec 48) (s : State) : State :=
  let t1 : BitVec 48 := bits s.fabric.t1 0 48
  let t4 : BitVec 48 := bits s.time.now 0 48
  let delay : Int := (diff48 t4 t1 - diff48 t3 t2) / 2
  let offset : Int := diff48 t2 t1 - delay
  let s := { s with fabric := { s.fabric with waiting := false, missed := 0 } }
  let s := (s.wr (breg .run 0x28) (BitVec.ofInt 32 (clamp31 offset))).wr (breg .run 0x2C) (BitVec.ofInt 32 delay)
  let locked := s.flag (breg .run 0x24) 31
  let s := if !locked ∧ 1000 ≤ offset then
      { s with time := { s.time with now := s.time.now + BitVec.ofInt 64 offset } }
    else setRate (Int.tdiv (offset * 1000000) (8 * (syncPeriod s : Int))) s
  let lim : Nat := s.fld (breg .run 0x20) 0 8
  let good := if offset.natAbs ≤ lim ∧ plock then s.fabric.good + 1 else 0
  let s := { s with fabric := { s.fabric with good := good } }
  if 8 ≤ good then setLocked true s
  else if 8 * lim < offset.natAbs then setLocked false s
  else s

/-- TSYNC: a request is answered; an answer from the parent to the exchange in progress is taken (R381). -/
def execTsync (n : LinkNo) (frame : BitVec 256) (s : State) : Host.Outcome State Fault Refusal :=
  .next (receive n.val frame ftTsync (fun s =>
    let p := frPayload frame
    let tt : BitVec 2 := bits p 158 2
    let tid : BitVec 8 := bits p 144 8
    if tt = 1 then
      let d : TsyncDue := { tt := 2, tid := tid, t2 := bits s.time.now 0 48 }
      modLink n.val (fun x => { x with tsyncTx := x.tsyncTx ++ [d] }) s
    else if tt = 2 ∧ timeSource s = 2 ∧ parentLink s = n.val ∧ s.fabric.waiting ∧ s.fabric.tid = tid then
      takeAnswer (bit p 157) (bits p 96 48) (bits p 48 48) s
    else s) s)

/-- An exchange that had no answer (R382). -/
def missExchange (s : State) : State :=
  if !s.fabric.waiting then s
  else
    let s := s.satInc (breg .run 0x24) 0 16
    let s := { s with fabric := { s.fabric with waiting := false, missed := s.fabric.missed + 1, good := 0 } }
    if 4 ≤ s.fabric.missed then setLocked false s else s

/-- TSYNC_EXCHANGE: every PERIOD µs the child sends its parent a request (R381). -/
def execTsyncExchange (s : State) : Host.Outcome State Fault Refusal :=
  if timeSource s ≠ 2 ∨ s.opState = .off ∨ now s < s.fabric.exchAt.toNat + 1000 * syncPeriod s then .next s
  else
    let s := missExchange s
    let tid := s.fabric.tid + 1
    let s := { s with fabric := { s.fabric with tid := tid, waiting := true, exchAt := s.time.now } }
    let d : TsyncDue := { tt := 1, tid := tid, t2 := 0 }
    if linkState s (parentLink s) = lsActive then
      .next (modLink (parentLink s) (fun x => { x with tsyncTx := x.tsyncTx ++ [d] }) s)
    else .next s

/-! ## Link upkeep and power (R415, R438) -/

/-- The least of the four lane eyes. -/
def leastEye (v : Reg32) : Nat :=
  min (min (bits v 0 8).toNat (bits v 8 8).toNat) (min (bits v 16 8).toNat (bits v 24 8).toNat)

/-- One link in the millisecond's readings (R438). -/
def checkEye (s : State) (n : Nat) : State :=
  let cal := s.rd (breg .upk 0x50)
  if linkState s n ≠ lsActive ∨ !bit cal (24 + n) then s
  else
    let low := if leastEye (s.rd (rlink n 0x20)) < (bits cal 16 8).toNat then (link s n).eyeLow + 1 else 0
    let s := modLink n (fun x => { x with eyeLow := low }) s
    if (bits cal 12 4).toNat ≤ low ∧ (link s n).upAt.toNat + 1000000 * (bits cal 0 8).toNat ≤ now s then
      let s := (s.satInc (breg .upk 0x54) 16 16).setFld (breg .upk 0x54) 0 3 n
      retrain n s
    else s

/-- LINK_EYE_CHECK, once in each millisecond: the readings of the eyes that have changed are in RUN_n_EYE, which the MC
reads of each link that is ACTIVE and enabled, and requests retrains (R438). -/
def execLinkEyeCheck (eyes : List (LinkNo × Reg32)) (s : State) : Host.Outcome State Fault Refusal :=
  if now s / 1000000 ≤ s.upkeep.eyeAt.toNat / 1000000 then .next s
  else
    let s := eyes.foldl (fun s k => s.wr (rlink k.1.val 0x20) k.2) s
    let s := (List.range 8).foldl checkEye s
    .next { s with upkeep := { s.upkeep with eyeAt := s.time.now } }

/-- PWR_STATUS.CFG_DROP (R432). -/
def pwrDrop (s : State) : State := s.setFlag (breg .pwr 0) 31 true

/-- The queues of a Runner port are flushed before its domain goes off: what the link has only partly received is broken
(R269, R415). -/
def flushLink (n : Nat) (s : State) : State :=
  let ks := (List.range 6).map (qkey (siteRun n) true) ++ (List.range 3).map (qkey (siteRun n) false)
  let s := { s with flushing := ks.foldl (fun m k => SMap.set m k true false) s.flushing }
  let s := (List.range 6).foldl (fun s c => flushQueue (siteRun n) true c true s) s
  (List.range 3).foldl (fun s c => flushQueue (siteRun n) false c false s) s

/-- One bit of a link domain request: a domain goes off once the queues of its port are flushed (R269, R415). -/
def requestLink (v : Reg32) (s : State) (n : Nat) : State :=
  let a := breg .pwr 0x18
  let l : LinkNo := ⟨n % 8, Nat.mod_lt _ (by decide)⟩
  if bit v n then
    let s := s.setFlag a n true
    let s := { s with power := { s.power with linkDown := s.power.linkDown.filter (· != l) } }
    if linkPowered s n ∨ s.power.linkUp.any (fun k => k.val == n) then s
    else { s with power := { s.power with linkUp := s.power.linkUp ++ [l] } }
  else if !s.flag a n then s
  else if linkState s n = lsDisabled then
    let up := s.power.linkUp.filter (· != l)
    let s := s.setFlag a n false
    let down := if linkPowered s n then s.power.linkDown ++ [l] else s.power.linkDown
    flushLink n { s with power := { s.power with linkUp := up, linkDown := down } }
  else (s.satInc (breg .pwr 0x28) 24 8).setFld (breg .pwr 0x28) 0 3 n

/-- A link domain request (R415). -/
def requestLinks (v : Reg32) (s : State) : State := (List.range 8).foldl (requestLink v) s

/-- PDREQ_LINK_WRITE: PD_LINK_n is switched on or, while its link is DISABLED, off, once no fault reaction runs or is due
(R19, R415, R428, R432; assumption log 89). -/
def execPdreqLinkWrite (req : Requester) (v : Reg32) (s : State) : Host.Outcome State Fault Refusal :=
  if unserved req s then .next (countUr s)
  else if s.opState = .off then .next s
  else if !hostOrMc req then .next (pwrDrop s)
  else if s.power.frozen then .next s
  else if reacting s then .next { s with power := { s.power with linkAsk := some v } }
  else .next (requestLinks v s)

/-- PD_LINK_POWER_ON: a domain has powered up, and EN governs training again; a FATAL reaction has ended every power-up
(R415, R428). -/
def execPdLinkPowerOn (n : LinkNo) (s : State) : Host.Outcome State Fault Refusal :=
  if s.power.frozen ∨ !s.power.linkUp.contains n then .next s
  else
    let s := { s with power := { s.power with linkUp := s.power.linkUp.filter (· != n) } }
    .next (tryTrain n.val (s.setFlag (breg .pwr 0x24) n.val true))

end Sys2Proof.Machine
end

