-- ==== Sys2Proof/Machine/Power.lean ====
section
/-! DEFINITION. Power and clocks (R410 to R433): VIN, the transitions of R418, the plot PLLs, the power ceiling, the
temperatures and the detectors. -/

namespace Sys2Proof.Machine

/-! ## VIN (R411, R412) -/

/-- VIN as measured, with VIN_OK (R432). -/
def measureVin (mv : BitVec 16) (s : State) : State :=
  (s.wr (breg .pwr 4) (put (s.rd (breg .pwr 4)) 16 mv)).setFlag (breg .pwr 0) 0
    (decide (4500 ≤ mv.toNat ∧ mv.toNat ≤ 18000))

/-- VIN_RISE: VAON starts at 4.2 V, and PWR_GOOD is released once VIN has stayed at 4.5 V (R411). -/
def execVinRise (mv : BitVec 16) (s : State) : Host.Outcome State Fault Refusal :=
  if s.opState ≠ .off ∨ mv.toNat < 4200 then .next s
  else .next { measureVin mv s with pwrGood := decide (4500 ≤ mv.toNat) }

/-- POWER_GOOD: the device leaves OFF for BOOT after a power-on: every field takes its Reset value but those of the measured
VIN, and the time base starts from zero with step POWER (R3, R412, R414, R429, R430, R432; assumption log 141). -/
def execPowerGood (rootSel testMode : Bool) (s : State) : Host.Outcome State Fault Refusal :=
  if s.opState ≠ .off ∨ !s.pwrGood then .next s
  else
    let s := { State.reset with
      pending := s.pending, free := s.free, tap := s.tap, pwrGood := s.pwrGood
      regs := s.regs.filter (fun r => r.1 == breg .pwr 0 || r.1 == breg .pwr 4)
      opState := OpState.boot, prevState := OpState.boot, rootSel := rootSel, testMode := testMode
      time := { now := 0, frac := 0, started := true, unlockAt := 0, row1 := false } }
    let s := s.wr (breg .run 0) (devidReset rootSel)
    .next (s.setFlag (breg .bar4 0x14) 31 true)

/-- RESET_N: a device reset from the land (R3, R429). -/
def execResetN (rootSel testMode : Bool) (s : State) : Host.Outcome State Fault Refusal :=
  if s.opState = .off then .next s else .next (deviceReset 1 rootSel testMode s)

/-- VIN_LOSS: VIN has stayed below 4.3 V for 10 µs (R411). -/
def execVinLoss (mv : BitVec 16) (s : State) : Host.Outcome State Fault Refusal :=
  if s.opState = .off ∨ 4300 ≤ mv.toNat ∨ s.power.vinLossAt.isSome then .next s
  else
    let s := measureVin mv s
    let s := { s with power := { s.power with vinLossAt := some s.time.now } }
    .next (detect { Detection.bare 0x60 with a := 4300, b := mv } s)

/-- POWER_STOP: VIN below 4.0 V, or 200 µs after VIN_LOSS (R411). -/
def execPowerStop (mv : BitVec 16) (s : State) : Host.Outcome State Fault Refusal :=
  let late : Bool := match s.power.vinLossAt with
    | some t => decide (t.toNat + 200000 ≤ now s)
    | none => false
  if mv.toNat < 4000 ∨ late then .next (powerOff s) else .next s

/-- OVER_VOLTAGE_STOP: VIN above 19.0 V; no reaction runs (R411). -/
def execOverVoltageStop (mv : BitVec 16) (s : State) : Host.Outcome State Fault Refusal :=
  if 19000 < mv.toNat then .next (powerOff s) else .next s

/-! ## Plot voltage and frequency (R416 to R420, R428) -/

/-- The code a plot runs at: TARGET within the ceiling, unless CAPX is 1 (R418). -/
def effCode (s : State) (p : Nat) : Nat :=
  if s.flag (clkReq p) 8 then targetCode s p else min (targetCode s p) (ceilCode s)

/-- CLK_PLOT_n_STAT.CUR. -/
def curCode (s : State) (p : Nat) : Nat := s.fld (clkStat p) 0 6

/-- The operating point of a code, in mV (R416). -/
def vOpp (k : Nat) : Nat := if k ≤ 24 then 620 + 10 * (k - 8) else 780 + 20 * (k - 24)

/-- TRIM of a plot, signed (R416). -/
def trimOf (s : State) (p : Nat) : Int := (bits (s.rd (ldoReg p)) 16 5).toInt

/-- The LDO setting of a code with the plot's trim, within the LDO's range (R416, R417). -/
def ldoWant (s : State) (p k : Nat) : Nat := (max 600 (min 950 ((vOpp k : Int) + 5 * trimOf s p))).toNat

/-- PWR_LDO_n.VOUT. -/
def ldoOut (s : State) (p : Nat) : Nat := s.fld (ldoReg p) 0 10

/-- The VCORE that the LDO settings, present and due, need (R417). -/
def vcoreNeed (s : State) : Nat :=
  max 840 (60 + (List.range 64).foldl (fun m p =>
    if plotOn s p then max m (max (ldoOut s p) (ldoWant s p (effCode s p))) else m) 0)

/-- PWR_VCORE.MV. -/
def vcore (s : State) : Nat := s.fld (breg .pwr 0x30) 0 16

/-- What a plot's transition does next (R418). -/
inductive Dvfs where
  | done
  | rail (mv : Nat)
  | ldo (mv : Nat)
  | freq (k : Nat)
  deriving DecidableEq, Repr

/-- The voltage change that comes next: VCORE is raised before an LDO needs it (R417). -/
def nextVolt (s : State) (want : Nat) : Dvfs := if vcore s < vcoreNeed s then .rail (vcoreNeed s) else .ldo want

/-- The next step of a plot's transition: raising, VCORE, LDO, frequency; lowering, the other way round (R418). -/
def nextDvfs (s : State) (p : Nat) : Dvfs :=
  let cur := curCode s p
  let eff := effCode s p
  let want := ldoWant s p eff
  if cur < eff then (if ldoOut s p < want then nextVolt s want else .freq (cur + 1))
  else if eff < cur then .freq (cur - 1)
  else if ldoOut s p ≠ want then nextVolt s want
  else if vcore s ≠ vcoreNeed s then .rail (vcoreNeed s)
  else .done

/-- CLK_PLOT_n_STAT.SLEW after a step: a transition goes on until nothing is left and the LDO has settled. -/
def seeSlew (p : Nat) (run : Bool) (s : State) : State :=
  s.setFlag (clkStat p) 31 (run && (nextDvfs s p != .done || !s.flag (ldoReg p) 31))

/-- A transition of R418 or R420 runs in a plot in this period (R436). -/
def markMoved (p : Nat) (s : State) : State :=
  { s with upkeep := { s.upkeep with moved := SMap.set s.upkeep.moved p true false } }

/-- CUR_n changes, which ends the count of R436; reaching EFF_n after a change of TARGET raises EV_1935 (R418). -/
def setCur (p k : Nat) (s : State) : State :=
  let s := s.setFld (clkStat p) 0 6 k
  let s := { s with upkeep := { s.upkeep with above := SMap.set s.upkeep.above p 0 0 } }
  if SMap.get s.power.asked p false ∧ k = effCode s p then
    raiseEvent 1935 { s with power := { s.power with asked := SMap.set s.power.asked p false false } }
  else s

/-- One step of a transition takes effect. -/
def doDvfs (p : Nat) (s : State) : State :=
  let run := s.flag (clkStat p) 31 || curCode s p != effCode s p
  let s := if run then markMoved p s else s
  let s := match nextDvfs s p with
    | .done => s
    | .rail mv => s.setFld (breg .pwr 0x30) 0 16 mv
    | .ldo mv => (s.setFld (ldoReg p) 0 10 mv).setFlag (ldoReg p) 31 false
    | .freq k => setCur p k s
  seeSlew p run s

/-- A transition that a reaction cuts short ends at CUR_n with TRUNC, once its LDO has reached its setting (R428). -/
def truncDvfs (s : State) (p : Nat) : State :=
  if s.flag (clkStat p) 31 && s.flag (ldoReg p) 31 then (s.setFlag (clkStat p) 31 false).setFlag (clkStat p) 29 true else s

/-- DVFS_STEP: one frequency step or one voltage change. Under a reaction the transition ends; a FATAL reaction holds
everything (R418, R428). -/
def execDvfsStep (p : PlotNo) (s : State) : Host.Outcome State Fault Refusal :=
  if !plotOn s p.val ∨ s.flag (clkStat p.val) 30 ∨ s.power.frozen then .next s
  else if reacting s then .next (truncDvfs s p.val)
  else if !s.flag (ldoReg p.val) 31 then .next s
  else .next (doDvfs p.val s)

/-- LDO_SETTLED: the output has reached its setting, and the transition goes on (R417, R428). -/
def execLdoSettled (p : PlotNo) (s : State) : Host.Outcome State Fault Refusal :=
  if !plotOn s p.val ∨ s.flag (ldoReg p.val) 31 ∨ s.power.frozen then .next s
  else
    let run := s.flag (clkStat p.val) 31
    let s := if run then markMoved p.val s else s
    let s := s.setFlag (ldoReg p.val) 31 true
    .next (if reacting s then truncDvfs s p.val else seeSlew p.val run s)

/-- PPLL_UNLOCK: PCLK_n moves to SAFE, and CUR_n reads 8 (R420, R456). -/
def execPpllUnlock (p : PlotNo) (s : State) : Host.Outcome State Fault Refusal :=
  if !plotOn s p.val ∨ s.flag (clkStat p.val) 30 then .next s
  else
    let k := curCode s p.val
    let s := markMoved p.val (setCur p.val 8 s)
    let s := (s.setFlag (clkStat p.val) 30 true).setFlag (clkStat p.val) 31 false
    let s := s.satInc (clkStat p.val) 16 8
    .next (detect { Detection.bare 0x25 with
      plot := some p, locus := BitVec.ofNat 16 p.val, a := BitVec.ofNat 64 k, b := 8 } s)

/-- PPLL_RELOCK: PCLK_n moves back at code 8 and rises by R418 (R420). -/
def execPpllRelock (p : PlotNo) (s : State) : Host.Outcome State Fault Refusal :=
  if !plotOn s p.val ∨ !s.flag (clkStat p.val) 30 ∨ s.power.frozen then .next s
  else
    let s := markMoved p.val (s.setFlag (clkStat p.val) 30 false)
    .next (seeSlew p.val (decide (effCode s p.val ≠ 8) && !reacting s) s)

/-- CLK_STATUS.CFG_DROP (R433). -/
def clkDrop (s : State) : State := s.setFlag (breg .clk 0) 31 true

/-- A transition starts in a plot whose EFF_n is not CUR_n, unless a reaction holds it (R418, R428). -/
def startDvfs (s : State) (p : Nat) : State :=
  if plotOn s p ∧ ¬ s.flag (clkStat p) 30 ∧ ¬ s.power.frozen ∧ ¬ reacting s ∧ curCode s p ≠ effCode s p then
    markMoved p (s.setFlag (clkStat p) 31 true)
  else s

/-! ## What waits for reactions (R19, R428, R458, R460) -/

/-- The transitions that have waited for reactions start, once none runs or is due: an epoch advance that no FATAL reaction
has frozen, that of the links' domains, that of the banks, and a plot's toward EFF_n (R19, R295, R415, R428, R448). -/
def resumeWaiting (s : State) : State :=
  if reacting s then s
  else
    let s := if s.upkeep.asked && !s.flag (breg .upk 0x64) 30 then startEpoch s else s
    let s := match s.power.linkAsk with
      | some v => requestLinks v { s with power := { s.power with linkAsk := none } }
      | none => s
    (List.range 64).foldl startDvfs (if s.bankWait then startBanks s else s)

/-- REACTION_START: with none running, the first queued reaction starts, once a transition in progress has completed; those
of the plots end, and after the last reaction that does not run, transitions that waited start; in the safe state it is
dropped (R19, R428, R448, R460, R465). -/
def execReactionStart (s : State) : Host.Outcome State Fault Refusal :=
  if s.sieve.running.isSome ∨ transiting s then .next s
  else match s.sieve.queue with
    | [] => .next s
    | c :: cs =>
      let s := { s with sieve := { s.sieve with queue := cs } }
      match recOf s c, s.sieve.safe with
      | none, _ => .next s
      | some _, some k => .next (if k = c then s else dropReaction k c s)
      | some r, none => .next (resumeWaiting (beginReaction c r ((List.range 64).foldl truncDvfs (keepLinks s))))

/-- REACTION_COMPLETE: the running reaction, whose work is done, completes; one that it has been raised to runs directly
after it, or is dropped in the safe state, and after the last one the transitions that waited start (R3, R19, R428, R458,
R460, R465, R467). -/
def execReactionComplete (s : State) : Host.Outcome State Fault Refusal :=
  match s.sieve.running with
  | none => .next s
  | some c => match recOf s c with
    | none => .next { s with sieve := { s.sieve with running := none, runReact := 0 } }
    | some r =>
      if r.phase ≠ .acted then .next s
      else
        let ran := s.sieve.runReact
        let s := endMask c s
        let s := if ran = reSafe then s else afterReset s
        let r' := { r with phase := RPhase.done, tDone := some s.time.now }
        let s := setRec c r' { s with sieve := { s.sieve with running := none, runReact := 0 } }
        if severity ran < severity r.react then
          match s.sieve.safe with
          | none => .next (beginReaction c r' s)
          | some k => .next (if k = c then s else dropReaction k c s)
        else .next (resumeWaiting s)

/-! ## Requests for a code (R418, R433) -/

/-- A register's writable fields take a value; a reserved one counts (R10). -/
def fieldWrite (a : Nat) (v : Reg32) (s : State) : State :=
  match rowAt s.profile a with
  | some (r, _) => plainWrite a r v s
  | none => s

/-- CLK_PLOT_REQ_WRITE: TARGET and CAPX are written, and a transition toward EFF_n begins (R418, R433). -/
def execClkPlotReqWrite (req : Requester) (p : PlotNo) (v : Reg32) (s : State) : Host.Outcome State Fault Refusal :=
  if unserved req s then .next (countUr s)
  else if s.opState = .off then .next s
  else if !hostOrMc req then .next (clkDrop s)
  else
    let t := targetCode s p.val
    let s := fieldWrite (clkReq p.val) v s
    let s := if targetCode s p.val ≠ t then
        { s with power := { s.power with
          asked := SMap.set s.power.asked p.val (decide (curCode s p.val ≠ effCode s p.val)) false } }
      else s
    .next (startDvfs (seeCap s) p.val)

/-! ## The ceiling (R421, R422) -/

/-- The limit L of R421, in units of 10 mW. -/
def capLimit (s : State) : Nat :=
  let l := s.fld (breg .pwr 0xC) 16 8
  100 * (if s.power.vinLow then min l 100 else l)

/-- The next ceiling (R421). `spare` counts the periods, this one included, with P below L less 5 W. -/
def nextCeil (s : State) (w spare : Nat) : Nat :=
  let c := ceilCode s
  let m := topTarget s
  let fmin := s.fld (breg .pwr 0xC) 0 6
  if s.power.hot then max 8 (min c m - 2)
  else if capLimit s < w then max fmin (min c m - 2)
  else if c < fmin ∨ 10 ≤ spare then min 32 (c + 2)
  else c

/-- CEILING_EVAL: the mean input power of the period, in units of 10 mW, sets the ceiling. It is skipped during a reaction,
and held at 8 where the power configuration has diverged (R421, R422, R428, R468). -/
def execCeilingEval (watts : BitVec 16) (s : State) : Host.Outcome State Fault Refusal :=
  if s.opState = .off then .next s
  else
    let w := watts.toNat
    let s := s.wr (breg .pwr 4) (put (s.rd (breg .pwr 4)) 0 watts)
    if reacting s ∨ s.power.frozen then
      .next (if s.sieve.diverged.contains 0x46 then s.setFld (breg .pwr 0x14) 0 6 8 else s)
    else
      let l := capLimit s
      let spare := if w + 500 < l then min 10 (s.power.spare + 1) else 0
      let old := ceilCode s
      let c := if s.sieve.diverged.contains 0x46 then 8 else nextCeil s w spare
      let lowered := decide (c < old) && !s.power.hot && decide (l = 100 * s.fld (breg .pwr 0xC) 16 8)
      let s := (s.setFld (breg .pwr 0x14) 0 6 c).setFlag (breg .pwr 0) 3 lowered
      let stuck := decide (c = s.fld (breg .pwr 0xC) 0 6 ∧ l < w)
      let overs := if stuck then min 101 (s.power.overs + 1) else 0
      let s := { s with power := { s.power with spare := spare, overs := overs } }
      let s := s.setFlag (breg .pwr 0) 2 (decide (100 ≤ overs))
      let s := if overs = 100 then
          detect { Detection.bare 0x52 with a := BitVec.ofNat 64 (l / 100), b := BitVec.ofNat 16 (w / 100) } s
        else s
      let s := seeCap s
      .next (if c = old then s else (List.range 64).foldl startDvfs s)

/-! ## Voting (R468) -/

/-- The bits of a row's fields. -/
def RRow.mask (r : RRow) : Reg32 :=
  r.fields.foldl (fun v f => v ||| ((BitVec.ofNat 32 (2 ^ f.len - 1)) <<< f.lo)) 0

/-- Whether R468 holds a word at an address in three copies at a site. The fuse words have no address of the map. -/
def voteWord (site : Nat) (addr : Nat) : Bool :=
  let within (b : Blk) (lo hi : Nat) : Bool := decide (breg b lo ≤ addr ∧ addr < breg b hi ∧ addr % 4 = 0)
  if site < 64 then addr == preg site 0
  else if site = 0x40 then within .sieve 0x400 0x480
  else if site = 0x41 then within .sieve 0x40 0x48
  else if site = 0x42 then true
  else if site = 0x43 then addr == breg .run 0 || within .run 0x4000 0x5000
  else if site = 0x44 then within .lck 0x100 0x500 && addr % 16 != 12
  else if site = 0x45 then within .dib 0x1000 0x3000
  else site == 0x46 && (addr == breg .pwr 0xC || addr == breg .pwr 0x10 || (within .clk 0x100 0x300 && addr % 8 == 0))

/-- VOTE_PASS: one copy that differs is corrected; with no majority the site diverges, its owner enters its safe state, and
the word keeps whatever copy is read, a free value (R468; assumption log 22). -/
def execVotePass (u : Option VoteUpset) (s : State) : Host.Outcome State Fault Refusal :=
  match u with
  | none => .next s
  | some u =>
    let n := popcount u.copies
    if n = 0 ∨ !voteWord u.site.toNat u.addr.toNat then .next s
    else
      let d (code : BitVec 8) : Detection :=
        { Detection.bare code with locus := u.site.setWidth 16, a := u.addr.setWidth 64, b := u.copies.setWidth 16 }
      if n = 1 then
        let s := s.satInc (breg .sieve 0x20) 24 8
        .next (detect (d 0x53) (s.setFld (breg .sieve 0x20) 8 8 u.site.toNat))
      else
        let fr := s.draw
        let s := match (if u.site.toNat = 0x42 then none else rowAt s.profile u.addr.toNat) with
          | some (r, _) => fr.2.wr u.addr.toNat (bits fr.1 0 32 &&& r.mask)
          | none => fr.2
        let s := { s with sieve := { s.sieve with diverged := (s.sieve.diverged ++ [u.site]).eraseDups } }
        let s := if u.site.toNat < 64 then
            (List.range 17).foldl (fun s i => haltEngine s (17 * u.site.toNat + i)) s
          else s
        let s := if u.site = 0x41 then (List.range 32).foldl (fun s n => setOut n .z s) s else s
        let s := if u.site = 0x46 then
            (List.range 64).foldl startDvfs (seeCap (s.setFld (breg .pwr 0x14) 0 6 8))
          else s
        .next (detect (d 0x65) s)

/-! ## Temperatures and VIN (R422, R423) -/

/-- A threshold with 3 °C of hysteresis, in units of 0.25 °C. -/
def hysteresis (was : Bool) (tj : Int) (deg : Nat) : Bool :=
  if (4 * deg : Int) ≤ tj then true else if tj < 4 * deg - 12 then false else was

/-- THERMAL_SAMPLE: TJ and the case temperature, in units of 0.25 °C (R423, R432). -/
def execThermalSample (tj tcase : BitVec 12) (s : State) : Host.Outcome State Fault Refusal :=
  if s.opState = .off then .next s
  else
    let s := s.wr (breg .pwr 8) ((0 : BitVec 4) ++ tj ++ (0 : BitVec 4) ++ tcase)
    let t := tj.toInt
    let was := s.flag (breg .pwr 0) 7
    let warn := hysteresis was t (s.fld (breg .pwr 0x10) 0 8)
    let s := s.setFlag (breg .pwr 0) 7 warn
    let s := if warn ∧ ¬ was then raiseEvent 1934 s else s
    let crit := if 460 ≤ t then min 2 (s.power.crit + 1) else 0
    let s := { s with power := { s.power with
      hot := hysteresis s.power.hot t (s.fld (breg .pwr 0x10) 16 8), crit := crit } }
    .next (if crit = 2 then detect { Detection.bare 0x62 with a := 460, b := tj.signExtend 16 } s else s)

/-- VIN_LOW_CHANGE: vin_low follows VIN, below 7.0 V and from 7.3 V (R422). -/
def execVinLowChange (mv : BitVec 16) (s : State) : Host.Outcome State Fault Refusal :=
  if s.opState = .off then .next s
  else
    let low := if mv.toNat < 7000 then true else if 7300 ≤ mv.toNat then false else s.power.vinLow
    .next (measureVin mv { s with power := { s.power with vinLow := low } })

/-! ## Detectors (R424) -/

/-- The settings of the rails but VCORE, in the order of the rail table, in mV (R410). -/
def railMv : List Nat := [800, 1800, 800, 850, 900, 1200]

/-- The setting of a rail. -/
def railSetting (s : State) (i : Nat) : Option Nat := if i = 6 then some (vcore s) else railMv[i]?

/-- The distance of two numbers. -/
def apart (a b : Nat) : Nat := max a b - min a b

/-- PLL_M loses its lock: from here on TBCLK runs from REFCLK (R414, R424). -/
def loseLock (s : State) : State :=
  let s := if s.flag (breg .clk 0) 1 then { s with time := { s.time with unlockAt := s.time.now } } else s
  s.setFlag (breg .clk 0) 1 false

/-- POWER_DETECTOR_FAULT: a detector finds its quantity outside its bounds (R424, R456). -/
def execPowerDetectorFault (d : PowerDetector) (s : State) : Host.Outcome State Fault Refusal :=
  if s.opState = .off then .next s
  else
    match d with
    | .rail i mv =>
      match railSetting s i.toNat with
      | none => .next s
      | some v =>
        if 100 * apart v mv.toNat ≤ 5 * v then .next s
        else .next (detect { Detection.bare 0x61 with locus := i.setWidth 16, a := BitVec.ofNat 64 v, b := mv } s)
    | .ldo p mv =>
      let v := ldoOut s p.val
      if !plotOn s p.val ∨ !s.flag (ldoReg p.val) 31 ∨ apart v mv.toNat ≤ 30 then .next s
      else .next (detect { Detection.bare 0x27 with
        plot := some p, locus := BitVec.ofNat 16 p.val, a := BitVec.ofNat 64 v, b := mv } s)
    | .refLoss => .next (detect (Detection.bare 0x63) (s.setFlag (breg .clk 0) 2 false))
    | .pllm =>
      if s.opState = .boot ∧ bootStep s = 0 then .next s
      else .next (detect (Detection.bare 0x64) (loseLock s))

/-! ## Registers as read (R432, R433) -/

/-- Whether a granary quadrant's domain is on: some bank of it is not OFF, or the queues of its ports are still being
flushed (R269, R415). -/
def grnPowered (s : State) (q : Nat) : Bool :=
  !((List.range 128).all (fun b => bankState s (128 * q + b) == .off)) ||
    (List.range 4).any (fun j => SMap.get s.flushing (qkey (siteGrn q j) false chReq) false ||
      SMap.get s.flushing (qkey (siteGrn q j) true chRsp) false)

/-- Whether a granary quadrant's domain is being switched on: its first bank wakes while every other is OFF (R415). -/
def grnRises (s : State) (q : Nat) : Bool :=
  let st := (List.range 128).map (fun b => bankState s (128 * q + b))
  st.all (fun b => b == .off || b == .waking true) && st.any (fun b => b == .waking true)

/-- The PWR registers as read. -/
def viewPwr (s : State) (off : Nat) : Reg32 :=
  let raw := s.rd (breg .pwr off)
  if off = 0 then
    let busy := !s.power.linkUp.isEmpty || !s.power.linkDown.isEmpty || (List.range 4).any (grnRises s) ||
      (s.opState == .boot && s.fld (breg .dev 0x1C) 28 4 == 0)
    let low := s.power.vinLow && decide (100 < s.fld (breg .pwr 0xC) 16 8)
    putBit (putBit (putBit raw 5 low) 4 s.power.hot) 1 busy
  else if off = 0x24 then (List.range 4).foldl (fun v q => putBit v (8 + q) (bit raw (8 + q) && grnPowered s q)) raw
  else raw

/-- The CLK registers as read. -/
def viewClk (s : State) (off : Nat) : Reg32 :=
  let raw := s.rd (breg .clk off)
  if off = 0 then putBit raw 0 ((List.range 64).any (fun p => s.flag (clkStat p) 31))
  else if 0x100 ≤ off ∧ off % 8 = 4 then put raw 8 (BitVec.ofNat 6 (effCode s ((off - 0x104) / 8)))
  else raw

end Sys2Proof.Machine
end

