-- ==== Sys2Proof/Machine/Upkeep.lean ====
section
/-! DEFINITION. Upkeep (R434 to R449): the calibration of plot voltages, the scrub, the march test on borrowed stripes and
the mode epochs. -/

namespace Sys2Proof.Machine

/-- UPK_STATUS.CFG_DROP (R446, R449). -/
def upkDrop (s : State) : State := s.setFlag (breg .upk 0) 31 true

/-! ## Calibration (R435 to R437) -/

/-- UPK_CAL_n. -/
def calReg (p : Nat) : Nat := breg .upk (0x100 + 4 * p)

/-- A signed limit of UPK_CAL_LIM: TMAX (8) or TMIN (0). -/
def trimLimit (s : State) (lo : Nat) : Int := (bits (s.rd (breg .upk 0x44)) lo 5).toInt

/-- The trim at which the setting of the present code reaches 950 mV (R437). -/
def trimRoom (s : State) (p : Nat) : Int := (950 - (vOpp (curCode s p) : Int)) / 5

/-- The count of samples above HIGH, and the trim, of a plot change (R436). -/
def setAbove (p n : Nat) (s : State) : State :=
  { s with upkeep := { s.upkeep with above := SMap.set s.upkeep.above p n 0 } }

/-- TRIM of a plot changes; UPK_CAL_n counts the raise or the lowering (R436, R449). -/
def setTrim (p : Nat) (t : Int) (s : State) : State :=
  let old := trimOf s p
  let s := s.wr (ldoReg p) (put (s.rd (ldoReg p)) 16 (BitVec.ofInt 5 t))
  if old < t then s.satInc (calReg p) 16 8 else if t < old then s.satInc (calReg p) 8 8 else s

/-- The limit state of a trim (R437): with m below LOW at TMAX, or at the setting's top, ATLIM is 1, and EV_1930 is raised
as it becomes so. The answer says whether the trim may rise. -/
def seeLimit (p m low : Nat) (s : State) : Bool × State :=
  let limit : Bool := decide (m < low) && (decide (trimOf s p = trimLimit s 8) || decide (trimRoom s p < trimOf s p + 1))
  let was := s.flag (calReg p) 31
  let s := s.setFlag (calReg p) 31 (limit || (was && decide (m < low)))
  (!limit, if limit && !was then raiseEvent 1930 s else s)

/-- The trim rises by a number of steps, within TMAX and the top of the setting (R436, R437). -/
def raiseTrim (p n : Nat) (may : Bool) (s : State) : State :=
  if may then setTrim p (min (min (trimLimit s 8) (trimOf s p + n)) (trimRoom s p)) s else s

/-- A plot in service is evaluated with its margin (R436, R437). -/
def calPlot (p : PlotNo) (m : Nat) (s : State) : State :=
  let c := breg .upk 0x40
  let crit := s.fld c 18 6
  let high := s.fld c 12 6
  let low := s.fld c 6 6
  let hold := s.fld c 0 6
  let r := seeLimit p.val m low s
  let s := r.2
  if m < crit then
    let s := setAbove p.val 0 (raiseTrim p.val 2 r.1 s)
    let b : BitVec 16 := BitVec.ofBool (!r.1) ++ (0 : BitVec 9) ++ BitVec.ofNat 6 m
    detect { Detection.bare 0x26 with
      plot := some p, locus := BitVec.ofNat 16 p.val, a := BitVec.ofNat 64 crit, b := b } s
  else if m < low then setAbove p.val 0 (raiseTrim p.val 1 r.1 s)
  else if high < m then
    let n := SMap.get s.upkeep.above p.val 0 + 1
    if hold ≤ n then setAbove p.val 0 (setTrim p.val (max (trimLimit s 0) (trimOf s p.val - 1)) s) else setAbove p.val n s
  else setAbove p.val 0 s

/-- The margin that a period's monitors yield for a plot, if one does: a path that switched in fewer than 1,024 cycles
yields none (R435). -/
def marginOf (ms : List Monitor) (p : PlotNo) : Option Nat :=
  match (ms.filter (fun k => k.plot == p && decide (1024 ≤ k.cycles.toNat))).map (fun k => k.slack.toNat) with
  | [] => none
  | m :: rest => some (rest.foldl min m)

/-- One plot's sample is shown, and evaluated when evaluations run (R435, R436). -/
def calSample (run : Bool) (ms : List Monitor) (s : State) (p : PlotNo) : State :=
  if plotGone s p then s
  else
    match marginOf ms p with
    | none =>
      let s := s.setFlag (calReg p.val) 30 true
      if run then setAbove p.val 0 s else s
    | some m =>
      let s := (s.setFlag (calReg p.val) 30 false).setFld (calReg p.val) 24 6 m
      if !run then s
      else if SMap.get s.upkeep.moved p.val false || s.flag (clkStat p.val) 31 || s.flag (clkStat p.val) 30 then
        setAbove p.val 0 s
      else calPlot p m s

/-- CAL_EVAL, at a multiple of 100 µs: the margins of the period; a plot with none has no data. Nothing is evaluated with EN
= 0, during a reaction or once a FATAL one has frozen the supplies (R428, R434 to R436). -/
def execCalEval (margins : List Monitor) (s : State) : Host.Outcome State Fault Refusal :=
  if s.opState = .off ∨ now s / 100000 ≤ s.upkeep.calAt.toNat / 100000 then .next s
  else
    let run := s.flag (breg .upk 0x40) 31 && !reacting s && !s.power.frozen
    let s := (List.finRange 64).foldl (calSample run margins) s
    .next { s with upkeep := { s.upkeep with moved := [], calAt := s.time.now } }

/-! ## Scrubbing (R439, R440) -/

/-- UPK_WERR counts a word that the scrub corrected, or found uncorrectable. -/
def countScrub (uc : Bool) (s : State) : State := s.satInc (breg .upk 0x1C) (if uc then 0 else 16) 16

/-- The protected word that an address lies in. -/
def protectedWord (a : Nat) : Option Nat :=
  match place a with
  | .granary _ => some (a / 8 * 8)
  | .imem _ _ => some (a / 8 * 8)
  | .frame _ _ => some (a / 8 * 8)
  | .ms _ _ => some (a / 8 * 8)
  | .ctxStore _ _ => some (a / 8 * 8)
  | .ucode _ _ => some (a / 4 * 4)
  | _ => none

/-- The state after upsets of protected words. -/
def upsetAll (ups : List ScrubUpset) (s : State) : State :=
  ups.foldl (fun s u => match protectedWord u.addr.toNat with
    | some a => s.upset a u.upset
    | none => s) s

/-- A word of a local memory is scrubbed (R298, R439). -/
def scrubLocal (m : LocalMem) (e : EngNo) (w : Nat) (s : State) : State :=
  let was := s.mark w
  let r := localCheck m e [w] s
  if was = .clean then r.2 else countScrub r.1 r.2

/-- A matching-store set is scrubbed: an uncorrectable entry is invalidated (R60, R439). No token stands in MATCH, so the
record names none. -/
def scrubSet (e : EngNo) (set : Nat) (s : State) : State :=
  let bad := (validWays (s.eng e) set).map (wayMark s e set)
  let s := (bad.filter (· != .clean)).foldl (fun s m => countScrub (m == .double) s) s
  readSet e set 0 s

/-- A microword of a slot is scrubbed (R194, R439). -/
def scrubMicro (e : EngNo) (a : Nat) (s : State) : State :=
  let w := (a - ucodeBase e) / 4
  match s.mark a with
  | .clean => s
  | .single => countScrub false ((ucodeEcc 0x07 e w s).setMark a .clean)
  | .double => countScrub true (ucodeEcc 0x08 e w s)

/-- A half of a context-store unit is scrubbed (R439, R456). -/
def scrubCtx (p : PlotNo) (off a : Nat) (s : State) : State :=
  let d (code : BitVec 8) : Detection := { Detection.bare code with
    plot := some p, locus := BitVec.ofNat 16 p.val, a := BitVec.ofNat 64 off, c := s.load a 8 }
  match s.mark a with
  | .clean => s
  | .single => countScrub false ((detect (d 0x20) s).setMark a .clean)
  | .double => countScrub true (detect (d 0x21) s)

/-- A word that carries an error is scrubbed at a tick whose index reaches it. -/
def scrubWord (i : Nat) (s : State) (a : Nat) : State :=
  let eng (e : Nat) (go : EngNo → State) : State :=
    if h : e < 1088 then (if plotOn s (e / 17) then go ⟨e, h⟩ else s) else s
  match place a with
  | .imem e off => if off / 8 = i then eng e (fun e => scrubLocal .imem e a s) else s
  | .frame e off => if off / 8 = i then eng e (fun e => scrubLocal .frame e a s) else s
  | .ms e off => if off / 64 = i then eng e (fun e => scrubSet e i s) else s
  | .ucode e off => if off / 4 = i then eng e (fun e => scrubMicro e a s) else s
  | .ctxStore p off => if h : p < 64 then (if plotOn s p ∧ off / 16 = i then scrubCtx ⟨p, h⟩ off a s else s) else s
  | _ => s

/-- The time between two scrub ticks: LPERIOD, in ms, divided by 4,096 (R439). -/
def tickPeriod (s : State) : Nat := 1000000 * s.fld (breg .upk 0x14) 8 8 / 4096

/-- SCRUB_TICK: with tick index i, a tick's time after the one before, every slot scrubs word i of its memories and every
plot unit i of its context store; a tick past the last ends a pass (R439). Clean words are left as they are, so only words
with errors are visited. -/
def execScrubTick (ups : List ScrubUpset) (s : State) : Host.Outcome State Fault Refusal :=
  let s := upsetAll ups s
  if s.opState = .off ∨ !s.flag (breg .upk 0x10) 1 ∨ now s < s.upkeep.tickAt.toNat + tickPeriod s then .next s
  else
    let i := s.upkeep.tick
    let s := (s.marks.map (·.1)).foldl (scrubWord i) s
    let s := { s with upkeep := { s.upkeep with tick := (i + 1) % 4096, tickAt := s.time.now } }
    .next (if i = 4095 then s.setFld (breg .upk 0x18) 8 8 (s.fld (breg .upk 0x18) 8 8 + 1) else s)

/-- The word address of a row of a bank of a quadrant (R278). -/
def rowWord (q bank row : Nat) : BitVec 23 :=
  let w : BitVec 21 := BitVec.ofNat 14 row ++ BitVec.ofNat 7 bank
  bits w 18 3 ++ (BitVec.ofNat 2 q ^^^ bits w 19 2) ++ bits w 0 18

/-- The words of a group of eight rows. -/
def groupWords (q bank g : Nat) : List (BitVec 23) := (List.range 8).map (fun i => rowWord q bank (8 * g + i))

/-- A granary word is scrubbed: a single-bit error is corrected and written back (R281, R439, R440). -/
def scrubGranary (s : State) (w : BitVec 23) : State :=
  if borrowed s w then s
  else
    let single := s.mark (wbyte w) == .single
    let r := checkWord w s
    if r.1 then countScrub true r.2
    else if single then countScrub false (r.2.setMark (wbyte w) .clean)
    else r.2

/-- Groups of a quadrant's pass. -/
def passEnd : Nat := 262144

/-- The next group of a quadrant's pass whose bank is ON (R440). -/
def nextGroup (s : State) (q : Nat) : Nat → Nat → Nat
  | 0, _ => passEnd
  | fuel + 1, k =>
    if passEnd ≤ k then passEnd
    else if bankState s (128 * q + k / 2048) = .on then k
    else nextGroup s q fuel ((k / 2048 + 1) * 2048)

/-- The next group of a quadrant's pass. -/
def passAt (s : State) (q : Nat) : Nat := nextGroup s q 129 (SMap.get s.upkeep.gscrub q 0)

/-- GPERIOD in ns. -/
def granaryPeriod (s : State) : Nat := 10000000 * s.fld (breg .upk 0x14) 0 8

/-- A pass ends once every quadrant's has, or has no ON bank left: it is counted and EV_1928 raised; one that is late starts
the next at once (R440). -/
def seePass (s : State) : State :=
  if (List.range 4).all (fun q => passAt s q == passEnd) then
    let ends := (List.range 4).foldl (fun m q => SMap.set m q passEnd 0) s.upkeep.gscrub
    let s := { s with upkeep := { s.upkeep with gscrub := ends } }
    let s := raiseEvent 1928 (s.setFld (breg .upk 0x18) 16 16 (s.fld (breg .upk 0x18) 16 16 + 1))
    if s.upkeep.passAt.toNat + granaryPeriod s < now s then
      { s.satInc (breg .upk 0x18) 0 8 with upkeep := { s.upkeep with gscrub := [], passAt := s.time.now } }
    else s
  else s

/-- A pass whose period has come begins. -/
def beginPass (s : State) : State :=
  if (List.range 4).all (fun q => SMap.get s.upkeep.gscrub q 0 == passEnd) ∧
      s.upkeep.passAt.toNat + granaryPeriod s ≤ now s then
    { s with upkeep := { s.upkeep with gscrub := [], passAt := s.time.now } }
  else s

/-- Whether a GRANARY_CLEAR or a self-test holds the Weeder, which pauses its own work (R395, R443). -/
def weederHeld (s : State) : Bool :=
  match s.cmd with
  | some c => c.opc == 4 || (c.opc == 5 && bit c.a0 1)
  | none => false

/-- A word of a stripe's shadow buffer or of the deferred directory or pool is scrubbed, which the commands that read it
see corrected: it is counted and recorded as a granary word is (R439). The spec gives such a word no address, so the
record's address and data are free (assumption log 55). -/
def scrubDeferred (s : State) (u : Upset) : State :=
  match u with
  | .clean => s
  | _ =>
    let uc := u == .double
    let a := s.draw
    let c := a.2.draw
    countScrub uc (countGrnEcc uc (bits a.1 0 23) (detect { Detection.bare (if uc then 0x49 else 0x48) with
      a := (bits a.1 0 23).setWidth 64, c := c.1 } c.2))

/-- SCRUB_BURST: eight rows of the next ON bank of a quadrant are read and checked; a quadrant that has ended its pass
waits for the next. `deferred` are the words of the quadrant's shadow buffer, deferred directory and pool that are found
upset with it (R439, R440). -/
def execScrubBurst (q : QuadNo) (ups : List ScrubUpset) (deferred : List Upset) (s : State) :
    Host.Outcome State Fault Refusal :=
  let s := upsetAll ups s
  if s.opState = .off ∨ weederHeld s ∨ !s.flag (breg .upk 0x10) 0 then .next s
  else
    let s := beginPass (deferred.foldl scrubDeferred s)
    let k := passAt s q.val
    if k = passEnd then
      if SMap.get s.upkeep.gscrub q.val 0 = passEnd then .next s
      else .next (seePass { s with upkeep := { s.upkeep with gscrub := SMap.set s.upkeep.gscrub q.val passEnd 0 } })
    else
      let s := takePort1 2 (rowWord q.val (k / 2048) (8 * (k % 2048))) s
      let s := (groupWords q.val (k / 2048) (k % 2048)).foldl scrubGranary s
      let s := { s with upkeep := { s.upkeep with gscrub := SMap.set s.upkeep.gscrub q.val (k + 1) 0 } }
      .next (if passAt s q.val = passEnd then
          seePass { s with upkeep := { s.upkeep with gscrub := SMap.set s.upkeep.gscrub q.val passEnd 0 } }
        else s)

/-! ## March tests (R441 to R444) -/

/-- UPK_WQ_q. -/
def wqReg (q : Nat) : Nat := breg .upk (0x20 + 4 * q)

/-- The next stripe of a quadrant's march whose bank is ON, by number 32 × bank + stripe (R442). -/
def nextStripe (s : State) (q : Nat) : Nat → Nat → Option Nat
  | 0, _ => none
  | fuel + 1, k =>
    if bankState s (128 * q + k / 32) = .on then some k else nextStripe s q fuel ((k / 32 + 1) % 128 * 32)

/-- The borrow of a stripe, with the copy of it that COPY makes (R441). -/
def shadowOf (q bank stripe : Nat) (s : State) : Borrow :=
  { bank := bank, stripe := stripe, wanted := false, shadow := s.mem.filter (fun c => inStripe q bank stripe c.1)
    shadowPres := s.pres.filter (fun p => inStripe q bank stripe (8 * p.1)) }

/-- BORROW_START: the quadrant's engine borrows the next stripe and copies it, which checks each word as a scrub does; one
with an uncorrectable word is given back (R441, R442). -/
def execBorrowStart (q : QuadNo) (s : State) : Host.Outcome State Fault Refusal :=
  let x := quad s q.val
  let gap := 10000 * s.fld (breg .upk 0x14) 24 8
  if s.opState = .off ∨ weederHeld s ∨ !s.flag (breg .upk 0x10) 2 ∨ x.borrow.isSome ∨ now s < x.borrowAt.toNat + gap then .next s
  else
    match nextStripe s q.val 129 x.march with
    | none => .next s
    | some k =>
      let bank := k / 32
      let stripe := k % 32
      let s := setQuad q.val { x with march := (k + 1) % 4096, borrowAt := s.time.now } s
      let s := (s.setFld (wqReg q.val) 6 7 bank).setFld (wqReg q.val) 0 5 stripe
      let marked := (s.marks.map (·.1)).filter (inStripe q.val bank stripe)
      let parked := (s.pres.filter (fun p => p.2 == 3 && inStripe q.val bank stripe (8 * p.1))).map (fun p => 8 * p.1)
      let ws : List (BitVec 23) := ((marked ++ parked).eraseDups).map (fun a => BitVec.ofNat 23 (a / 8))
      let s := ws.foldl scrubGranary s
      if ws.any (fun w => wordBad s w) then .next s
      else
        let y := quad s q.val
        .next ((setQuad q.val { y with borrow := some (shadowOf q.val bank stripe s) } s).setFlag
          (wqReg q.val) 31 true)

/-- When the march makes a read: the backgrounds one after the other; in each the five reading elements of March C−, the
first two and the last through the groups of eight rows upwards and the others downwards; the rows of a group in one access,
of which the lowest counts first: DESIGN CHOICE (R441; assumption log 54). -/
def marchTurn (r : MarchRead) : Nat :=
  let g := r.row.toNat / 8
  let at_ := if r.element.val = 2 ∨ r.element.val = 3 then 63 - g else g
  ((5 * r.checker.toNat + r.element.val) * 64 + at_) * 8 + r.row.toNat % 8

/-- The first failing read of a march. -/
def firstFail : List MarchRead → Option MarchRead
  | [] => none
  | r :: rs => match firstFail rs with
    | none => some r
    | some t => if marchTurn t < marchTurn r then some t else some r

/-- The march on a borrowed stripe is over: its first failing row is recorded (R443). -/
def endMarch (q : Nat) (b : Borrow) (fails : List MarchRead) (s : State) : State :=
  match firstFail fails with
  | none => s
  | some r =>
    let g := 128 * q + b.bank
    let more := s.flag (breg .upk 0x30) 31 || s.flag (breg .upk 0x30) 30
    let s := s.wr (breg .upk 0x30) ((1 : BitVec 1) ++ BitVec.ofBool more ++ (0 : BitVec 7) ++ BitVec.ofNat 9 g ++
      BitVec.ofNat 5 b.stripe ++ r.row)
    raiseEvent 1929 (detect { Detection.bare 0x50 with
      locus := BitVec.ofNat 16 g, a := BitVec.ofNat 64 (512 * b.stripe + r.row.toNat) } s)

/-- BORROW_COMPLETE: RESTORE ends and the stripe is released; of the reads of the march that differed, the first is recorded
(R441, R443). -/
def execBorrowComplete (q : QuadNo) (fails : List MarchRead) (s : State) : Host.Outcome State Fault Refusal :=
  match (quad s q.val).borrow with
  | none => .next s
  | some b => .next (if b.wanted then s else endMarch q.val b fails (endBorrow q.val s))

/-- BORROW_ABORT: the borrow that a demand access meets is aborted after its restore; the access's wait is shown, at most 96
GCLK cycles, and of the reads that differed before the abort, the first is recorded (R443, R444). -/
def execBorrowAbort (q : QuadNo) (a : MarchAbort) (s : State) : Host.Outcome State Fault Refusal :=
  match (quad s q.val).borrow with
  | none => .next s
  | some b =>
    if !b.wanted then .next s
    else
      let s := endMarch q.val b a.fails (abortBorrow q.val s)
      .next (s.setFld (wqReg q.val) 16 8 (max (s.fld (wqReg q.val) 16 8) (min a.wait.toNat 96)))

/-! ## Mode epochs (R445 to R448) -/

/-- UPK_EPOCH_STAT. -/
def epochStat : Nat := breg .upk 0x64

/-- Whether a FATAL reaction has frozen the epoch state (R448). -/
def epochHalted (s : State) : Bool := s.flag epochStat 30

/-- EPOCH_ADVANCE: a write of UPK_EPOCH_CTL sets DRAIN, and ADVANCE starts an advance; the whole write is dropped while an
advance is in progress or TBLOCK holds. During a reaction the advance waits, and a frozen state starts none (R19, R446,
R448, R449). -/
def execEpochAdvance (req : Requester) (v : Reg32) (s : State) : Host.Outcome State Fault Refusal :=
  if unserved req s then .next (countUr s)
  else if !hostOrMc req then .next (upkDrop s)
  else if bit v 31 ∧ (epochBusy s ∨ s.flag epochStat 1) then .next (upkDrop s)
  else
    let s := s.wr (breg .upk 0x60) (put (s.rd (breg .upk 0x60)) 0 (bits v 0 16))
    if !bit v 31 ∨ epochHalted s then .next s
    else if reacting s then .next { s with upkeep := { s.upkeep with asked := true } }
    else .next (startEpoch s)

/-- EPOCH_SWITCH: a plot's order arrives; it switches and acknowledges (R446). -/
def execEpochSwitch (p : PlotNo) (s : State) : Host.Outcome State Fault Refusal :=
  if epochHalted s ∨ !(s.upkeep.waiting.any (fun w => w.1 == p)) then .next s
  else .next (dropWaiting p (s.modPlot p.val (fun x => { x with epoch := curEpoch s })))

/-- EPOCH_RETIRE: DRAINING has lasted DRAIN µs, and the previous set retires (R446). -/
def execEpochRetire (s : State) : Host.Outcome State Fault Refusal :=
  match s.upkeep.drainAt with
  | none => .next s
  | some t =>
    if epochHalted s ∨ now s < t.toNat + 1000 * s.fld (breg .upk 0x60) 0 16 then .next s
    else .next (raiseEvent 1931 { s.setFlag epochStat 31 false with upkeep := { s.upkeep with drainAt := none } })

/-- EPOCH_TIMEOUT: a plot that has not acknowledged 100 µs after its order is dropped, recorded, and blocks further
advances until it is reset or quarantined (R448, R456). -/
def execEpochTimeout (p : PlotNo) (s : State) : Host.Outcome State Fault Refusal :=
  match s.upkeep.waiting.find? (fun w => w.1 == p) with
  | none => .next s
  | some w =>
    if epochHalted s ∨ now s < w.2.toNat + 100000 then .next s
    else
      let s := s.modPlot p.val (fun x => { x with epochLate := true })
      let s := ((s.setFlag epochStat 15 true).setFld epochStat 8 6 p.val).setFlag epochStat 1 true
      let s := detect { Detection.bare 0x51 with plot := some p, locus := BitVec.ofNat 16 p.val, a := w.2 } s
      .next (dropWaiting p s)

/-! ## Registers (R446, R449) -/

/-- The phase of a borrow, from its age in GCLK cycles: COPY, MARCH or RESTORE (R441). -/
def borrowPhase (s : State) (q : Nat) : BitVec 2 :=
  let n := (now s - (quad s q).borrowAt.toNat) * 6 / 5
  if n < 64 then 0 else if n < 1344 then 1 else 2

/-- The UPK registers as read. -/
def viewUpk (s : State) (off : Nat) : Reg32 :=
  let raw := s.rd (breg .upk off)
  if off = 0x64 then put raw 16 (BitVec.ofNat 7 s.upkeep.waiting.length)
  else if 0x20 ≤ off ∧ off < 0x30 ∧ bit raw 31 then put raw 29 (borrowPhase s ((off - 0x20) / 4))
  else raw

/-- The mode set that an offset belongs to, if it is one of a mode-set register. -/
def modeSetOf (off : Nat) : Option Bool :=
  if 0x200 ≤ off ∧ off < 0x220 then some (decide (0x210 ≤ off))
  else if 0x1000 ≤ off ∧ off < 0x1400 then some (decide (0x1200 ≤ off))
  else none

/-- Whether a write of the UPK block is dropped for its mode set: the current one, or either while BUSY (R446). -/
def upkDrops (s : State) (off : Nat) : Bool :=
  match modeSetOf off with
  | some m => epochBusy s || m == curEpoch s
  | none => false

/-- A write of UPK_CAL_CTL: one that would not leave CRIT < LOW < HIGH keeps the three (R10, R449). -/
def calCtlWrite (v : Reg32) (s : State) : State :=
  let a := breg .upk 0x40
  let crit := (bits v 18 6).toNat
  let high := (bits v 12 6).toNat
  let low := (bits v 6 6).toNat
  let hold := bits v 0 6
  let good := decide (crit < low ∧ low < high)
  let old := s.rd a
  let w := putBit old 31 (bit v 31)
  let w := if good then put w 6 (bits v 6 18) else w
  let w := if hold = 0 then w else put w 0 hold
  let s := s.wr a w
  if !good || hold == 0 then s.rsvd else s

end Sys2Proof.Machine
end

