-- ==== Sys2Proof/Machine/Access.lean ====
section
/-! DEFINITION. Accesses by address (R6 to R11, R17, R22 to R24, R275, R298, R305): what each region reads as and how it
takes a write, by block and requester. -/

namespace Sys2Proof.Machine

/-! ## Who reaches what (R17, R23, R275, R485) -/

/-- A physical engine number from a natural. -/
def engNo (e : Nat) : EngNo := ⟨e % 1088, Nat.mod_lt _ (by decide)⟩

/-- A plot number from a natural. -/
def plotNo (p : Nat) : PlotNo := ⟨p % 64, Nat.mod_lt _ (by decide)⟩

/-- Whether an address's place answers as a reserved offset: an absent plot, a slot that the requester does not reach, or
a link whose domain is off (R17, R275, R415). -/
def absentFor (s : State) (req : Requester) (pl : Place) : Bool :=
  let slot (e : Nat) : Bool := plotGone s (e / 17) || !reaches s req e
  match pl with
  | .imem e _ => slot e
  | .frame e _ => slot e
  | .ms e _ => slot e
  | .engReg e _ => slot e
  | .ucode e _ => slot e
  | .plotReg p _ => plotGone s p
  | .ctxStore p _ => plotGone s p
  | .block .run off => runAbsent s off
  | _ => false

/-- Whether a requester reaches a place at all (R23, R374, R388, R485). -/
def reachesPlace (req : Requester) (pl : Place) : Bool :=
  match req with
  | .host => true
  | .mc => (match pl with
    | .block .bar4 _ => false
    | _ => true)
  | .smbus => (match pl with
    | .block b _ => decide (b ∈ ([.dev, .sieve, .pwr, .clk, .upk, .run, .evio, .host] : List Blk))
    | _ => false)
  | .relay => (match pl with
    | .block .run _ => true
    | _ => false)
  | .plot _ => (match pl with
    | .granary _ => false
    | .block .mc _ => false
    | .block .bar4 _ => false
    | .unmapped => false
    | _ => true)

/-! ## Registers as read -/

/-- DEV_PROFILE.ACTIVE. -/
def Profile.code : Profile → BitVec 16
  | .p0100 => 0x0100
  | .p0200 => 0x0200
  | .p0210 => 0x0210

/-- The DEV registers as read (R1, R408). -/
def viewDev (s : State) (off : Nat) : Reg32 :=
  let raw := s.rd (breg .dev off)
  if off = 4 then
    (0 : BitVec 22) ++ BitVec.ofBool (s.sieve.running.isSome || !s.sieve.queue.isEmpty) ++ BitVec.ofBool s.sieve.safe.isSome ++
      (0 : BitVec 5) ++ s.opState.code
  else if off = 8 then bits Config.uid 0 32
  else if off = 0xC then bits Config.uid 32 32
  else if off = 0x14 then Config.fuseFloor ++ s.profile.code
  else if off = 0x18 then putBit raw 31 Config.customerKeySet
  else raw

/-- The MC mailbox as read: QLEN shows the response queue (R398). -/
def viewMc (s : State) (off : Nat) : Reg32 :=
  let raw := s.rd (breg .mc off)
  if off = 0 then put raw 8 (BitVec.ofNat 5 s.fabric.responses.length) else raw

/-- HOST_CMD_STATUS.BUSY. -/
def hostBusy (s : State) : Bool := s.flag (breg .bar4 0x14) 31

/-- BAR4 as read: while BUSY the command registers read zero, and the Pending Bit Array shows the pending vectors
(R389 to R391). -/
def viewBar4 (s : State) (off : Nat) : Reg32 :=
  let raw := s.rd (breg .bar4 off)
  if hostBusy s ∧ (off < 0x14 ∨ off = 0x1C) then 0
  else if 0x9000 ≤ off ∧ off < 0x9008 then
    s.host.pba.foldl (fun v k => if k.toNat / 32 = (off - 0x9000) / 4 then putBit v (k.toNat % 32) true else v) 0
  else if off = 0x10004 then put raw 0 Config.vendorId
  else raw

/-- A device block's register as read. -/
def viewBlock (s : State) (b : Blk) (off : Nat) : Reg32 :=
  match b with
  | .dev => viewDev s off
  | .dib => viewDib s off
  | .lck => viewLck s off
  | .sieve => viewSieve s off
  | .pwr => viewPwr s off
  | .clk => viewClk s off
  | .upk => viewUpk s off
  | .grn => viewGrn s off
  | .run => viewRun s off
  | .evio => viewEvio s off
  | .mc => viewMc s off
  | .bar4 => viewBar4 s off
  | _ => s.rd (breg b off)

/-- The row of a device block's or a plot's register. -/
def rowOf? (s : State) (b : Blk) (off : Nat) : Option RRow :=
  if b = .plot ∧ s.profile = .p0100 ∧ 0x10000 ≤ off then none else (findRow s.profile b off).map (·.1)

/-- A read of a device block's register: a _LO half latches its _HI half; a reserved offset reads zero and counts
(R7, R9). -/
def readBlock (req : Requester) (b : Blk) (off : Nat) (s : State) : Reg32 × State :=
  match rowOf? s b off with
  | none => (0, s.rsvd)
  | some r =>
    match r.pair with
    | .none => (viewBlock s b off, s)
    | .lo => (viewBlock s b off,
        { s with latches := SMap.set s.latches (pairKey req (breg b off)) (viewBlock s b (off + 4)) 0 })
    | .hi => (SMap.get s.latches (pairKey req (breg b (off - 4))) 0, s)

/-- A PLOT register as read (R249, R472). -/
def viewPlot (s : State) (p off : Nat) : Reg32 :=
  if off = 0x200 then viewCollector s p else (viewPruner s p off).getD (s.rd (preg p off))

/-- The value and state of a command that answers its requester. -/
def answered (req : Requester) (s : State) (o : Host.Outcome State Fault Refusal) : Reg32 × State :=
  let t := outcomeState s o
  (bits (SMap.get t.rdata (reqKey req) 0) 0 32, t)

/-- A 32-bit read at an aligned register address (R6, R7, R9). -/
def read32 (req : Requester) (a : Nat) (s : State) : Reg32 × State :=
  let pl := place a
  if absentFor s req pl then (0, s.rsvd)
  else
    match pl with
    | .engReg e off => readEng req e off s
    | .ms e off => answered req s (execMsDebugRead req (engNo e) (BitVec.ofNat 16 off) s)
    | .ucode e off => answered req s (execUcodeWindowRead req (engNo e) (BitVec.ofNat 13 off) .clean s)
    | .plotReg p off =>
      (match rowOf? s .plot off with
       | some _ => (viewPlot s p off, s)
       | none => (0, s.rsvd))
    | .block b off => readBlock req b off s
    | _ => (0, s.rsvd)

/-! ## Registers as written -/

/-- A write that a rule drops sets the block's CFG_DROP; a reserved offset only counts (R9). -/
def dropAt (b : Blk) (off : Nat) (drop : State → State) (s : State) : State :=
  if (rowOf? s b off).isSome then drop s else s.rsvd

/-- A write to a register that ignores writes. -/
def ignoreAt (b : Blk) (off : Nat) (s : State) : State := if (rowOf? s b off).isSome then s else s.rsvd

/-- A write of the DIB block (R330, R331). -/
def writeDib (req : Requester) (off : Nat) (v : Reg32) (s : State) : State :=
  if off = 0x20 then outcomeState s (execDibCmdGo req v s)
  else if off = 0x14 then outcomeState s (execDibSwevWrite req v s)
  else if 0x100 ≤ off ∧ off < 0x200 then
    outcomeState s (execEvpendClear req ⟨(off - 0x100) / 4 % 64, Nat.mod_lt _ (by decide)⟩ v s)
  else if dibDrops s off then s.setFlag (breg .dib 4) 31 true
  else tableWrite req (breg .dib off) v s

/-- A write of the LCK block (R345, R351). -/
def writeLck (req : Requester) (off : Nat) (v : Reg32) (s : State) : State :=
  if !lckWriter req then dropAt .lck off (fun s => s.setFlag (breg .lck 4) 31 true) s
  else if off = 0x20 then outcomeState s (execLckCmdGo req v s)
  else if off = 0 ∧ ¬ bit v 0 ∧ s.flag (breg .lck 0) 0 then outcomeState s (execInhDisable req s)
  else tableWrite req (breg .lck off) v s

/-- A write of SIEVE_REACT_k: values that a code does not allow are reserved (R10, R452, R471). -/
def writeReact (k : Nat) (v : Reg32) (s : State) : State :=
  let a := breg .sieve (0x400 + 4 * k)
  let w := reactWrite k (s.rd a) v
  let s := s.wr a w.1
  if w.2 then s.rsvd else s

/-- A write of the SIEVE block (R454, R466, R471). -/
def writeSieve (req : Requester) (off : Nat) (v : Reg32) (s : State) : State :=
  if !hostOrMc req then dropAt .sieve off sieveDrop s
  else if off = 0xC then outcomeState s (execSieveHistPop req v s)
  else if off = 0x38 then outcomeState s (execSwSafe req v s)
  else if 0x400 ≤ off ∧ off < 0x480 then writeReact ((off - 0x400) / 4) v s
  else tableWrite req (breg .sieve off) v s

/-- A write of the PWR block (R432). -/
def writePwr (req : Requester) (off : Nat) (v : Reg32) (s : State) : State :=
  if !hostOrMc req then dropAt .pwr off pwrDrop s
  else if off = 0x18 then outcomeState s (execPdreqLinkWrite req v s)
  else tableWrite req (breg .pwr off) v s

/-- A write of the CLK block (R433). -/
def writeClk (req : Requester) (off : Nat) (v : Reg32) (s : State) : State :=
  if !hostOrMc req then dropAt .clk off clkDrop s
  else if 0x100 ≤ off ∧ off < 0x300 ∧ off % 8 = 0 then
    outcomeState s (execClkPlotReqWrite req (plotNo ((off - 0x100) / 8)) v s)
  else tableWrite req (breg .clk off) v s

/-- A write of the UPK block (R446, R449). -/
def writeUpk (req : Requester) (off : Nat) (v : Reg32) (s : State) : State :=
  if !hostOrMc req then dropAt .upk off upkDrop s
  else if off = 0x60 then outcomeState s (execEpochAdvance req v s)
  else if off = 0x40 then calCtlWrite v s
  else if upkDrops s off then dropAt .upk off upkDrop s
  else tableWrite req (breg .upk off) v s

/-- A write of the GRN block (R291, R294, R295, R300). -/
def writeGrn (req : Requester) (off : Nat) (v : Reg32) (s : State) : State :=
  let drop (s : State) : State := s.setFlag (breg .grn 4) 7 true
  if off = 0x60 then outcomeState s (execPresencePortGo req v .clean s)
  else if 0x100 ≤ off ∧ off < 0x180 then
    outcomeState s (execBankRequest req ⟨(off - 0x100) / 4 % 32, Nat.mod_lt _ (by decide)⟩ v s)
  else if grnDrops s req off then dropAt .grn off drop s
  else if off = 0 ∧ bit v 7 ∧ (¬ hostOrMc req ∨ s.flag (breg .grn 0) 7) then drop (tableWrite req (breg .grn off) (putBit v 7 false) s)
  else
    let s := tableWrite req (breg .grn off) v s
    if 0x40 ≤ off ∧ off < 0x50 then setQuad (off / 4 % 4) { quad s (off / 4 % 4) with ringWr := 0 } s else s

/-- A write of the EVIO block: only the input configurations take one (R483). -/
def writeEvio (req : Requester) (off : Nat) (v : Reg32) (s : State) : State :=
  if 0x100 ≤ off ∧ off < 0x200 then
    outcomeState s (execEvinCfgWrite req ⟨(off - 0x100) / 4 % 64, Nat.mod_lt _ (by decide)⟩ v s)
  else ignoreAt .evio off s

/-- A write of a device block's register. The mailbox and BAR4 are the host interface's. -/
def writeBlock (req : Requester) (b : Blk) (off : Nat) (v : Reg32) (s : State) : State :=
  match b with
  | .dib => writeDib req off v s
  | .lck => writeLck req off v s
  | .sieve => writeSieve req off v s
  | .pwr => writePwr req off v s
  | .clk => writeClk req off v s
  | .upk => writeUpk req off v s
  | .grn => writeGrn req off v s
  | .mesh =>
    if off = 0x18 then outcomeState s (execMeshLinkselWrite req v s) else tableWrite req (breg .mesh off) v s
  | .run => writeRun req off v s
  | .evio => writeEvio req off v s
  | .dev => ignoreAt .dev off s
  | .host => ignoreAt .host off s
  | _ => s

/-- A write of PLOT_FC_STATUS: clearing VALID also clears OVFCNT and frees the latch (R472). -/
def writeCollector (req : Requester) (p : Nat) (v : Reg32) (s : State) : State :=
  if !hostOrMc req then sieveDrop s
  else
    let a := preg p 0x200
    let s := if bit v 30 then s.setFlag a 30 false else s
    if !bit v 31 then s
    else
      (s.setFlag a 31 false).setFld a 0 16 0

/-- A write of a PLOT register (R191, R249, R472). -/
def writePlot (req : Requester) (p off : Nat) (v : Reg32) (s : State) : State :=
  match rowOf? s .plot off with
  | none => s.rsvd
  | some r =>
    if off = 0x104 then writeOvf p r v s
    else if off = 0x200 then writeCollector req p v s
    else if 0x240 ≤ off ∧ off < 0x280 ∧ ¬ hostOrMc req then sieveDrop s
    else if off = 0x10000 + 4 * 8191 then plainWrite (preg p off) r (put v 28 (0 : BitVec 4)) s
    else
      let s := plainWrite (preg p off) r v s
      if 0x100 ≤ off ∧ off < 0x200 then seeRefusals p s else s

/-- A 32-bit write at an aligned register address (R6 to R10). -/
def write32 (req : Requester) (a : Nat) (v : Reg32) (s : State) : State :=
  let pl := place a
  if absentFor s req pl then s.rsvd
  else
    match pl with
    | .engReg e off => writeEng req (engNo e) off v s
    | .ms e off => outcomeState s (execMsDebugWrite req (engNo e) (BitVec.ofNat 16 off) v s)
    | .ucode e _ => cfgDrop e s
    | .plotReg p off => writePlot req p off v s
    | .block b off => writeBlock req b off v s
    | _ => s.rsvd

/-! ## Accesses of 1 to 8 bytes (R6, R298, R305, R387) -/

/-- The registers that a range of bytes touches, by address. -/
def regsOf (a n : Nat) : List Nat := (List.range ((a + n - 1) / 4 - a / 4 + 1)).map (fun i => 4 * (a / 4 + i))

/-- The registers of a list are read in address order; the answer is their words as one number, the first lowest. -/
def readRegs (rd : Nat → State → Reg32 × State) : List Nat → State → Nat × State
  | [], s => (0, s)
  | a :: as, s =>
    let r := rd a s
    let rest := readRegs rd as r.2
    (r.1.toNat + 2 ^ 32 * rest.1, rest.2)

/-- A read of `n` bytes of registers. -/
def readBytes (rd : Nat → State → Reg32 × State) (a n : Nat) (s : State) : Word × State :=
  let r := readRegs rd (regsOf a n) s
  (BitVec.ofNat 64 (r.1 / 2 ^ (8 * (a % 4)) % 2 ^ (8 * n)), r.2)

/-- A write of `n` bytes to registers, in address order: a part of a register is dropped and counts (R6). -/
def writeBytes (wr : Nat → Reg32 → State → State) (a n : Nat) (v : Word) (s : State) : State :=
  let x := v.toNat % 2 ^ (8 * n) * 2 ^ (8 * (a % 4))
  (regsOf a n).foldl (fun s r =>
    if a ≤ r ∧ r + 4 ≤ a + n then wr r (BitVec.ofNat 32 (x / 2 ^ (8 * (r - a / 4 * 4)))) s else s.rsvd) s

/-- A byte of a context-store window: the image, or the mirror (R304, R305). -/
def ctxByte (s : State) (p off : Nat) : Byte :=
  let d := 256 * p + off / 256
  let b := off % 256
  if b < 0xC0 then s.byte (ctxBase d + b) else bits (mirrorWord (s.desc d) ((b - 0xC0) / 8)) (8 * (b % 8)) 8

/-- A write to a context-store window: bytes 0x00 to 0xBF while the descriptor may be edited, else dropped (R305). -/
def writeCtx (p off n : Nat) (v : Word) (s : State) : State :=
  let d := 256 * p + off / 256
  let x := s.desc d
  let open_ : Bool := (x.state == .free || x.state == .idle || x.state == .trapped || x.state == .cancelled) && !x.holds
  if open_ ∧ off % 256 + n ≤ 0xC0 then
    let a := ctxBase d + off % 256
    let s := s.store a n v
    if n = 8 ∧ a % 8 = 0 then s.setMark a .clean else s
  else s.setFlag (breg .dib 4) 31 true

/-- The words that a granary access touches. -/
def granaryWords (a n : Nat) : List (BitVec 23) := (wordsOf a n).map (fun w => BitVec.ofNat 23 (w / 8))

/-- The words for which a granary access must wait, for a waking bank or a borrowed stripe; a refused word is answered at
once (R293, R295, R444). -/
def granaryHeld (s : State) (k : Asker) (write : Bool) (a n : Nat) : List (BitVec 23) :=
  (granaryWords a n).filter (fun w => permitted s k write w && wordHeld s w)

/-- Whether an access of the host or the MC waits behind the requests in RQ of mesh port 0 (R283, R288). -/
def granaryQueued (s : State) (a n : Nat) : Bool := (granaryWords a n).any (portQueued s)

/-- One PEEK for each word of a list: the words as one number, the first lowest, and whether one is poisoned; a poisoned
word reads as ones (R288, R387). -/
def peekWords (k : Asker) : List (BitVec 23) → State → Nat × Bool × State
  | [], s => (0, false, s)
  | w :: ws, s =>
    let r := peekWord k w s
    let t := peekWords k ws r.2
    ((r.1.getD (BitVec.allOnes 64)).toNat + 2 ^ 64 * t.1, r.1.isNone || t.2.1, t.2.2)

/-- Whether an access of a window memory is one that R298 names; another is answered as a reserved offset (assumption log
104). -/
def windowAccess (off n : Nat) : Bool := (n == 1 || n == 2 || n == 4 || n == 8) && off % n == 0

/-- A read of up to 8 bytes of a plot-window memory or the granary, and of registers otherwise. -/
def readCore (req : Requester) (a n : Nat) (s : State) : Word × State :=
  let pl := place a
  let loc (m : LocalMem) (e off : Nat) : Word × State :=
    let r := localLoad m (engNo e) off n s
    (match r.1 with
     | some v => v
     | none => BitVec.ofNat 64 (2 ^ (8 * n) - 1), r.2)
  if n = 0 ∨ 8 < n ∨ !reachesPlace req pl then (0, s)
  else
    match pl with
    | .granary off =>
      let r := peekWords (askerOf req) (granaryWords off n) s
      (BitVec.ofNat 64 (r.1 / 2 ^ (8 * (off % 8)) % 2 ^ (8 * n)), r.2.2)
    | .imem e off => if absentFor s req pl || !windowAccess off n then (0, s.rsvd) else loc .imem e off
    | .frame e off => if absentFor s req pl || !windowAccess off n then (0, s.rsvd) else loc .frame e off
    | .ctxStore p off =>
      if absentFor s req pl then (0, s.rsvd)
      else ((List.range n).foldl (fun (v : Word) i => put v (8 * i) (ctxByte s p (off + i))) 0, s)
    | .block .mc _ => if req = .host then readBytes (read32 req) a n s else (0, s.rsvd)
    | _ => readBytes (read32 req) a n s

/-- KEEP writes of bytes, some of which may be disabled, one for each word in address order (R288, R387). -/
def keepBytes (k : Asker) (a : Nat) (bs : List (Option Byte)) (s : State) : State :=
  (granaryWords a bs.length).foldl (fun s w =>
    let one (m : BitVec 8 × Word) (i : Nat) : BitVec 8 × Word :=
      let j := wbyte w + i
      if a ≤ j then
        (match (bs[j - a]?).join with
         | some b => (putBit m.1 i true, put m.2 (8 * i) b)
         | none => m)
      else m
    let m := (List.range 8).foldl one (0, 0)
    if m.1 = 0 then s else keepWord k w m.1 m.2 s) s

/-- The low `n` bytes of a word. -/
def wordBytes (v : Word) (n : Nat) : List (Option Byte) := (List.range n).map (fun i => some (bits v (8 * i) 8))

/-- A write of up to 8 bytes to a plot-window memory or the granary, and to registers otherwise. -/
def writeCore (req : Requester) (a n : Nat) (v : Word) (s : State) : State :=
  let pl := place a
  if n = 0 ∨ 8 < n ∨ !reachesPlace req pl ∨ req = .smbus then s
  else
    match pl with
    | .granary off => keepBytes (askerOf req) off (wordBytes v n) s
    | .imem e off =>
      if absentFor s req pl || !windowAccess off n then s.rsvd else localStore .imem (engNo e) off n v s
    | .frame e off =>
      if absentFor s req pl || !windowAccess off n then s.rsvd else localStore .frame (engNo e) off n v s
    | .ctxStore p off => if absentFor s req pl then s.rsvd else writeCtx p off n v s
    | .ucode e _ => if absentFor s req pl then s.rsvd else cfgDrop e s
    | _ => writeBytes (write32 req) a n v s

/-! ## The register path's timeout (R275, R276) -/

/-- A read of the strand of a descriptor on the register path ends: the strand goes on where it runs, or its saved image
takes the reply (R129, R154, R275). -/
def endPathRead (e : EngNo) (d : BitVec 14) (a : BitVec 40) (v : Word) (bad : Bool) (s : State) : State :=
  let x := s.eng e
  let mine (k : Access) : Bool := k.accNo.isNone && k.addr == a
  let run : Option Access := match x.strand with
    | some t => (match t.block with
      | .access k => if mine k ∧ t.desc = d then some k else none
      | _ => none)
    | none => none
  match run with
  | some k => finishAccess e k v bad s
  | none => match x.pend.find? (fun m => mine m.acc && m.desc == d) with
    | some m => finishPending e m v bad s
    | none => s

/-- Whether an access is a read on the register access path. -/
def RPath.isRead (k : RPath) : Bool := k.wr.isNone && k.travels

/-- The accesses under way without one that has ended. Where it was a read, the plot's next read goes out (R273). -/
def dropPath (s : State) (k : RPath) : List RPath :=
  let l := s.rpath.erase k
  if !k.isRead then l
  else
    let i := l.findIdx (fun j => j.req == k.req && j.isRead)
    l.mapIdx (fun n j => if n = i then { j with at_ := now s } else j)

/-- The read that a plot has outstanding on the register access path (R273). -/
def plotRead (s : State) (p : PlotNo) : Option RPath := s.rpath.find? (fun k => k.req == .plot p && k.isRead)

/-- Whether the host, the MC or the SMBus port can have a read of an address outstanding on the register access path since
`limit` ns: its target is one the path leads to and is not answered for by its router, and the requester's latest access,
before which a read of its own cannot have gone out, lies that far back (R273, R275; assumption log 105). -/
def readOutstanding (s : State) (req : Requester) (a : BitVec 40) (limit : Nat) : Bool :=
  let pl := place a.toNat
  let led : Bool := match pl with
    | .granary _ => false
    | .block .bar4 _ => false
    | .unmapped => false
    | _ => true
  led && reachesPlace req pl && !absentFor s req pl &&
    decide ((SMap.get s.pathAt (reqKey req) 0).toNat + limit ≤ now s)

/-- A timed-out read is counted and recorded as RPATH_TIMEOUT (R275, R276, R456). -/
def recordTimeout (a : BitVec 40) (s : State) : State :=
  let site := pathSite a.toNat
  let s := (s.satInc (breg .mesh 0x28) 16 16).setFld (breg .mesh 0x28) 0 8 site.toNat
  let d : Detection := { Detection.bare 0x47 with locus := site.setWidth 16, a := a.setWidth 64 }
  detect { d with plot := if site.toNat < 64 then some (plotNo site.toNat) else none } s

/-- Whether the port acknowledges its address: from the end of row 1 of R414 until the device is OFF (R484). While the first
step POWER runs it does, and after a failure of its row 1 it does not (assumption log 46). -/
def smbAnswers (s : State) : Bool := s.opState != .off && (s.time.row1 || (bootStep s == 0 && bootFail s == 0))

/-- RPATH_TIMEOUT: a read has had no reply within TIMEOUT µs and completes as uncorrectable data: all ones for the host, the
MC and the SMBus port, whose READ is that of its pointer and moves it on, a DATA_ECC trap for a strand (R275, R387, R484,
R485). -/
def execRpathTimeout (req : Requester) (addr : BitVec 40) (s : State) : Host.Outcome State Fault Refusal :=
  let limit := 1000 * s.fld (breg .mesh 0x24) 0 16
  if limit = 0 ∨ s.opState = .off then .next s
  else
    match req with
    | .plot p =>
      (match plotRead s p with
       | none => .next s
       | some k =>
         if k.addr ≠ addr ∨ now s < k.at_ + limit then .next s
         else
           let s := recordTimeout addr { s with rpath := dropPath s k }
           .next (match k.eng with
             | some e => endPathRead e k.desc addr 0 true s
             | none => s))
    | .relay => .next s
    | r =>
      if !readOutstanding s r addr limit ∨ (r = .smbus ∧ (addr ≠ s.smb.ptr ∨ !smbAnswers s)) then .next s
      else
        let s := noteAccess r (recordTimeout addr s)
        .next (if r = .smbus then
            answer r 0xFFFFFFFF { s with smb := { s.smb with timeout := true, ptr := s.smb.ptr + 4 } }
          else answer r (BitVec.allOnes 64) s)

end Sys2Proof.Machine
end

