-- ==== Sys2Proof/Machine/Crypto.lean ====
section
/-! DEFINITION. The signature check of R218 and R401: SHA-256 (FIPS 180-4) and ECDSA on the curve P-256 (FIPS 186-4), which
the spec names and does not restate (assumption log 30). -/

namespace Sys2Proof.Machine

/-! ## SHA-256 -/

/-- Word `i` of a row of eight, the first highest. -/
def shaWord (row : BitVec 256) (i : Nat) : BitVec 32 := bits row (224 - 32 * i) 32

/-- The round constants, eight to a row. -/
def shaRows : List (BitVec 256) := [
  0x428a2f9871374491b5c0fbcfe9b5dba53956c25b59f111f1923f82a4ab1c5ed5,
  0xd807aa9812835b01243185be550c7dc372be5d7480deb1fe9bdc06a7c19bf174,
  0xe49b69c1efbe47860fc19dc6240ca1cc2de92c6f4a7484aa5cb0a9dc76f988da,
  0x983e5152a831c66db00327c8bf597fc7c6e00bf3d5a7914706ca635114292967,
  0x27b70a852e1b21384d2c6dfc53380d13650a7354766a0abb81c2c92e92722c85,
  0xa2bfe8a1a81a664bc24b8b70c76c51a3d192e819d6990624f40e3585106aa070,
  0x19a4c1161e376c082748774c34b0bcb5391c0cb34ed8aa4a5b9cca4f682e6ff3,
  0x748f82ee78a5636f84c878148cc7020890befffaa4506cebbef9a3f7c67178f2]

/-- The round constants in order. -/
def shaK : List (BitVec 32) := shaRows.flatMap (fun r => (List.range 8).map (shaWord r))

/-- The hash of no block, as a row. -/
def shaInit : BitVec 256 := 0x6a09e667bb67ae853c6ef372a54ff53a510e527f9b05688c1f83d9ab5be0cd19

/-- Three rotations of a word together. -/
def rotXor (v : BitVec 32) (i j k : Nat) : BitVec 32 := v.rotateRight i ^^^ v.rotateRight j ^^^ v.rotateRight k

/-- `n` further words of the schedule, put before those there are, which stand latest first. -/
def shaExtend : Nat → List (BitVec 32) → List (BitVec 32)
  | 0, ws => ws
  | n + 1, ws =>
    let ago (k : Nat) : BitVec 32 := ws.getD (k - 1) 0
    let mix (v : BitVec 32) (i j k : Nat) : BitVec 32 := v.rotateRight i ^^^ v.rotateRight j ^^^ v >>> k
    shaExtend n ((mix (ago 2) 17 19 10 + ago 7 + mix (ago 15) 7 18 3 + ago 16) :: ws)

/-- One round, on the row of the eight working words, with the sum of its constant and its schedule word: the row moves down
by a word, a sum enters at its top, and another joins the word that passes its middle. -/
def shaRound (row : BitVec 256) (kw : BitVec 32) : BitVec 256 :=
  let w := shaWord row
  let t := w 7 + kw + rotXor (w 4) 6 11 25 + (w 6 ^^^ (w 4 &&& (w 5 ^^^ w 6)))
  let top := t + rotXor (w 0) 2 13 22 + ((w 0 &&& w 1) ||| (w 2 &&& (w 0 ||| w 1)))
  top ++ bits row 160 96 ++ (w 3 + t) ++ bits row 32 96

/-- The sum of two rows, word by word. -/
def addRows (p q : BitVec 256) : BitVec 256 :=
  (List.range 8).foldl (fun r i => put r (224 - 32 * i) (shaWord p i + shaWord q i)) 0

/-- The hash after a block of sixteen words. -/
def shaBlock (h : BitVec 256) (ws : List (BitVec 32)) : BitVec 256 :=
  addRows h ((List.zipWith (· + ·) shaK (shaExtend 48 ws.reverse).reverse).foldl shaRound h)

/-- Big-endian words of a byte string. -/
def bigWords : List Byte → List (BitVec 32)
  | a :: b :: c :: d :: rest => (a ++ b ++ c ++ d) :: bigWords rest
  | _ => []

/-- The hash after the blocks of a list of words; `fuel` bounds their number. -/
def shaBlocks : Nat → BitVec 256 → List (BitVec 32) → BitVec 256
  | 0, h, _ => h
  | fuel + 1, h, ws => if ws.isEmpty then h else shaBlocks fuel (shaBlock h (ws.take 16)) (ws.drop 16)

/-- The padding of a message of `n` bytes. -/
def shaPad (n : Nat) : List Byte :=
  0x80 :: (List.replicate ((119 - n % 64) % 64) 0 ++
    (List.range 8).map (fun i => BitVec.ofNat 8 (8 * n / 2 ^ (8 * (7 - i)))))

/-- The SHA-256 digest of a byte string. -/
def sha256 (m : List Byte) : BitVec 256 :=
  let ws := bigWords (m ++ shaPad m.length)
  shaBlocks (ws.length + 1) shaInit ws

/-! ## P-256 -/

/-- The field's prime. -/
def p256 : Nat := 2 ^ 256 - 2 ^ 224 + 2 ^ 192 + 2 ^ 96 - 1
/-- The order of the base point. -/
def n256 : Nat := 0xffffffff00000000ffffffffffffffffbce6faada7179e84f3b9cac2fc632551
/-- The curve's coefficient b. -/
def b256 : Nat := 0x5ac635d8aa3a93e7b3ebbd55769886bc651d06b0cc53b0f63bce3c3e27d2604b
/-- The base point. -/
def g256 : Nat × Nat :=
  (0x6b17d1f2e12c4247f8bce6e563a440f277037d812deb33a0f4a13945d898c296,
   0x4fe342e2fe1a7f9b8ee7eb4a7c0f9e162bce33576b315ececbb6406837bf51f5)

/-- A power modulo `m`, over the low `fuel` bits of the exponent. -/
def powMod (m : Nat) : Nat → Nat → Nat → Nat
  | 0, _, _ => 1 % m
  | fuel + 1, x, k =>
    let r := powMod m fuel (x * x % m) (k / 2)
    if k % 2 = 1 then x * r % m else r

/-- The inverse modulo a prime below 2^256. -/
def invMod (m x : Nat) : Nat := powMod m 256 (x % m) (m - 2)

/-- A difference modulo the field's prime. -/
def subP (a b : Nat) : Nat := (a + p256 - b % p256) % p256

/-- The sum of two points; none is the point at infinity. -/
def addPoint (u v : Option (Nat × Nat)) : Option (Nat × Nat) :=
  match u, v with
  | none, w => w
  | w, none => w
  | some (x1, y1), some (x2, y2) =>
    if x1 = x2 ∧ (y1 + y2) % p256 = 0 then none
    else
      let l := if x1 = x2 then subP (3 * x1 * x1) 3 * invMod p256 (2 * y1) % p256
        else subP y2 y1 * invMod p256 (subP x2 x1) % p256
      let x := subP (l * l) (x1 + x2)
      some (x, subP (l * subP x1 x) y1)

/-- A multiple of a point, over the low `fuel` bits of the factor. -/
def mulPoint : Nat → Nat → Option (Nat × Nat) → Option (Nat × Nat)
  | 0, _, _ => none
  | fuel + 1, k, q =>
    let r := mulPoint fuel (k / 2) (addPoint q q)
    if k % 2 = 1 then addPoint q r else r

/-- Whether a pair of numbers is a point of the curve. -/
def onCurve (q : Nat × Nat) : Bool :=
  decide (q.1 < p256 ∧ q.2 < p256) && q.2 * q.2 % p256 == subP (q.1 * q.1 * q.1 + b256) (3 * q.1)

/-- Whether (r, s) is a signature of a digest under a public key. -/
def ecdsaOk (digest : BitVec 256) (q : Nat × Nat) (r s : Nat) : Bool :=
  if !(onCurve q) ∨ r = 0 ∨ n256 ≤ r ∨ s = 0 ∨ n256 ≤ s then false
  else
    let w := invMod n256 s
    let u1 := digest.toNat * w % n256
    let u2 := r * w % n256
    match addPoint (mulPoint 256 u1 (some g256)) (mulPoint 256 u2 (some q)) with
    | none => false
    | some (x, _) => x % n256 == r

/-- A big-endian number. -/
def bigNat (bs : List Byte) : Nat := bs.foldl (fun n b => 256 * n + b.toNat) 0

end Sys2Proof.Machine
end

