-- ==== Sys2Proof/Machine/Boot.lean ====
section
/-! DEFINITION. The boot sequence (R15, R217, R218, R399 to R406): its steps, the checks of the Eptaoth image and what each
section loads, and how a command at the command port ends (R391). -/

namespace Sys2Proof.Machine

/-! ## DEV_BOOT and the command port's end -/

/-- HOST_CMD_STATUS. -/
def portReg : Nat := breg .bar4 0x14

/-- DEV_BOOT.STEP changes. -/
def setStep (n : Nat) (s : State) : State := s.setFld bootReg 28 4 n

/-- A command at the port completes: BUSY clears, DONE is set, CODE and HOST_CMD_RES take the outcome, and EV_1939 is
raised; a result that a host link reset made lost reads zero (R386, R391). -/
def endCommand (code : BitVec 8) (res : Reg32) (s : State) : State :=
  let lost : Bool := match s.cmd with
    | some c => c.lost
    | none => false
  let v := putBit (putBit (put (s.rd portReg) 16 code) 30 true) 31 false
  let s := (s.wr portReg v).wr (breg .bar4 0x1C) (if lost then 0 else res)
  raiseEvent 1939 { s with cmd := none }

/-- A step of the boot sequence before WAIT_IMAGE ends the sequence with a failure: the port's BUSY clears with OPC 0x00
and CODE BOOT_FAIL (R403). -/
def failStart (code detail : Nat) (s : State) : State :=
  let s := (s.setFld bootReg 16 8 code).setFld bootReg 8 8 detail
  let v := putBit (put (put (s.rd portReg) 16 (0x08 : BitVec 8)) 0 (0 : BitVec 8)) 31 false
  { s.wr portReg v with cmd := none }

/-- A step from HEADER to CONFIG fails: STEP returns to WAIT_IMAGE and the command completes with BOOT_FAIL (R403). -/
def failImage (code detail : Nat) (s : State) : State :=
  let s := (s.setFld bootReg 16 8 code).setFld bootReg 8 8 detail
  endCommand 0x08 0 (setStep 4 s)

/-! ## Slot maps (R15, R16) -/

/-- PLOT_SLOT_MAP after a boot self-test, from the local slots that failed (R15). -/
def slotMap (bad : List Nat) : Reg32 :=
  let ret := bad.foldl (fun (v : Reg32) i => putBit v i true) 0
  match bad with
  | [] => putBit (put ret 21 (16 : BitVec 5)) 30 true
  | [i] => putBit (put ret 21 (BitVec.ofNat 5 i)) 31 (i != 16)
  | _ => put ret 21 (16 : BitVec 5)

/-- The local slots of a plot in a list of physical engines. -/
def badSlots (p : Nat) (es : List EngNo) : List Nat := (List.range 17).filter (fun i => es.any (fun e => e.val == 17 * p + i))

/-- The record of a plot's slot failures (R451, R456). -/
def testRecord (p : PlotNo) (s : State) : State :=
  detect { Detection.bare 0x29 with
    plot := some p, locus := BitVec.ofNat 16 p.val, a := (s.rd (preg p.val 0)).setWidth 64 } s

/-- The slot map of a plot is fixed from the slots that have failed since the device reset; with two or more the plot is
quarantined (R15, R217). -/
def fixSlots (es : List EngNo) (s : State) (p : PlotNo) : State :=
  let old := s.fld (preg p.val 0) 0 17
  let bad := badSlots p.val es
  if bad.isEmpty ∨ (s.plot p.val).absent then s
  else
    let all := (List.range 17).filter (fun i => old.testBit i || bad.contains i)
    let s := s.wr (preg p.val 0) (slotMap all)
    testRecord p (if 2 ≤ all.length then quarantinePlot p false s else s)

/-! ## The image (R399) -/

/-- A little-endian number. -/
def littleNat : List Byte → Nat
  | [] => 0
  | b :: bs => b.toNat + 256 * littleNat bs

/-- The field of `n` bytes from byte `o`. -/
def field (bs : List Byte) (o n : Nat) : Nat := littleNat ((bs.drop o).take n)

/-- The MC reads granary words; an uncorrectable or refused one reads as ones (R288, R402). -/
def readWords : List (BitVec 23) → State → List Byte × State
  | [], s => ([], s)
  | w :: ws, s =>
    let r := peekWord .mc w s
    let v := r.1.getD (BitVec.allOnes 64)
    let t := readWords ws r.2
    ((List.range 8).map (fun i => bits v (8 * i) 8) ++ t.1, t.2)

/-- The MC reads `n` bytes of the granary from an aligned byte address. -/
def readImage (a n : Nat) (s : State) : List Byte × State :=
  readWords ((List.range (n / 8)).map (fun i => BitVec.ofNat 23 (a / 8 + i))) s

/-- What a step of the image's load answers: a failure with its code and detail, or its result. -/
abbrev Load (α : Type) := Except (Nat × Nat) α × State

/-- The rest of a load after a part of it that has not failed. -/
def andThen {α β : Type} (r : Load α) (g : α → State → Load β) : Load β :=
  match r.1 with
  | .ok x => g x r.2
  | .error e => (.error e, r.2)

/-- A load over the sections of a list, in order. -/
def eachSection (g : Section → State → Load Unit) : List Section → State → Load Unit
  | [], s => (.ok (), s)
  | k :: ks, s => andThen (g k s) (fun _ s => eachSection g ks s)

/-- The section types of R400. -/
def sectionTypes : List Nat := [0x01, 0x02, 0x03, 0x10, 0x11, 0x12, 0x13, 0x20]

/-- Section `i` of the table. -/
def sectionAt (tab : List Byte) (i : Nat) : Section :=
  let e := (tab.drop (32 * i)).take 32
  { index := i, typ := field e 0 2, flags := field e 2 2, crc := BitVec.ofNat 32 (field e 4 4), off := field e 8 4,
    len := field e 12 4, target := BitVec.ofNat 64 (field e 16 8) }

/-- Whether an entry of the table breaks R399 or R400 by itself. -/
def badEntry (tab : List Byte) (tend total : Nat) (k : Section) : Bool :=
  !sectionTypes.contains k.typ || field (tab.drop (32 * k.index)) 24 8 != 0 || k.off % 16 != 0 || decide (k.off < tend) ||
    k.len == 0 || k.len % 8 != 0 || decide (total < k.off + k.len) ||
    decide ((if k.typ = 0x13 then 1 else 0) < k.flags) || (([0x01, 0x02, 0x03, 0x20].contains k.typ) && k.target != 0)

/-- Whether two entries do not go together: they overlap, or both are of one type that stands once. -/
def clash (j k : Section) : Bool :=
  (decide (j.off < k.off + k.len) && decide (k.off < j.off + j.len)) ||
    (j.typ == k.typ && decide (1 ≤ k.typ ∧ k.typ ≤ 3))

/-- The first entry, in table order, that breaks R399 by itself or against one before it. -/
def badSection (tab : List Byte) (tend total : Nat) : List Section → List Section → Option Nat
  | _, [] => none
  | before, k :: ks =>
    if badEntry tab tend total k || before.any (clash k) then some k.index
    else badSection tab tend total (before ++ [k]) ks

/-- Step HEADER: MAGIC, the format, HCRC, the section table and the profile (R399, R402, R405). -/
def loadHeader (s : State) : Load Image :=
  let h := readImage 0 64 s
  let hd := h.1
  let n := field hd 14 2
  let total := field hd 8 4
  if field hd 0 4 ≠ 0x41545045 then (.error (0x10, 0), h.2)
  else if field hd 4 2 ≠ 1 ∨ field hd 6 2 ≠ 64 ∨ n < 3 ∨ 64 < n then (.error (0x12, 0), h.2)
  else
    let t := readImage 64 (32 * n) h.2
    let tend := 64 + 32 * n
    let secs := (List.range n).map (sectionAt t.1)
    let req := field hd 12 2
    let prof := if req = 0 then 0x0210 else req
    if crcBytes (hd.take 60 ++ t.1) ≠ BitVec.ofNat 32 (field hd 60 4) then (.error (0x11, 0), t.2)
    else if (hd.drop 24).take 36 ≠ List.replicate 36 0 ∨ total % 8 ≠ 0 ∨ 0x02000000 < total ∨ total < tend then
      (.error (0x12, 0), t.2)
    else
      match badSection t.1 tend total [] secs with
      | some i => (.error (0x12, i), t.2)
      | none =>
        if !secs.any (fun k => k.typ == 1) || !secs.any (fun k => k.typ == 2) then (.error (0x12, 0), t.2)
        else if prof ≠ 0x0100 ∧ prof ≠ 0x0200 ∧ prof ≠ 0x0210 then (.error (0x13, 0), t.2)
        else if prof < Config.fuseFloor.toNat then (.error (0x14, 0), t.2)
        else
          (.ok { total := total, prof := BitVec.ofNat 16 prof, id := BitVec.ofNat 64 (field hd 16 8), secs := secs }, t.2)

/-- The data of a section, its CRC checked on the bytes read (R402). -/
def sectionData (k : Section) (s : State) : Load (List Byte) :=
  let d := readImage k.off k.len s
  if crcBytes d.1 = k.crc then (.ok d.1, d.2) else (.error (0x30, k.index), d.2)

/-- Whether a signed section is valid: its layout, its key's hash and its signature (R218, R401). -/
def signedOk (hash : BitVec 256) (d : List Byte) : Bool :=
  let part (o : Nat) : Nat := bigNat ((d.drop o).take 32)
  decide (144 ≤ d.length) && (d.drop 132).take 12 == List.replicate 12 0 && sha256 (d.take 64) == hash &&
    ecdsaOk (sha256 (d.drop 128)) (part 0, part 32) (part 64) (part 96)

/-- The first section of a type. -/
def sectionOf (m : Image) (t : Nat) : Option Section := m.secs.find? (fun k => k.typ == t)

/-- Step MCFW: the MC firmware is checked and started (R401, R402). -/
def loadMcfw (s : State) : Load Unit :=
  match sectionOf s.image 1 with
  | none => (.ok (), s)
  | some k => andThen (sectionData k s) (fun d s =>
    if signedOk Config.vendorKeyHash d then (.ok (), { s with mcVersion := BitVec.ofNat 32 (field d 128 4) })
    else (.error (0x20, k.index), s))

/-! ## Microcode (R208, R217, R218) -/

/-- The microwords of a section's payload. -/
def microwords : Nat → List Byte → List (BitVec 32)
  | n + 1, a :: b :: c :: d :: rest => (d ++ c ++ b ++ a : BitVec 32) :: microwords n rest
  | _, _ => []

/-- Words of the store from an address, in rising order; zero words are not listed. -/
def listWords : Nat → List (BitVec 32) → SMap (BitVec 32)
  | _, [] => []
  | a, w :: ws => if w = 0 then listWords (a + 1) ws else (a, w) :: listWords (a + 1) ws

/-- A customer entry word as every engine latches it: zero where R208 makes its opcode absent. -/
def latchWord (w : BitVec 32) : BitVec 32 :=
  let en := (bits w 0 11).toNat
  if !bit w 31 || bits w 11 15 != 0 || (!bit w 30 && !bit w 29) || decide (en < 0x610) then 0 else w

/-- The store is broadcast to every slot, the entry latches load, an uncorrectable entry word as zero, and each entry word
that is turned away counts once (R208, R217). -/
def broadcast (vendor customer : List (BitVec 32)) (version : Reg32) (upsets : List (EngNo × BitVec 4)) (s : State) :
    State :=
  let store := listWords 0 vendor ++ listWords 0x600 customer
  let micro (a : Nat) : Bool := match place a with
    | .ucode _ _ => true
    | _ => false
  let s := { s with ucode := store, marks := s.marks.filter (fun k => !micro k.1) }
  let word (k : Nat) : BitVec 32 := SMap.get store (0x600 + k) 0
  let lost (k : Nat) : Bool := latchWord (word k) == 0 || upsets.any (fun u => u.2.toNat == k)
  let s := (List.range 16).foldl (fun s k => if bit (word k) 31 && lost k then s.rsvd else s) s
  let s := (List.range 1088).foldl (fun s e =>
    (List.range 16).foldl (fun s k => s.wr (ereg e (0x240 + 4 * k)) (latchWord (word k))) (s.wr (ereg e 0x200) version)) s
  upsets.foldl (fun s u =>
    (s.setMark (ucodeBase u.1 + 4 * (0x600 + u.2.toNat)) .double).wr (ereg u.1 (0x240 + 4 * u.2.toNat)) 0) s

/-- The customer section's outcome by R218: its words, CSTATE, CVER and identity, or none where the boot fails. -/
def customerImage (d : Option (List Byte)) : Option (List (BitVec 32) × BitVec 2 × BitVec 16 × BitVec 64) :=
  match d with
  | none => some ([], 0, 0, 0)
  | some d =>
    if d.length < 144 ∨ 4 * 512 < d.length - 144 ∨ (Config.customerKeySet && !signedOk Config.customerKeyHash d) then none
    else
      let id := (List.range 8).foldl (fun (v : BitVec 64) i => put v (8 * i) (bits (sha256 d) (248 - 8 * i) 8)) 0
      some (microwords 512 (d.drop 144), if Config.customerKeySet then 1 else 2, BitVec.ofNat 16 (field d 128 2), id)

/-- The customer section's data, when the image has one. -/
def customerData (s : State) : Load (Option (List Byte)) :=
  match sectionOf s.image 3 with
  | none => (.ok none, s)
  | some k => andThen (sectionData k s) (fun d s => (.ok (some d), s))

/-- Step UCODE: both sections are verified, and then the store is broadcast; a slot whose CRC differs fails the boot
self-test (R217, R218, R221). -/
def loadUcode (r : LoadResult) (s : State) : Load Unit :=
  match sectionOf s.image 2 with
  | none => (.ok (), s)
  | some k => andThen (sectionData k s) (fun v s =>
    if !signedOk Config.vendorKeyHash v || decide (4 * 1536 < v.length - 144) then (.error (0x21, k.index), s)
    else andThen (customerData s) (fun c s =>
      match customerImage c with
      | none => (.error (0x22, ((sectionOf s.image 3).map (·.index)).getD 0), s)
      | some (words, cstate, cver, id) =>
        let s := broadcast (microwords 1536 (v.drop 144)) words (BitVec.ofNat 32 (field v 128 4)) r.badEntries s
        let s := s.wr (breg .dev 0x20) (cstate ++ (0 : BitVec 14) ++ cver)
        let s := s.wr64 (breg .dev 0x24) id
        (.ok (), (List.finRange 64).foldl (fixSlots r.crcBadSlots) s)))

/-! ## Sections (R400) -/

/-- A section that names an absent plot is skipped and counted. -/
def skipSection (s : State) : Load Unit := (.ok (), s.satInc bootReg 0 8)

/-- Bytes are written to a memory from an address, in whole words with good check bits. -/
def fillBytes : Nat → List Byte → State → State
  | a, b0 :: b1 :: b2 :: b3 :: b4 :: b5 :: b6 :: b7 :: rest, s =>
    fillBytes (a + 8) rest ((s.store a 8 (b7 ++ b6 ++ b5 ++ b4 ++ b3 ++ b2 ++ b1 ++ b0)).setMark a .clean)
  | _, _, s => s

/-- IMEM and FRAME: the data goes to one engine, or to every engine in service. -/
def loadEngines (imem : Bool) (k : Section) (d : List Byte) (s : State) : Load Unit :=
  let t := k.target
  let eng : BitVec 10 := bits t 0 10
  let bcast := bit t 16
  let start := if imem then 8 * (bits t 32 12).toNat else (bits t 32 15).toNat
  let known : BitVec 64 := if imem then 0x00000FFF000103FF else 0x00007FFF000103FF
  let base (e : Nat) : Nat := if imem then imemBase e else frameBase e
  if t &&& ~~~known ≠ 0 ∨ (bcast ∧ eng ≠ 0) ∨ start % 8 ≠ 0 ∨ 0x8000 < start + d.length then (.error (0x31, k.index), s)
  else if bcast then
    (.ok (), ((List.range 1088).filter (inService s)).foldl (fun s e => fillBytes (base e + start) d s) s)
  else match slotOf s eng with
    | none => skipSection s
    | some e => (.ok (), fillBytes (base e + start) d s)

/-- Whether the mirror bytes of a context image hold what R400 admits. -/
def goodMirror (b : List Byte) : Bool :=
  let w0 : BitVec 64 := BitVec.ofNat 64 (field b 0xC0 8)
  w0 &&& ~~~0x01001F07 == 0 && decide ((bits w0 0 3).toNat ≤ 1) && decide (field b 0xC8 8 < 65536) &&
    (b.drop 0xD0).take 48 == List.replicate 48 0

/-- One context image is loaded: its bytes, and its descriptor as its mirror bytes say. -/
def loadContext (d : Nat) (b : List Byte) (s : State) : State :=
  let w0 : BitVec 64 := BitVec.ofNat 64 (field b 0xC0 8)
  let s := fillBytes (ctxBase d) (b.take 0xC0) s
  s.setDesc d { Desc.free with
    state := if bits w0 0 3 = 1 then .idle else .free
    base := bits w0 8 5, epri := bits w0 8 5, k := bit w0 24, aff := BitVec.ofNat 16 (field b 0xC8 8) }

/-- CTXSTORE: whole images of consecutive descriptors of one plot. -/
def loadContexts (k : Section) (d : List Byte) (s : State) : Load Unit :=
  let first := k.target.toNat
  let n := d.length / 256
  let image (j : Nat) : List Byte := (d.drop (256 * j)).take 256
  if 16384 ≤ first ∨ d.length % 256 ≠ 0 ∨ 256 < first % 256 + n ∨ !((List.range n).all (fun j => goodMirror (image j))) then
    (.error (0x31, k.index), s)
  else if (s.plot (first / 256)).absent then skipSection s
  else (.ok (), (List.range n).foldl (fun s j => loadContext (first + j) (image j) s) s)

/-- A write-class operation of the MC on a whole word (R287, R288, R293). -/
def mcWrite (op : BitVec 3) (w : BitVec 23) (v : Word) (s : State) : State := portOp .mc op w 0xFF v s

/-- The words of a granary section are written in address order. -/
def mcWrites (op : BitVec 3) : Nat → List Byte → State → State
  | w, b0 :: b1 :: b2 :: b3 :: b4 :: b5 :: b6 :: b7 :: rest, s =>
    mcWrites op (w + 1) rest (mcWrite op (BitVec.ofNat 23 w) (b7 ++ b6 ++ b5 ++ b4 ++ b3 ++ b2 ++ b1 ++ b0) s)
  | _, _, s => s

/-- GRANARY: written with FILL or KEEP, outside the bytes of the image. -/
def loadGranary (k : Section) (d : List Byte) (s : State) : Load Unit :=
  let a := k.target.toNat
  if 0x4000000 ≤ a ∨ a % 8 ≠ 0 ∨ a < s.image.total ∨ 0x4000000 < a + d.length then (.error (0x31, k.index), s)
  else (.ok (), mcWrites (if k.flags = 1 then 1 else 0) (a / 8) d s)

/-- One section of step SECTIONS; the other types have steps of their own. -/
def loadSection (k : Section) (s : State) : Load Unit :=
  if k.typ < 0x10 ∨ 0x13 < k.typ then (.ok (), s)
  else andThen (sectionData k s) (fun d s =>
    if k.typ = 0x10 then loadEngines true k d s
    else if k.typ = 0x11 then loadEngines false k d s
    else if k.typ = 0x12 then loadContexts k d s
    else loadGranary k d s)

/-! ## Profile, configuration and start (R402, R406) -/

/-- The profile of a code. -/
def profileOf (c : BitVec 16) : Profile := if c = 0x0100 then .p0100 else if c = 0x0200 then .p0200 else .p0210

/-- Step PROFILE: the profile is committed, and every register whose layout or reset value depends on it takes its reset
value; banks that the new requests wake start to (R295, R406). -/
def commitProfile (s : State) : State :=
  let q := profileOf s.image.prof
  let s := { s with profile := q }
  let s := dropRegs (breg .grn 0x100) (breg .grn 0x200) s
  let s := dropRegs (breg .dib 0) (breg .dib 4) s
  let s := dropRegs (breg .dib 0x1000) (breg .dib 0x3000) s
  let s := s.wr (breg .lck 0x20) 0
  let grp : Reg32 := if q = .p0100 then 0xC0000002 else 0x43
  let s := (List.range 64).foldl (fun s g => s.wr (breg .lck (0x100 + 16 * g)) grp) s
  let s := (List.range 1088).foldl (fun s e => s.wr (ereg e 0x90) 0) s
  let s := (List.range 64).foldl (fun s p => dropRegs (preg p 0x10000) (preg p 0x18000) s) s
  let bs := (List.range 512).filter (fun b => bankShown s b != 3)
  if bs.isEmpty then s else nextBank { s.setFlag (breg .grn 0x200) 31 true with bankQ := bs }

/-- Whether a CONFIG entry's address lies in the device blocks or the plot windows, and not in the mailbox or TEST. -/
def configPlace (a : Nat) : Bool :=
  match place a with
  | .granary _ => false
  | .unmapped => false
  | .test => false
  | .block .mc _ => false
  | .block .bar4 _ => false
  | _ => true

/-- The entries of a CONFIG section are written in order by the MC (R402). -/
def configEntries (i : Nat) : Nat → List Byte → State → Load Unit
  | 0, _, s => (.ok (), s)
  | n + 1, d, s =>
    let a := field d 0 8
    if d.length < 16 ∨ 2 ^ 40 ≤ a ∨ !configPlace a ∨ field d 12 4 ≠ 0 then (.error (0x32, i), s)
    else configEntries i n (d.drop 16) (writeCore .mc a 4 (BitVec.ofNat 64 (field d 8 4)) s)

/-- One section of step CONFIG. -/
def loadConfig (k : Section) (s : State) : Load Unit :=
  if k.typ ≠ 0x20 then (.ok (), s)
  else andThen (sectionData k s) (fun d s => configEntries k.index ((d.length + 15) / 16) d s)

/-- Step START: the halt bits clear in every engine in service, DEV_IMAGE_ID is written and the device enters SERVICE
(R3, R82, R402). -/
def startEngines (s : State) : State :=
  let s := ((List.range 1088).filter (inService s)).foldl (fun s e =>
    if s.sieve.diverged.contains (BitVec.ofNat 8 (e / 17)) then s else setEngCtrl (engNo e) (s.rd (ereg e 4) &&& 4) s) s
  let s := s.wr64 (breg .dev 0x2C) s.image.id
  endCommand 0 0 (setStep 0xF { s with opState := OpState.service, prevState := OpState.service })

/-! ## The steps -/

/-- The work of a step from HEADER to CONFIG. -/
def imageStep (n : Nat) (r : LoadResult) (s : State) : Load Unit :=
  if n = 5 then andThen (loadHeader s) (fun m s => (.ok (), { s with image := m }))
  else if n = 6 then loadMcfw s
  else if n = 7 then loadUcode r s
  else if n = 8 then eachSection loadSection s.image.secs s
  else if n = 9 then (.ok (), commitProfile s)
  else if n = 10 then eachSection loadConfig s.image.secs s
  else (.ok (), s)

/-- The steps of a list in order; the one that times out fails with TIMEOUT, and DETAIL holds its number (R402, R403). -/
def imageSteps (r : LoadResult) : List Nat → State → Load Unit
  | [], s => (.ok (), s)
  | n :: ns, s =>
    let s := setStep n s
    if r.timeout = some (BitVec.ofNat 4 n) then (.error (0x3F, n), s)
    else andThen (imageStep n r s) (fun _ s => imageSteps r ns s)

/-- Steps 0x5 to 0xB on the staged image: FAIL, DETAIL and SKIPPED clear, each step runs, and the device starts or the
command fails (R402, R403). -/
def runImage (r : LoadResult) (s : State) : State :=
  match imageSteps r [5, 6, 7, 8, 9, 10, 11] (s.wr bootReg 0) with
  | (.ok _, s) => startEngines s
  | (.error (code, detail), s) => failImage code detail s

/-- The filtered level of each input starts at its land's level in the first sample (R480). -/
def sampleLands (v : BitVec 65) (s : State) : State :=
  let at_ (n : Nat) : Filter := { Filter.reset with level := bit v n, since := s.time.now }
  let ins := (List.range 64).foldl (fun m n => SMap.set m n (at_ n) Filter.reset) ([] : SMap Filter)
  { s with evio := { s.evio with inputs := ins, pps := at_ 64 } }

/-- A host link reset (R386): the endpoint's own registers return to their reset values, LOAD_IMAGE is abandoned, and the
lock unit is told of the owner HOST. `down` says whether the link is lost. -/
def resetLink (down : Bool) (s : State) : State :=
  let st := s.rd portReg
  let s := dropRegs (breg .bar4 0) (breg .bar4 0x20) s
  let s := dropRegs (breg .bar4 0x8000) (breg .bar4 0x10004) s
  let s := s.wr portReg (putBit (put (0 : Reg32) 0 (bits st 0 8)) 31 (bit st 31))
  let s := { s with host := { s.host with pba := [], d3 := false } }
  let s := (sendReset .host (s.opState == .service) s).satInc (breg .host 0) 0 8
  let s := match s.cmd with
    | some c => if c.opc = 1 then endCommand 0x05 0 s else { s with cmd := some { c with lost := true } }
    | none => s
  if !down then s
  else
    let d := s.draw
    (((d.2.setFlag (breg .host 0) 31 false).setFld (breg .host 0) 16 4 (bits d.1 0 4).toNat).setFld (breg .host 0) 8 4
      (bits d.1 4 4).toNat)

/-- An instruction that takes control of the lands holds the Runner links in DISABLED and loses the host link (R488). -/
def takeLands (s : State) : State :=
  resetLink true ((List.range 8).foldl (fun s n =>
    if linkState s n = lsDisabled then s else enterLink n lsDisabled s) s)

/-- A boundary-scan instruction comes into force, or ends: then the links train again (R488). -/
def seeScan (was : Bool) (s : State) : State :=
  if scanDrives s && !was then takeLands s
  else if was && !scanDrives s then (List.range 8).foldl (fun s n => tryTrain n s) s
  else s

/-- The granary is cleared: data zero, every word EMPTY (R295, R297). -/
def clearGranary (s : State) : State :=
  { s with mem := s.mem.filter (fun c => decide (0x4000000 ≤ c.1)), pres := []
           marks := s.marks.filter (fun c => decide (0x4000000 ≤ c.1)) }

/-- WAIT_IMAGE is reached: the port accepts commands, and a DEVICE_RESET completes (R391, R397). -/
def reachWait (s : State) : State :=
  let s := setStep 4 s
  if s.fld portReg 0 8 = 7 then endCommand 0 0 s else s.setFlag portReg 31 false

/-- A plot whose domain did not come up (R414, R432, R433). -/
def plotDown (s : State) (p : Nat) : State :=
  let s := s.setFlag (breg .pwr (0x1C + 4 * (p / 32))) (p % 32) false
  let s := (s.setFld (ldoReg p) 0 10 0).setFld (clkStat p) 0 6 0
  s.modPlot p (fun x => { x with powered := false })

/-- The domains of the first `n` parts of step POWER are up, in the order of R414: those of VUNC, of VSRAM and of VSER, and
then the groups of eight plots. -/
def domainsUp (n : Nat) (s : State) : State :=
  let misc : Reg32 := (0 : BitVec 16) ++ (1 : BitVec 1) ++ (if 1 ≤ n then (7 : BitVec 3) else 0) ++
    (if 2 ≤ n then (0xF : BitVec 4) else 0) ++ (if 3 ≤ n then (0xFF : BitVec 8) else 0)
  ((List.range 64).filter (fun p => decide (n < 4 + p / 8))).foldl plotDown (s.wr (breg .pwr 0x24) misc)

/-- Row 1 of step POWER has ended (R414, R484). -/
def endRow1 (s : State) : State := { s with time := { s.time with row1 := true } }

/-- A step before WAIT_IMAGE ends (R402, R403, R414). -/
def startStep (n : Nat) (r : BootResult) (s : State) : State :=
  if n = 0 then
    if r.fails then failStart 0x02 0 (domainsUp 0 (s.setFlag (breg .clk 0) 1 false))
    else setStep 1 (sampleLands r.lands ({ endRow1 s with faultN := s.sieve.safe.isSome }.setFlag (breg .clk 0) 1 true))
  else if n = 1 then
    if r.fails ∨ s.sieve.diverged.contains 0x42 then failStart 0x01 0 s
    else setStep 2 (s.setFld (breg .dev 0x18) 0 8 r.voteCe.toNat)
  else if n = 2 then
    if r.fails then failStart 0x03 0 s else setStep 3 (clearGranary s)
  else reachWait ((List.finRange 64).foldl (fixSlots r.failedSlots) s)

/-- Whether a step before WAIT_IMAGE is in progress. -/
def stepRuns (s : State) : Bool := s.opState == .boot && decide (bootStep s < 4) && bootFail s == 0

/-- BOOT_STEP_COMPLETE: the step in progress ends, and the next one starts unless it has failed; at WAIT_IMAGE and at a
failure a boundary-scan instruction takes effect again (R402, R403, R488). -/
def execBootStepComplete (r : BootResult) (s : State) : Host.Outcome State Fault Refusal :=
  .next (if stepRuns s then seeScan (scanDrives s) (startStep (bootStep s) r s) else s)

/-- Step POWER has timed out at a rail after row 1: PWR_PDSTAT shows the domains of the rows that came up before it, a free
number of them; past row 3 the lands are sampled, at free levels (R414, R480; assumption log 142). -/
def freeDomains (s : State) : State :=
  let d := s.draw
  let n := d.1.toNat % 11
  let s := domainsUp n d.2
  if n = 0 then s
  else
    let a := s.draw
    let b := a.2.draw
    sampleLands (bits b.1 0 1 ++ a.1) b.2

/-- BOOT_STEP_TIMEOUT: the step in progress fails with TIMEOUT, and DETAIL holds its number (R402, R403, R414). -/
def execBootStepTimeout (s : State) : Host.Outcome State Fault Refusal :=
  let n := bootStep s
  .next (if stepRuns s then seeScan (scanDrives s) (failStart 0x3F n (if n = 0 then freeDomains (endRow1 s) else s)) else s)

/-- FABRIC_BOOT_START: with no host on the link, the MC examines the staged image at WAIT_IMAGE once RUN_IMGCNT has changed
since it last did; when it finds it whole, it runs steps 0x5 to 0xB itself, with OPC 0x02 in the port's status (R404). -/
def execFabricBootStart (r : LoadResult) (s : State) : Host.Outcome State Fault Refusal :=
  let n := s.rd (breg .run 0x10)
  if s.opState ≠ .boot ∨ bootStep s ≠ 4 ∨ hostBusy s ∨ s.flag (breg .host 0) 31 ∨ n = s.fabric.imgSeen then .next s
  else
    let h := readImage 0 16 { s with fabric := { s.fabric with imgSeen := n } }
    if field h.1 0 4 ≠ 0x41545045 ∨ n.toNat < field h.1 8 4 / 8 then .next h.2
    else .next (seeScan (scanDrives s) (runImage r (h.2.setFld portReg 0 8 2)))

end Sys2Proof.Machine
end

