-- ==== Sys2Proof/Machine/Host.lean ====
section
/-! DEFINITION. The host interface (R6, R273, R385 to R398): BAR accesses, doorbells, MSI-X messages, the command port, the
MC mailbox, and the register commands of every requester. -/

namespace Sys2Proof.Machine

/-! ## The endpoint (R385 to R390) -/

/-- A host request with its effect, when the endpoint serves it. -/
def asHost (g : State → State) (s : State) : Host.Outcome State Fault Refusal := .next (if hostReady s then g s else countUr s)

/-- HOST_LINK_RESET: a hot reset, a Function Level Reset, a move from D3hot to D0, or a loss of the link (R386). -/
def execHostLinkReset (down : Bool) (s : State) : Host.Outcome State Fault Refusal :=
  if s.opState = .off then .next s else .next (resetLink down s)

/-- Whether the endpoint's PHY trains: from row 5 of step POWER onwards. While POWER runs, a free value says whether row 5
has come; one that has failed shows by the quadrants' domains whether row 4 had ended (R414, R476; assumption log 145). -/
def phyTrains (s : State) : Bool × State :=
  if s.opState ≠ .boot ∨ bootStep s ≠ 0 then (true, s)
  else if bootFail s ≠ 0 then (s.flag (breg .pwr 0x24) 8, s)
  else
    let d := s.draw
    (bit d.1 0, d.2)

/-- HOST_LINK_UP: the link reaches L0 (R409, R476); a boundary-scan instruction in force keeps it down (R488). -/
def execHostLinkUp (width : BitVec 4) (speed : BitVec 3) (s : State) : Host.Outcome State Fault Refusal :=
  let legal : Bool := (width == 1 || width == 2 || width == 4 || width == 8) && decide (1 ≤ speed.toNat ∧ speed.toNat ≤ 4)
  if s.opState = .off ∨ !legal ∨ scanDrives s then .next s
  else
    let r := phyTrains s
    let s := r.2
    .next (if r.1 then
        ((s.setFlag (breg .host 0) 31 true).setFld (breg .host 0) 16 4 width.toNat).setFld (breg .host 0) 8 4 speed.toNat
      else s)

/-- D3HOT_ENTRY: BAR accesses are Unsupported Requests and messages are held from here on (R385). -/
def execD3hotEntry (s : State) : Host.Outcome State Fault Refusal :=
  if s.opState = .off then .next s else .next { s with host := { s.host with d3 := true } }

/-- Each pending vector of a list whose conditions hold sends one message and clears (R390). -/
def sendPending : List (BitVec 6) → State → State
  | [], s => s
  | v :: vs, s =>
    sendPending vs (if vectorOpen s v then
      sendVector v { s with host := { s.host with pba := s.host.pba.filter (· != v) } } else s)

/-- MSIX_PENDING_SEND: the conditions of R390 hold again for pending vectors, which leave in the order of their passes. -/
def execMsixPendingSend (s : State) : Host.Outcome State Fault Refusal := .next (sendPending s.host.pba s)

/-- A doorbell rings: its value is latched and its event raised (R389). -/
def ringDoorbell (d : Nat) (v : Reg32) (s : State) : State := raiseEvent (1408 + d) (s.wr (breg .host (0x1000 + 4 * d)) v)

/-- HOST_DB (R389). -/
def execHostDb (d : Fin 256) (v : Reg32) (s : State) : Host.Outcome State Fault Refusal := asHost (ringDoorbell d.val v) s

/-- A BAR2 request: one PEEK for each word touched, or one KEEP, in address order (R288, R387). -/
def bar2 (off n : Nat) (wr : Option (List (Option Byte))) (s : State) : State :=
  match wr with
  | some bs => keepBytes .host off (bs.take (0x4000000 - off)) s
  | none =>
    let n := min n (0x4000000 - off)
    let r := peekWords .host (granaryWords off n) s
    let bs := (List.range n).map (fun i => BitVec.ofNat 8 (r.1 / 2 ^ (8 * (off % 8 + i))))
    { r.2.2 with host := { r.2.2.host with reply := bs, poisoned := r.2.1 } }

/-- BAR2_ACCESS (R387); it waits for the requests in RQ of its port, a waking bank and a borrowed stripe (R283, R295,
R444). -/
def execBar2Access (off : BitVec 26) (len : BitVec 13) (wr : Option (List (Option Byte))) (s : State) :
    Host.Outcome State Fault Refusal :=
  let n := match wr with
    | some bs => bs.length
    | none => len.toNat
  if n = 0 ∨ (hostReady s ∧ granaryQueued s off.toNat n) then .next s
  else if hostReady s ∧ !(granaryHeld s .host wr.isSome off.toNat n).isEmpty then
    .next (wantWords (granaryHeld s .host wr.isSome off.toNat n) s)
  else asHost (bar2 off.toNat n wr) s

/-! ## Starting a command (R391 to R394) -/

/-- HOST_CMD_ARG_k. -/
def argReg (k : Nat) : Nat := breg .bar4 (4 + 4 * k)

/-- The command in progress with an opcode. -/
def runningCmd (s : State) (opc : BitVec 8) : Option HostCmd := s.cmd.filter (fun c => c.opc == opc && hostBusy s)

/-- A write to the port while it is BUSY is dropped and counted (R391). -/
def portReject (s : State) : State := (s.satInc portReg 8 8).setFlag portReg 29 true

/-- Whether a command's arguments keep to R393. -/
def goodArgs (s : State) (c : HostCmd) : Bool :=
  let a0 := c.a0.toNat
  let a1 := c.a1.toNat
  let a2 := c.a2.toNat
  if c.opc = 1 then a0 % 8 == 0 && a2 % 8 == 0 && decide (64 ≤ a2 ∧ a2 ≤ 0x02000000) && c.a3 == 0
  else if c.opc = 3 then decide (a0 < 64) && c.a1 == 0 && c.a2 == 0 && c.a3 == 0
  else if c.opc = 4 then decide (1 ≤ a1 ∧ a0 + a1 ≤ 1024) && c.a2 == 0 && c.a3 == 0
  else if c.opc = 5 then decide (a0 < 4) && !(bit c.a0 1 && s.opState != .boot) && c.a3 == 0
  else if c.opc = 8 then decide (a0 < 64) && a1 % 0x10000 == 0 && decide (a1 < 0x4000000) && c.a2 == 0 && c.a3 == 0
  else c.a0 == 0 && c.a1 == 0 && c.a2 == 0 && c.a3 == 0

/-- Whether the present state and step accept a command (R393, R403, R431, R488). -/
def accepts (s : State) (c : HostCmd) : Bool :=
  let wait : Bool := s.opState == .boot && bootStep s == 4
  let failed : Bool := s.opState == .boot && decide (bootStep s < 4)
  let up : Bool := s.opState == .service || s.opState == .recovery
  if c.opc = 7 then true
  else if failed then false
  else if c.opc = 1 then wait
  else if c.opc = 2 then wait && !scanDrives s
  else if c.opc = 3 then
    up && (decide (64 ≤ c.a0.toNat) || ((s.plot c.a0.toNat).resetting.isNone && !(s.plot c.a0.toNat).absent))
  else if c.opc = 4 then true
  else if c.opc = 5 then (wait || up) && !scanDrives s
  else if c.opc = 6 then s.opState == .recovery
  else up || s.opState == .test

/-- The refusal that a command meets at its start, if any (R4, R391, R393, R394). -/
def refusal (s : State) (c : HostCmd) : Option (BitVec 8) :=
  if c.opc = 0 ∨ 8 < c.opc.toNat then some 0x01
  else if c.opc = 8 ∧ s.profile ≠ .p0210 then some 0x07
  else if !accepts s c then some 0x03
  else if !goodArgs s c then some 0x02
  else if c.opc = 6 ∧ reacting s then some 0x04
  else none

/-- A write of HOST_CMD with GO = 1: dropped while BUSY, refused by its checks, or accepted with its work (R391). -/
def startCommand (opc : BitVec 8) (work : HostCmd → State → State) (s : State) : State :=
  if hostBusy s then portReject s
  else
    let s := s.setFld (breg .bar4 0) 0 8 opc.toNat
    let s := (s.setFld portReg 0 8 opc.toNat).setFld portReg 8 8 0
    let c : HostCmd :=
      { opc := opc, a0 := s.rd (argReg 0), a1 := s.rd (argReg 1), a2 := s.rd (argReg 2), a3 := s.rd (argReg 3)
        abort := false, dirty := false, lost := false }
    match refusal s c with
    | some code => endCommand code 0 s
    | none => work c { s.setFlag portReg 31 true with cmd := some c }

/-! ## The work of each command -/

/-- VERIFY_AND_START runs steps 0x5 to 0xB. -/
def workVerify (r : LoadResult) (_ : HostCmd) (s : State) : State := runImage r s

/-- PLOT_RESET begins the plot's reset (R431). -/
def workPlotReset (c : HostCmd) (s : State) : State := beginPlotReset (plotNo c.a0.toNat) .command s

/-- GRANARY_CLEAR stops the Weeder's own work (R395). -/
def workClear (_ : HostCmd) (s : State) : State :=
  (List.range 4).foldl (fun s q => if (quad s q).borrow.isSome then abortBorrow q s else s) s

/-- SELF_TEST enters TEST; a march test clears UPK_MFAIL_k (R3, R396, R443). -/
def workSelfTest (c : HostCmd) (s : State) : State :=
  let s := { s with prevState := s.opState, opState := OpState.test }
  if bit c.a0 1 then workClear c (dropRegs (breg .upk 0x80) (breg .upk 0xC0) s) else s

/-- SET_SERVICE moves the device to SERVICE (R4). -/
def workService (_ : HostCmd) (s : State) : State := endCommand 0 0 { s with opState := OpState.service }

/-- The notice of a device reset leaves on every ACTIVE link that can send it (R364, R377). -/
def flushNotices (s : State) : State :=
  (List.range 8).foldl (fun s n =>
    let x := link s n
    if linkState s n = lsActive ∧ mgmtReady x then x.noticeTx.foldl (fun s p => emitNew n ftNotice p s) s else s) s

/-- DEVICE_RESET: the notice, and then the device reset; the frames sent stay at the links' output ports (R397). -/
def workReset (rootSel testMode : Bool) (_ : HostCmd) (s : State) : State :=
  let s := flushNotices (sendNotice 2 s)
  let t := deviceReset 2 rootSel testMode s
  (List.range 8).foldl (fun t n =>
    if linkState s n = lsActive then modLink n (fun x => { x with tx := (link s n).tx }) t else t) t

/-- The registers that a plot dump copies, in order: the plot's, then each slot's, none for a slot that is not in service
(R393). -/
def dumpRegs (s : State) (p : Nat) : List (Option Nat) :=
  (List.range 128).map (fun i => some (preg p (4 * i))) ++
    (List.range 17).flatMap (fun sl => (List.range 192).map (fun i =>
      if inService s (17 * p + sl) then some (ereg (17 * p + sl) (4 * i)) else none))

/-- A register as a plot dump copies it; an offset that no register stands at copies as zero. -/
def dumpValue (s : State) (a : Nat) : Reg32 :=
  match place a with
  | .engReg e off => if (findRow s.profile .eng off).isSome then viewEng s e off else 0
  | .plotReg p off => if (rowOf? s .plot off).isSome then viewPlot s p off else 0
  | _ => 0

/-- PLOT_DUMP copies 13,568 bytes to the granary (R393). -/
def workDump (c : HostCmd) (s : State) : State :=
  let vs := (dumpRegs s (c.a0.toNat % 64)).map (fun a => match a with
    | some a => dumpValue s a
    | none => 0)
  let bs := vs.flatMap (fun (v : Reg32) => (List.range 4).map (fun i => some (bits v (8 * i) 8)))
  endCommand 0 0 (keepBytes .mc c.a1.toNat bs s)

/-- What lies outside the device when a command starts through a plain register write: a free value for each bit of it. -/
def freeOutside (s : State) : (Bool × Bool × LoadResult) × State :=
  let d := s.draw
  let pick (k : List EngNo × State) (i : Nat) : List EngNo × State :=
    let w := k.2.draw
    (k.1 ++ ((List.range 64).filter (fun j => bit w.1 j)).map (fun j => engNo (64 * i + j)), w.2)
  let slots (s : State) : List EngNo × State := (List.range 17).foldl pick ([], s)
  let bad := slots d.2
  let entries : List (EngNo × BitVec 4) × State := (List.range 16).foldl (fun k i =>
    let r := slots k.2
    (k.1 ++ r.1.map (fun e => (e, BitVec.ofNat 4 i)), r.2)) ([], bad.2)
  ((bit d.1 0, bit d.1 1,
    { timeout := if bit d.1 2 then some (bits d.1 4 4) else none, crcBadSlots := bad.1, badEntries := entries.1 }), entries.2)

/-- The work of a command whose opcode comes with the write. -/
def workOf (c : HostCmd) (s : State) : State :=
  let o := freeOutside s
  if c.opc = 2 then workVerify o.1.2.2 c o.2
  else if c.opc = 3 then workPlotReset c s
  else if c.opc = 4 then workClear c s
  else if c.opc = 5 then workSelfTest c s
  else if c.opc = 6 then workService c s
  else if c.opc = 7 then workReset o.1.1 o.1.2.1 c o.2
  else if c.opc = 8 then workDump c s
  else s

/-- LOAD_IMAGE (R393): its reads end with LOAD_IMAGE_COMPLETE. -/
def execLoadImage (s : State) : Host.Outcome State Fault Refusal := asHost (startCommand 1 (fun _ s => s)) s

/-- VERIFY_AND_START (R393, R402). -/
def execVerifyAndStart (r : LoadResult) (s : State) : Host.Outcome State Fault Refusal :=
  asHost (startCommand 2 (workVerify r)) s

/-- PLOT_RESET (R393, R431). -/
def execPlotReset (s : State) : Host.Outcome State Fault Refusal := asHost (startCommand 3 workPlotReset) s

/-- GRANARY_CLEAR (R395). -/
def execGranaryClear (s : State) : Host.Outcome State Fault Refusal := asHost (startCommand 4 workClear) s

/-- SELF_TEST (R396). -/
def execSelfTest (s : State) : Host.Outcome State Fault Refusal := asHost (startCommand 5 workSelfTest) s

/-- SET_SERVICE (R4, R393). -/
def execSetService (s : State) : Host.Outcome State Fault Refusal := asHost (startCommand 6 workService) s

/-- DEVICE_RESET (R397); the lands are sampled as the reset ends (R475, R478). -/
def execDeviceReset (rootSel testMode : Bool) (s : State) : Host.Outcome State Fault Refusal :=
  asHost (startCommand 7 (workReset rootSel testMode)) s

/-- PLOT_DUMP (R393). -/
def execPlotDump (s : State) : Host.Outcome State Fault Refusal := asHost (startCommand 8 workDump) s

/-- An abort: a command that can be aborted stops at its next stopping point (R392). -/
def orderAbort (v : Reg32) (s : State) : State :=
  match s.cmd with
  | some c =>
    if bit v 0 ∧ hostBusy s ∧ (c.opc = 1 ∨ c.opc = 4 ∨ c.opc = 5) then { s with cmd := some { c with abort := true } } else s
  | none => s

/-- HOST_CMD_ABORT (R392). -/
def execHostCmdAbort (v : Reg32) (s : State) : Host.Outcome State Fault Refusal := asHost (orderAbort v) s

/-! ## The ends of the long commands -/

/-- LOAD_IMAGE_COMPLETE: the bytes read are written from granary byte 0 as KEEP writes, and the command completes with its
outcome (R386, R393, R394). -/
def execLoadImageComplete (how : Ending) (data : List Byte) (s : State) : Host.Outcome State Fault Refusal :=
  match runningCmd s 1 with
  | none => .next s
  | some c =>
    let len := c.a2.toNat
    let bs := data.take len
    let s := keepBytes .host 0 ((bs.take (bs.length / 8 * 8)).map some) s
    match how with
    | .done => .next (if bs.length = len then endCommand 0x00 0 s else s)
    | .error => .next (endCommand 0x06 0 (s.satInc (breg .host 8) 0 16))
    | .aborted => .next (if c.abort then endCommand 0x05 0 s else s)

/-- PLOT_RESET_COMPLETE: a plot's reset is released; the command that asked for it completes, and in SERVICE it counts as a
reaction that has reset part of the device (R3, R393, R431). A quarantine that runs beside it keeps the plot from its tokens
(R464). -/
def execPlotResetComplete (p : PlotNo) (s : State) : Host.Outcome State Fault Refusal :=
  match (s.plot p.val).resetting with
  | none => .next s
  | some r =>
    if r.origin = .quarantine then .next s
    else
      let s := finishPlotReset p s
      let s := if (runningAs s reQuarantine).any (fun k => k.2.2 == p) then beginPlotReset p .quarantine s else s
      if r.origin = .command then .next (endCommand 0 0 (afterReset s)) else .next s

/-- Whether a word lies in a range of 64 KiB units and its bank is ON. -/
def clears (s : State) (first units : Nat) (w : Nat) : Bool :=
  decide (8192 * first ≤ w ∧ w < 8192 * (first + units)) && bankState s (bankOf (BitVec.ofNat 23 w)) == .on

/-- The words of a range that carry an error are checked as the clear reaches them: each is recorded, and an uncorrectable
one is left as it is, since the clear is no FILL (R281, R395). -/
def checkClear (hit : Nat → Bool) (s : State) : List Nat × State :=
  let marked := (s.marks.map (·.1)).filter (fun a => decide (a < 0x4000000)) |>.map (· / 8)
  let odd := (s.pres.filter (fun c => c.2 == 3)).map (·.1)
  let ws := ((marked ++ odd).eraseDups).filter hit
  let bad := ws.filter (fun w => wordBad s (BitVec.ofNat 23 w))
  (bad, ws.foldl (fun s w => (checkWord (BitVec.ofNat 23 w) s).2) s)

/-- The port-0 writes of the present time that a clear meets: for each a free value says whether the two met in one cycle,
in which the clear's write of that word is lost; the words that keep what port 0 wrote (R285, R395; assumption log 112). -/
def meetClear (hit : Nat → Bool) : List PortWrite → State → List Nat × State
  | [], s => ([], s)
  | x :: xs, s =>
    let r := meetClear hit xs s
    if !hit x.word.toNat ∨ x.at_ ≠ s.time.now then r
    else
      let d := r.2.draw
      if !bit d.1 0 then (r.1, d.2)
      else if x.old = 0 ∧ !x.pres then (x.word.toNat :: r.1, d.2)
      else if x.pres || bytesDiffer x.mask 0xFF x.data 0 then (x.word.toNat :: r.1, collide x.word d.2)
      else (r.1, d.2)

/-- A range of granary units is cleared: data zero with good check bits, and every word EMPTY that is not DEFERRED; words in
banks that are not ON are left (R395). -/
def clearUnits (first units : Nat) (s : State) : State :=
  let met := meetClear (clears s first units) s.port0 s
  let c := checkClear (clears s first units) met.2
  let hit (w : Nat) : Bool := clears s first units w && !met.1.contains w && !c.1.contains w
  let s := c.2
  { s with
    mem := s.mem.filter (fun c => !(decide (c.1 < 0x4000000) && hit (c.1 / 8)))
    marks := s.marks.filter (fun c => !(decide (c.1 < 0x4000000) && hit (c.1 / 8)))
    pres := s.pres.filter (fun c => !hit c.1 || c.2 == pDeferred) }

/-- The words of a range that a clear skips. -/
def skipped (s : State) (first units : Nat) : Nat :=
  if (List.range 512).all (fun b => bankState s b == .on) then 0
  else (List.range (8192 * units)).countP (fun i => bankState s (bankOf (BitVec.ofNat 23 (8192 * first + i))) != .on)

/-- GRANARY_CLEAR_COMPLETE: the clear ends, after the whole range or between two units when an abort has been ordered, and
the command reports the words skipped (R392, R395). -/
def execGranaryClearComplete (units : BitVec 11) (s : State) : Host.Outcome State Fault Refusal :=
  match runningCmd s 4 with
  | none => .next s
  | some c =>
    let n := if c.abort then min units.toNat c.a1.toNat else c.a1.toNat
    let res : Reg32 := BitVec.ofNat 32 (skipped s c.a0.toNat n)
    .next (endCommand (if n < c.a1.toNat then 0x05 else 0) res (clearUnits c.a0.toNat n s))

/-- The plots that a self-test selects and can reset, in ascending order (R396). -/
def testPlots (s : State) (c : HostCmd) : List PlotNo :=
  if !bit c.a0 0 then []
  else (List.finRange 64).filter (fun p =>
    (if p.val < 32 then bit c.a1 p.val else bit c.a2 (p.val - 32)) && !(s.plot p.val).absent)

/-- One plot is tested: it is reset, and its failures are handled by R16 and recorded (R396, R463). -/
def testPlot (es : List EngNo) (s : State) (p : PlotNo) : State :=
  let s := finishPlotReset p (if (s.plot p.val).resetting.isNone then beginPlotReset p .selfTest s else s)
  let m := preg p.val 0
  let bad := badSlots p.val es
  let new := bad.filter (fun i => !s.flag m i)
  let s : State := match new with
    | [] => s
    | [i] =>
      if i = outSlot s p.val then (s.setFlag m 30 false).setFlag m i true
      else if s.flag m 30 then (retireSlot p i false s).2
      else quarantinePlot p false (s.setFlag m i true)
    | _ => quarantinePlot p false (new.foldl (fun s i => s.setFlag m i true) s)
  if bad.isEmpty then s else testRecord p s

/-- One failing bank of a march test, with the row of its first failing read: its bit and its record (R443). -/
def failBank (s : State) (b : Fin 512 × BitVec 14) : State :=
  let s := s.setFlag (breg .upk (0x80 + 4 * (b.1.val / 32))) (b.1.val % 32) true
  detect { Detection.bare 0x50 with locus := BitVec.ofNat 16 b.1.val, a := b.2.setWidth 64 } s

/-- The failing banks of a march test, each once, with its first row. -/
def firstOfBank : List (Fin 512 × BitVec 14) → List (Fin 512 × BitVec 14)
  | [] => []
  | b :: bs => b :: (firstOfBank bs).filter (fun c => c.1 != b.1)

/-- The device leaves TEST: for BOOT at WAIT_IMAGE with every engine halted, for RECOVERY, or for the state before (R3,
R396). -/
def leaveTest (tested dirty : Bool) (s : State) : State :=
  if s.prevState = .boot then
    (List.range 1088).foldl haltEngine (setStep 4 { s with opState := OpState.boot })
  else { s with opState := if tested || dirty then OpState.recovery else s.prevState }

/-- SELF_TEST_COMPLETE: the plots tested, the failing slots and banks, and the outcome; an abort stops between plots (R392,
R396). -/
def execSelfTestComplete (plots : BitVec 7) (failedSlots : List EngNo) (failedBanks : List (Fin 512 × BitVec 14)) (s : State) :
    Host.Outcome State Fault Refusal :=
  match runningCmd s 5 with
  | none => .next s
  | some c =>
    let all := testPlots s c
    let ps := if c.abort then all.take plots.toNat else all
    let cut := decide (ps.length < all.length)
    let march : Bool := bit c.a0 1 && !cut
    let slots := (ps.map (fun p => (badSlots p.val failedSlots).length)).sum
    let banks := if march then firstOfBank failedBanks else []
    let s := ps.foldl (testPlot failedSlots) s
    let s := if march then clearGranary (banks.foldl failBank s) else s
    let dirty : Bool := match s.cmd with
      | some k => k.dirty
      | none => false
    let s := leaveTest (!ps.isEmpty) dirty s
    let res : Reg32 := BitVec.ofNat 16 (min 0xFFFF banks.length) ++ BitVec.ofNat 16 (min 0xFFFF slots)
    .next (endCommand (if cut then 0x05 else if slots + banks.length = 0 then 0 else 0x09) res s)

/-! ## The MC mailbox (R398) -/

/-- A mailbox request and its outcome: the status and the words of MC_MBX_RES. -/
abbrev MbxResult := BitVec 8 × List Reg32 × State

/-- A request completes: BUSY clears, DONE, STATUS and MC_MBX_RES_0 to 7 take the outcome, and EV_1938 is raised. -/
def endMailbox (r : MbxResult) : State :=
  let s := (List.range 8).foldl (fun s k => s.wr (breg .mc (0x30 + 4 * k)) (r.2.1[k]?.getD 0)) r.2.2
  raiseEvent 1938 (((s.setFlag (breg .mc 0) 31 false).setFld (breg .mc 0) 16 8 r.1.toNat).setFlag (breg .mc 0) 30 true)

/-- MC_MBX_CTL.BUSY. -/
def mbxBusy (s : State) : Bool := s.flag (breg .mc 0) 31

/-- A write is dropped because a request is in progress. -/
def mbxReject (s : State) : State := s.setFlag (breg .mc 0) 29 true

/-- MC_MBX_ARG_k. -/
def mbxArg (s : State) (k : Nat) : Reg32 := s.rd (breg .mc (0x10 + 4 * k))

/-- VERSION. -/
def mbxVersion (s : State) : MbxResult := (0, [s.mcVersion], s)

/-- The MGMT payload that the arguments give, with HIDX 0 (R372, R398). -/
def postPayload (s : State) : BitVec 160 :=
  let a := mbxArg s
  bits (a 0) 0 4 ++ (0 : BitVec 5) ++ bits (a 0) 8 5 ++ bits (a 0) 16 8 ++ bits (a 2) 0 16 ++ a 1 ++ bits (a 2) 16 16 ++
    a 4 ++ a 3 ++ (0 : BitVec 8) ++ (0 : BitVec 2)

/-- MGMT_POST: the request leaves on its first port; where that link is not ACTIVE, it comes back at once with NO_LINK
(R371 to R373, R398). -/
def mbxPost (s : State) : MbxResult :=
  let p := postPayload s
  let img : Bool := mgOp p == 4
  if !s.flag (breg .run 0) 31 then (0x03, [], s)
  else if mgBad p ∨ !mgRequest p ∨ (!img && s.fabric.out.any (fun o => o.tag == mgTag p)) then (0x02, [], s)
  else if !img ∧ 16 ≤ s.fabric.out.length then (0x04, [], s)
  else
    let n := (mgPath p 0).toNat
    let o : MgmtOut := { tag := mgTag p, mop := mgOp p, at_ := s.time.now }
    let s := if img then s else { s with fabric := { s.fabric with out := s.fabric.out ++ [o] } }
    (0, [], if linkState s n = lsActive then sendMgmt n p s
      else if img then s
      else takeResponse (put (put p 156 (mgOp p ||| 8)) 2 (1 : BitVec 8)) s)

/-- MGMT_GET: the oldest record of the response queue. -/
def mbxGet (s : State) : MbxResult :=
  match s.fabric.responses with
  | [] => (0x05, [], s)
  | r :: rs =>
    let w : Reg32 := r.status ++ r.tag ++ (0 : BitVec 8) ++ (if r.timeout then (1 : BitVec 4) else 0) ++ r.mop
    (0, [w, r.off.setWidth 32, bits r.data 0 32, bits r.data 32 32],
      { s with fabric := { s.fabric with responses := rs } })

/-- Whether a FORCE of the MC must wait for the lock unit. -/
def forceWaits (s : State) : Bool := lckHolds s || (lckCmd s).1

/-- LOCK_FORCE: the MC issues FORCE (R348). -/
def mbxForce (s : State) : MbxResult :=
  let r := forceLock (bits (mbxArg s 0) 0 12) s
  (0, [r.1.setWidth 32], r.2)

/-- A request of a code: the one in progress completes once it can; otherwise the host's write of MC_MBX_CTL starts it,
unless another is in progress, and it completes with that write unless it must wait (assumption log 44). -/
def onMailbox (req : BitVec 8) (wait : State → Bool) (g : State → MbxResult) (s : State) : Host.Outcome State Fault Refusal :=
  if mbxBusy s ∧ s.fld (breg .mc 0) 0 8 = req.toNat then .next (if wait s then s else endMailbox (g s))
  else asHost (fun s =>
    if mbxBusy s then mbxReject s
    else
      let s := s.setFld (breg .mc 0) 0 8 req.toNat
      if wait s then s.setFlag (breg .mc 0) 31 true else endMailbox (g s)) s

/-- VERSION (R398). -/
def execVersion (s : State) : Host.Outcome State Fault Refusal := onMailbox 0x01 (fun _ => false) mbxVersion s

/-- MGMT_POST (R398). -/
def execMgmtPost (s : State) : Host.Outcome State Fault Refusal := onMailbox 0x10 (fun _ => false) mbxPost s

/-- MGMT_GET (R398). -/
def execMgmtGet (s : State) : Host.Outcome State Fault Refusal := onMailbox 0x11 (fun _ => false) mbxGet s

/-- LOCK_FORCE: it waits while the lock unit cannot take it (R348, R398). -/
def execLockForce (s : State) : Host.Outcome State Fault Refusal := onMailbox 0x20 forceWaits mbxForce s

/-! ## Register commands (R6, R273, R387) -/

/-- A 32-bit write to BAR4 (R389 to R392). -/
def writeBar4 (off : Nat) (v : Reg32) (s : State) : State :=
  if hostBusy s ∧ (off < 0x14 ∨ off = 0x1C) then portReject s
  else if off = 0 then
    (if bit v 31 then startCommand (bits v 0 8) workOf s
    else s.setFld (breg .bar4 0) 0 8 (bits v 0 8).toNat)
  else if off = 0x18 then orderAbort v s
  else if 0x1000 ≤ off ∧ off < 0x1400 then ringDoorbell ((off - 0x1000) / 4) v s
  else tableWrite .host (breg .bar4 off) v s

/-- The codes of R398 that name a request. -/
def mbxCode (req : BitVec 8) : Bool := req == 0x01 || req == 0x10 || req == 0x11 || req == 0x20

/-- A 32-bit write to the mailbox: GO = 1 starts the request in REQ, which its own command completes; an unknown one
completes with BAD_REQ. While one is in progress, REQ and the ARG registers keep their values and REJ is set (R398;
assumption log 44). -/
def writeMc (off : Nat) (v : Reg32) (s : State) : State :=
  let a := breg .mc off
  if mbxBusy s ∧ off = 0 then mbxReject (tableWrite .host a (putBit (put v 0 (bits (s.rd a) 0 8)) 28 false) s)
  else if mbxBusy s ∧ 0x10 ≤ off ∧ off < 0x30 then mbxReject s
  else
    let s := tableWrite .host a v s
    if off ≠ 0 ∨ !bit v 28 then s
    else if mbxCode (bits v 0 8) then s.setFlag a 31 true
    else endMailbox (0x01, [], s)

/-- A write of 1 to 8 bytes: BAR4 and the mailbox are the host's, and every other place takes it as it does any
requester's. An access of the MC to the mailbox, which R23 and R398 read together leave to the host, is one to a reserved
offset (assumption log 115). -/
def writeAny (req : Requester) (a n : Nat) (v : Word) (s : State) : State :=
  let one (r : Nat) (v : Reg32) (s : State) : State :=
    match place r with
    | .block .bar4 off => writeBar4 off v s
    | .block .mc off => writeMc off v s
    | _ => s.rsvd
  match place a with
  | .block .bar4 _ => if req = .host then writeBytes one a n v s else s
  | .block .mc _ => if req = .host then writeBytes one a n v s else s.rsvd
  | _ => writeCore req a n v s

/-- A read or a write of the host, the MC, the SMBus port or the relay, with a read's answer. The SMBus port reads only
some blocks, and never writes (R485). -/
def serveAccess (req : Requester) (a n : Nat) (wr : Option Word) (s : State) : State :=
  let s := match place a with
    | .granary _ => s
    | .block .bar4 _ => s
    | _ => noteAccess req s
  match wr with
  | some v => writeAny req a n v s
  | none =>
    if req = .smbus ∧ !reachesPlace .smbus (place a) then
      answer .smbus 0 { s with smb := { s.smb with refused := true } }
    else
      let r := readCore req a n s
      answer req r.1 r.2

/-- A strand's read of an engine memory, and whether it is uncorrectable; of anything else by its place (R275, R298). -/
def readPath (p : PlotNo) (a n : Nat) (s : State) : (Word × Bool) × State :=
  let loc (m : LocalMem) (e off : Nat) : (Word × Bool) × State :=
    let r := localLoad m (engNo e) off n s
    ((r.1.getD 0, r.1.isNone), r.2)
  let pl := place a
  let other : (Word × Bool) × State :=
    let r := readCore (.plot p) a n s
    ((r.1, false), r.2)
  if absentFor s (.plot p) pl then other
  else
    match pl with
    | .imem e off => loc .imem e off
    | .frame e off => loc .frame e off
    | _ => other

/-- The next access of a plot that its target can serve at an address: an access to a target waits for those of the same
plot before it there, and a read on the register access path for the plot's read before it (R273). -/
def nextPath (p : PlotNo) (a : BitVec 40) (wr : Bool) : List RPath → List RPath → Option RPath
  | _, [] => none
  | before, k :: ks =>
    if k.req = .plot p ∧ k.addr = a ∧ k.wr.isSome = wr ∧ !k.lost ∧
        !before.any (fun j => j.req == k.req && (pathSite j.addr.toNat == pathSite a.toNat || (j.isRead && k.isRead))) then
      some k
    else nextPath p a wr (before ++ [k]) ks

/-- An access of a plot's K-level strands is served at its target (R129, R273). -/
def servePlot (p : PlotNo) (a : BitVec 40) (wr : Bool) (s : State) : State :=
  match nextPath p a wr [] s.rpath with
  | none => s
  | some k =>
    let s := { s with rpath := dropPath s k }
    match k.wr with
    | some v => writeAny (.plot p) a.toNat k.size v s
    | none =>
      let r := readPath p a.toNat k.size s
      match k.eng with
      | some e => endPathRead e k.desc a r.1.1 r.1.2 r.2
      | none => r.2

/-- Whether an address is a BAR0 offset that R388 does not list. -/
def barHole (a : Nat) : Bool := decide (0x0200000000 ≤ a ∧ a < 0x0220000000)

/-- The TEST block of a part in test mode answers: a read brings a free value, and what a write does there the spec does not
give but for injection, which the commands that bring upsets and detections show (R470, R478; assumption log 146). -/
def testAccess (req : Requester) (wr : Option Word) (s : State) : State :=
  let s := noteAccess req s
  match wr with
  | some _ => s
  | none =>
    let d := s.draw
    answer req d.1 d.2

/-- Whether an access is a Configuration Request: the configuration space lies beside the registers of BAR4 in the model's
own addresses (assumption log 20). -/
def isConfig (pl : Place) : Bool :=
  match pl with
  | .block .bar4 off => decide (0x10000 ≤ off)
  | _ => false

/-- An access by address: a Configuration Request is served from WAIT_IMAGE on, in D3hot too, and completed with Request
Retry Status before, which changes nothing (R385, R387, R476); a plot's is served from the register access path; the host's
passes the endpoint, where one of more than 8 bytes is an Unsupported Request; an address that nothing stands at faults; the
TEST block answers in test mode (R6, R22, R24, R273, R387, R478). -/
def access (req : Requester) (addr : BitVec 40) (n : Nat) (wr : Option Word) (s : State) :
    Host.Outcome State Fault Refusal :=
  let a := addr.toNat
  let host : Bool := req == .host
  match req with
  | .plot p => .next (servePlot p addr wr.isSome s)
  | _ =>
    if s.opState = .off ∨ n = 0 then .next s
    else if host ∧ isConfig (place a) then
      .next (if decide (4 ≤ bootStep s) || bootFail s != 0 then serveAccess req a n wr s else s)
    else if host ∧ !hostReady s then .next (countUr s)
    else if 8 < n then .next (if host then (countUr s).rsvd else s)
    else
      match place a with
      | .unmapped =>
        if host && barHole a then .next (serveAccess req a n wr s)
        else if req = .smbus ∨ req = .relay then .next (serveAccess req a n wr s)
        else .fault (.unmappedAddress addr)
      | .test => .next (if s.testMode && (req == .host || req == .mc) then testAccess req wr s else serveAccess req a n wr s)
      | .granary off =>
        let core : Bool := host || req == .mc
        let held := if core then granaryHeld s (askerOf req) wr.isSome off n else []
        if core && granaryQueued s off n then .next s
        else if held.isEmpty then .next (serveAccess req a n wr s) else .next (wantWords held s)
      | _ => .next (serveAccess req a n wr s)

/-- REGISTER_WRITE: a write to a register (R6 to R11). -/
def execRegisterWrite (req : Requester) (addr : BitVec 40) (size : BitVec 4) (v : Word) (s : State) :
    Host.Outcome State Fault Refusal := access req addr size.toNat (some v) s

/-- REGISTER_PATH_ACCESS: a read or write travels the register access path to its target (R273). -/
def execRegisterPathAccess (req : Requester) (addr : BitVec 40) (size : BitVec 4) (wr : Option Word) (s : State) :
    Host.Outcome State Fault Refusal := access req addr size.toNat wr s

end Sys2Proof.Machine
end

