-- ==== Sys2Proof/Machine/Pins.lean ====
section
/-! DEFINITION. The SMBus port (R484, R485), the TAP and boundary scan (R487 to R489), and the levels that the output lands
show (R477, R481, R488). -/

namespace Sys2Proof.Machine

/-! ## The SMBus port -/

/-- SMB_ADDR: the pointer is set; a write whose PEC fails is discarded and sets PEC (R484). -/
def execSmbAddr (addr : BitVec 40) (pecOk : Bool) (s : State) : Host.Outcome State Fault Refusal :=
  if !smbAnswers s then .next s
  else if pecOk then .next { s with smb := { s.smb with ptr := addr } }
  else .next { s with smb := { s.smb with pec := true } }

/-- SMB_READ: the register at the pointer is read, and the pointer moves on by 4; outside the blocks that the port reads,
zero is returned with REFUSED, and the pointer stays (R484, R485). -/
def execSmbRead (s : State) : Host.Outcome State Fault Refusal :=
  if !smbAnswers s then .next s
  else
    let a := s.smb.ptr.toNat
    let t := serveAccess .smbus a 4 none s
    .next (if reachesPlace .smbus (place a) then { t with smb := { t.smb with ptr := t.smb.ptr + 4 } } else t)

/-- The status byte. -/
def smbFlags (s : State) : BitVec 8 :=
  (0 : BitVec 5) ++ BitVec.ofBool s.smb.timeout ++ BitVec.ofBool s.smb.pec ++ BitVec.ofBool s.smb.refused

/-- SMB_STATUS: the flags are returned, and then clear (R484). -/
def execSmbStatus (s : State) : Host.Outcome State Fault Refusal :=
  if !smbAnswers s then .next s
  else
    let v := (smbFlags s).setWidth 64
    .next (answer .smbus v { s with smb := { s.smb with refused := false, pec := false, timeout := false } })

/-! ## Boundary scan -/

/-- The instruction of a code; a code outside the table decodes as BYPASS (R478, R487; assumption log 146). -/
def codeScan (c : BitVec 8) : ScanInstr :=
  if c = 0x00 then .extest else if c = 0x01 then .sample else if c = 0x02 then .idcode else if c = 0x03 then .highz
  else if c = 0x04 then .clamp else if c = 0x05 then .extestPulse else if c = 0x06 then .extestTrain else .bypass

/-- The TAP's instruction changes: one that may not control the lands decodes as BYPASS (R488). -/
def setScan (i : ScanInstr) (s : State) : State :=
  let i := if i.drives && !scanAllowed s then .bypass else i
  seeScan (scanDrives s) { s with tap := { s.tap with instr := i } }

/-- A code is loaded through the instruction register, whose captured 0b0000_0001 is shifted out (R487). -/
def loadScan (c : BitVec 8) (s : State) : State := setScan (codeScan c) { s with tap := { s.tap with irOut := 1 } }

/-! ## The lands (R477, R481, R488, R489) -/

/-- The level of an EVOUT land: mission or safe level, or what boundary scan drives, whose data cell is 69 + 3n and whose
enable cell follows it (R481, R488, R489). -/
def evoutLand (s : State) (n : Nat) : Level :=
  if !scanDrives s then outLevel s n
  else if s.tap.instr = .highz then .z
  else if bit s.tap.cells (70 + 3 * n) then (if bit s.tap.cells (69 + 3 * n) then .high else .low)
  else .z

/-- Whether boundary scan pulls SMB_CLK (0) or SMB_DAT (1) low, by cell 165 or 167 (R489). -/
def smbLow (s : State) (i : Nat) : Bool := scanDrives s && s.tap.instr != .highz && bit s.tap.cells (165 + 2 * i)

/-- What drives a transmit lane: the mission logic, nothing, or a driver cell, with its level or as IEEE 1149.6 has it for
the two AC instructions (R487, R489). -/
inductive Drive where
  | mission | z
  | level (b : Bool) | pulse (b : Bool) | train (b : Bool)
  deriving DecidableEq, Repr

/-- What drives the lane of a driver cell. -/
def driverOf (s : State) (cell : Nat) : Drive :=
  let b := bit s.tap.cells cell
  if !scanDrives s then .mission
  else if s.tap.instr = .highz then .z
  else if s.tap.instr = .extestPulse then .pulse b
  else if s.tap.instr = .extestTrain then .train b
  else .level b

/-- What drives a lane of RUN_n (R489). -/
def runDrive (s : State) (n lane : Nat) : Drive := driverOf s (170 + 2 * (4 * n + lane))

/-- What drives a PCI Express lane (R489). -/
def pcieDrive (s : State) (lane : Nat) : Drive := driverOf s (234 + 2 * lane)

/-! ## Scans (R487, R489) -/

/-- The boundary register's cells in the order in which they are shifted, the last cell first, and back (R489). -/
def shiftOrder (v : BitVec 250) : BitVec 250 := (List.range 250).foldl (fun r i => putBit r i (bit v (249 - i))) 0

/-- What the cells capture: the levels of the lands, which are the board's but where the device drives them. What a cell
that observes no land captures is not said, and comes with the command (R489; assumption log 147). -/
def captured (lands : BitVec 250) (s : State) : BitVec 250 :=
  let v := (List.range 32).foldl (fun v n => match evoutLand s n with
    | .z => v
    | l => putBit v (71 + 3 * n) (l == .high)) lands
  (List.range 2).foldl (fun v i => if smbLow s i then putBit v (166 + 2 * i) false else v) v

/-- A scan of the boundary register: the cells capture the lands and are shifted out, and the update cells take what is
shifted in (R487, R489). -/
def scanCells (tdi lands : BitVec 250) (s : State) : State :=
  let c := captured lands s
  { s with tap := { s.tap with captured := c, tdo := shiftOrder c, cells := shiftOrder tdi } }

/-- An instruction that selects the boundary register is loaded, and the register is scanned where the command says so;
where it decodes as BYPASS, the bits pass the bypass register, one cycle later and after the 0 that it captures (R487, R488;
assumption log 147). -/
def extestWith (c : BitVec 8) (x : LandScan) (s : State) : State :=
  let s := loadScan c s
  match x.tdi with
  | none => s
  | some v => if s.tap.instr = codeScan c then scanCells v x.lands s else { s with tap := { s.tap with tdo := v <<< 1 } }

/-- The identification register: version, part, Cazexa's identity, and 1 (R487). -/
def identification : BitVec 32 := (0x2 : BitVec 4) ++ (0x1024 : BitVec 16) ++ Config.jep106 ++ (1 : BitVec 1)

/-- TAP_RESET: IDCODE is selected (R487). -/
def execTapReset (s : State) : Host.Outcome State Fault Refusal := .next (setScan .idcode s)

/-- EXTEST: the lands are driven from the update cells (R487, R488). -/
def execExtest (x : LandScan) (s : State) : Host.Outcome State Fault Refusal := .next (extestWith 0x00 x s)

/-- SAMPLE/PRELOAD: the lands are sampled and the update cells take new values (R487). -/
def execSamplePreload (tdi lands : BitVec 250) (s : State) : Host.Outcome State Fault Refusal :=
  .next (scanCells tdi lands (loadScan 0x01 s))

/-- IDCODE: the identification register is selected and shifted out (R487). -/
def execIdcode (s : State) : Host.Outcome State Fault Refusal :=
  let s := loadScan 0x02 s
  .next { s with tap := { s.tap with tdo := identification.setWidth 250 } }

/-- HIGHZ: every output and lane is at high impedance (R487, R488). -/
def execHighz (s : State) : Host.Outcome State Fault Refusal := .next (loadScan 0x03 s)

/-- CLAMP: the lands are driven from the update cells, with bypass selected (R487, R488). -/
def execClamp (s : State) : Host.Outcome State Fault Refusal := .next (loadScan 0x04 s)

/-- EXTEST_PULSE: as EXTEST, with the lanes by IEEE 1149.6 (R487, R488). -/
def execExtestPulse (x : LandScan) (s : State) : Host.Outcome State Fault Refusal := .next (extestWith 0x05 x s)

/-- EXTEST_TRAIN: as EXTEST, with the lanes by IEEE 1149.6 (R487, R488). -/
def execExtestTrain (x : LandScan) (s : State) : Host.Outcome State Fault Refusal := .next (extestWith 0x06 x s)

/-- BYPASS: 0xFF is loaded, or another code that the table does not list, which decodes as it (R478, R487). -/
def execBypass (s : State) : Host.Outcome State Fault Refusal := .next (loadScan 0xFF s)

/-! ## FAULT_N -/

/-- Whether FAULT_N is pulled low (R477, R488, R489). -/
def faultLow (s : State) : Bool :=
  if !scanDrives s then s.faultN else if s.tap.instr = .highz then false else bit s.tap.cells 3

end Sys2Proof.Machine
end

