-- ==== Sys2Proof/Machine/Dispatch.lean ====
section
/-! DEFINITION. The effect of each command on everything but the queue: one arm per row of the opcode table. -/

namespace Sys2Proof.Machine

/-- The effect of a command. -/
def exec (i : Instr) (s : State) : Host.Outcome State Fault Refusal :=
  match i with
  | .powerGood rootSel testMode => Sys2Proof.Machine.execPowerGood rootSel testMode s
  | .resetN rootSel testMode => Sys2Proof.Machine.execResetN rootSel testMode s
  | .vinRise mv => Sys2Proof.Machine.execVinRise mv s
  | .vinLoss mv => Sys2Proof.Machine.execVinLoss mv s
  | .powerStop mv => Sys2Proof.Machine.execPowerStop mv s
  | .overVoltageStop mv => Sys2Proof.Machine.execOverVoltageStop mv s
  | .bootStepComplete r => Sys2Proof.Machine.execBootStepComplete r s
  | .bootStepTimeout => Sys2Proof.Machine.execBootStepTimeout s
  | .fabricBootStart r => Sys2Proof.Machine.execFabricBootStart r s
  | .loadImage => Sys2Proof.Machine.execLoadImage s
  | .loadImageComplete how data => Sys2Proof.Machine.execLoadImageComplete how data s
  | .verifyAndStart r => Sys2Proof.Machine.execVerifyAndStart r s
  | .plotReset => Sys2Proof.Machine.execPlotReset s
  | .plotResetComplete p => Sys2Proof.Machine.execPlotResetComplete p s
  | .granaryClear => Sys2Proof.Machine.execGranaryClear s
  | .granaryClearComplete units => Sys2Proof.Machine.execGranaryClearComplete units s
  | .selfTest => Sys2Proof.Machine.execSelfTest s
  | .selfTestComplete plots failedSlots failedBanks => Sys2Proof.Machine.execSelfTestComplete plots failedSlots failedBanks s
  | .setService => Sys2Proof.Machine.execSetService s
  | .deviceReset rootSel testMode => Sys2Proof.Machine.execDeviceReset rootSel testMode s
  | .plotDump => Sys2Proof.Machine.execPlotDump s
  | .hostCmdAbort v => Sys2Proof.Machine.execHostCmdAbort v s
  | .hostLinkReset down => Sys2Proof.Machine.execHostLinkReset down s
  | .bar2Access off len wr => Sys2Proof.Machine.execBar2Access off len wr s
  | .hostDb d v => Sys2Proof.Machine.execHostDb d v s
  | .msixPendingSend => Sys2Proof.Machine.execMsixPendingSend s
  | .version => Sys2Proof.Machine.execVersion s
  | .mgmtPost => Sys2Proof.Machine.execMgmtPost s
  | .mgmtGet => Sys2Proof.Machine.execMgmtGet s
  | .lockForce => Sys2Proof.Machine.execLockForce s
  | .mgmtTimeout => Sys2Proof.Machine.execMgmtTimeout s
  | .registerWrite req addr size v => Sys2Proof.Machine.execRegisterWrite req addr size v s
  | .registerPathAccess req addr size wr => Sys2Proof.Machine.execRegisterPathAccess req addr size wr s
  | .rpathTimeout req addr => Sys2Proof.Machine.execRpathTimeout req addr s
  | .tokenIn e u => Sys2Proof.Machine.execTokenIn e u s
  | .matchToken e u => Sys2Proof.Machine.execMatchToken e u s
  | .spillDownSpill e => Sys2Proof.Machine.execSpillDownSpill e s
  | .spillDrain p => Sys2Proof.Machine.execSpillDrain p s
  | .refillLookup e u => Sys2Proof.Machine.execRefillLookup e u s
  | .refillAnswer e => Sys2Proof.Machine.execRefillAnswer e s
  | .contextSweepVisit e => Sys2Proof.Machine.execContextSweepVisit e s
  | .overflowPurge p => Sys2Proof.Machine.execOverflowPurge p s
  | .contextReturn p ctx => Sys2Proof.Machine.execContextReturn p ctx s
  | .msDebugRead req e off => Sys2Proof.Machine.execMsDebugRead req e off s
  | .msDebugWrite req e off v => Sys2Proof.Machine.execMsDebugWrite req e off v s
  | .engCtrlWrite req e v => Sys2Proof.Machine.execEngCtrlWrite req e v s
  | .engMatchCfgWrite req e v => Sys2Proof.Machine.execEngMatchCfgWrite req e v s
  | .engArbWrite req e v => Sys2Proof.Machine.execEngArbWrite req e v s
  | .execIssue e => Sys2Proof.Machine.execExecIssue e s
  | .emitResult e => Sys2Proof.Machine.execEmitResult e s
  | .crossbarTransfer p => Sys2Proof.Machine.execCrossbarTransfer p s
  | .grnAckIntake e => Sys2Proof.Machine.execGrnAckIntake e s
  | .sheafRspWrite e => Sys2Proof.Machine.execSheafRspWrite e s
  | .strandReply e => Sys2Proof.Machine.execStrandReply e s
  | .add e => Sys2Proof.Machine.execAdd e s
  | .sub e => Sys2Proof.Machine.execSub e s
  | .neg e => Sys2Proof.Machine.execNeg e s
  | .mul e => Sys2Proof.Machine.execMul e s
  | .mulhs e => Sys2Proof.Machine.execMulhs e s
  | .mulhu e => Sys2Proof.Machine.execMulhu e s
  | .divs e => Sys2Proof.Machine.execDivs e s
  | .divu e => Sys2Proof.Machine.execDivu e s
  | .rems e => Sys2Proof.Machine.execRems e s
  | .remu e => Sys2Proof.Machine.execRemu e s
  | .abs e => Sys2Proof.Machine.execAbs e s
  | .mins e => Sys2Proof.Machine.execMins e s
  | .maxs e => Sys2Proof.Machine.execMaxs e s
  | .minu e => Sys2Proof.Machine.execMinu e s
  | .maxu e => Sys2Proof.Machine.execMaxu e s
  | .and e => Sys2Proof.Machine.execAnd e s
  | .or e => Sys2Proof.Machine.execOr e s
  | .xor e => Sys2Proof.Machine.execXor e s
  | .not e => Sys2Proof.Machine.execNot e s
  | .shl e => Sys2Proof.Machine.execShl e s
  | .shr e => Sys2Proof.Machine.execShr e s
  | .sar e => Sys2Proof.Machine.execSar e s
  | .rol e => Sys2Proof.Machine.execRol e s
  | .adds e => Sys2Proof.Machine.execAdds e s
  | .subs e => Sys2Proof.Machine.execSubs e s
  | .clz e => Sys2Proof.Machine.execClz e s
  | .popc e => Sys2Proof.Machine.execPopc e s
  | .sext e => Sys2Proof.Machine.execSext e s
  | .eq e => Sys2Proof.Machine.execEq e s
  | .ne e => Sys2Proof.Machine.execNe e s
  | .lts e => Sys2Proof.Machine.execLts e s
  | .les e => Sys2Proof.Machine.execLes e s
  | .ltu e => Sys2Proof.Machine.execLtu e s
  | .leu e => Sys2Proof.Machine.execLeu e s
  | .fadd e => Sys2Proof.Machine.execFadd e s
  | .fsub e => Sys2Proof.Machine.execFsub e s
  | .fmul e => Sys2Proof.Machine.execFmul e s
  | .fma e => Sys2Proof.Machine.execFma e s
  | .fdiv e => Sys2Proof.Machine.execFdiv e s
  | .fsqrt e => Sys2Proof.Machine.execFsqrt e s
  | .fmin e => Sys2Proof.Machine.execFmin e s
  | .fmax e => Sys2Proof.Machine.execFmax e s
  | .feq e => Sys2Proof.Machine.execFeq e s
  | .flt e => Sys2Proof.Machine.execFlt e s
  | .fle e => Sys2Proof.Machine.execFle e s
  | .fcvtsl e => Sys2Proof.Machine.execFcvtsl e s
  | .fcvtls e => Sys2Proof.Machine.execFcvtls e s
  | .fabs e => Sys2Proof.Machine.execFabs e s
  | .fneg e => Sys2Proof.Machine.execFneg e s
  | .dadd e => Sys2Proof.Machine.execDadd e s
  | .dsub e => Sys2Proof.Machine.execDsub e s
  | .dmul e => Sys2Proof.Machine.execDmul e s
  | .dfma e => Sys2Proof.Machine.execDfma e s
  | .ddiv e => Sys2Proof.Machine.execDdiv e s
  | .dsqrt e => Sys2Proof.Machine.execDsqrt e s
  | .dmin e => Sys2Proof.Machine.execDmin e s
  | .dmax e => Sys2Proof.Machine.execDmax e s
  | .deq e => Sys2Proof.Machine.execDeq e s
  | .dlt e => Sys2Proof.Machine.execDlt e s
  | .dle e => Sys2Proof.Machine.execDle e s
  | .dcvtdl e => Sys2Proof.Machine.execDcvtdl e s
  | .dcvtld e => Sys2Proof.Machine.execDcvtld e s
  | .dcvtds e => Sys2Proof.Machine.execDcvtds e s
  | .dcvtsd e => Sys2Proof.Machine.execDcvtsd e s
  | .b64Grant p => Sys2Proof.Machine.execB64Grant p s
  | .steer e => Sys2Proof.Machine.execSteer e s
  | .gate e => Sys2Proof.Machine.execGate e s
  | .merge e => Sys2Proof.Machine.execMerge e s
  | .fan e => Sys2Proof.Machine.execFan e s
  | .sink e => Sys2Proof.Machine.execSink e s
  | .ctxNew e => Sys2Proof.Machine.execCtxNew e s
  | .ctxFree e => Sys2Proof.Machine.execCtxFree e s
  | .ctxGet e => Sys2Proof.Machine.execCtxGet e s
  | .iterGet e => Sys2Proof.Machine.execIterGet e s
  | .iterNext e => Sys2Proof.Machine.execIterNext e s
  | .iterReset e => Sys2Proof.Machine.execIterReset e s
  | .iterDone e => Sys2Proof.Machine.execIterDone e s
  | .tagsend e => Sys2Proof.Machine.execTagsend e s
  | .mktag e => Sys2Proof.Machine.execMktag e s
  | .gld e => Sys2Proof.Machine.execGld e s
  | .gldt e => Sys2Proof.Machine.execGldt e s
  | .gpres e => Sys2Proof.Machine.execGpres e s
  | .gst e => Sys2Proof.Machine.execGst e s
  | .gstr e => Sys2Proof.Machine.execGstr e s
  | .gclr e => Sys2Proof.Machine.execGclr e s
  | .send e => Sys2Proof.Machine.execSend e s
  | .blk e => Sys2Proof.Machine.execBlk e s
  | .fence e => Sys2Proof.Machine.execFence e s
  | .customerNode e => Sys2Proof.Machine.execCustomerNode e s
  | .opr e => Sys2Proof.Machine.execOpr e s
  | .cmp e => Sys2Proof.Machine.execCmp e s
  | .addi e => Sys2Proof.Machine.execAddi e s
  | .andi e => Sys2Proof.Machine.execAndi e s
  | .ori e => Sys2Proof.Machine.execOri e s
  | .xori e => Sys2Proof.Machine.execXori e s
  | .shi e => Sys2Proof.Machine.execShi e s
  | .movw e => Sys2Proof.Machine.execMovw e s
  | .cmpi e => Sys2Proof.Machine.execCmpi e s
  | .bc e => Sys2Proof.Machine.execBc e s
  | .jmp e => Sys2Proof.Machine.execJmp e s
  | .call e => Sys2Proof.Machine.execCall e s
  | .jr e => Sys2Proof.Machine.execJr e s
  | .callr e => Sys2Proof.Machine.execCallr e s
  | .ret e => Sys2Proof.Machine.execRet e s
  | .ld e u => Sys2Proof.Machine.execLd e u s
  | .lds e u => Sys2Proof.Machine.execLds e u s
  | .st e => Sys2Proof.Machine.execSt e s
  | .ladd e u => Sys2Proof.Machine.execLadd e u s
  | .lfadd e u => Sys2Proof.Machine.execLfadd e u s
  | .lr e u => Sys2Proof.Machine.execLr e u s
  | .sc e => Sys2Proof.Machine.execSc e s
  | .tas e u => Sys2Proof.Machine.execTas e u s
  | .gmemTake e => Sys2Proof.Machine.execGmemTake e s
  | .gmemQuery e => Sys2Proof.Machine.execGmemQuery e s
  | .gmemStore e => Sys2Proof.Machine.execGmemStore e s
  | .gmemClear e => Sys2Proof.Machine.execGmemClear e s
  | .rep e => Sys2Proof.Machine.execRep e s
  | .await e => Sys2Proof.Machine.execAwait e s
  | .strandSend e => Sys2Proof.Machine.execStrandSend e s
  | .bsend e => Sys2Proof.Machine.execBsend e s
  | .shf e => Sys2Proof.Machine.execShf e s
  | .strandFence e => Sys2Proof.Machine.execStrandFence e s
  | .syncI e => Sys2Proof.Machine.execSyncI e s
  | .mff e => Sys2Proof.Machine.execMff e s
  | .mtf e => Sys2Proof.Machine.execMtf e s
  | .mfc e => Sys2Proof.Machine.execMfc e s
  | .mtc e => Sys2Proof.Machine.execMtc e s
  | .trap e => Sys2Proof.Machine.execTrap e s
  | .yield e => Sys2Proof.Machine.execYield e s
  | .exit e => Sys2Proof.Machine.execExit e s
  | .ctxn e => Sys2Proof.Machine.execCtxn e s
  | .ctxf e => Sys2Proof.Machine.execCtxf e s
  | .customerInstr e => Sys2Proof.Machine.execCustomerInstr e s
  | .storeDrain e => Sys2Proof.Machine.execStoreDrain e s
  | .oper e u => Sys2Proof.Machine.execOper e u s
  | .lit e u => Sys2Proof.Machine.execLit e u s
  | .microJmp e u => Sys2Proof.Machine.execMicroJmp e u s
  | .microCall e u => Sys2Proof.Machine.execMicroCall e u s
  | .microRet e u => Sys2Proof.Machine.execMicroRet e u s
  | .microFma e u => Sys2Proof.Machine.execMicroFma e u s
  | .microMul e u => Sys2Proof.Machine.execMicroMul e u s
  | .microDiv e u => Sys2Proof.Machine.execMicroDiv e u s
  | .ldf e u => Sys2Proof.Machine.execLdf e u s
  | .stf e u => Sys2Proof.Machine.execStf e u s
  | .poll e u => Sys2Proof.Machine.execPoll e u s
  | .microEnd e u => Sys2Proof.Machine.execMicroEnd e u s
  | .routineResume e => Sys2Proof.Machine.execRoutineResume e s
  | .ucodeWindowRead req e off u => Sys2Proof.Machine.execUcodeWindowRead req e off u s
  | .depositModeEnter p => Sys2Proof.Machine.execDepositModeEnter p s
  | .depositMove p => Sys2Proof.Machine.execDepositMove p s
  | .reinject p => Sys2Proof.Machine.execReinject p s
  | .windowEntryFree p => Sys2Proof.Machine.execWindowEntryFree p s
  | .plotQuiescent p => Sys2Proof.Machine.execPlotQuiescent p s
  | .deviceQuiescent => Sys2Proof.Machine.execDeviceQuiescent s
  | .auditPass => Sys2Proof.Machine.execAuditPass s
  | .prunerExhausted p => Sys2Proof.Machine.execPrunerExhausted p s
  | .routerFlit p out => Sys2Proof.Machine.execRouterFlit p out s
  | .queueTransfer q upset => Sys2Proof.Machine.execQueueTransfer q upset s
  | .queueFlush q => Sys2Proof.Machine.execQueueFlush q s
  | .queueReset q => Sys2Proof.Machine.execQueueReset q s
  | .meshLinkselWrite req v => Sys2Proof.Machine.execMeshLinkselWrite req v s
  | .grnRead q j u => Sys2Proof.Machine.execGrnRead q j u s
  | .grnTake q j u => Sys2Proof.Machine.execGrnTake q j u s
  | .pres q j u => Sys2Proof.Machine.execPres q j u s
  | .grnTas q j u => Sys2Proof.Machine.execGrnTas q j u s
  | .peek req addr len u => Sys2Proof.Machine.execPeek req addr len u s
  | .keep q j u => Sys2Proof.Machine.execKeep q j u s
  | .fill q j u => Sys2Proof.Machine.execFill q j u s
  | .clear q j u => Sys2Proof.Machine.execClear q j u s
  | .sheafReq q j u => Sys2Proof.Machine.execSheafReq q j u s
  | .blkRead q j u => Sys2Proof.Machine.execBlkRead q j u s
  | .deferredReplayPass q => Sys2Proof.Machine.execDeferredReplayPass q s
  | .grnEccWriteback waddr => Sys2Proof.Machine.execGrnEccWriteback waddr s
  | .presencePortGo req v u => Sys2Proof.Machine.execPresencePortGo req v u s
  | .bankRequest req k v => Sys2Proof.Machine.execBankRequest req k v s
  | .bankWakeComplete b => Sys2Proof.Machine.execBankWakeComplete b s
  | .bankSleep b => Sys2Proof.Machine.execBankSleep b s
  | .noticeRun p => Sys2Proof.Machine.execNoticeRun p s
  | .loaded p => Sys2Proof.Machine.execLoaded p s
  | .recalled p => Sys2Proof.Machine.execRecalled p s
  | .leave p => Sys2Proof.Machine.execLeave p s
  | .accessDone p => Sys2Proof.Machine.execAccessDone p s
  | .halt p => Sys2Proof.Machine.execHalt p s
  | .wake => Sys2Proof.Machine.execWake s
  | .cancel => Sys2Proof.Machine.execCancel s
  | .resume => Sys2Proof.Machine.execResume s
  | .dibInit => Sys2Proof.Machine.execDibInit s
  | .release => Sys2Proof.Machine.execRelease s
  | .setpri => Sys2Proof.Machine.execSetpri s
  | .setaff => Sys2Proof.Machine.execSetaff s
  | .migrate => Sys2Proof.Machine.execMigrate s
  | .migrateCopyDone => Sys2Proof.Machine.execMigrateCopyDone s
  | .query => Sys2Proof.Machine.execQuery s
  | .findfree => Sys2Proof.Machine.execFindfree s
  | .raise => Sys2Proof.Machine.execRaise s
  | .inheritanceUpdate => Sys2Proof.Machine.execInheritanceUpdate s
  | .selectDispatch p => Sys2Proof.Machine.execSelectDispatch p s
  | .dispatch e => Sys2Proof.Machine.execDispatch e s
  | .switchStart e => Sys2Proof.Machine.execSwitchStart e s
  | .quantumExpiry e => Sys2Proof.Machine.execQuantumExpiry e s
  | .deadlineExpiry => Sys2Proof.Machine.execDeadlineExpiry s
  | .eventServe => Sys2Proof.Machine.execEventServe s
  | .dibCmdGo req v => Sys2Proof.Machine.execDibCmdGo req v s
  | .dibSwevWrite req v => Sys2Proof.Machine.execDibSwevWrite req v s
  | .evpendClear req k v => Sys2Proof.Machine.execEvpendClear req k v s
  | .outHigh => Sys2Proof.Machine.execOutHigh s
  | .outLow => Sys2Proof.Machine.execOutLow s
  | .outFlush => Sys2Proof.Machine.execOutFlush s
  | .tmrAt => Sys2Proof.Machine.execTmrAt s
  | .tmrEvery => Sys2Proof.Machine.execTmrEvery s
  | .tmrStop => Sys2Proof.Machine.execTmrStop s
  | .time => Sys2Proof.Machine.execTime s
  | .stamp => Sys2Proof.Machine.execStamp s
  | .timerExpiry t => Sys2Proof.Machine.execTimerExpiry t s
  | .scheduleApply n => Sys2Proof.Machine.execScheduleApply n s
  | .evinEdge n => Sys2Proof.Machine.execEvinEdge n s
  | .evinCfgWrite req n v => Sys2Proof.Machine.execEvinCfgWrite req n v s
  | .ppsEdge => Sys2Proof.Machine.execPpsEdge s
  | .ppsLoss => Sys2Proof.Machine.execPpsLoss s
  | .acquire => Sys2Proof.Machine.execAcquire s
  | .lockTry => Sys2Proof.Machine.execLockTry s
  | .lockWait => Sys2Proof.Machine.execLockWait s
  | .lockRelease => Sys2Proof.Machine.execLockRelease s
  | .withdraw => Sys2Proof.Machine.execWithdraw s
  | .force lock => Sys2Proof.Machine.execForce lock s
  | .lckCmdGo req v => Sys2Proof.Machine.execLckCmdGo req v s
  | .resetNotice => Sys2Proof.Machine.execResetNotice s
  | .inhDisable req => Sys2Proof.Machine.execInhDisable req s
  | .linkDetect n => Sys2Proof.Machine.execLinkDetect n s
  | .linkTrainStep n peer => Sys2Proof.Machine.execLinkTrainStep n peer s
  | .linkStateTimeout n => Sys2Proof.Machine.execLinkStateTimeout n s
  | .linkDownRestart n => Sys2Proof.Machine.execLinkDownRestart n s
  | .linkRetrain n => Sys2Proof.Machine.execLinkRetrain n s
  | .runCtlWrite req n v => Sys2Proof.Machine.execRunCtlWrite req n v s
  | .frameSlot n => Sys2Proof.Machine.execFrameSlot n s
  | .idleFrame n frame => Sys2Proof.Machine.execIdleFrame n frame s
  | .flitFrame n frame => Sys2Proof.Machine.execFlitFrame n frame s
  | .nak n frame => Sys2Proof.Machine.execNak n frame s
  | .badFrame n => Sys2Proof.Machine.execBadFrame n s
  | .replayTimeout n => Sys2Proof.Machine.execReplayTimeout n s
  | .tsync n frame => Sys2Proof.Machine.execTsync n frame s
  | .tsyncExchange => Sys2Proof.Machine.execTsyncExchange s
  | .probe n frame => Sys2Proof.Machine.execProbe n frame s
  | .rd n frame => Sys2Proof.Machine.execRd n frame s
  | .wr n frame => Sys2Proof.Machine.execWr n frame s
  | .img n frame => Sys2Proof.Machine.execImg n frame s
  | .mgmtForward n frame => Sys2Proof.Machine.execMgmtForward n frame s
  | .notice n frame => Sys2Proof.Machine.execNotice n frame s
  | .runRtWrite req k v => Sys2Proof.Machine.execRunRtWrite req k v s
  | .linkEyeCheck eyes => Sys2Proof.Machine.execLinkEyeCheck eyes s
  | .pdreqLinkWrite req v => Sys2Proof.Machine.execPdreqLinkWrite req v s
  | .clkPlotReqWrite req p v => Sys2Proof.Machine.execClkPlotReqWrite req p v s
  | .dvfsStep p => Sys2Proof.Machine.execDvfsStep p s
  | .ldoSettled p => Sys2Proof.Machine.execLdoSettled p s
  | .ppllUnlock p => Sys2Proof.Machine.execPpllUnlock p s
  | .ppllRelock p => Sys2Proof.Machine.execPpllRelock p s
  | .ceilingEval watts => Sys2Proof.Machine.execCeilingEval watts s
  | .thermalSample tj tcase => Sys2Proof.Machine.execThermalSample tj tcase s
  | .vinLowChange mv => Sys2Proof.Machine.execVinLowChange mv s
  | .powerDetectorFault d => Sys2Proof.Machine.execPowerDetectorFault d s
  | .calEval samples => Sys2Proof.Machine.execCalEval samples s
  | .scrubTick ups => Sys2Proof.Machine.execScrubTick ups s
  | .scrubBurst q ups deferred => Sys2Proof.Machine.execScrubBurst q ups deferred s
  | .borrowStart q => Sys2Proof.Machine.execBorrowStart q s
  | .borrowComplete q fails => Sys2Proof.Machine.execBorrowComplete q fails s
  | .borrowAbort q a => Sys2Proof.Machine.execBorrowAbort q a s
  | .epochAdvance req v => Sys2Proof.Machine.execEpochAdvance req v s
  | .epochSwitch p => Sys2Proof.Machine.execEpochSwitch p s
  | .epochRetire => Sys2Proof.Machine.execEpochRetire s
  | .epochTimeout p => Sys2Proof.Machine.execEpochTimeout p s
  | .faultDetect d => Sys2Proof.Machine.execFaultDetect d s
  | .recordArrival => Sys2Proof.Machine.execRecordArrival s
  | .recordClose col => Sys2Proof.Machine.execRecordClose col s
  | .reactionStart => Sys2Proof.Machine.execReactionStart s
  | .engineRetire => Sys2Proof.Machine.execEngineRetire s
  | .plotResetReaction => Sys2Proof.Machine.execPlotResetReaction s
  | .plotQuarantine => Sys2Proof.Machine.execPlotQuarantine s
  | .deviceSafe => Sys2Proof.Machine.execDeviceSafe s
  | .reactionComplete => Sys2Proof.Machine.execReactionComplete s
  | .sieveHistPop req v => Sys2Proof.Machine.execSieveHistPop req v s
  | .swSafe req v => Sys2Proof.Machine.execSwSafe req v s
  | .votePass u => Sys2Proof.Machine.execVotePass u s
  | .fifoPtr site => Sys2Proof.Machine.execFifoPtr site s
  | .mcWdog => Sys2Proof.Machine.execMcWdog s
  | .smbAddr addr pecOk => Sys2Proof.Machine.execSmbAddr addr pecOk s
  | .smbRead => Sys2Proof.Machine.execSmbRead s
  | .smbStatus => Sys2Proof.Machine.execSmbStatus s
  | .tapReset => Sys2Proof.Machine.execTapReset s
  | .extest scan => Sys2Proof.Machine.execExtest scan s
  | .samplePreload tdi lands => Sys2Proof.Machine.execSamplePreload tdi lands s
  | .idcode => Sys2Proof.Machine.execIdcode s
  | .highz => Sys2Proof.Machine.execHighz s
  | .clamp => Sys2Proof.Machine.execClamp s
  | .extestPulse scan => Sys2Proof.Machine.execExtestPulse scan s
  | .extestTrain scan => Sys2Proof.Machine.execExtestTrain scan s
  | .bypass => Sys2Proof.Machine.execBypass s
  | .hostLinkUp width speed => Sys2Proof.Machine.execHostLinkUp width speed s
  | .d3hotEntry => Sys2Proof.Machine.execD3hotEntry s
  | .pdLinkPowerOn n => Sys2Proof.Machine.execPdLinkPowerOn n s
  | .evinGlitch n => Sys2Proof.Machine.execEvinGlitch n s

end Sys2Proof.Machine
end

