-- ==== Sys2Proof/WellFormed.lean ====
section
/-! DEFINITION. Which terms of the syntax spell a command that something outside the device can send: the ranges that the
rules give the operands. -/

namespace Sys2Proof

/-- Whether a list names nothing twice. -/
def distinct {α : Type} [DecidableEq α] : List α → Bool
  | [] => true
  | x :: xs => !xs.contains x && distinct xs

/-- A step that times out is one of 0x5 to 0xB (R402). -/
def LoadResult.wf (r : LoadResult) : Bool :=
  match r.timeout with
  | some n => decide (5 ≤ n.toNat ∧ n.toNat ≤ 11)
  | none => true

/-- A queue end's channel is one of the three of the mesh, or one of the six queues of a Runner receive port (R265, R363),
and its site code is one that R276 gives. -/
def QueueKey.wf (q : QueueKey) : Bool :=
  let n := q.site.toNat
  let c := q.chan.toNat
  if n < 64 then decide (c < 7)
  else if n < 0x45 then decide (c < 3 ∨ c = 5 ∨ c = 6)
  else if 0x48 ≤ n ∧ n < 0x50 then decide (c < 3 ∨ (c < 6 ∧ q.toMesh))
  else if 0x50 ≤ n ∧ n < 0x60 then decide (c < 2 ∨ (n % 4 = 0 ∧ (c = 5 ∨ c = 6)))
  else if 0x60 ≤ n ∧ n < 0x64 then decide (c = 3 ∨ c = 4)
  else decide (0x80 ≤ n ∧ n < 0xC0 ∧ c < 3)

/-- A rail is one of the seven of R413. -/
def PowerDetector.wf : PowerDetector → Bool
  | .rail i _ => decide (i.toNat < 7)
  | .ldo _ _ => true
  | .refLoss => true
  | .pllm => true

/-- Whether a command's operands lie in their ranges. -/
def Instr.wf : Instr → Bool
  | .powerGood _ _ | .resetN _ _ | .vinRise _ | .vinLoss _ | .powerStop _ | .overVoltageStop _
  | .bootStepComplete _ | .bootStepTimeout => true
  | .fabricBootStart r => r.wf
  | .loadImage => true
  | .loadImageComplete _ data => data.length % 8 == 0
  | .verifyAndStart r => r.wf
  | .plotReset | .plotResetComplete _ | .granaryClear => true
  | .granaryClearComplete units => decide (units.toNat ≤ 1024)
  | .selfTest => true
  | .selfTestComplete plots _ _ => decide (plots.toNat ≤ 64)
  | .setService | .deviceReset _ _ | .plotDump | .hostCmdAbort _ | .hostLinkReset _ => true
  | .bar2Access _ len bytes => (match bytes with
    | some bs => !bs.isEmpty
    | none => len != 0)
  | .hostDb _ _ | .msixPendingSend | .version | .mgmtPost | .mgmtGet | .lockForce | .mgmtTimeout => true
  | .registerWrite _ _ size _ => decide (1 ≤ size.toNat)
  | .registerPathAccess _ _ size _ => decide (1 ≤ size.toNat)
  | .rpathTimeout _ _ | .tokenIn _ _ | .matchToken _ _ | .spillDownSpill _ | .spillDrain _ | .refillLookup _ _
  | .refillAnswer _ | .contextSweepVisit _ | .overflowPurge _ => true
  | .contextReturn _ ctx => ctx != 0
  | .msDebugRead _ _ _ | .msDebugWrite _ _ _ _ | .engCtrlWrite _ _ _ | .engMatchCfgWrite _ _ _
  | .engArbWrite _ _ _ | .execIssue _ | .emitResult _ | .crossbarTransfer _ | .grnAckIntake _
  | .sheafRspWrite _ | .strandReply _ | .add _ | .sub _ | .neg _ | .mul _ | .mulhs _ | .mulhu _ | .divs _
  | .divu _ | .rems _ | .remu _ | .abs _ | .mins _ | .maxs _ | .minu _ | .maxu _ | .and _ | .or _ | .xor _
  | .not _ | .shl _ | .shr _ | .sar _ | .rol _ | .adds _ | .subs _ | .clz _ | .popc _ | .sext _ | .eq _ | .ne _
  | .lts _ | .les _ | .ltu _ | .leu _ | .fadd _ | .fsub _ | .fmul _ | .fma _ | .fdiv _ | .fsqrt _ | .fmin _
  | .fmax _ | .feq _ | .flt _ | .fle _ | .fcvtsl _ | .fcvtls _ | .fabs _ | .fneg _ | .dadd _ | .dsub _
  | .dmul _ | .dfma _ | .ddiv _ | .dsqrt _ | .dmin _ | .dmax _ | .deq _ | .dlt _ | .dle _ | .dcvtdl _
  | .dcvtld _ | .dcvtds _ | .dcvtsd _ | .b64Grant _ | .steer _ | .gate _ | .merge _ | .fan _ | .sink _
  | .ctxNew _ | .ctxFree _ | .ctxGet _ | .iterGet _ | .iterNext _ | .iterReset _ | .iterDone _ | .tagsend _
  | .mktag _ | .gld _ | .gldt _ | .gpres _ | .gst _ | .gstr _ | .gclr _ | .send _ | .blk _ | .fence _
  | .customerNode _ | .opr _ | .cmp _ | .addi _ | .andi _ | .ori _ | .xori _ | .shi _ | .movw _ | .cmpi _
  | .bc _ | .jmp _ | .call _ | .jr _ | .callr _ | .ret _ | .ld _ _ | .lds _ _ | .st _ | .ladd _ _ | .lfadd _ _
  | .lr _ _ | .sc _ | .tas _ _ | .gmemTake _ | .gmemQuery _ | .gmemStore _ | .gmemClear _ | .rep _ | .await _
  | .strandSend _ | .bsend _ | .shf _ | .strandFence _ | .syncI _ | .mff _ | .mtf _ | .mfc _ | .mtc _ | .trap _
  | .yield _ | .exit _ | .ctxn _ | .ctxf _ | .customerInstr _ | .storeDrain _ | .oper _ _ | .lit _ _
  | .microJmp _ _ | .microCall _ _ | .microRet _ _ | .microFma _ _ | .microMul _ _ | .microDiv _ _ | .ldf _ _
  | .stf _ _ | .poll _ _ | .microEnd _ _ | .routineResume _ | .ucodeWindowRead _ _ _ _ | .depositModeEnter _
  | .depositMove _ | .reinject _ | .windowEntryFree _ | .plotQuiescent _ | .deviceQuiescent | .auditPass
  | .prunerExhausted _ | .routerFlit _ _ => true
  | .queueTransfer q _ => q.wf
  | .queueFlush q => q.wf
  | .queueReset q => q.queue.wf
  | .meshLinkselWrite _ _ | .grnRead _ _ _ | .grnTake _ _ _ | .pres _ _ _ | .grnTas _ _ _ => true
  | .peek _ addr len _ => decide (1 ≤ len.toNat ∧ addr.toNat % 8 + len.toNat ≤ 8)
  | .keep _ _ _ | .fill _ _ _ | .clear _ _ _ | .sheafReq _ _ _ | .blkRead _ _ _ | .deferredReplayPass _
  | .grnEccWriteback _ | .presencePortGo _ _ _ | .bankRequest _ _ _ | .bankWakeComplete _ | .bankSleep _
  | .noticeRun _ | .loaded _ | .recalled _ | .leave _ | .accessDone _ | .halt _ | .wake | .cancel | .resume
  | .dibInit | .release | .setpri | .setaff | .migrate | .migrateCopyDone | .query | .findfree | .raise
  | .inheritanceUpdate | .selectDispatch _ | .dispatch _ | .switchStart _ | .quantumExpiry _ | .deadlineExpiry
  | .eventServe | .dibCmdGo _ _ | .dibSwevWrite _ _ | .evpendClear _ _ _ | .outHigh | .outLow | .outFlush
  | .tmrAt | .tmrEvery | .tmrStop | .time | .stamp | .timerExpiry _ | .scheduleApply _ | .evinEdge _
  | .evinCfgWrite _ _ _ | .ppsEdge | .ppsLoss | .acquire | .lockTry | .lockWait | .lockRelease | .withdraw
  | .force _ | .lckCmdGo _ _ | .resetNotice | .inhDisable _ | .linkDetect _ | .linkTrainStep _ _
  | .linkStateTimeout _ | .linkDownRestart _ | .linkRetrain _ | .runCtlWrite _ _ _ | .frameSlot _
  | .idleFrame _ _ | .flitFrame _ _ | .nak _ _ | .badFrame _ | .replayTimeout _ | .tsync _ _ | .tsyncExchange
  | .probe _ _ | .rd _ _ | .wr _ _ | .img _ _ | .mgmtForward _ _ | .notice _ _ | .runRtWrite _ _ _ => true
  | .linkEyeCheck eyes => distinct (eyes.map (·.1))
  | .pdreqLinkWrite _ _ | .clkPlotReqWrite _ _ _ | .dvfsStep _ | .ldoSettled _ | .ppllUnlock _ | .ppllRelock _
  | .ceilingEval _ | .thermalSample _ _ | .vinLowChange _ => true
  | .powerDetectorFault d => d.wf
  | .calEval _ => true
  | .scrubTick _ | .scrubBurst _ _ _ | .borrowStart _ | .borrowComplete _ _ => true
  | .borrowAbort _ a => decide (a.wait.toNat ≤ 96)
  | .epochAdvance _ _ | .epochSwitch _ | .epochRetire | .epochTimeout _ | .faultDetect _ | .recordArrival
  | .recordClose _ | .reactionStart | .engineRetire | .plotResetReaction | .plotQuarantine | .deviceSafe
  | .reactionComplete | .sieveHistPop _ _ | .swSafe _ _ => true
  | .votePass u => (match u with
    | some v => v.copies != 0
    | none => true)
  | .fifoPtr _ | .mcWdog | .smbAddr _ _ | .smbRead | .smbStatus | .tapReset | .extest _ | .samplePreload _ _
  | .idcode | .highz | .clamp | .extestPulse _ | .extestTrain _ | .bypass => true
  | .hostLinkUp width speed => (width == 1 || width == 2 || width == 4 || width == 8) && decide (1 ≤ speed.toNat ∧ speed.toNat ≤ 4)
  | .d3hotEntry | .pdLinkPowerOn _ | .evinGlitch _ => true

end Sys2Proof
end

