-- ==== Sys2Proof/Safety.lean ====
section
/-! DEFINITION. What the statements speak of: the canonical form of the stores, a step that completes, and what a
command leaves unchanged. -/

namespace Sys2Proof.Machine

/-- The canonical form of the byte memory: addresses rise strictly and no listed byte is zero, what an unlisted address
reads as (assumption log 3). -/
def Memory.wf (m : List Host.Cell) : Bool := SMap.wf (fun _ => (0 : Byte)) m

/-- The byte memory, the granary's presence map, the register store, the event sources, the 4,096 locks and the 16,384
descriptors are in canonical form. -/
def State.stored (s : State) : Prop :=
  Memory.wf s.mem = true ∧ SMap.wf (fun _ => (0 : BitVec 2)) s.pres = true ∧ SMap.wf regReset s.regs = true ∧
    SMap.wf (fun _ => Event.none) s.dib.events = true ∧ SMap.wf (fun _ => Lock.free) s.lck.locks = true ∧
    (∀ p, p ∈ s.lck.locks → p.1 < 4096) ∧ SMap.wf (fun _ => Desc.free) s.dib.descs = true ∧
    ∀ p, p ∈ s.dib.descs → p.1 < 16384

/-- A step that completes: no fault and no refusal. A run is safe while every step of it is. -/
def State.stepsSafely (s : State) : Prop := ∃ t, step s = .next t

/-- Everything but one engine is unchanged. -/
def OnlyEngine (e : EngNo) (s t : State) : Prop :=
  t = { s with engines := t.engines } ∧ ∀ k, k ≠ e.val → t.eng k = s.eng k

/-- Everything but one plot's shared units is unchanged. -/
def OnlyPlot (p : PlotNo) (s t : State) : Prop :=
  t = { s with plots := t.plots } ∧ ∀ k, k ≠ p.val → t.plot k = s.plot k

/-- Everything but the registers at the addresses of a list is unchanged. -/
def OnlyRegs (as : List Nat) (s t : State) : Prop :=
  t = { s with regs := t.regs } ∧ ∀ a, a ∉ as → t.rd a = s.rd a

/-- Everything but the registers at the addresses of a list is unchanged among the registers. -/
def RegsBut (as : List Nat) (s t : State) : Prop := ∀ a, a ∉ as → t.rd a = s.rd a

/-- Everything but one descriptor is unchanged. -/
def OnlyDesc (d : Nat) (s t : State) : Prop :=
  t = { s with dib := { s.dib with descs := t.dib.descs } } ∧ ∀ k, k ≠ d → t.desc k = s.desc k

/-- Everything but one lock is unchanged. -/
def OnlyLock (n : Nat) (s t : State) : Prop :=
  t = { s with lck := { s.lck with locks := t.lck.locks } } ∧ ∀ k, k ≠ n → t.lock k = s.lock k

/-- What the memories hold is unchanged: bytes, presence and microcode. -/
def SameMemories (s t : State) : Prop := t.mem = s.mem ∧ t.pres = s.pres ∧ t.ucode = s.ucode

/-- The collector of a detection is free and nothing masks it: no safe state, no mask, and no open record (R453, R457,
R467). -/
def CollectorFree (d : Detection) (s : State) : Prop :=
  s.sieve.safe = none ∧ s.sieve.masks = [] ∧ d.code ≠ 0x43 ∧ ∀ r, recOf s (collectorOf d s) = some r → r.open_ = false

/-- A detection's record is open in its collector, with the words of R455 that R451, R452 and R453 give it. -/
def RecordOpened (d : Detection) (s t : State) : Prop :=
  ∃ r, recOf t (collectorOf d s) = some r ∧ r.open_ = true ∧ r.code = d.code ∧ r.cls = codeClass d.code.toNat ∧
    r.target = codeTarget d.code.toNat ∧ r.react = reactOf s d.code.toNat ∧ r.locus = d.locus ∧ r.a = d.a ∧ r.c = d.c ∧
    (memoryCode d.code.toNat = false → r.b = d.b) ∧ r.state = s.opState.code ∧ r.tDet = s.time.now ∧
    r.recno = s.sieve.recno + 1 ∧ r.merge = 0 ∧ r.conseq = 0

/-- A token heads the P3 lane of an engine in service whose intake is not halted, HASH is free, and no earlier token with
its key holds it back (R55, R69). -/
def TokenWaits (s : State) (e : EngNo) (f : Flit) (rest : List Flit) : Prop :=
  inService s e.val = true ∧ s.flag (ereg e.val 4) 0 = false ∧ (s.eng e.val).hash = none ∧
    (s.eng e.val).inP3 = f :: rest ∧ keyWaits s e.val f = false

/-- Such a token that intake and decoding accept, for a node of a shape, with clean instruction memory (R56, R57, R94,
R95). -/
def TokenAccepted (s : State) (e : EngNo) (f : Flit) (rest : List Flit) (sh : Shape) : Prop :=
  TokenWaits s e f rest ∧ f.poison = false ∧ tagPort f.tag ≠ 3 ∧ tagCtx f.tag ≠ 0xFFFF ∧
    ctxAllocated s (e.val / 17) (tagCtx f.tag) = true ∧
    s.mark (imemBase e.val + 8 * (tagNode f.tag).toNat) = .clean ∧
    s.mark (imemBase e.val + 8 * (((tagNode f.tag).toNat + 1) % 4096)) = .clean ∧
    illegalCause s e.val (nodeWord s e.val (tagNode f.tag))
      (s.load (imemBase e.val + 8 * (((tagNode f.tag).toNat + 1) % 4096)) 8) = none ∧
    nodeShape s e.val (nwOpc (nodeWord s e.val (tagNode f.tag))).toNat = some sh ∧
    usesPort sh (nodeWord s e.val (tagNode f.tag)) (tagPort f.tag) = true

/-- The result of a fire that leaves EXEC, so many cycles after it entered (R76, R99). -/
def nodeRes (f : Fire) (toks : List Proto) (lam : Nat) : Result :=
  { due := f.issued + lam, issued := f.issued, origin := .node f.node f.ctx f.iter f.word, toks := toks }

/-- The flags that the engine will raise after such a fire, in its completion cycle (R185). -/
def nodeRaises (x : Engine) (f : Fire) (fl : FFlags) (lam : Nat) : List Raise :=
  if fl = 0 then x.raises
  else insertRaise { due := f.issued + lam, issued := f.issued, origin := .node f.node f.ctx f.iter f.word
                     flags := fl, pend := true } x.raises

/-- A node command takes the fire out of EXEC and gives a result of so many cycles with these tokens and flags, and
changes nothing else (R76, R99). -/
def NodeGives (c : Instr) (e : EngNo) (f : Fire) (toks : List Proto) (fl : FFlags) (lam : Nat) (s : State) : Prop :=
  let x := s.eng e.val
  ∃ t, exec c s = .next t ∧ OnlyEngine e s t ∧
    t.eng e.val = { x with
      exec := none, results := x.results ++ [nodeRes f toks lam], raises := nodeRaises x f fl lam }

/-- A node command sends tokens and changes nothing else (R99). -/
def NodeSends (c : Instr) (e : EngNo) (f : Fire) (toks : List Proto) (lam : Nat) (s : State) : Prop :=
  NodeGives c e f toks 0 lam s

/-- The register write that an instruction in EXEC starts (R131). -/
def resultWrite (i : SIssue) (target : BitVec 5) (v : Word) (lam : Nat) : RegWrite :=
  resultOf i target v lam

/-- The flags that the engine will raise after an instruction in EXEC, in its completion cycle (R185, R189). -/
def opRaises (s : State) (e : EngNo) (i : SIssue) (fl : FFlags) (lam : Nat) (pend : Bool) : List Raise :=
  if fl = 0 then (s.eng e.val).raises
  else insertRaise { due := i.issued + lam, issued := i.issued, origin := .strand i.pc (runDesc s e.val), flags := fl
                     pend := pend } (s.eng e.val).raises

/-- The write of the post-increment of an access of `n` bytes, if it is not discarded (R125). -/
def incWrites (i : SIssue) (n : Nat) (load : Bool) : List RegWrite :=
  if siPI i.word = true ∧ ¬ (load = true ∧ siD i.word = siA i.word) then
    [resultWrite i ((siA i.word).setWidth 5) (i.a + BitVec.ofNat 64 n) 1]
  else []

/-- A strand command takes the instruction out of EXEC and starts register writes, and changes nothing else but what `g`
says of the engine (R131). -/
def StrandGives (c : Instr) (e : EngNo) (ws : List RegWrite) (g : Engine → Engine) (s : State) : Prop :=
  ∃ t, exec c s = .next t ∧ OnlyEngine e s t ∧
    t.eng e.val = g { s.eng e.val with
      sx := none
      strand := (s.eng e.val).strand.map (fun k => { k with writes := ws.foldl (fun l w => insertWrite w l) k.writes }) }

/-- A strand that is to leave its engine: it issues nothing further, its reservation is broken with FLAGS.LRV, and what it has
issued goes on (R144, R154, R156). -/
def leavingStrand (k : Strand) (why : LeaveReason) (deadline : Word) (g : Ctx → Ctx) : Strand :=
  { k with
    ctx := g { k.ctx with flags := putBit k.ctx.flags 13 false }
    writes := k.writes.map (fun w => if w.target = tLrv then { w with value := 0 } else w)
    leave := some (why, deadline), block := .none, fetch := none, dec := none, read := none }

/-- The running strand of an engine is to leave it with a reason: it issues nothing further, nothing is in EXEC and its
reservation is broken; its context is saved when it has drained (R154, R307, R323). -/
def StrandLeaves (c : Instr) (e : EngNo) (k : Strand) (why : LeaveReason) (deadline : Word) (g : Ctx → Ctx) (s : State) :
    Prop :=
  ∃ t, exec c s = .next t ∧ OnlyEngine e s t ∧
    t.eng e.val = { s.eng e.val with sx := none, resv := none, strand := some (leavingStrand k why deadline g) }

/-- The running strand of an engine traps at a PC: ENG_STRAP records the cause, the descriptor, the PC and the address, the
engine's event is raised, and the strand is to leave the engine with the cause and the address in its image; nothing it
has issued is lost (R156, R157). -/
def StrandTraps (c : Instr) (e : EngNo) (k : Strand) (cause : Nat) (pc : BitVec 15) (addr : Word) (s : State) : Prop :=
  ∃ t, exec c s = .next t ∧
    t.eng e.val = { s.eng e.val with
      sx := none, resv := none
      strand := some (leavingStrand k .trap 0 (fun x =>
        { x with pc := pc, trapWord := BitVec.ofNat 64 (256 + cause), trapAddr := addr })) } ∧
    t.flag (ereg e.val 0x110) 31 = true ∧ t.fld (ereg e.val 0x110) 16 8 = cause ∧
    t.fld (ereg e.val 0x110) 0 14 = k.desc.toNat ∧ t.rd (ereg e.val 0x114) = pc.setWidth 32 ∧
    t.rd64 (ereg e.val 0x118) = addr ∧ t.plots = s.plots ∧ SameMemories s t ∧ (∀ n, n ≠ e.val → t.eng n = s.eng n)

/-- The check bits of an engine's frame store are clean and its store buffer is empty. -/
def FrameClean (s : State) (e : EngNo) : Prop :=
  (s.eng e.val).stores = [] ∧ ∀ a, frameBase e.val ≤ a → a < frameBase e.val + 0x8000 → s.mark a = .clean

/-- An engine's sequencer holds a routine whose next microword is due, correct and not the last of the store, with a safe
point near enough for one more microword (R197, R202, R214). -/
def MicroDue (s : State) (e : EngNo) (r : Routine) : Prop :=
  (s.eng e.val).seqr = some r ∧ r.readyAt ≤ (s.eng e.val).cycle ∧ s.mark (uaddr e.val r.upc.toNat) = .clean ∧
    0x610 ≤ r.upc.toNat ∧ r.upc.toNat < 0x7FF ∧ r.since + 38 < 1024

/-- A microword command writes a micro-register and the routine goes on at the next microword after some microcycles;
nothing else changes but what `g` says of the engine (R197). -/
def MicroGivesWith (c : Instr) (e : EngNo) (r : Routine) (dst : BitVec 5) (v : Word) (cost : Nat) (g : Engine → Engine)
    (s : State) : Prop :=
  ∃ t, exec c s = .next t ∧ OnlyEngine e s t ∧
    t.eng e.val = g { (microWrite e.val r dst v cost s).2.eng e.val with
      seqr := some { (microWrite e.val r dst v cost s).1 with
        upc := r.upc + 1, since := r.since + cost, readyAt := (s.eng e.val).cycle + cost } }

/-- A microword command that changes nothing else of the engine. -/
def MicroGives (c : Instr) (e : EngNo) (r : Routine) (dst : BitVec 5) (v : Word) (cost : Nat) (s : State) : Prop :=
  MicroGivesWith c e r dst v cost id s

/-- A request stands whole in RQ of a quadrant's mesh port and nothing keeps it from its banks: no reply waits, and it
is neither broken nor poisoned, and each of its words is permitted to its requester, correct, in a bank that is ON and in no
borrowed stripe (R47, R52, R283, R293, R295). -/
def GrnDue (s : State) (q : QuadNo) (j : PortNo) (f : Flit) (body rest : List Flit) : Prop :=
  takePacket (quadRq s q.val j.val) = (f :: body, rest) ∧
    (∀ i, i < 4 → quadTx s q.val i = []) ∧ f.dev = ownId s ∧ sheafBroken (f :: body) = false ∧
    (f :: body).any Flit.poison = false ∧
    ∀ w, w ∈ requestWords f → bankState s (bankOf w) = .on ∧ borrowed s w = false ∧ wordBad s w = false ∧
      s.mark (wbyte w) = .clean ∧ permitted s (askerFlit s f) false w = true ∧ permitted s (askerFlit s f) true w = true

/-- The response queue of the mesh port of a quadrant that leads to the destination of a reply (R254). -/
def replyQueue (s : State) (q : QuadNo) (f : Flit) : Nat :=
  qkey (siteGrn q.val (match destSite s (siteGrn q.val 0) f with
    | some d => portFor d
    | none => 0)) true chRsp

/-- A queue takes so many flits from its writer: it has room, no flush is on, and no rest of a sheaf is to be discarded
(R267, R269, R271). -/
def QueueTakes (s : State) (k depth n : Nat) : Prop :=
  (s.q k).length + n ≤ depth ∧ SMap.get s.flushing k false = false ∧ SMap.get s.dropping k false = false

/-- A reply joins the response queue that leads to its destination, and no other queue changes. -/
def Replies (s : State) (q : QuadNo) (f : Flit) (t : State) : Prop :=
  QueueTakes s (replyQueue s q f) 16 1 → t.q (replyQueue s q f) = s.q (replyQueue s q f) ++ [f] ∧
    ∀ k, k ≠ replyQueue s q f → t.q k = s.q k

/-- Only the word at a word address may differ in the granary. -/
def OnlyWord (w : BitVec 23) (s t : State) : Prop :=
  (∀ a, (a < wbyte w ∨ wbyte w + 8 ≤ a) → t.byte a = s.byte a) ∧ ∀ v, v ≠ w → presOf t v = presOf s v

/-- An event source as a raise at a time leaves it: with a strand or message route it is pending, its count is raised up
to 0xFFFF, and its stamp is the time unless it was pending already; with no route it stays as it was (R324). -/
def eventAfter (s : State) (n : Nat) (at_ : BitVec 64) : Event :=
  let old := SMap.get s.dib.events n Event.none
  if ((routeOf s n).str || (routeOf s n).msi) = true then
    { pend := true
      count := if old.count = 0xFFFF then 0xFFFF else old.count + 1
      stamp := if old.pend = true then old.stamp else at_.extractLsb' 0 32 }
  else old

/-- One event has been raised at a time and no other event has changed. -/
def EventRaised (n : Nat) (at_ : BitVec 64) (s t : State) : Prop :=
  SMap.get t.dib.events n Event.none = eventAfter s n at_ ∧
    ∀ k, k ≠ n → SMap.get t.dib.events k Event.none = SMap.get s.dib.events k Event.none

/-- A token of a function heads EVIO's intake and no reply of EVIO waits for its queue (R327). -/
def EvioHead (s : State) (fn : BitVec 6) (f : Flit) (rest : List Flit) : Prop :=
  s.evio.intake = f :: rest ∧ tagFn f.tag = fn ∧ blockTx s siteEvio = []

/-- A token of a lock function heads the lock unit's intake, its command port is free, no reset notice waits and nothing
holds its update stage (R343, R344). -/
def LockHead (s : State) (fn : BitVec 6) (f : Flit) (rest : List Flit) : Prop :=
  s.lck.intake = f :: rest ∧ tagFn f.tag = fn ∧ (lckCmd s).1 = false ∧ s.lck.direct.length < 64 ∧ blockTx s siteLck = [] ∧
    s.lck.notices = []

/-- Such a token that comes from where its lock word says, of a requester that the lock's group admits (R336, R337). -/
def LockAsked (s : State) (fn : BitVec 6) (f : Flit) (rest : List Flit) : Prop :=
  LockHead s fn f rest ∧ (f.hops == 0) = (lwDev f.data == ownId s) ∧
    groupAdmits s ((f.tag.extractLsb' 28 12 : BitVec 12).toNat / 64) (wordOwner f.data) = true

/-- A reply to a token is discarded: it is one that leaves across the mesh to a DEV that may not be emitted (R37). -/
def LockDiscards (f : Flit) (code : Option (BitVec 8)) (s : State) : Prop :=
  code.isSome = true ∧ f.data.getLsbD 15 = false ∧ decide (ownId s = 0xFFF) ≠ decide (lwDev f.data = 0xFFF)

/-- The update cycle of a token's function sends its requester one reply with a code by the form of its lock word, or none
where QUIET is set; `none` is for a request that queues. A reply whose DEV may not be emitted is discarded and recorded
(R37, R334, R342). The direct path is stated with INH_EN = 0. -/
def LockReplied (f : Flit) (code : Option (BitVec 8)) (s t : State) : Prop :=
  let w := f.data
  let k := qkey siteLck true chCtl
  let n : BitVec 12 := f.tag.extractLsb' 28 12
  let off := s.flag (breg .lck 0) 0 = false
  match code with
  | none => t.queues = s.queues ∧ (off → t.lck.direct = s.lck.direct)
  | some c =>
    let v : Word := (0 : BitVec 20) ++ n ++ (0 : BitVec 24) ++ c
    let operand := mkToken kOperand 3 (curEpoch s) s.lck.seq
      (lwDev w ++ w.extractLsb' 42 10 ++ w.extractLsb' 30 12 ++ w.extractLsb' 28 2 ++ f.tag.extractLsb' 0 28) v
    let wake := mkToken kBlock 3 (curEpoch s) s.lck.seq
      (lwDev w ++ (1 : BitVec 4) ++ (1 : BitVec 6) ++ w.extractLsb' 0 14 ++ f.tag.extractLsb' 0 28) v
    let token := if w.extractLsb' 62 2 = 1 then operand else wake
    if w.getLsbD 15 = true then t.queues = s.queues ∧ (off → t.lck.direct = s.lck.direct)
    else if decide (ownId s = 0xFFF) ≠ decide (lwDev w = 0xFFF) then
      let d := blockDetect 0x42 (BitVec.ofNat 8 siteLck) token
      t.queues = s.queues ∧ (off → t.lck.direct = s.lck.direct) ∧ (CollectorFree d s → RecordOpened d s t)
    else if w.extractLsb' 62 2 ≠ 1 ∧ lwDev w = ownId s then
      t.queues = s.queues ∧ (off → t.lck.direct = s.lck.direct ++ [.wake (w.extractLsb' 0 14) v])
    else (off → t.lck.direct = s.lck.direct) ∧ (QueueTakes s k 8 1 → t.q k = s.q k ++ [token])

/-- A lock becomes as given; no other lock, no memory, no engine and no descriptor changes. -/
def LockBecomes (n : Nat) (y : Lock) (s t : State) : Prop :=
  t.lock n = y ∧ (∀ k, k ≠ n → t.lock k = s.lock k) ∧ SameMemories s t ∧ t.engines = s.engines ∧ t.dib.descs = s.dib.descs

/-- A good frame of a type arrives on an ACTIVE link of a powered device (R356 to R358). -/
def FrameIn (s : State) (n : LinkNo) (f : BitVec 256) (t : BitVec 4) : Prop :=
  s.opState ≠ .off ∧ linkState s n.val = 5 ∧ goodFrame f = true ∧ frType f = t

/-- The link after a good frame's acknowledgement and credit return (R358, R362, R363). -/
def frameApplied (s : State) (n : LinkNo) (f : BitVec 256) : Link := applyCredit f (applyAck f (link s n.val))

/-- A good sequenced frame is the one expected next (R361). -/
def FrameNext (s : State) (n : LinkNo) (f : BitVec 256) (t : BitVec 4) : Prop :=
  FrameIn s n f t ∧ frSeq f = (link s n.val).expect

/-- The link after such a frame is accepted (R361). -/
def frameAccepted (s : State) (n : LinkNo) (f : BitVec 256) : Link :=
  { frameApplied s n f with expect := (link s n.val).expect + 1, nak := false, got := true }

/-- The link after an accepted management frame has left its buffer (R363). -/
def mgmtAccepted (s : State) (n : LinkNo) (f : BitVec 256) : Link :=
  let x := frameAccepted s n f
  { x with left := SMap.set x.left 6 (SMap.get x.left 6 0 + 1) 0 }

/-- A frame that a link sends: its number, its acknowledgement and its credit return, with a payload (R356, R361,
R363). -/
def sentFrame (x : Link) (t : BitVec 4) (seq : BitVec 12) (ackv : Bool) (p : BitVec 160) : BitVec 256 :=
  mkFrame t seq (x.expect - 1) ackv (creditReturn x).1 (creditReturn x).2.1 p

/-- The link after it sends a frame. -/
def afterSend (x : Link) (t : BitVec 4) (seq : BitVec 12) (ackv : Bool) (p : BitVec 160) : Link :=
  { (creditReturn x).2.2 with tx := some (sentFrame x t seq ackv p) }

/-- The link after it sends a sequenced frame for the first time (R362). -/
def afterNew (x : Link) (t : BitVec 4) (p : BitVec 160) : Link :=
  { afterSend x t x.seq x.got p with
    seq := x.seq + 1, replay := x.replay ++ [(x.seq, { ftype := t, payload := p })] }

/-- Only one link of the fabric changes, and nothing but the fabric and the registers of a list. -/
def OnlyLink (n : LinkNo) (as : List Nat) (s t : State) : Prop :=
  t = { s with fabric := { s.fabric with links := t.fabric.links }, regs := t.regs } ∧
    (∀ k, k ≠ n.val → link t k = link s k) ∧ RegsBut as s t

/-- A link enters a state, from now on; no other link and no memory, engine or plot changes (R359). -/
def EntersState (i : Instr) (n : LinkNo) (dst : Nat) (s t : State) : Prop :=
  exec i s = .next t ∧ linkState t n.val = dst ∧ (link t n.val).since = s.time.now ∧
    (∀ k, k ≠ n.val → linkState t k = linkState s k ∧ link t k = link s k) ∧ SameMemories s t ∧ t.engines = s.engines ∧
    t.plots = s.plots

end Sys2Proof.Machine
end

