-- ==== Sys2Proof/Certificates/Slice0/Obligations.lean ====
section
/-! DEFINITION. The statements for the provers, one definition each; OBLIGATIONS.json lists them. -/

open Sys2Proof Sys2Proof.Machine

/-- A step runs the command at the front of the queue (95_what_each_step_holds). Where a clause meets a point that the
spec leaves open, it states the model's choice (assumption log 31). -/
def Obligations.StepRunsTheFrontCommand : Prop :=
  ∀ (c : Instr) (s : State),
    step { s with pending := c :: s.pending } = exec c s ∧
    (s.pending = [] → step s = .next (tick s))

/-- No command touches the queue of waiting commands (95_what_each_step_holds). -/
def Obligations.QueueIsOnlyPopped : Prop :=
  ∀ (c : Instr) (s t : State),
    (exec c s = .next t → t.pending = s.pending) ∧
    (step { s with pending := c :: s.pending } = .next t → t.pending = s.pending)

/-- Every step keeps the stores in canonical form: bytes, presence, registers, events, locks and descriptors
(01_architecture R22, 10_granary R278, 00_scope R6). -/
def Obligations.StoresStayCanonical : Prop :=
  ∀ (s t : State), s.stored → step s = .next t → t.stored

/-- What the unpowered module's first state holds, its stores in canonical form (00_scope R2, 14_host_and_boot R406,
13_runner_fabric R371, 12_locks R333, 10_granary R297, 03_engine R81, 17_faults R452, 01_architecture R22). Where a
clause meets a point that the spec leaves open, it states the model's choice (assumption log 3). -/
def Obligations.ResetState : Prop :=
  (State.reset.opState = .off ∧ State.reset.profile = .p0210 ∧ State.reset.pending = [] ∧
    (∀ b, bankState State.reset b = .on) ∧ (∀ a, State.reset.byte a = 0) ∧ State.reset.pres = [] ∧
    (∀ n, State.reset.lock n = Lock.free) ∧ (∀ d, State.reset.desc d = Desc.free) ∧
    (∀ e, State.reset.eng e = Engine.reset) ∧ bits (State.reset.rd (ereg 0 4)) 0 2 = 3 ∧
    reactOf State.reset 0x01 = reLog ∧ reactOf State.reset 0x15 = reRetire ∧ reactOf State.reset 0x27 = reReset ∧
    reactOf State.reset 0x60 = reSafe) ∧
  (State.reset.stored)

/-- VIN_RISE, POWER_GOOD, the two stops, VIN_LOSS and VIN_LOW_CHANGE (15_power_and_clocks R411, 15_power_and_clocks
R412, 00_scope R3, 15_power_and_clocks R422, 17_faults R453, 17_faults R455). Where a clause meets a point that the spec
leaves open, it states the model's choice (assumption log 49 and 141). -/
def Obligations.PowerAndVin : Prop :=
  (∀ (s : State),
    (∀ mv : BitVec 16, s.opState = .off → 4200 ≤ mv.toNat → ∃ t, exec (.vinRise mv) s = .next t ∧
      t = { s with regs := t.regs, pwrGood := decide (4500 ≤ mv.toNat) } ∧ bits (t.rd (breg .pwr 4)) 16 16 = mv ∧
      RegsBut [breg .pwr 0, breg .pwr 4] s t) ∧
    (∀ rootSel testMode : Bool, s.opState = .off → s.pwrGood = true → ∃ t, exec (.powerGood rootSel testMode) s = .next t ∧
      t = { State.reset with
        pending := s.pending, free := s.free, tap := s.tap, pwrGood := s.pwrGood, regs := t.regs, opState := .boot
        prevState := .boot, rootSel := rootSel, testMode := testMode
        time := { now := 0, frac := 0, started := true, unlockAt := 0, row1 := false } } ∧
      t.rd portReg = 0x80000000 ∧ t.rd (breg .run 0) = (if rootSel then 0x80000000 else 0x00000FFF) ∧
      ∀ a, a ∉ [portReg, breg .run 0] →
        t.rd a = if a = breg .pwr 0 ∨ a = breg .pwr 4 then s.rd a else regReset a) ∧
    (∀ mv : BitVec 16, (mv.toNat < 4000 ∨ (∃ t, s.power.vinLossAt = some t ∧ t.toNat + 200000 ≤ now s) →
        exec (.powerStop mv) s = .next { State.reset with pending := s.pending, free := s.free }) ∧
      (19000 < mv.toNat →
        exec (.overVoltageStop mv) s = .next { State.reset with pending := s.pending, free := s.free }))) ∧
  (∀ (s : State) (mv : BitVec 16), s.opState ≠ .off →
    (mv.toNat < 4300 → s.power.vinLossAt = none → ∃ t, exec (.vinLoss mv) s = .next t ∧
      t.power = { s.power with vinLossAt := some s.time.now } ∧ SameMemories s t ∧ t.engines = s.engines ∧
      t.plots = s.plots ∧ t.opState = s.opState ∧
      (let d : Detection := { Detection.bare 0x60 with a := 4300, b := mv }
       CollectorFree d s → RecordOpened d s t)) ∧
    (∃ t, exec (.vinLowChange mv) s = .next t ∧
      t = { s with regs := t.regs, power := t.power } ∧
      t.power = { s.power with vinLow := if mv.toNat < 7000 then true else if mv.toNat < 7300 then s.power.vinLow else false } ∧
      bits (t.rd (breg .pwr 4)) 16 16 = mv ∧ RegsBut [breg .pwr 0, breg .pwr 4] s t))

/-- What RESET_N and DEVICE_RESET leave (15_power_and_clocks R429, 15_power_and_clocks R430, 14_host_and_boot R397,
13_runner_fabric R371). -/
def Obligations.DeviceResetLeaves : Prop :=
  ∀ (s : State) (rootSel testMode : Bool),
    let after (cause opc : Nat) (t : State) : Prop :=
      t.opState = .boot ∧ bootStep t = 0 ∧ bootFail t = 0 ∧ t.flag portReg 31 = true ∧ t.fld portReg 0 8 = opc ∧
      t.time = s.time ∧ t.tap = s.tap ∧ t.pres = s.pres ∧ t.rootSel = rootSel ∧ t.testMode = testMode ∧
      (∀ a, t.byte a = if a < 0x4000000 then s.byte a else 0) ∧ t.ucode = [] ∧ t.engines = [] ∧ t.plots = [] ∧
      t.queues = [] ∧ t.routers = [] ∧ t.banks = [] ∧ t.dib = Dib.reset ∧ t.lck = Lck.reset ∧ t.evio = Evio.reset ∧
      t.sieve = Sieve.reset ∧ t.power = Power.reset ∧ t.cmd = none ∧ t.profile = .p0210 ∧
      t.rd (breg .pwr 0x2C) = BitVec.ofNat 32 (2 ^ cause) ∧
      t.rd (breg .run 0) = (if rootSel then 0x80000000 else 0x00000FFF) ∧
      t.flag (breg .clk 0) 1 = s.flag (breg .clk 0) 1 ∧
      (∀ a, a ∉ [portReg, breg .run 0, breg .pwr 0x2C, breg .clk 0] →
        t.rd a = if keptRegs (cause == 2) a = true then s.rd a else regReset a) ∧
      t.fabric = { Fabric.reset with links := t.fabric.links }
    (s.opState ≠ .off → ∃ t, exec (.resetN rootSel testMode) s = .next t ∧ after 1 0 t ∧ t.host = State.reset.host ∧
      ∀ n, n < 8 → link t n = { Link.reset with since := s.time.now }) ∧
    (hostReady s = true → hostBusy s = false → (∀ k, k < 4 → s.rd (argReg k) = 0) →
      ∃ t, exec (.deviceReset rootSel testMode) s = .next t ∧ after 2 7 t ∧ t.host = { s.host with pba := [] } ∧
        ∀ n, n < 8 → link t n = { Link.reset with since := s.time.now, tx := (link t n).tx })

/-- A boot step before WAIT_IMAGE ends, fails or times out (14_host_and_boot R402, 14_host_and_boot R403, 10_granary
R297, 18_pins_package_test R480). Where a clause meets a point that the spec leaves open, it states the model's choice
(assumption log 36, 38, 46, 124 and 141). -/
def Obligations.BootSteps : Prop :=
  ∀ (s : State) (r : BootResult), stepRuns s = true → s.tap.instr.drives = false →
    (∃ t, exec (.bootStepComplete r) s = .next t ∧ t.opState = .boot ∧
      (bootStep s = 0 → r.fails = false → bootStep t = 1 ∧ t.faultN = s.sieve.safe.isSome ∧
        t.flag (breg .clk 0) 1 = true ∧ t.time = { s.time with row1 := true } ∧ t.mem = s.mem ∧ t.pres = s.pres) ∧
      (bootStep s = 0 → r.fails = true → t.time = s.time ∧ t.flag (breg .clk 0) 1 = false ∧
        bits (t.rd (breg .pwr 0x24)) 0 15 = 0 ∧ ∀ p, p < 64 → (t.plot p).powered = false) ∧
      (bootStep s = 1 → r.fails = false → s.sieve.diverged = [] → bootStep t = 2 ∧
        t.fld (breg .dev 0x18) 0 8 = r.voteCe.toNat ∧ OnlyRegs [bootReg, breg .dev 0x18] s t) ∧
      (bootStep s = 2 → r.fails = false → bootStep t = 3 ∧ (∀ a, a < 0x4000000 → t.byte a = 0) ∧ t.pres = [] ∧
        (∀ a, 0x4000000 ≤ a → t.byte a = s.byte a)) ∧
      (bootStep s = 3 → r.failedSlots = [] → s.fld portReg 0 8 ≠ 7 →
        bootStep t = 4 ∧ t.flag portReg 31 = false ∧ OnlyRegs [bootReg, portReg] s t) ∧
      (bootStep s < 3 → r.fails = true →
        bootFail t = (if bootStep s = 0 then 0x02 else if bootStep s = 1 then 0x01 else 0x03) ∧ bootStep t = bootStep s ∧
        t.flag portReg 31 = false ∧ t.fld portReg 16 8 = 8 ∧ t.fld portReg 0 8 = 0)) ∧
    (∃ t, exec .bootStepTimeout s = .next t ∧ t.opState = .boot ∧ bootFail t = 0x3F ∧
      t.fld bootReg 8 8 = bootStep s ∧ t.flag portReg 31 = false ∧ t.fld portReg 16 8 = 8 ∧ t.mem = s.mem)

/-- VERIFY_AND_START and FABRIC_BOOT_START run steps 0x5 to 0xB to SERVICE or back to WAIT_IMAGE (14_host_and_boot R402,
14_host_and_boot R403, 14_host_and_boot R404, 00_scope R3). Where a clause meets a point that the spec leaves open, it
states the model's choice (assumption log 33, 34, 35, 37 and 40). -/
def Obligations.ImageStart : Prop :=
  ∀ (s : State) (r : LoadResult), s.opState = .boot → bootStep s = 4 → hostBusy s = false →
    let ends (s0 t : State) : Prop :=
      t.flag portReg 31 = false ∧ t.flag portReg 30 = true ∧ t.cmd = none ∧ t.rd (breg .bar4 0x1C) = 0 ∧
      (match imageSteps r [5, 6, 7, 8, 9, 10, 11] (s0.wr bootReg 0) with
       | (.ok _, u) => t.opState = .service ∧ bootStep t = 15 ∧ t.fld portReg 16 8 = 0 ∧
           t.rd64 (breg .dev 0x2C) = u.image.id ∧ t.mem = u.mem ∧ t.pres = u.pres ∧ t.ucode = u.ucode ∧
           t.profile = u.profile ∧ t.engines = u.engines ∧
           (∀ n, n < 1088 → inService u n = true → bits (t.rd (ereg n 4)) 0 2 =
             if u.sieve.diverged.contains (BitVec.ofNat 8 (n / 17)) = true then 3 else 0)
       | (.error (code, detail), u) => t.opState = u.opState ∧ bootStep t = 4 ∧ bootFail t = code % 256 ∧
           t.fld bootReg 8 8 = detail % 256 ∧ t.fld portReg 16 8 = 8 ∧ t.mem = u.mem ∧ t.pres = u.pres ∧ t.ucode = u.ucode ∧
           t.engines = u.engines)
    (hostReady s = true → scanDrives s = false → (∀ k, k < 4 → s.rd (argReg k) = 0) →
      let s0 := (((s.setFld (breg .bar4 0) 0 8 2).setFld portReg 0 8 2).setFld portReg 8 8 0).setFlag portReg 31 true
      let c : HostCmd := { opc := 2, a0 := 0, a1 := 0, a2 := 0, a3 := 0, abort := false, dirty := false, lost := false }
      ∃ t, exec (.verifyAndStart r) s = .next t ∧ ends { s0 with cmd := some c } t) ∧
    (let n := s.rd (breg .run 0x10)
     let h := readImage 0 16 { s with fabric := { s.fabric with imgSeen := n } }
     scanDrives s = false → s.flag (breg .host 0) 31 = false → n ≠ s.fabric.imgSeen →
      (field h.1 0 4 = 0x41545045 → field h.1 8 4 / 8 ≤ n.toNat →
        ∃ t, exec (.fabricBootStart r) s = .next t ∧ ends (h.2.setFld portReg 0 8 2) t) ∧
      ((field h.1 0 4 ≠ 0x41545045 ∨ n.toNat < field h.1 8 4 / 8) → exec (.fabricBootStart r) s = .next h.2) ∧
      ((∀ w : BitVec 23, w.toNat < 2 → permitted s .mc false w = true ∧ bankDark s w = false ∧ wordHeld s w = false ∧
          wordBad s w = false ∧ s.mark (8 * w.toNat) = .clean) →
        h.1 = (List.range 16).map s.byte ∧ h.2.fabric = { s.fabric with imgSeen := n } ∧ SameMemories s h.2 ∧
          h.2.engines = s.engines)) ∧
    ((s.flag (breg .host 0) 31 = true ∨ s.rd (breg .run 0x10) = s.fabric.imgSeen) →
      exec (.fabricBootStart r) s = .next s)

/-- A long host command that the port accepts sets BUSY and starts its work (14_host_and_boot R391, 14_host_and_boot
R393, 14_host_and_boot R396, 15_power_and_clocks R431, 00_scope R3). Where a clause meets a point that the spec leaves
open, it states the model's choice (assumption log 39 and 42). -/
def Obligations.CommandsStart : Prop :=
  ∀ (s : State), hostReady s = true → hostBusy s = false →
    let cmd (opc : BitVec 8) : HostCmd :=
      { opc := opc, a0 := s.rd (argReg 0), a1 := s.rd (argReg 1), a2 := s.rd (argReg 2), a3 := s.rd (argReg 3),
        abort := false, dirty := false, lost := false }
    let started (opc : BitVec 8) (t : State) : Prop :=
      t.cmd = some (cmd opc) ∧ t.flag portReg 31 = true ∧ t.fld portReg 0 8 = opc.toNat ∧
        ((∀ q, q < 4 → (quad s q).borrow = none) → SameMemories s t)
    (accepts s (cmd 1) = true → goodArgs s (cmd 1) = true → ∃ t, exec .loadImage s = .next t ∧ started 1 t ∧
      t = { s with regs := t.regs, cmd := t.cmd }) ∧
    (accepts s (cmd 3) = true → goodArgs s (cmd 3) = true → ∃ t, exec .plotReset s = .next t ∧ started 3 t ∧
      (t.plot (s.rd (argReg 0)).toNat).resetting = some { origin := .command, service := s.opState == .service }) ∧
    (accepts s (cmd 4) = true → goodArgs s (cmd 4) = true → ∃ t, exec .granaryClear s = .next t ∧ started 4 t) ∧
    (accepts s (cmd 5) = true → goodArgs s (cmd 5) = true → ∃ t, exec .selfTest s = .next t ∧ started 5 t ∧
      t.opState = .test ∧ t.prevState = s.opState)

/-- SET_SERVICE, PLOT_DUMP, HOST_CMD_ABORT and the refusals of the port (14_host_and_boot R391, 14_host_and_boot R393,
14_host_and_boot R392, 14_host_and_boot R394, 00_scope R3, 00_scope R4). Where a clause meets a point that the spec
leaves open, it states the model's choice (assumption log 39 and 42). -/
def Obligations.ServiceAndDump : Prop :=
  ∀ (s : State), hostReady s = true →
    let arg (k : Nat) : Reg32 := s.rd (argReg k)
    (hostBusy s = false → s.opState = .recovery → (∀ k, k < 4 → arg k = 0) →
      (reacting s = false → ∃ t, exec .setService s = .next t ∧ t.opState = .service ∧ t.fld portReg 16 8 = 0 ∧
        t.flag portReg 31 = false ∧ t.flag portReg 30 = true ∧ SameMemories s t ∧ t.engines = s.engines) ∧
      (reacting s = true → ∃ t, exec .setService s = .next t ∧ t.opState = .recovery ∧ t.fld portReg 16 8 = 4 ∧
        t.flag portReg 31 = false ∧ SameMemories s t ∧ t.engines = s.engines)) ∧
    (hostBusy s = false → s.profile = .p0210 → s.opState = .service → (arg 0).toNat < 64 → (arg 1).toNat % 0x10000 = 0 →
      (arg 1).toNat < 0x4000000 → arg 2 = 0 → arg 3 = 0 → ∃ t, exec .plotDump s = .next t ∧ t.fld portReg 16 8 = 0 ∧
        t.flag portReg 31 = false ∧ t.flag portReg 30 = true ∧ t.rd (breg .bar4 0x1C) = 0 ∧ t.cmd = none) ∧
    (∀ (v : Reg32) (c : HostCmd), hostBusy s = true → s.cmd = some c → bit v 0 = true → (c.opc = 1 ∨ c.opc = 4 ∨ c.opc = 5) →
      exec (.hostCmdAbort v) s = .next { s with cmd := some { c with abort := true } }) ∧
    (hostBusy s = true → ∃ t, exec .setService s = .next t ∧ exec .loadImage s = .next t ∧ OnlyRegs [portReg] s t ∧
      t.flag portReg 29 = true ∧ t.fld portReg 8 8 = min 255 (s.fld portReg 8 8 + 1))

/-- How the long host commands and a plot reset end (14_host_and_boot R391, 14_host_and_boot R393, 14_host_and_boot
R395, 14_host_and_boot R396, 00_scope R3, 15_power_and_clocks R430, 15_power_and_clocks R431, 08_flow_and_deadlock
R249). Where a clause meets a point that the spec leaves open, it states the model's choice (assumption log 40, 42, 87
and 140). -/
def Obligations.LongCommandsEnd : Prop :=
  (∀ (s : State) (c : HostCmd), s.cmd = some c → hostBusy s = true →
    let ended (code : Nat) (t : State) : Prop :=
      t.flag portReg 31 = false ∧ t.flag portReg 30 = true ∧ t.fld portReg 16 8 = code ∧ t.cmd = none
    (∀ data : List Byte, c.opc = 1 → data.length ≤ c.a2.toNat →
      let kept (t : State) : Prop :=
        data.length % 8 = 0 → data.length ≤ 0x4000000 →
        (∀ w : BitVec 23, wbyte w < data.length →
          permitted s .host true w = true ∧ bankDark s w = false ∧ wordHeld s w = false ∧ wordBad s w = false) →
        (∀ a, t.byte a = (data[a]?).getD (s.byte a)) ∧ (∀ w, presOf t w = presOf s w) ∧ t.engines = s.engines
      (data.length = c.a2.toNat → ∃ t, exec (.loadImageComplete .done data) s = .next t ∧ ended 0 t ∧ kept t) ∧
      (∃ t, exec (.loadImageComplete .error data) s = .next t ∧ ended 6 t ∧ kept t ∧
        t.fld (breg .host 8) 0 16 = min 65535 (s.fld (breg .host 8) 0 16 + 1)) ∧
      (c.abort = true → ∃ t, exec (.loadImageComplete .aborted data) s = .next t ∧ ended 5 t ∧ kept t)) ∧
    (∀ units : BitVec 11, c.opc = 4 → c.abort = false → c.lost = false → s.banks = [] → c.a0.toNat + c.a1.toNat ≤ 1024 →
      s.stored →
      let hit (a : Nat) : Prop := 65536 * c.a0.toNat ≤ a ∧ a < 65536 * (c.a0.toNat + c.a1.toNat)
      (∀ x, x ∈ s.port0 → x.at_ ≠ s.time.now) → (∀ w : BitVec 23, hit (8 * w.toNat) → wordBad s w = false) →
      ∃ t, exec (.granaryClearComplete units) s = .next t ∧ ended 0 t ∧ t.rd (breg .bar4 0x1C) = 0 ∧
        (∀ a, hit a → t.byte a = 0) ∧ (∀ a, ¬ hit a → t.byte a = s.byte a) ∧ t.engines = s.engines ∧
        (∀ w : BitVec 23, hit (8 * w.toNat) → presOf t w = if presOf s w = pDeferred then pDeferred else pEmpty) ∧
        (∀ w : BitVec 23, ¬ hit (8 * w.toNat) → presOf t w = presOf s w)) ∧
    (∀ n : BitVec 7, c.opc = 5 → c.a0 = 0 → c.dirty = false → ∃ t, exec (.selfTestComplete n [] []) s = .next t ∧ ended 0 t ∧
      t.opState = s.prevState ∧ t.mem = s.mem ∧ t.pres = s.pres)) ∧
  (∀ (s : State) (p : PlotNo) (r : PlotReset), (s.plot p.val).resetting = some r → r.origin ≠ .quarantine →
    ∃ t, exec (.plotResetComplete p) s = .next t ∧
      (let x := s.plot p.val
       (runningAs s reQuarantine).any (fun k => k.2.2 == p) = false →
        t.plot p.val = { Plot.reset with
          epoch := curEpoch s, absent := x.absent, powered := x.powered
          pages0 := s.rd64 (breg .upk (0x1000 + 8 * p.val)), pages1 := s.rd64 (breg .upk (0x1200 + 8 * p.val)) }) ∧
      (∀ i, i < 17 → t.eng (17 * p.val + i) = Engine.reset) ∧
      (∀ e, e / 17 ≠ p.val → t.eng e = s.eng e) ∧ t.mem = s.mem ∧ t.pres = s.pres ∧ t.ucode = s.ucode ∧
      (r.origin = .command → t.fld portReg 16 8 = 0 ∧ t.flag portReg 31 = false ∧ t.flag portReg 30 = true))

/-- Register accesses: plain registers, reserved offsets, reserved values and the timeout (00_scope R6, 00_scope R8,
09_mesh_and_queues R275, 00_scope R9, 00_scope R10, 09_mesh_and_queues R276, 17_faults R456). Where a clause meets a
point that the spec leaves open, it states the model's choice (assumption log 7, 104, 105 and 115). -/
def Obligations.RegisterAccesses : Prop :=
  (∀ (s : State) (off : Nat) (r : RRow) (i : Nat) (v : Word), s.opState ≠ .off → off < 0x4000 → off % 4 = 0 → off ≠ 0x18 →
    findRow s.profile .mesh off = some (r, i) → r.pair = .none →
    let a := breg .mesh off
    let addr : BitVec 40 := BitVec.ofNat 40 a
    let t := plainWrite a r (v.extractLsb' 0 32) (noteAccess .mc s)
    exec (.registerWrite .mc addr 4 v) s = .next t ∧
    exec (.registerPathAccess .mc addr 4 (some v)) s = .next t ∧
    (∃ u, exec (.registerPathAccess .mc addr 4 none) s = .next u ∧ u.regs = s.regs ∧ SameMemories s u ∧
      SMap.get u.rdata (reqKey .mc) 0 = (s.rd a).setWidth 64)) ∧
  (∀ (s : State) (b : Blk) (off : Nat) (v : Word), (b = .dev ∨ b = .host) → off < 0x10000 → off % 4 = 0 →
    findRow s.profile b off = none → s.opState ≠ .off →
    let addr : BitVec 40 := BitVec.ofNat 40 (breg b off)
    let cnt := breg .dev 0x10
    let at_ := (noteAccess .mc s).pathAt
    let counted (t : State) : Prop := (t.rd cnt).toNat = min 0xFFFFFFFF ((s.rd cnt).toNat + 1) ∧ RegsBut [cnt] s t
    (∃ t, exec (.registerPathAccess .mc addr 4 none) s = .next t ∧ counted t ∧
      SMap.get t.rdata (reqKey .mc) 0 = 0 ∧ t = { s with regs := t.regs, rdata := t.rdata, pathAt := at_ }) ∧
    (∃ t, exec (.registerWrite .mc addr 4 v) s = .next t ∧ counted t ∧ t = { s with regs := t.regs, pathAt := at_ }) ∧
    (∃ t, exec (.registerPathAccess .mc addr 4 (some v)) s = .next t ∧ counted t ∧
      t = { s with regs := t.regs, pathAt := at_ })) ∧
  (∀ (s : State) (a : Nat) (r : RRow) (v : Reg32), a ≠ breg .dev 0x10 →
    (∀ f, f ∈ r.fields → f.lo + f.len ≤ 32 ∧ 0 < f.len) →
    r.fields.Pairwise (fun f g => f.lo + f.len ≤ g.lo ∨ g.lo + g.len ≤ f.lo) →
    let bad (f : RField) : Bool := f.acc == .rw && !f.ok.admits (bits v f.lo f.len).toNat
    let t := plainWrite a r v s
    (∀ f, f ∈ r.fields → f.acc = .rw →
      bits (t.rd a) f.lo f.len = if bad f then bits (s.rd a) f.lo f.len else bits v f.lo f.len) ∧
    (∀ f, f ∈ r.fields → f.acc = .ro → bits (t.rd a) f.lo f.len = bits (s.rd a) f.lo f.len) ∧
    (t.rd (breg .dev 0x10)).toNat = (if r.fields.any bad then min 0xFFFFFFFF ((s.rd (breg .dev 0x10)).toNat + 1)
      else (s.rd (breg .dev 0x10)).toNat) ∧ RegsBut [a, breg .dev 0x10] s t ∧ t = { s with regs := t.regs }) ∧
  (∀ (s : State) (req : Requester) (addr : BitVec 40), req = .host ∨ req = .mc ∨ req = .smbus → s.opState ≠ .off →
    s.fld (breg .mesh 0x24) 0 16 ≠ 0 → readOutstanding s req addr (1000 * s.fld (breg .mesh 0x24) 0 16) = true →
    (req = .smbus → addr = s.smb.ptr ∧ smbAnswers s = true) →
    ∃ t, exec (.rpathTimeout req addr) s = .next t ∧
      SMap.get t.rdata (reqKey req) 0 = (if req = .smbus then 0xFFFFFFFF else BitVec.allOnes 64) ∧
      t.smb = (if req = .smbus then { s.smb with timeout := true, ptr := s.smb.ptr + 4 } else s.smb) ∧
      t.fld (breg .mesh 0x28) 16 16 = min 65535 (s.fld (breg .mesh 0x28) 16 16 + 1) ∧
      t.fld (breg .mesh 0x28) 0 8 = (pathSite addr.toNat).toNat ∧ SameMemories s t ∧ t.engines = s.engines ∧
      (let site := pathSite addr.toNat
       let d : Detection := { Detection.bare 0x47 with
         locus := site.setWidth 16, a := addr.setWidth 64, plot := if site.toNat < 64 then some (plotNo site.toNat) else none }
       CollectorFree d s → RecordOpened d s t))

/-- Doorbells, link up and reset, D3hot and the pending MSI-X messages (14_host_and_boot R389, 11_dibber R324,
14_host_and_boot R385, 14_host_and_boot R386, 14_host_and_boot R390, 14_host_and_boot R409). Where a clause meets a
point that the spec leaves open, it states the model's choice (assumption log 9, 10, 20 and 43). -/
def Obligations.HostEventsAndDoorbells : Prop :=
  (∀ (s : State) (d : Fin 256) (v : Reg32), hostReady s = true →
    let n := 1408 + d.val
    let old := SMap.get s.dib.events n Event.none
    let a := breg .host (0x1000 + 4 * d.val)
    ∃ t, exec (.hostDb d v) s = .next t ∧ t.rd a = v ∧ RegsBut [a] s t ∧
      t = { s with regs := t.regs, dib := { s.dib with events := t.dib.events } } ∧
      SMap.get t.dib.events n Event.none =
        (if (routeOf s n).str || (routeOf s n).msi then
          { pend := true, count := if old.count = 0xFFFF then 0xFFFF else old.count + 1,
            stamp := if old.pend then old.stamp else bits s.time.now 0 32 }
         else old) ∧
      (∀ k, k ≠ n → SMap.get t.dib.events k Event.none = SMap.get s.dib.events k Event.none)) ∧
  (∀ (s : State), s.opState ≠ .off →
    (∀ (w : BitVec 4) (g : BitVec 3), (w = 1 ∨ w = 2 ∨ w = 4 ∨ w = 8) → 1 ≤ g.toNat → g.toNat ≤ 4 →
      scanDrives s = false → bootStep s ≠ 0 → ∃ t, exec (.hostLinkUp w g) s = .next t ∧ OnlyRegs [breg .host 0] s t ∧
        t.flag (breg .host 0) 31 = true ∧ t.fld (breg .host 0) 16 4 = w.toNat ∧ t.fld (breg .host 0) 8 4 = g.toNat) ∧
    exec .d3hotEntry s = .next { s with host := { s.host with d3 := true } } ∧
    (∀ down : Bool, ∃ t, exec (.hostLinkReset down) s = .next t ∧ t.host.pba = [] ∧ t.host.d3 = false ∧
      t.lck = { s.lck with notices := s.lck.notices ++ [{ who := .host, dev := none, service := s.opState == .service }] } ∧
      t.fld (breg .host 0) 0 8 = min 255 (s.fld (breg .host 0) 0 8 + 1) ∧ SameMemories s t ∧ t.engines = s.engines ∧
      t.plots = s.plots ∧ t.opState = s.opState ∧ (down = true → t.flag (breg .host 0) 31 = false) ∧
      (∀ c, s.cmd = some c → c.opc ≠ 1 → t.cmd = some { c with lost := true } ∧ t.flag portReg 31 = s.flag portReg 31) ∧
      (∀ c, s.cmd = some c → c.opc = 1 → t.cmd = none ∧ t.flag portReg 31 = false ∧ t.fld portReg 16 8 = 5)) ∧
    (∃ t, exec .msixPendingSend s = .next t ∧ t = { s with host := { s.host with pba := t.host.pba, msgs := t.host.msgs } } ∧
      ((∀ v, v ∈ s.host.pba → vectorOpen s v = false) → t = s) ∧
      (s.host.pba.Nodup → (∀ v, v ∈ s.host.pba → vectorOpen s v = true) → t.host.pba = [] ∧
        t.host.msgs = s.host.msgs ++ s.host.pba.map (fun v =>
          (s.rd (breg .bar4 (0x8004 + 16 * v.toNat)) ++ s.rd (breg .bar4 (0x8000 + 16 * v.toNat)),
            s.rd (breg .bar4 (0x8008 + 16 * v.toNat)))))))

/-- The requests of the MC mailbox complete with their status and results (14_host_and_boot R398, 13_runner_fabric R371,
12_locks R348). Where a clause meets a point that the spec leaves open, it states the model's choice (assumption log
44). -/
def Obligations.MailboxRequests : Prop :=
  ∀ (s : State), hostReady s = true →
    let mbx := breg .mc 0
    let asked (req : Nat) : Prop := mbxBusy s = false ∨ s.fld mbx 0 8 = req
    let done (req status : Nat) (t : State) : Prop :=
      t.flag mbx 31 = false ∧ t.flag mbx 30 = true ∧ t.fld mbx 0 8 = req ∧ t.fld mbx 16 8 = status ∧
        t.opState = s.opState ∧ t.mem = s.mem
    let res (t : State) (k : Nat) : Reg32 := t.rd (breg .mc (0x30 + 4 * k))
    (asked 0x01 → ∃ t, exec .version s = .next t ∧ done 0x01 0 t ∧ res t 0 = s.mcVersion ∧ t.fabric = s.fabric) ∧
    (asked 0x11 → s.fabric.responses = [] → ∃ t, exec .mgmtGet s = .next t ∧ done 0x11 5 t ∧ t.fabric = s.fabric) ∧
    (∀ r rs, asked 0x11 → s.fabric.responses = r :: rs → ∃ t, exec .mgmtGet s = .next t ∧ done 0x11 0 t ∧
      t.fabric = { s.fabric with responses := rs } ∧ bits (res t 0) 0 4 = r.mop ∧ bits (res t 0) 16 8 = r.tag ∧
      bits (res t 0) 24 8 = r.status ∧ bits (res t 0) 4 4 = (if r.timeout then 1 else 0) ∧ res t 1 = r.off.setWidth 32 ∧
      res t 3 ++ res t 2 = r.data) ∧
    (asked 0x10 → s.flag (breg .run 0) 31 = false → ∃ t, exec .mgmtPost s = .next t ∧ done 0x10 3 t ∧ t.fabric = s.fabric) ∧
    (let p := postPayload s
     asked 0x10 → s.flag (breg .run 0) 31 = true → (mgBad p = true ∨ mgRequest p = false) →
      ∃ t, exec .mgmtPost s = .next t ∧ done 0x10 2 t ∧ t.fabric = s.fabric) ∧
    (let p := postPayload s
     asked 0x10 → s.flag (breg .run 0) 31 = true → mgBad p = false → mgRequest p = true → mgOp p ≠ 4 →
      s.fabric.out.any (fun o => o.tag == mgTag p) = false → s.fabric.out.length < 16 →
      linkState s (mgPath p 0).toNat = lsActive → ∃ t, exec .mgmtPost s = .next t ∧ done 0x10 0 t ∧
        t.fabric.out = s.fabric.out ++ [{ tag := mgTag p, mop := mgOp p, at_ := s.time.now }]) ∧
    (let n := (bits (mbxArg s 0) 0 12).toNat
     let x := s.lock n
     let forced (t : State) : Nat := t.fld (breg .lck 0x10) 16 16
     asked 0x20 → forceWaits s = false → s.lck.notices = [] → ∃ t, exec .lockForce s = .next t ∧ done 0x20 0 t ∧
      (x.state = .free → res t 0 = 0x0F ∧ t.lck.locks = s.lck.locks ∧ forced t = forced s) ∧
      (x.state ≠ .free → res t 0 = 6 ∧ t.lock n = (passedLock (BitVec.ofNat 12 n) true x).1 ∧
        forced t = min 65535 (forced s + 1)) ∧
      ∀ k, k ≠ n → t.lock k = s.lock k) ∧
    (mbxBusy s = false → forceWaits s = true → ∃ t, exec .lockForce s = .next t ∧ OnlyRegs [mbx] s t ∧
      t.flag mbx 31 = true ∧ t.fld mbx 0 8 = 0x20) ∧
    (mbxBusy s = true → s.fld mbx 0 8 ≠ 0x01 → exec .version s = .next (s.setFlag mbx 29 true))

/-- A BAR2 write of a whole word is a KEEP, and a read is a PEEK (14_host_and_boot R387, 10_granary R288, 10_granary
R287, 10_granary R293). Where a clause meets a point that the spec leaves open, it states the model's choice (assumption
log 7, 86 and 139). -/
def Obligations.Bar2Reaches : Prop :=
  ∀ (s : State) (w : BitVec 23) (v : Word), hostReady s = true →
    wordHeld s w = false → permitted s .host true w = true → permitted s .host false w = true →
    bankDark s w = false → wordBad s w = false → s.mark (8 * w.toNat) = .clean → portQueued s w = false →
    let off : BitVec 26 := BitVec.ofNat 26 (8 * w.toNat)
    (∃ t, exec (.bar2Access off 0 (some (wordBytes v 8))) s = .next t ∧ t.load (8 * w.toNat) 8 = v ∧
      (∀ u, presOf t u = presOf s u) ∧ (∀ a, (a < 8 * w.toNat ∨ 8 * w.toNat + 8 ≤ a) → t.byte a = s.byte a) ∧ t.engines = s.engines) ∧
    (∃ t, exec (.bar2Access off 8 none) s = .next t ∧ t.host.poisoned = false ∧
      t.host.reply = (List.range 8).map (fun i => s.byte (8 * w.toNat + i)) ∧ t.mem = s.mem ∧ t.pres = s.pres)

/-- Every command but a register access completes, and where a register access stops (01_architecture R22, 17_faults
R470, 95_what_each_step_holds). Where a clause meets a point that the spec leaves open, it states the model's choice
(assumption log 45 and 146). -/
def Obligations.WhereCommandsStop : Prop :=
  (∀ (s : State) (addr : BitVec 40) (n : BitVec 4) (v : Word) (wr : Option Word), s.opState ≠ .off → 0 < n.toNat → n.toNat ≤ 8 →
    (place addr.toNat = .unmapped → exec (.registerWrite .mc addr n v) s = .fault (.unmappedAddress addr) ∧
      exec (.registerPathAccess .mc addr n wr) s = .fault (.unmappedAddress addr)) ∧
    (place addr.toNat = .test → s.testMode = true →
      (∃ t, exec (.registerWrite .mc addr n v) s = .next t ∧ t = { s with pathAt := t.pathAt }) ∧
      (∃ t, exec (.registerPathAccess .mc addr n none) s = .next t ∧ SMap.get t.rdata (reqKey .mc) 0 = Config.freeValue s.free ∧
        t = { s with pathAt := t.pathAt, rdata := t.rdata, free := s.free + 1 }))) ∧
  (∀ (c : Instr) (s : State),
    (match c with
     | .registerWrite _ _ _ _ => True
     | .registerPathAccess _ _ _ _ => True
     | _ => ∃ t, exec c s = .next t) ∧
    (∀ r, exec c s ≠ .refused r) ∧ (∀ f, exec c s = .fault f → ∃ a, f = .unmappedAddress a))

/-- The SMBus port, the TAP's instructions and the lands under boundary scan (18_pins_package_test R484,
18_pins_package_test R485, 18_pins_package_test R487, 18_pins_package_test R488, 18_pins_package_test R489,
18_pins_package_test R477). Where a clause meets a point that the spec leaves open, it states the model's choice
(assumption log 7, 46, 47, 146 and 147). -/
def Obligations.SmbusAndTap : Prop :=
  ∀ (s : State),
    (smbAnswers s = true →
      (∀ addr, exec (.smbAddr addr true) s = .next { s with smb := { s.smb with ptr := addr } } ∧
        exec (.smbAddr addr false) s = .next { s with smb := { s.smb with pec := true } }) ∧
      (∃ t, exec .smbRead s = .next t ∧
        (reachesPlace .smbus (place s.smb.ptr.toNat) = true → t.smb = { s.smb with ptr := s.smb.ptr + 4 }) ∧
        (reachesPlace .smbus (place s.smb.ptr.toNat) = false →
          t.smb = { s.smb with refused := true } ∧ SMap.get t.rdata (reqKey .smbus) 0 = 0 ∧
          t = { s with smb := t.smb, rdata := t.rdata, pathAt := t.pathAt })) ∧
      (∃ t, exec .smbStatus s = .next t ∧ t = { s with smb := { s.smb with refused := false, pec := false, timeout := false }, rdata := t.rdata } ∧
        SMap.get t.rdata (reqKey .smbus) 0 =
          (if s.smb.refused then 1 else 0) + (if s.smb.pec then 2 else 0) + (if s.smb.timeout then 4 else 0))) ∧
    (scanDrives s = false →
      let loaded (i : ScanInstr) : Tap := { s.tap with instr := i, irOut := 1 }
      let scanned (i : ScanInstr) (tdi lands : BitVec 250) : Tap :=
        { instr := i, cells := shiftOrder tdi, captured := captured lands s, tdo := shiftOrder (captured lands s), irOut := 1 }
      let passed (tdi : BitVec 250) : Tap := { loaded .bypass with tdo := tdi <<< 1 }
      (exec .tapReset s = .next { s with tap := { s.tap with instr := .idcode } } ∧
        exec .idcode s = .next { s with tap := { loaded .idcode with
          tdo := ((0x2 : BitVec 4) ++ (0x1024 : BitVec 16) ++ Config.jep106 ++ (1 : BitVec 1)).setWidth 250 } } ∧
        exec .bypass s = .next { s with tap := loaded .bypass } ∧ (∀ code : BitVec 8, 7 ≤ code.toNat → codeScan code = .bypass) ∧
        ∀ tdi lands, exec (.samplePreload tdi lands) s = .next { s with tap := scanned .sample tdi lands }) ∧
      (scanAllowed s = false →
        exec .highz s = .next { s with tap := loaded .bypass } ∧ exec .clamp s = .next { s with tap := loaded .bypass } ∧
        ∀ lands, (∀ c ∈ [Instr.extest ⟨none, lands⟩, .extestPulse ⟨none, lands⟩, .extestTrain ⟨none, lands⟩],
            exec c s = .next { s with tap := loaded .bypass }) ∧
          ∀ tdi, ∀ c ∈ [Instr.extest ⟨some tdi, lands⟩, .extestPulse ⟨some tdi, lands⟩, .extestTrain ⟨some tdi, lands⟩],
            exec c s = .next { s with tap := passed tdi }) ∧
      (scanAllowed s = true →
        let forced (i : ScanInstr) (t : State) : Prop :=
          t.tap.instr = i ∧ t.tap.irOut = 1 ∧ t.flag (breg .host 0) 31 = false ∧ ∀ n, n < 8 → linkState t n = lsDisabled
        let cells (t : State) : Prop :=
          (faultLow t = bit t.tap.cells 3) ∧
          (∀ n, n < 32 → evoutLand t n =
            if bit t.tap.cells (70 + 3 * n) then (if bit t.tap.cells (69 + 3 * n) then .high else .low) else .z) ∧
          (∀ i, i < 2 → smbLow t i = bit t.tap.cells (165 + 2 * i))
        let scan (i : ScanInstr) (c : LandScan → Instr) : Prop :=
          ∀ lands, (∃ t, exec (c ⟨none, lands⟩) s = .next t ∧ forced i t ∧ cells t ∧ t.tap = loaded i) ∧
            ∀ tdi, ∃ t, exec (c ⟨some tdi, lands⟩) s = .next t ∧ forced i t ∧ cells t ∧ t.tap.cells = shiftOrder tdi ∧
              t.tap.tdo = shiftOrder t.tap.captured ∧
              ∀ n, n < 32 → bit t.tap.captured (71 + 3 * n) =
                if bit s.tap.cells (70 + 3 * n) then bit s.tap.cells (69 + 3 * n) else bit lands (71 + 3 * n)
        scan .extest .extest ∧ scan .extestPulse .extestPulse ∧ scan .extestTrain .extestTrain ∧
        (∃ t, exec .clamp s = .next t ∧ forced .clamp t ∧ cells t ∧ t.tap = loaded .clamp) ∧
        (∃ t, exec .highz s = .next t ∧ forced .highz t ∧ t.tap = loaded .highz ∧ faultLow t = false ∧
          (∀ n, evoutLand t n = .z) ∧ ∀ n, n < 32 → ∀ l, l < 4 → runDrive t n l = .z)))

/-- The set index under each profile (R58, R59). -/
def Obligations.SetIndexOfTokens : Prop :=
  ∀ (s : State) (e : EngNo) (f : Flit) (rest : List Flit) (sh : Shape), TokenAccepted s e f rest sh →
    let node := tagNode f.tag
    let ctx := tagCtx f.tag
    let word := nodeWord s e.val node
    let iter : BitVec 12 := if bit word 51 then 0 else tagIter f.tag
    let lo {n : Nat} (v : BitVec n) : BitVec 10 := v.extractLsb' 0 10
    ∃ t h, exec (.tokenIn e .clean) s = .next t ∧ (t.eng e.val).hash = some h ∧
      (s.profile ≠ .p0100 → h.set = lo node ^^^ (lo iter).rotateLeft 5 ^^^ lo ctx ^^^
        (ctx.extractLsb' 10 6 ++ node.extractLsb' 10 2 ++ iter.extractLsb' 10 2) ^^^
        (s.rd (ereg e.val 0x14)).extractLsb' 0 10) ∧
      (s.profile = .p0100 → h.set = lo node ^^^ lo iter ^^^ lo ctx)

/-- IN takes a token and HASH reads its node word, or intake discards it (03_engine R55, 03_engine R56, 03_engine R57,
02_tokens R52, 04_node_instructions R94, 17_faults R456). Where a clause meets a point that the spec leaves open, it
states the model's choice (assumption log 72 and 92). -/
def Obligations.TokenIntake : Prop :=
  ∀ (s : State) (e : EngNo) (f : Flit) (rest : List Flit),
    (∀ sh, TokenAccepted s e f rest sh → ∃ t, exec (.tokenIn e .clean) s = .next t ∧ OnlyEngine e s t ∧
      t.eng e.val = { s.eng e.val with
        inP3 := rest
        hash := some { tok := { flit := f, refill := none }, word := nodeWord s e.val (tagNode f.tag)
                       comp := s.load (imemBase e.val + 8 * (((tagNode f.tag).toNat + 1) % 4096)) 8
                       set := setOf s e.val (tagNode f.tag) (tagCtx f.tag)
                         (if nwSticky (nodeWord s e.val (tagNode f.tag)) then 0 else tagIter f.tag) } }) ∧
    (TokenWaits s e f rest →
      let d (code : BitVec 8) : Detection := tokenDetect code e f 0
      let gone (code : BitVec 8) : Prop := ∃ t, exec (.tokenIn e .clean) s = .next t ∧
        t.eng e.val = { s.eng e.val with inP3 := rest } ∧ SameMemories s t ∧ (CollectorFree (d code) s → RecordOpened (d code) s t)
      (f.poison = true → gone 0x14) ∧
      (f.poison = false → (tagPort f.tag = 3 ∨ tagCtx f.tag = 0xFFFF) → gone 0x12) ∧
      (f.poison = false → tagPort f.tag ≠ 3 → tagCtx f.tag ≠ 0xFFFF → ctxAllocated s (e.val / 17) (tagCtx f.tag) = false →
        gone 0x13))

/-- A bypass token fires at once; a miss in an empty set becomes an operand entry; MATCH holds its token while a fire waits
(03_engine R54, 03_engine R61, 03_engine R62,
03_engine R64, 04_node_instructions R93, 16_upkeep R445). Where a clause meets a point that the spec leaves open, it
states the model's choice (assumption log 75). -/
def Obligations.MatchMissAndBypass : Prop :=
  ∀ (s : State) (e : EngNo) (h : HashTok) (sh : Shape),
    let x := s.eng e.val
    let f := h.tok.flit
    let key := keyOf h.word (tagNode f.tag) (tagCtx f.tag) (tagIter f.tag)
    x.hash = some h → nodeShape s e.val (nwOpc h.word).toNat = some sh →
    (∀ w, w < 4 → enV (wayAt x h.set.toNat w) = false) → x.p3ovf = [] → h.tok.refill = none → spillLevel x ≤ 8 →
    (isBypass sh h.word = true → x.fire = none → ∃ t g, exec (.matchToken e .clean) s = .next t ∧
      (t.eng e.val).fire = some g ∧ (t.eng e.val).hash = none ∧ (t.eng e.val).ms = x.ms ∧ g.l = f.data ∧
      g.r = (if nwConst h.word then h.comp else 0) ∧ g.ctx = tagCtx f.tag ∧ g.iter = tagIter f.tag ∧ g.pri = f.pri ∧
      g.node = tagNode f.tag ∧ g.word = h.word ∧ SameMemories s t ∧ (∀ k, k ≠ e.val → t.eng k = s.eng k)) ∧
    (isBypass sh h.word = false → x.fire = none → spillCount x h.set = 0 → portBit (tagPort f.tag) ≠ matchPorts sh h.word →
      (tagPort f.tag = 0 ∨ (tagPort f.tag = 1 ∧ nwSticky h.word = false)) → ∃ t, exec (.matchToken e .clean) s = .next t ∧
      (t.eng e.val).hash = none ∧ (t.eng e.val).fire = none ∧ t.mem = s.mem ∧
      wayAt (t.eng e.val) h.set.toNat 0 =
        mkEntry 0 (portBit (tagPort f.tag)) f.pri f.epoch (tagPort f.tag == 1) key f.data ∧
      (∀ i, i ≠ 4 * h.set.toNat → SMap.get (t.eng e.val).ms i 0 = SMap.get x.ms i 0 ∨ i / 4 = h.set.toNat) ∧
      (∀ k, k ≠ e.val → t.eng k = s.eng k)) ∧
    (x.fire.isSome = true → ∃ t, exec (.matchToken e .clean) s = .next t ∧ t.eng e.val = x ∧ t.regs = s.regs ∧
      SameMemories s t ∧ (∀ k, k ≠ e.val → t.eng k = s.eng k))

/-- The last matching port fires the node with both data; a duplicate is discarded, counted and recorded (03_engine R62,
03_engine R73, 04_node_instructions R93, 03_engine R65, 17_faults R455). Where a clause meets a point that the spec
leaves open, it states the model's choice (assumption log 74 and 93). -/
def Obligations.MatchHitsAndDuplicates : Prop :=
  (∀ (s : State) (e : EngNo) (h : HashTok) (n : Entry) (w : Nat),
    let x := s.eng e.val
    let f := h.tok.flit
    let key := keyOf h.word (tagNode f.tag) (tagCtx f.tag) (tagIter f.tag)
    let set := h.set.toNat
    x.hash = some h → nodeShape s e.val (nwOpc h.word).toNat = some .lr → nwConst h.word = false →
    nwSticky h.word = false → nwTrig h.word = false → x.fire = none → h.tok.refill = none →
    (∀ k, k < 4 → wayMark s e.val set k = .clean) →
    findKey x set key [] = some { primary := n, companion := none, way := some w, inOvf := false, returned := false } →
    (tagPort f.tag = 0 ∧ enPorts n = 2 ∧ enDport n = true ∨ tagPort f.tag = 1 ∧ enPorts n = 4 ∧ enDport n = false) →
    ∃ t g, exec (.matchToken e .clean) s = .next t ∧ (t.eng e.val).fire = some g ∧ (t.eng e.val).hash = none ∧
      g.l = (if tagPort f.tag = 0 then f.data else enData n) ∧ g.r = (if tagPort f.tag = 0 then enData n else f.data) ∧
      g.ctx = tagCtx f.tag ∧ g.iter = tagIter f.tag ∧ g.node = tagNode f.tag ∧ g.word = h.word ∧
      g.pri = maxPri f.pri (enPri n) ∧ findKey (t.eng e.val) set key [] = none ∧ t.mem = s.mem ∧
      (x.mixed.contains key = true ∨ enEpoch n ≠ f.epoch → g.mset = (s.plot (e.val / 17)).epoch) ∧
      (∀ k, k ≠ e.val → t.eng k = s.eng k)) ∧
  (∀ (s : State) (e : EngNo) (h : HashTok) (sh : Shape) (r : Found),
    let x := s.eng e.val
    let f := h.tok.flit
    let key := keyOf h.word (tagNode f.tag) (tagCtx f.tag) (tagIter f.tag)
    let set := h.set.toNat
    x.hash = some h → nodeShape s e.val (nwOpc h.word).toNat = some sh → isBypass sh h.word = false → x.fire = none →
    ¬ (tagPort f.tag = 1 ∧ nwSticky h.word = true) → (∀ k, k < 4 → wayMark s e.val set k = .clean) → h.tok.refill = none →
    findKey x set key [] = some r → r.returned = false → enPorts r.primary &&& portBit (tagPort f.tag) ≠ 0 →
    ∃ t, exec (.matchToken e .clean) s = .next t ∧ t.eng e.val = { x with hash := none } ∧
      t.fld (ereg e.val 0x40) 16 8 = min 255 (s.fld (ereg e.val 0x40) 16 8 + 1) ∧ t.flag (ereg e.val 8) 10 = true ∧
      t.mem = s.mem ∧ t.pres = s.pres ∧ (∀ k, k ≠ e.val → t.eng k = s.eng k) ∧
      (let d := tokenDetect 0x09 e f (msLocus set (r.way.getD 0))
       CollectorFree d s → RecordOpened d s t))

/-- A fire that can enter EXEC does when nothing else asks, EMIT stamps a result's token into its lane, and an operation
that has completed raises its flags (03_engine R73, 03_engine R74, 03_engine R81, 03_engine R76, 03_engine R78,
02_tokens R30, 02_tokens R33, 02_tokens R35, 06_arithmetic R185, 06_arithmetic R186, 06_arithmetic R187). Where a clause
meets a point that the spec leaves open, it states the model's choice (assumption log 32, 95 and 118). -/
def Obligations.FireAndEmit : Prop :=
  (∀ (s : State) (e : EngNo) (f : Fire),
    let x := s.eng e.val
    inService s e.val = true → x.fire = some f → x.strand = none → x.standby = none → x.seqr = none → x.raises = [] →
    fireReady (s.modEng e.val (fun x => { x with cycle := x.cycle + 1, dueAt := none }))
      e.val (x.cycle + 1) f = true →
    let c := x.cycle + 1
    let o := (nwOpc f.word).toNat
    let lam := latencyOf s.profile o f.ftz f.l f.r
    let holds (u : ExecUnit) : Prop := f.closed = false ∧ o < 0xE0 ∧ unitOfOpc o = u
    ∃ t, exec (.execIssue e) s = .next t ∧ (t.eng e.val).exec = some { f with issued := c } ∧ (t.eng e.val).fire = none ∧
      (t.eng e.val).cycle = c ∧ t.rd64 (ereg e.val 0x30) = s.rd64 (ereg e.val 0x30) + 1 ∧
      (holds .div → (t.eng e.val).divFree = c + lam) ∧ (¬ holds .div → (t.eng e.val).divFree = x.divFree) ∧
      (holds .mul → (t.eng e.val).mulAt = some c) ∧ (¬ holds .mul → (t.eng e.val).mulAt = x.mulAt) ∧
      (holds .micro → (t.eng e.val).fmaFree = c + lam ∧ (t.eng e.val).seqFree = c + lam) ∧
      (¬ holds .micro → (t.eng e.val).fmaFree = x.fmaFree ∧ (t.eng e.val).seqFree = x.seqFree) ∧
      (∀ g, holds .b64iter → x.b64grant = some g → (t.plot (e.val / 17)).b64iter = g.cycle + 1 + lam - 4) ∧
      (¬ holds .b64iter → t.plots = s.plots) ∧ (t.eng e.val).b64grant = none ∧
      t = { s with engines := t.engines, regs := t.regs, plots := t.plots } ∧
      RegsBut [ereg e.val 0x30, ereg e.val 0x34] s t ∧
      (∀ k, k ≠ e.val → t.eng k = s.eng k) ∧ (∀ k, k ≠ e.val / 17 → t.plot k = s.plot k)) ∧
  (∀ (s : State) (e : EngNo) (r : Result) (kind : BitVec 4) (pri : BitVec 2) (tag data : BitVec 64),
    let x := s.eng e.val
    let pl := s.plot (e.val / 17)
    x.results = [r] → r.due ≤ x.cycle → r.toks = [proto1 kind pri tag data] → x.holdP3 = [] → x.holdMain = [] →
    x.outP3 = [] → x.outMain = [] → s.flag (ereg e.val 4) 2 = true → malformed s (proto1 kind pri tag data) = false →
    let f := mkToken kind (emitPri kind pri) pl.epoch x.seq tag data
    ∃ t, exec (.emitResult e) s = .next t ∧ OnlyEngine e s t ∧
      t.eng e.val = { x with
        results := [], seq := x.seq + 1, bufHeld := []
        outP3 := if emitPri kind pri = 3 then [(pl.xcycle, f)] else []
        outMain := if emitPri kind pri = 3 then [] else [(pl.xcycle, f)] }) ∧
  (∀ (s : State) (e : EngNo) (k : Raise),
    let x := s.eng e.val
    let fpx := s.rd (ereg e.val 0x80)
    inService s e.val = true → x.raises = [k] → k.due ≤ x.cycle → k.origin ≠ .buffer → x.strand = none →
    ∃ t, exec (.execIssue e) s = .next t ∧ (t.eng e.val).raises = [] ∧
      (t.rd (ereg e.val 0x80)).extractLsb' 0 6 = fpx.extractLsb' 0 6 ||| k.flags ∧
      (t.rd (ereg e.val 0x80)).extractLsb' 6 24 = fpx.extractLsb' 6 24 ∧
      t.flag (ereg e.val 0x80) 30 =
        (fpx.getLsbD 30 || (k.pend && decide (k.flags.extractLsb' 0 5 &&& fpx.extractLsb' 8 5 ≠ 0))) ∧
      t.flag (ereg e.val 0x84) 31 =
        (s.flag (ereg e.val 0x84) 31 || decide (k.flags &&& fpx.extractLsb' 16 6 ≠ 0)) ∧
      SameMemories s t ∧ (∀ j, j ≠ e.val → t.eng j = s.eng j))

/-- The crossbar carries a token to its engine's input lane (09_mesh_and_queues R263, 03_engine R55,
08_flow_and_deadlock R227). Where a clause meets a point that the spec leaves open, it states the model's choice
(assumption log 103). -/
def Obligations.CrossbarMovesOneHead : Prop :=
  ∀ (s : State) (p : PlotNo) (h : XHead),
    s.sieve.diverged = [] → (s.plot p.val).windows = [] → (s.plot p.val).holdIn = [] → xheads s p.val = [h] →
    h.inp < 17 → h.out < 17 → h.inp ≠ h.out → h.main = true → h.flit.kind = kOperand →
    holdAt s (holdXbar p.val h.out h.chan) = none →
    ∃ t, exec (.crossbarTransfer p) s = .next t ∧ (t.plot p.val).xcycle = (s.plot p.val).xcycle + 1 ∧
      t.eng (17 * p.val + h.inp) =
        { s.eng (17 * p.val + h.inp) with outMain := (s.eng (17 * p.val + h.inp)).outMain.drop 1 } ∧
      t.eng (17 * p.val + h.out) = toInput h.flit (s.eng (17 * p.val + h.out)) ∧
      (∀ k, k ≠ 17 * p.val + h.inp → k ≠ 17 * p.val + h.out → t.eng k = s.eng k) ∧ SameMemories s t ∧ t.regs = s.regs

/-- Acknowledgements and sheaves reach the engine (03_engine R56, 04_node_instructions R111, 05_strands R149, 10_granary
R298, 02_tokens R52, 05_strands R144). -/
def Obligations.EngineIntakes : Prop :=
  ∀ (s : State) (e : EngNo) (f : Flit) (fs : List Flit),
    let x := s.eng e.val
    (x.acks = f :: fs → f.poison = false → badAck f.tag = false → x.fences = [] → ∃ t, exec (.grnAckIntake e) s = .next t ∧ OnlyEngine e s t ∧
      t.eng e.val = { x with acks := fs, acnt := x.acnt + 1 }) ∧
    (x.acks = f :: fs → f.poison = true → ∃ t, exec (.grnAckIntake e) s = .next t ∧ t.eng e.val = { x with acks := fs } ∧
      SameMemories s t ∧ (let d := tokenDetect 0x14 e f 0
        CollectorFree d s → RecordOpened d s t)) ∧
    (x.acks = f :: fs → f.poison = false → (tagSpace f.tag ≠ 0 ∨ 2 < (tagOp f.tag).toNat) →
      ∃ t, exec (.grnAckIntake e) s = .next t ∧ t.eng e.val = { x with acks := fs } ∧ SameMemories s t ∧
        (let d := tokenDetect 0x12 e f 0
         CollectorFree d s → RecordOpened d s t)) ∧
    (∀ (g : Flit) (rsp : Bool), takePacket (if rsp then x.sheafIn else x.sheafReq) = ([f, g], fs) →
      (rsp = false → (takePacket x.sheafIn).1 = []) → sheafBroken [f, g] = false → f.poison = false → g.poison = false →
      badSheafRsp s f [g] = false → tagSpace f.tag = 1 → 8 * (tagAddr f.tag).toNat + 16 ≤ 0x8000 → x.sheafWr = [] →
      x.sheafTurn.map (·.1) ≠ some x.cycle → strandWants s e false = false → x.resv = none →
      let a := frameBase e.val + 8 * (tagAddr f.tag).toNat
      ∃ t, exec (.sheafRspWrite e) s = .next t ∧
        t.eng e.val = { x with
          sheafIn := if rsp then fs else x.sheafIn, sheafReq := if rsp then x.sheafReq else fs
          sheafWait := 0, sheafTurn := some (x.cycle, true) } ∧
        t.load a 8 = bits g.payload 0 64 ∧ t.load (a + 8) 8 = bits g.payload 64 64 ∧
        (∀ b, (b < a ∨ a + 16 ≤ b) → t.byte b = s.byte b) ∧
        (∀ k, k ≠ e.val → t.eng k = s.eng k) ∧ t.regs = s.regs ∧ t.pres = s.pres) ∧
    (∀ (w : SheafWord) (ws : List SheafWord), x.sheafWr = w :: ws → x.sheafTurn.map (·.1) ≠ some x.cycle →
      w.off + 16 ≤ 0x8000 →
      let wants := strandWants s e w.imem
      let a := (if w.imem then imemBase e.val else frameBase e.val) + w.off
      let waited : Engine := { x with sheafWait := x.sheafWait + 1, sheafTurn := some (x.cycle, false) }
      (wants = true → (w.imem = true ∨ x.sheafWait < 4 ∨ portBegun x = true) →
        ∃ t, exec (.sheafRspWrite e) s = .next t ∧ OnlyEngine e s t ∧ t.eng e.val = waited) ∧
      ((wants = false ∨ (w.imem = false ∧ 4 ≤ x.sheafWait ∧ portBegun x = false)) → w.off % 8 = 0 →
        ∃ t, exec (.sheafRspWrite e) s = .next t ∧ t.load a 8 = bits w.payload 0 64 ∧ t.load (a + 8) 8 = bits w.payload 64 64 ∧
          (∀ b, (b < a ∨ a + 16 ≤ b) → t.byte b = s.byte b) ∧ (∀ k, k ≠ e.val → t.eng k = s.eng k) ∧
          (t.eng e.val).sheafWr = ws ∧ (t.eng e.val).sheafWait = 0 ∧
          (t.eng e.val).sheafTurn = some (x.cycle, !w.imem) ∧
          (t.eng e.val).resv = (if w.imem = false ∧
            x.resv.any (fun g => decide (w.off / 64 ≤ g.toNat ∧ g.toNat ≤ (w.off + 15) / 64)) = true then none else x.resv) ∧
          t.regs = s.regs ∧ t.pres = s.pres))

/-- The engine registers with writes of their own, and the matching-store window (03_engine R81, 03_engine R82,
03_engine R83, 03_engine R84, 01_architecture R17, 00_scope R10). Where a clause meets a point that the spec leaves
open, it states the model's choice (assumption log 94). -/
def Obligations.EngineRegisterWrites : Prop :=
  ∀ (s : State) (e : EngNo) (req : Requester) (v : Reg32), reaches s req e.val = true → unserved req s = false →
    let x := s.eng e.val
    let rsvd : Nat := breg .dev 0x10
    (s.sieve.diverged = [] →
      let new : Reg32 := if s.opState = .boot then (v &&& 7) ||| 3 else v &&& 7
      ∃ t, exec (.engCtrlWrite req e v) s = .next t ∧ t.rd (ereg e.val 4) = new ∧
      RegsBut [ereg e.val 4] s t ∧ t = { s with regs := t.regs, plots := t.plots } ∧
      (∀ k, k ≠ e.val / 17 → t.plot k = s.plot k) ∧
      (t.plot (e.val / 17)).notices = (s.plot (e.val / 17)).notices ++
        (if bit new 1 = s.flag (ereg e.val 4) 1 then [] else (logicalOf s e.val).toList.map (fun l => .halt l (bit new 1)))) ∧
    (bits v 0 8 ≠ 0 → ∃ t, exec (.engArbWrite req e v) s = .next t ∧ t.rd (ereg e.val 0x10) = v &&& 0x1FFF ∧
      OnlyRegs [ereg e.val 0x10] s t) ∧
    (bits v 0 8 = 0 → ∃ t, exec (.engArbWrite req e v) s = .next t ∧ t.fld (ereg e.val 0x10) 8 5 = (bits v 8 5).toNat ∧
      t.fld (ereg e.val 0x10) 0 8 = s.fld (ereg e.val 0x10) 0 8 ∧
      (t.rd rsvd).toNat = min 0xFFFFFFFF ((s.rd rsvd).toNat + 1) ∧ OnlyRegs [ereg e.val 0x10, rsvd] s t) ∧
    (quiet s e.val = true → msTotal x = 0 → x.p3ovf = [] → x.spillCnt = [] →
      ∃ t, exec (.engMatchCfgWrite req e v) s = .next t ∧ t.rd (ereg e.val 0x14) = v &&& 0x3FF ∧ OnlyRegs [ereg e.val 0x14] s t) ∧
    ((quiet s e.val = false ∨ msTotal x ≠ 0 ∨ x.p3ovf ≠ [] ∨ x.spillCnt ≠ []) →
      ∃ t, exec (.engMatchCfgWrite req e v) s = .next t ∧ t.rd (ereg e.val 8) = putBit (s.rd (ereg e.val 8)) 11 true ∧
        OnlyRegs [ereg e.val 8] s t ∧
        (quiet s e.val = false → ∀ off, exec (.msDebugWrite req e off v) s = .next t)) ∧
    (∀ off : BitVec 16,
      let set := off.toNat / 64
      let w := off.toNat / 16 % 4
      let value (t : State) : Prop :=
        SMap.get t.rdata (reqKey req) 0 = (bits (wayAt x set w) (32 * (off.toNat % 16 / 4)) 32).setWidth 64
      ((enV (wayAt x set w) = false ∨ wayMark s e.val set w = .clean) →
        ∃ t, exec (.msDebugRead req e off) s = .next t ∧ t = { s with rdata := t.rdata } ∧ value t) ∧
      (enV (wayAt x set w) = true → wayMark s e.val set w ≠ .clean →
        ∃ t, exec (.msDebugRead req e off) s = .next t ∧ t.engines = s.engines ∧ t.marks = s.marks ∧ SameMemories s t ∧
          value t ∧
          (let d := msDetect (if wayMark s e.val set w = .single then 0x01 else 0x02) e set w 0 s
           CollectorFree d s → RecordOpened d s t))) ∧
    (∀ off : BitVec 16, quiet s e.val = true → off.toNat % 16 / 4 < 3 →
      enType (wayAt x (off.toNat / 64) (off.toNat / 16 % 4)) ≠ 3 →
      ∃ t, exec (.msDebugWrite req e off v) s = .next t ∧ t.mem = s.mem ∧
        wayAt (t.eng e.val) (off.toNat / 64) (off.toNat / 16 % 4) =
          put (wayAt x (off.toNat / 64) (off.toNat / 16 % 4)) (32 * (off.toNat % 16 / 4)) v)

/-- Spill-down, spill placement, refill answers, sweeps and the return of a context (03_engine R68, 03_engine R69,
03_engine R70, 03_engine R71, 03_engine R72, 08_flow_and_deadlock R224, 08_flow_and_deadlock R232, 08_flow_and_deadlock
R235). Where a clause meets a point that the spec leaves open, it states the model's choice (assumption log 79 and 80).
-/
def Obligations.SpillRefillSweep : Prop :=
  ∀ (s : State) (e : EngNo) (p : PlotNo) (ctx : BitVec 16),
    let x := s.eng e.val
    (∀ o, x.order = some o →
      (msHi s e.val = 0 ∨ msTotal x ≤ min (s.fld (preg (e.val / 17) 0x108) 0 13) (msHi s e.val - 1)) →
      ∃ t, exec (.spillDownSpill e) s = .next t ∧ OnlyEngine e s t ∧ t.eng e.val = { x with order := none }) ∧
    (∀ i k u us, (s.plot p.val).spillIn = [] → bucketBits s p.val = 0 →
      (localEngines s p.val).find? (fun r => !(s.eng r.2).spillQ.isEmpty) = some (i, k) → (s.eng k).spillQ = u :: us →
      ∃ t, exec (.spillDrain p) s = .next t ∧ t.eng k = { s.eng k with spillQ := us } ∧
        (t.plot p.val).spillIn = [(i, u)] ∧ (∀ j, j ≠ k → t.eng j = s.eng j) ∧ SameMemories s t ∧
        t.fld (preg p.val 0x124) 16 16 = min 65535 (s.fld (preg p.val 0x124) 16 16 + 1)) ∧
    (∀ head body rest m, x.reentry = none → takePacket x.refillIn = (head :: [body], rest) →
      x.mpb = [m] → m.slot = (tagXid head.tag).toNat → m.asked = true →
      (m.stale = false → ctxAllocated s (e.val / 17) (tagCtx m.tok.tok.flit.tag) = true → ∃ t, exec (.refillAnswer e) s = .next t ∧
        OnlyEngine e s t ∧ (t.eng e.val).mpb = [] ∧ (t.eng e.val).refillIn = rest ∧
        spillCount (t.eng e.val) m.tok.set = (bits body.payload 112 4).toNat ∧
        ∃ back, (t.eng e.val).reentry = some { flit := m.tok.tok.flit, refill := some back } ∧
          back.length = (if enV body.payload then 1 else 0)) ∧
      ((m.stale = true ∨ ctxAllocated s (e.val / 17) (tagCtx m.tok.tok.flit.tag) = false) →
        ∃ t, exec (.refillAnswer e) s = .next t ∧ (t.eng e.val).mpb = [] ∧ (t.eng e.val).refillIn = rest ∧
        (t.eng e.val).reentry = none ∧ SameMemories s t ∧
        (let d := tokenDetect 0x13 e m.tok.tok.flit 0
         CollectorFree d s → RecordOpened d s t))) ∧
    (∀ w ws, x.sweeps = w :: ws →
      (w.visit < 1024 → ∃ t, exec (.contextSweepVisit e) s = .next t ∧
        (t.eng e.val).sweeps = { w with visit := w.visit + 1 } :: ws ∧ SameMemories s t ∧
        (∀ k, k < 4 → enV (wayAt (t.eng e.val) w.visit k) = true → enCtx (wayAt (t.eng e.val) w.visit k) ≠ w.ctx) ∧
        (∀ k, k ≠ e.val → t.eng k = s.eng k)) ∧
      (w.visit = 1025 → ∃ t, exec (.contextSweepVisit e) s = .next t ∧ t.eng e.val = { x with
        sweeps := ws
        mpb := x.mpb.map (fun m => { m with stale := m.stale || tagCtx m.tok.tok.flit.tag == w.ctx }) })) ∧
    (ctxStatus s p.val ctx = 2 → (s.plot p.val).purges.contains ctx = false →
      (∀ i, i < 17 → (s.eng (17 * p.val + i)).sweeps = []) →
      ∃ t, exec (.contextReturn p ctx) s = .next t ∧ OnlyPlot p s t ∧ ctxStatus t p.val ctx = 0) ∧
    (∀ cs, s.plot p.val = { Plot.reset with purges := ctx :: cs } → placementWaits s p.val = false →
      ∃ t, exec (.overflowPurge p) s = .next t ∧
      (t.plot p.val).purges = cs ∧ t.engines = s.engines ∧ SameMemories s t)

/-- MUL, MULHS and MULHU, and the multiplier they run in (R164). -/
def Obligations.MultiplierNodes : Prop :=
  (∀ (s : State) (e : EngNo) (f : Fire), (s.eng e.val).exec = some f → f.closed = false →
      let l := f.l
      let r := f.r
      let runs (c : Instr) (opc : Nat) (v : Word) : Prop :=
        (nwOpc f.word).toNat = opc → NodeSends c e f (bothDests s e f v) 3 s
      runs (.mul e) 0x04 (l * r) ∧
      runs (.mulhs e) 0x05 ((l.signExtend 128 * r.signExtend 128).extractLsb' 64 64) ∧
      runs (.mulhu e) 0x06 ((l.setWidth 128 * r.setWidth 128).extractLsb' 64 64)) ∧
    (∀ (s : State) (e c : Nat) (forFire : Bool) (o : Nat), 4 ≤ o → o ≤ 6 →
      unitReady s e c forFire (unitOfOpc o) = true) ∧
    (let m : BitVec 128 := (BitVec.allOnes 64).signExtend 128
     (m * m).extractLsb' 64 64 = (0 : Word) ∧
     ((BitVec.allOnes 64).setWidth 128 * (BitVec.allOnes 64).setWidth 128 : BitVec 128).extractLsb' 64 64 =
       (0xFFFFFFFFFFFFFFFE : Word))

/-- The integer, logic and compare nodes of one cycle (04_node_instructions R99, 06_arithmetic R163, 04_node_instructions
R100, 06_arithmetic R165). -/
def Obligations.IntegerNodes : Prop :=
  (∀ (s : State) (e : EngNo) (f : Fire), (s.eng e.val).exec = some f → f.closed = false →
    let l := f.l
    let r := f.r
    let n := f.r.toNat % 64
    let top : Int := 0x7FFFFFFFFFFFFFFF
    let clamp (x : Int) : Word := if top < x then 0x7FFFFFFFFFFFFFFF else if x < -top - 1 then 0x8000000000000000 else BitVec.ofInt 64 x
    let runs (c : Instr) (opc : Nat) (v : Word) : Prop :=
      (nwOpc f.word).toNat = opc → NodeSends c e f (bothDests s e f v) 1 s
    let is (p : Prop) [Decidable p] : Word := if p then 1 else 0
    runs (.add e) 0x01 (l + r) ∧ runs (.sub e) 0x02 (l - r) ∧ runs (.neg e) 0x03 (-l) ∧
    runs (.abs e) 0x0B (BitVec.ofNat 64 l.toInt.natAbs) ∧
    runs (.mins e) 0x0C (BitVec.ofInt 64 (min l.toInt r.toInt)) ∧ runs (.maxs e) 0x0D (BitVec.ofInt 64 (Max.max l.toInt r.toInt)) ∧
    runs (.minu e) 0x0E (BitVec.ofNat 64 (min l.toNat r.toNat)) ∧ runs (.maxu e) 0x0F (BitVec.ofNat 64 (Nat.max l.toNat r.toNat)) ∧
    runs (.and e) 0x10 (l &&& r) ∧ runs (.or e) 0x11 (l ||| r) ∧ runs (.xor e) 0x12 (l ^^^ r) ∧ runs (.not e) 0x13 (~~~l) ∧
    runs (.shl e) 0x14 (BitVec.ofNat 64 (l.toNat * 2 ^ n)) ∧ runs (.shr e) 0x15 (BitVec.ofNat 64 (l.toNat / 2 ^ n)) ∧
    runs (.sar e) 0x16 (BitVec.ofInt 64 (l.toInt / 2 ^ n)) ∧
    runs (.rol e) 0x17 ((l <<< n) ||| (l >>> ((64 - n) % 64))) ∧
    runs (.adds e) 0x18 (clamp (l.toInt + r.toInt)) ∧ runs (.subs e) 0x19 (clamp (l.toInt - r.toInt)) ∧
    (∃ k, k ≤ 64 ∧ runs (.clz e) 0x1A (BitVec.ofNat 64 k) ∧ (∀ i, 64 - k ≤ i → l.getLsbD i = false) ∧
      (k < 64 → l.getLsbD (63 - k) = true)) ∧
    runs (.popc e) 0x1B (BitVec.ofNat 64 ((List.range 64).countP (fun i => l.getLsbD i))) ∧
    (∃ v : Word, runs (.sext e) 0x1C v ∧ ∀ i, i < 64 → v.getLsbD i = if i ≤ n then l.getLsbD i else l.getLsbD n) ∧
    runs (.eq e) 0x20 (is (l = r)) ∧ runs (.ne e) 0x21 (is (l ≠ r)) ∧
    runs (.lts e) 0x22 (is (l.toInt < r.toInt)) ∧ runs (.les e) 0x23 (is (l.toInt ≤ r.toInt)) ∧
    runs (.ltu e) 0x24 (is (l.toNat < r.toNat)) ∧ runs (.leu e) 0x25 (is (l.toNat ≤ r.toNat))) ∧
  (∀ (s : State) (e : EngNo) (f : Fire), (s.eng e.val).exec = some f → f.closed = false →
    let l := f.l
    let r := f.r
    let lz (n : Nat) : Nat := if n = 0 then 64 else 63 - n.log2
    let cycles (num den : Nat) : Nat := 6 + (lz den + 1 - lz num + 1) / 2
    let runs (c : Instr) (opc : Nat) (v : Word) (fl : FFlags) (lam : Nat) : Prop :=
      (nwOpc f.word).toNat = opc →
      NodeGives c e f (bothDests s e f v) fl lam s
    let signed := cycles l.toInt.natAbs r.toInt.natAbs
    let plain := cycles l.toNat r.toNat
    (r ≠ 0 → signed ≤ 38 ∧ plain ≤ 38 ∧
      runs (.divs e) 0x07 (BitVec.ofInt 64 (l.toInt.tdiv r.toInt)) 0 signed ∧
      runs (.divu e) 0x08 (BitVec.ofNat 64 (l.toNat / r.toNat)) 0 plain ∧
      runs (.rems e) 0x09 (BitVec.ofInt 64 (l.toInt.tmod r.toInt)) 0 signed ∧
      runs (.remu e) 0x0A (BitVec.ofNat 64 (l.toNat % r.toNat)) 0 plain) ∧
    (r = 0 → runs (.divs e) 0x07 (BitVec.allOnes 64) 0x20 3 ∧ runs (.divu e) 0x08 (BitVec.allOnes 64) 0x20 3 ∧
      runs (.rems e) 0x09 l 0x20 3 ∧ runs (.remu e) 0x0A l 0x20 3))

/-- The floating-point nodes send one result with its flags after the cycles of their unit (04_node_instructions R99,
04_node_instructions R101, 06_arithmetic R166, 06_arithmetic R168, 06_arithmetic R169, 06_arithmetic R171,
06_arithmetic R175, 06_arithmetic R183, 06_arithmetic R184). -/
def Obligations.FloatNodes : Prop :=
  (∀ (s : State) (e : EngNo) (f : Fire), (s.eng e.val).exec = some f → f.closed = false →
    let opc := (nwOpc f.word).toNat
    let v := floatOp opc f.rm f.ftz f.l f.r f.comp
    let old := s.profile = .p0100
    let runs (lam : Nat) (p : Instr × Nat) : Prop := opc = p.2 → NodeGives p.1 e f (bothDests s e f v.1) v.2 lam s
    let sub := 2 * subInputs opc f.ftz f.l f.r
    (∀ p, p ∈ [(Instr.fmin e, 0x36), (.fmax e, 0x37), (.feq e, 0x38), (.flt e, 0x39), (.fle e, 0x3A), (.fabs e, 0x3D),
      (.fneg e, 0x3E)] → runs 1 p) ∧
    (∀ p, p ∈ [(Instr.fadd e, 0x30), (.fsub e, 0x31), (.fmul e, 0x32), (.fma e, 0x33), (.fcvtsl e, 0x3B), (.fcvtls e, 0x3C)] →
      runs 4 p) ∧
    (∀ p, p ∈ [(Instr.fdiv e, 0x34), (.fsqrt e, 0x35)] → runs (14 + sub) p) ∧
    (∀ p, p ∈ [(Instr.dadd e, 0x40), (.dsub e, 0x41), (.dmul e, 0x42), (.dfma e, 0x43), (.dcvtdl e, 0x4B), (.dcvtld e, 0x4C),
      (.dcvtds e, 0x4D), (.dcvtsd e, 0x4E)] → runs (if old then 10 else 8) p) ∧
    (∀ p, p ∈ [(Instr.dmin e, 0x46), (.dmax e, 0x47), (.deq e, 0x48), (.dlt e, 0x49), (.dle e, 0x4A)] →
      runs (if old then 6 else 5) p) ∧
    (∀ p, p ∈ [(Instr.ddiv e, 0x44), (.dsqrt e, 0x45)] → runs ((if old then 36 else 30) + sub) p)) ∧
  (∀ (rm : BitVec 3) (ftz : Bool) (l r a : Word),
    let op (c : Nat) (l r : Word) : Word × FFlags := floatOp c rm ftz l r a
    let s32 (x : Word) : Prop := x.toNat % 2 ^ 31 / 2 ^ 22 = 0x1FE ∧ x.toNat % 2 ^ 22 ≠ 0
    let q32 (x : Word) : Prop := x.toNat % 2 ^ 31 / 2 ^ 22 = 0x1FF
    let num32 (x : Word) : Prop := x.toNat % 2 ^ 31 / 2 ^ 23 < 0xFF ∧ 0 < x.toNat % 2 ^ 31 / 2 ^ 23
    let nan64 (x : Word) : Prop := x.toNat % 2 ^ 63 / 2 ^ 52 = 0x7FF ∧ x.toNat % 2 ^ 52 ≠ 0
    let nv : FFlags := 0x10
    let dn : Word := 0x7FC00000
    let low : Word := l &&& 0xFFFFFFFF
    ((s32 l ∨ s32 r) → op 0x36 l r = (dn, nv) ∧ op 0x37 l r = (dn, nv) ∧ op 0x38 l r = (0, nv) ∧ op 0x39 l r = (0, nv) ∧
      op 0x3A l r = (0, nv)) ∧
    (q32 l → q32 r → op 0x36 l r = (dn, 0) ∧ op 0x37 l r = (dn, 0)) ∧
    (q32 r → num32 l → op 0x36 l r = (low, 0) ∧ op 0x37 l r = (low, 0) ∧ op 0x36 r l = (low, 0) ∧ op 0x37 r l = (low, 0)) ∧
    (q32 r → ¬ s32 l → op 0x38 l r = (0, 0) ∧ op 0x39 l r = (0, nv) ∧ op 0x3A l r = (0, nv)) ∧
    (op 0x36 0x80000000 0 = (0x80000000, 0) ∧ op 0x37 0x80000000 0 = (0, 0) ∧ op 0x38 0x80000000 0 = (1, 0) ∧
      op 0x39 0x80000000 0 = (0, 0) ∧ op 0x3A 0x80000000 0 = (1, 0)) ∧
    (op 0x3D l r = (l &&& 0x7FFFFFFF, 0) ∧ op 0x3E l r = (low ^^^ 0x80000000, 0)) ∧
    ((s32 l ∨ q32 l) → op 0x3C l r = (0x8000000000000000, nv)) ∧ (nan64 l → op 0x4C l r = (0x8000000000000000, nv)) ∧
    (op 0x3C 0 r = (0, 0) ∧ op 0x3C 0x80000000 r = (0, 0) ∧ op 0x4C 0 r = (0, 0) ∧ op 0x4C 0x8000000000000000 r = (0, 0) ∧
      op 0x3B 0 r = (0, 0) ∧ op 0x4B 0 r = (0, 0)) ∧
    (∀ c, 0x30 ≤ c → c ≤ 0x3E → c ≠ 0x3B → op c l r = floatOp c rm ftz low (r &&& 0xFFFFFFFF) (a &&& 0xFFFFFFFF)))

/-- The token a result sends to a destination (04_node_instructions R90, 04_node_instructions R91, 04_node_instructions
R92, 04_node_instructions R110). -/
def Obligations.DestinationTokens : Prop :=
  ∀ (s : State) (e : Nat) (w comp v : Word) (second : Bool) (ctx : BitVec 16) (iter : BitVec 12),
    let d := if second then nwD2 w else nwD1 w
    let toks := destProto s e w comp second ctx iter v
    (d = destNull → toks = []) ∧
    (d ≠ destNull → (second = true ∨ fmtBlock w = false) → ∃ k, toks = [k] ∧ k.kind = kOperand ∧ k.pri = nwPri w ∧ k.data = v ∧
      k.payloads = [] ∧ tagNode k.tag = bits d 2 12 ∧ tagPort k.tag = bits d 0 2 ∧ tagCtx k.tag = ctx ∧ tagIter k.tag = iter ∧
      (nwFmt w ≠ 6 → bits k.tag 52 12 = ownId s) ∧
      bits k.tag 42 10 = destEng (if second then relD2 w else relD1 w) (logicalD s e) d) ∧
    (d ≠ destNull → second = false → fmtBlock w = true → ∃ k, toks = [k] ∧ k.kind = kBlock ∧ k.pri = 3 ∧ k.data = v ∧
      k.payloads = [] ∧ bits k.tag 48 4 = bits d 20 4 ∧ bits k.tag 42 6 = bits d 14 6 ∧ bits k.tag 28 14 = bits d 0 14 ∧
      tagCtx k.tag = ctx ∧ tagIter k.tag = iter ∧ bits k.tag 52 12 = ownId s)

/-- Steering, fan-out, tag and context-reading nodes; a fire in a closed page sinks (04_node_instructions R99,
04_node_instructions R102, 04_node_instructions R106, 16_upkeep R445). -/
def Obligations.FlowNodes : Prop :=
  ∀ (s : State) (e : EngNo) (f : Fire), (s.eng e.val).exec = some f →
    let opc := (nwOpc f.word).toNat
    let d1 := destProto s e f.word f.comp false f.ctx f.iter
    let d2 := destProto s e f.word f.comp true f.ctx f.iter
    let runs (c : Instr) (o : Nat) (toks : List Proto) : Prop := opc = o → NodeSends c e f toks 1 s
    (f.closed = false →
      runs (.steer e) 0x50 (if f.r = 0 then d2 f.l else d1 f.l) ∧
      runs (.gate e) 0x51 (if f.r = 0 then [] else d1 f.l ++ d2 f.l) ∧
      runs (.merge e) 0x52 (d1 f.l ++ d2 f.l) ∧ runs (.fan e) 0x53 (d1 f.l ++ d2 f.l) ∧ runs (.sink e) 0x54 [] ∧
      runs (.ctxGet e) 0x62 (d1 (f.ctx.setWidth 64) ++ d2 (f.ctx.setWidth 64)) ∧
      runs (.iterGet e) 0x63 (d1 (f.iter.setWidth 64) ++ d2 (f.iter.setWidth 64)) ∧
      runs (.iterReset e) 0x65
        (destProto s e f.word f.comp false f.ctx 0 f.l ++ destProto s e f.word f.comp true f.ctx 0 f.l) ∧
      runs (.mktag e) 0x68 (d1 (ownId s ++ f.r.extractLsb' 28 24 ++ f.ctx ++ f.iter) ++
        d2 (ownId s ++ f.r.extractLsb' 28 24 ++ f.ctx ++ f.iter)) ∧
      runs (.tagsend e) 0x67 [{ kind := kOperand, pri := nwPri f.word, tag := f.r, data := f.l, payloads := [] }]) ∧
    (f.closed = true → NodeSends (.sink e) e f [] 1 s ∧
      ∀ p, p ∈ [(Instr.add e, 0x01), (.fan e, 0x53), (.ctxNew e, 0x60), (.ctxFree e, 0x61), (.iterNext e, 0x64),
        (.gld e, 0x70), (.gst e, 0x74), (.send e, 0x78), (.fence e, 0x7C)] → opc = p.2 → NodeSends p.1 e f [] 1 s)

/-- CTX_NEW grants the lowest free number or answers all ones; CTX_FREE frees or is refused (02_tokens R38, 02_tokens
R39, 04_node_instructions R103, 04_node_instructions R104, 08_flow_and_deadlock R225, 17_faults R456). -/
def Obligations.ContextNodes : Prop :=
  ∀ (s : State) (e : EngNo) (f : Fire), (s.eng e.val).exec = some f → f.closed = false →
    let p := e.val / 17
    let x := s.eng e.val
    let done (toks : List Proto) (t : State) : Prop :=
      (t.eng e.val).exec = none ∧ (t.eng e.val).results = x.results ++ [nodeRes f toks 2] ∧ SameMemories s t
    ((nwOpc f.word).toNat = 0x60 →
      (∀ c, refuses s p f.pri.toNat = false → freeCtx s p = some c → ∃ t, exec (.ctxNew e) s = .next t ∧
        done (destProto s e f.word f.comp false c 0 f.l ++ destProto s e f.word f.comp true f.ctx f.iter (c.setWidth 64)) t ∧
        ctxStatus t p c = 1 ∧ (∀ k, k ≠ c → ctxStatus t p k = ctxStatus s p k)) ∧
      (refuses s p f.pri.toNat = true → f.pri.toNat < 3 → ∃ t, exec (.ctxNew e) s = .next t ∧
        done (destProto s e f.word f.comp true f.ctx f.iter (BitVec.allOnes 64)) t ∧
        t.fld (preg p 0x120) (10 * f.pri.toNat) 10 = min 1023 (s.fld (preg p 0x120) (10 * f.pri.toNat) 10 + 1) ∧
        RegsBut [preg p 0x120] s t ∧ t.plots = s.plots)) ∧
    ((nwOpc f.word).toNat = 0x61 → s.flag (ereg e.val 0x80) 30 = false →
      let c := f.l.extractLsb' 0 16
      (c ≠ 0 → ctxStatus s p c = 1 → ∃ t, exec (.ctxFree e) s = .next t ∧ ctxStatus t p c = 2 ∧
        (t.plot p).purges = (s.plot p).purges ++ [c] ∧ (t.eng e.val).exec = none ∧
        (∃ r, (t.eng e.val).results = x.results ++ [r] ∧ r.due = f.issued + 2 ∧ r.toks = bothDests s e f f.l) ∧
        SameMemories s t ∧ t.regs = s.regs ∧ (∀ k, k ≠ c → ctxStatus t p k = ctxStatus s p k)) ∧
      ((c = 0 ∨ ctxStatus s p c ≠ 1) → ∃ t, exec (.ctxFree e) s = .next t ∧ done [] t ∧
        (∀ k, ctxStatus t p k = ctxStatus s p k) ∧
        (let d : Detection := { code := 0x0E, plot := some (plotOf e), phys := some e, locus := f.node.setWidth 16, a := c.setWidth 64, b := 0, c := f.word, inj := false }
         CollectorFree d s → RecordOpened d s t)))

/-- ITER_NEXT is admitted by the window of its context; ITER_DONE moves the window on (04_node_instructions R105,
08_flow_and_deadlock R226, 08_flow_and_deadlock R227, 08_flow_and_deadlock R228). -/
def Obligations.IterNodes : Prop :=
  ∀ (s : State) (e : EngNo) (f : Fire), (s.eng e.val).exec = some f → f.closed = false →
    let p := e.val / 17
    let x := s.eng e.val
    let toks (iter : BitVec 12) : List Proto :=
      destProto s e f.word f.comp false f.ctx iter f.l ++ destProto s e f.word f.comp true f.ctx iter f.l
    let done (iter : BitVec 12) (t : State) : Prop :=
      t.eng e.val = { x with exec := none, results := x.results ++ [nodeRes f (toks iter) 1] } ∧ SameMemories s t ∧
      (∀ k, k ≠ e.val → t.eng k = s.eng k)
    let cnt := preg p 0x128
    (∀ w, (nwOpc f.word).toNat = 0x64 → windowOf (s.plot p) f.ctx = some w → (f.iter + 1 - w.b).toNat < w.w →
      ∃ t v, exec (.iterNext e) s = .next t ∧ done (f.iter + 1) t ∧ windowOf (t.plot p) f.ctx = some v ∧
        v = { w with h := if (w.h - w.b).toNat ≤ (f.iter + 1 - w.b).toNat then f.iter + 2 else w.h } ∧
        (∀ c, c ≠ f.ctx → windowOf (t.plot p) c = windowOf (s.plot p) c) ∧ t.regs = s.regs) ∧
    ((nwOpc f.word).toNat = 0x66 →
      (windowOf (s.plot p) f.ctx = none ∨ (∃ w, windowOf (s.plot p) f.ctx = some w ∧ w.b = w.h) →
        ∃ t, exec (.iterDone e) s = .next t ∧ done f.iter t ∧ t.plots = s.plots ∧
          t.fld cnt 8 8 = min 255 (s.fld cnt 8 8 + 1) ∧ RegsBut [cnt] s t) ∧
      (∀ w, windowOf (s.plot p) f.ctx = some w → w.b ≠ w.h → (∀ v, v ∈ (s.plot p).windows → v.chain = []) →
        (s.plot p).holdIn = [] → ∃ t, exec (.iterDone e) s = .next t ∧ done f.iter t ∧
          windowOf (t.plot p) f.ctx = some { w with b := w.b + 1 } ∧ t.regs = s.regs ∧
          (∀ c, c ≠ f.ctx → windowOf (t.plot p) c = windowOf (s.plot p) c)))

/-- Granary read and write nodes form their request, or record an ADDRESS fault (04_node_instructions R107,
04_node_instructions R108, 04_node_instructions R109, 17_faults R456). -/
def Obligations.GranaryNodes : Prop :=
  ∀ (s : State) (e : EngNo) (f : Fire), (s.eng e.val).exec = some f → f.closed = false →
    let opc := (nwOpc f.word).toNat
    let x := s.eng e.val
    let req (kind : BitVec 4) (tag : BitVec 64) (data : Word) : Proto :=
      { kind := kind, pri := nwPri f.word, tag := tag, data := data, payloads := [] }
    let good (a : Word) : Prop := a.toNat % 8 = 0 ∧ a.toNat < 0x4000000
    let bad (c : Instr) (a : Word) : Prop := ∃ t, exec c s = .next t ∧ SameMemories s t ∧ t.plots = s.plots ∧
      t.eng e.val = { x with exec := none, results := x.results ++ [nodeRes f [] 1] } ∧
      (let d : Detection := { code := 0x0D, plot := some (plotOf e), phys := some e, locus := f.node.setWidth 16, a := a, b := 0, c := f.word, inj := false }
       CollectorFree d s → RecordOpened d s t)
    (∀ q : Instr × Nat × BitVec 3, q ∈ [(Instr.gld e, 0x70, 0), (Instr.gldt e, 0x71, 1), (Instr.gpres e, 0x72, 2)] → opc = q.2.1 →
      (good (f.l + f.r) → NodeSends q.1 e f ((destProto s e f.word f.comp false f.ctx f.iter 0).map (fun k =>
          req kGrnRead k.tag (readDesc q.2.2 0 ((f.l + f.r).extractLsb' 3 23)))) 1 s) ∧
      (¬ good (f.l + f.r) → bad q.1 (f.l + f.r))) ∧
    (∀ q : Instr × Nat × BitVec 3, q ∈ [(Instr.gst e, 0x74, 1), (Instr.gstr e, 0x75, 0), (Instr.gclr e, 0x76, 2)] → opc = q.2.1 →
      (good f.r → ∃ t, exec q.1 s = .next t ∧ OnlyEngine e s t ∧
        let write := req kGrnWrite (ownId s ++ logicalD s e.val ++ f.r.extractLsb' 3 23 ++ (0 : BitVec 3) ++
          (0xFF : BitVec 8) ++ q.2.2 ++ x.wcnt.setWidth 5) f.l
        t.eng e.val = { x with
          exec := none, wcnt := x.wcnt + 1, results := x.results ++ [nodeRes f (write :: bothDests s e f f.l) 1] }) ∧
      (¬ good f.r → bad q.1 f.r))

/-- SEND, BLK and FENCE (04_node_instructions R110, 04_node_instructions R111, 17_faults R456). Where a clause meets a
point that the spec leaves open, it states the model's choice (assumption log 96). -/
def Obligations.BlockNodes : Prop :=
  ∀ (s : State) (e : EngNo) (f : Fire), (s.eng e.val).exec = some f → f.closed = false →
    let opc := (nwOpc f.word).toNat
    let x := s.eng e.val
    let block (blk : BitVec 4) (fn : BitVec 6) (unit : BitVec 14) : Proto :=
      { kind := kBlock, pri := 3, tag := ownId s ++ blk ++ fn ++ unit ++ f.ctx ++ f.iter, data := f.l, payloads := [] }
    let res : Result := nodeRes f (bothDests s e f f.l) 1
    (opc = 0x78 → f.r.toNat ≤ 16383 → NodeSends (.send e) e f (block 1 1 (f.r.setWidth 14) :: bothDests s e f f.l) 1 s) ∧
    (opc = 0x78 → 16383 < f.r.toNat → ∃ t, exec (.send e) s = .next t ∧ SameMemories s t ∧
      t.eng e.val = { x with exec := none, results := x.results ++ [res] } ∧
      (∀ d, d.code = 0x12 → d.plot = some (plotOf e) → CollectorFree d s →
        ∃ r, recOf t (plotOf e).val = some r ∧ r.open_ = true ∧ r.code = 0x12 ∧ r.c = f.l)) ∧
    (opc = 0x79 → NodeSends (.blk e) e f (block (f.r.extractLsb' 48 4) (f.r.extractLsb' 42 6) (f.r.extractLsb' 28 14) ::
      bothDests s e f f.l) 1 s) ∧
    (opc = 0x7C → x.fences = [] → s.flag (ereg e.val 0x80) 30 = false →
      (x.acnt = x.wcnt → ∃ t, exec (.fence e) s = .next t ∧ OnlyEngine e s t ∧
        t.eng e.val = { x with exec := none, results := x.results ++ [{ res with due := max (f.issued + 1) x.cycle }] }) ∧
      ((x.acnt - x.wcnt).getLsbD 15 = true → ∃ t, exec (.fence e) s = .next t ∧ OnlyEngine e s t ∧
        t.eng e.val = { x with exec := none, fences := [{ target := x.wcnt, node := some res, issued := f.issued }] }))

/-- The strand instructions that write registers from operands (R115, R117, R121, R122, R131, R132, R147, R158, R185). -/
def Obligations.StrandOperations : Prop :=
  ∀ (s : State) (e : EngNo) (i : SIssue), (s.eng e.val).sx = some i →
    let op := (siOp i.word).toNat
    let sub := (siSub i.word).toNat
    let a := i.a
    let d := (siD i.word).setWidth 5
    let imm : Word := (i.word.extractLsb' 0 18).signExtend 64
    let n := (i.word.extractLsb' 0 6).toNat
    let k := (i.word.extractLsb' 6 2).toNat
    let h := 16 * (i.word.extractLsb' 16 2).toNat
    let runs (c : Instr) (o : Nat) (target : BitVec 5) (v : Word) : Prop :=
      op = o → StrandGives c e [resultWrite i target v 1] id s
    let sys (c : Instr) (o : Nat) (target : BitVec 5) (v : Word) : Prop :=
      op = 0x30 → sub = o → StrandGives c e [resultWrite i target v 1] id s
    let nzcv (b : Word) (fl : Word) : Prop :=
      fl.getLsbD 0 = decide (a = b) ∧ fl.getLsbD 1 = (a - b).msb ∧ fl.getLsbD 2 = decide (a.toNat < b.toNat) ∧
      fl.getLsbD 3 = decide ((a - b).toInt ≠ a.toInt - b.toInt) ∧ fl.toNat < 16
    runs (.addi e) 0x02 d (a + imm) ∧ runs (.andi e) 0x03 d (a &&& imm) ∧ runs (.ori e) 0x04 d (a ||| imm) ∧
    runs (.xori e) 0x05 d (a ^^^ imm) ∧
    runs (.shi e) 0x06 d (if k = 0 then a <<< n else if k = 1 then a >>> n else if k = 2 then a.sshiftRight n
      else a.rotateLeft n) ∧
    runs (.movw e) 0x07 d ((i.d &&& ~~~((0xFFFF : Word) <<< h)) ||| ((i.word.extractLsb' 0 16).setWidth 64 <<< h)) ∧
    (∃ fl, runs (.cmpi e) 0x08 tFlags fl ∧ nzcv imm fl) ∧
    (∃ fl, (sub = 0x26 → runs (.cmp e) 0x01 tFlags fl) ∧ nzcv i.b fl) ∧
    sys (.mff e) 0x07 d i.flags ∧ sys (.mtf e) 0x08 tMtf a ∧ sys (.mfc e) 0x09 d i.cnt ∧ sys (.mtc e) 0x0A tCnt a ∧
    (op = 0x01 → sub ≠ 0x26 → sub < 0xE0 →
      let r := vendorOp sub i.rm i.ftz a i.b i.d
      let lam := latencyOf s.profile sub i.ftz a i.b
      (s.flag (ereg e.val 0x80) 31 = false → StrandGives (.opr e) e [resultWrite i d r.1 lam]
        (fun y => { y with raises := opRaises s e i r.2 lam true }) s) ∧
      (∀ k, s.flag (ereg e.val 0x80) 31 = true → (s.eng e.val).strand = some k → k.k = true → 0x30 ≤ sub → sub ≠ 0x3D →
        sub ≠ 0x3E →
        let late : Strand := { k with issueAt := max k.issueAt (i.issued + lam + 2) }
        ∃ t, exec (.opr e) s = .next t ∧ OnlyEngine e s t ∧
          (t.eng e.val).raises = opRaises s e i r.2 lam false ∧
          (r.2 ≠ 0 → (t.eng e.val).strand =
            some { late with block := .precise i.pc i.rep (i.issued + lam) r.2 [resultWrite i d r.1 lam] }) ∧
          (r.2 = 0 → (t.eng e.val).strand =
            some { late with writes := insertWrite (resultWrite i d r.1 lam) k.writes }))) ∧
    (∀ (c : Ctx) (v : Word) (x : BitVec 4),
      (x ≠ 0 → getW (applyWrite c (x.setWidth 5) v) x = v) ∧
      (∀ y, y ≠ x → getW (applyWrite c (x.setWidth 5) v) y = getW c y) ∧ applyWrite c 0 v = c ∧
      applyWrite c tCnt v = { c with cnt := v } ∧
      applyWrite c tFlags v = { c with flags := (c.flags &&& ~~~(0xF : Word)) ||| (v &&& 0xF) } ∧
      applyWrite c tMtf v = { c with flags := (c.flags &&& ~~~(0xE0F : Word)) ||| (v &&& 0xE0F) } ∧
      applyWrite c tLrv v = { c with flags := (c.flags &&& ~~~(0x2000 : Word)) ||| ((v &&& 1) <<< 13) })

/-- Branches, calls, returns, REP, SYNC.I and the ways a strand leaves its engine (R122, R123, R124, R135, R136, R137,
R146, R147, R152, R156). Where a clause meets a point that the spec leaves open, it states the model's choice
(assumption log 97 and 127). -/
def Obligations.StrandBranches : Prop :=
  ∀ (s : State) (e : EngNo) (i : SIssue) (k : Strand), (s.eng e.val).strand = some k →
    let x := s.eng e.val
    let op := (siOp i.word).toNat
    let sub := (siSub i.word).toNat
    let slow := if s.profile = .p0100 then 1 else 0
    let goes (c : Instr) (target : BitVec 15) (extra : Nat) (g : Ctx → Ctx) : Prop :=
      ∃ t, exec c s = .next t ∧ OnlyEngine e s t ∧
        t.eng e.val = { x with sx := none, strand := some { k with
          npc := target, fetchAt := i.issued + 1 + extra, fetch := none, dec := none, read := none,
          ctx := { g k.ctx with pc := target } } }
    let rel : BitVec 15 := i.pc + 4 * (i.word.extractLsb' 0 13).setWidth 15
    let push (c : Ctx) : Ctx := { c with ras := c.ras.set c.rsp.toNat (i.pc + 4) c.rsp.isLt, rsp := c.rsp + 1, rsd := c.rsd + 1 }
    let rsx := i.flags.getLsbD 9
    let ok := i.a.toNat < 0x8000 ∧ i.a.toNat % 4 = 0
    (x.sx = some i → i.rep = false →
      (op = 0x20 → (condHolds (siD i.word) i.flags = true → goes (.bc e) rel slow id) ∧
        (condHolds (siD i.word) i.flags = false → StrandGives (.bc e) e [] id s)) ∧
      (op = 0x21 → goes (.jmp e) rel slow id) ∧
      (op = 0x22 → (k.ctx.rsd.toNat < 8 → goes (.call e) rel slow push) ∧
        (k.ctx.rsd = 8 → rsx = true → StrandTraps (.call e) e k 6 i.pc 0 s)) ∧
      (op = 0x23 → (ok → goes (.jr e) (i.a.setWidth 15) slow id) ∧ (¬ ok → StrandTraps (.jr e) e k 4 i.pc i.a s)) ∧
      (op = 0x24 → (ok → k.ctx.rsd.toNat < 8 → goes (.callr e) (i.a.setWidth 15) slow push) ∧
        (¬ ok → ¬ (k.ctx.rsd = 8 ∧ rsx = true) → StrandTraps (.callr e) e k 4 i.pc i.a s) ∧
        (k.ctx.rsd = 8 → rsx = true → StrandTraps (.callr e) e k 6 i.pc 0 s)) ∧
      (op = 0x25 → (k.ctx.rsd ≠ 0 → goes (.ret e) (k.ctx.ras[(k.ctx.rsp - 1).toNat]'(k.ctx.rsp - 1).isLt) slow
          (fun c => { c with rsp := c.rsp - 1, rsd := c.rsd - 1 })) ∧
        (k.ctx.rsd = 0 → rsx = true → StrandTraps (.ret e) e k 6 i.pc 0 s)) ∧
      (op = 0x30 →
        (sub = 0x06 → goes (.syncI e) (i.pc + 4) 0 id) ∧
        (sub = 0x0B → StrandTraps (.trap e) e k 8 (i.pc + 4) ((siD i.word).setWidth 64) s) ∧
        (sub = 0x01 → StrandLeaves (.await e) e k .await i.a
          (fun c => { c with pc := i.pc + 4, waitWord := (0x100 : Word) ||| (siD i.word).setWidth 64 }) s) ∧
        (sub = 0x0C → StrandLeaves (.yield e) e k .yield 0 (fun c => { c with pc := i.pc + 4 }) s) ∧
        (sub = 0x0D → StrandLeaves (.exit e) e k .exit 0 (fun c => { c with pc := i.pc + 4 }) s))) ∧
    (∀ r, strandHas s e.val x.cycle = some (k, r) → isRep k r = true →
      (∀ w, nextWord s e.val k r.pc = some w → repeatable s e.val w = true) →
      r.cntS ≠ 0 → ∃ t, exec (.rep e) s = .next t ∧ OnlyEngine e s t ∧ t.eng e.val = { x with strand := some { k with
        read := none, writes := k.writes.map (fun w => { w with rep := false }),
        ctx := { k.ctx with pc := r.pc + 4, rpc := r.cntS, flags := k.ctx.flags ||| 0x1000 } } }) ∧
    (∀ r, strandHas s e.val x.cycle = some (k, r) → isRep k r = true →
      (∀ w, nextWord s e.val k r.pc = some w → repeatable s e.val w = true) →
      r.cntS = 0 → ∃ t u, exec (.rep e) s = .next t ∧ (t.eng e.val).strand = some u ∧ u.read = none ∧
        u.ctx = { k.ctx with pc := r.pc + 8 } ∧ u.writes = k.writes ∧ SameMemories s t)

/-- Strand loads, stores, LR, SC, TAS and GMEM, and the drain of the store buffer (R125, R126, R127, R128, R140, R141,
R142, R143, R144). Where a clause meets a point that the spec leaves open, it states the model's choice (assumption log
81, 90, 99, 129 and 130). -/
def Obligations.StrandMemory : Prop :=
  ∀ (s : State) (e : EngNo) (i : SIssue) (k : Strand) (n off : Nat), (s.eng e.val).strand = some k →
    let x := s.eng e.val
    let op := (siOp i.word).toNat
    let d := (siD i.word).setWidth 5
    let at_ := frameBase e.val + off
    let j := if i.waited || i.stalled then { i with issued := x.cycle } else i
    let quietPort : Prop := x.sheafWr = [] ∧ x.sheafTurn ≠ some (x.cycle, true)
    let cross := if off % 8 + n ≤ 8 then 0 else 1
    let lat := (if s.profile = .p0100 then 3 else 2) + cross + (if i.waited then i.grow else 0)
    let signed (v : Word) : Word := (v.setWidth (8 * n)).signExtend 64
    let load := s.load at_ n
    let port (y : Engine) : Engine :=
      { y with portFrom := x.cycle, portUntil := max x.portUntil (x.cycle + cross + 1) }
    let spaced (y : Engine) : Engine :=
      if i.rep = true ∧ readsOwnDest i.word = true then
        { y with strand := y.strand.map (fun t => { t with issueAt := max t.issueAt (j.issued + lat) }) }
      else y
    let out (o : Nat) (c : Instr) (ws : List RegWrite) (g : Engine → Engine) : Prop := op = o → StrandGives c e ws g s
    (x.sx = some i → FrameClean s e → quietPort → memRegion s e.val i n = .frame off → off + n ≤ 0x8000 →
      (n = siSize i.word →
        out 0x10 (.ld e .clean) ([resultWrite j d load lat] ++ incWrites j n true) (fun y => spaced (port y)) ∧
        out 0x11 (.lds e .clean) ([resultWrite j d (signed load) lat] ++ incWrites j n true) (fun y => spaced (port y)) ∧
        out 0x13 (.ladd e .clean) ([resultWrite j d (i.d + signed load) (lat + 1)] ++ incWrites j n true) port ∧
        out 0x12 (.st e) (incWrites i n false) (fun y => { y with stores := [storeEntry s e.val i .frame off n] })) ∧
      (n = 4 → s.flag (ereg e.val 0x80) 31 = false →
        let v := vendorOp 0x30 i.rm i.ftz i.d load 0
        out 0x14 (.lfadd e .clean) (incWrites j 4 true ++ [resultWrite j d v.1 (lat + 4)])
          (fun y => { port y with raises := opRaises s e j v.2 (lat + 4) true })) ∧
      (n = 8 → off % 8 = 0 →
        (op = 0x15 → ∃ t, exec (.lr e .clean) s = .next t ∧ (t.eng e.val).resv = some (BitVec.ofNat 9 (off / 64)) ∧
          (∃ y, (t.eng e.val).strand = some y ∧ y.ctx = k.ctx ∧ y.writes = (incWrites j 8 true).foldl (fun l w => insertWrite w l)
            (insertWrite (resultWrite j d load lat) (insertWrite (resultWrite j tLrv 1 lat) k.writes))) ∧
          SameMemories s t) ∧
        (op = 0x16 → ∃ t, exec (.sc e) s = .next t ∧ (t.eng e.val).resv = none ∧
          (∃ y, (t.eng e.val).strand = some y ∧ y.ctx = k.ctx ∧
            y.writes = (incWrites j 8 false).foldl (fun l w => insertWrite w l)
              (insertWrite (resultWrite j d (if x.resv = some (BitVec.ofNat 9 (off / 64)) then 0 else 1) 3)
                (insertWrite (resultWrite j tLrv 0 3) k.writes))) ∧
          t.load at_ 8 = (if x.resv = some (BitVec.ofNat 9 (off / 64)) then i.d else load) ∧
          (∀ a, (a < at_ ∨ at_ + 8 ≤ a) → t.byte a = s.byte a)) ∧
        (op = 0x17 → ∃ t, exec (.tas e .clean) s = .next t ∧ t.load at_ 8 = 1 ∧
          (∀ a, (a < at_ ∨ at_ + 8 ≤ a) → t.byte a = s.byte a) ∧
          (x.resv = some (BitVec.ofNat 9 (off / 64)) → (t.eng e.val).resv = none) ∧
          (x.resv ≠ some (BitVec.ofNat 9 (off / 64)) → (t.eng e.val).resv = x.resv ∧
            ∃ y, (t.eng e.val).strand = some y ∧ y.ctx = k.ctx ∧ y.writes =
              (incWrites j 8 true).foldl (fun l w => insertWrite w l) (insertWrite (resultWrite j d load 3) k.writes))))) ∧
    (∀ a : BitVec 26, x.sx = some i → x.stores = [] → x.bufHeld = [] → (∀ r, r ∈ x.results → r.origin ≠ .buffer) → memRegion s e.val i n = .granary a →
      let read (gop : BitVec 3) (c : Instr) : Prop := ∃ t, exec c s = .next t ∧ OnlyEngine e s t ∧ (t.eng e.val).sx = none ∧
        (t.eng e.val).accNo = x.accNo + 1 ∧ (∃ y acc, (t.eng e.val).strand = some y ∧ y.block = .access acc ∧
          acc.d = siD i.word ∧ acc.size = n ∧ acc.accNo = some x.accNo) ∧
        (∃ r, (t.eng e.val).results = x.results ++ [r] ∧ r.due = j.issued + 1 ∧ r.toks = [proto1 kGrnRead
          (i.flags.extractLsb' 10 2) (operandTag (ownId s) (logicalD s e.val) 0xFFF 2 0 x.accNo)
          (readDesc gop 0 (a.extractLsb' 3 23))])
      (n = siSize i.word → a.toNat % 8 + n ≤ 8 → (op = 0x10 → read 0 (.ld e .clean)) ∧ (op = 0x11 → read 0 (.lds e .clean)) ∧
        (out 0x12 (.st e) (incWrites i n false) (fun y => { y with stores := [storeEntry s e.val i (.granary 0) a.toNat n] }))) ∧
      (n = 8 → a.toNat % 8 = 0 → (op = 0x17 → read 3 (.tas e .clean)) ∧
        (op = 0x18 → let z := (i.word.extractLsb' 16 2).toNat
          (z = 0 → read 1 (.gmemTake e)) ∧ (z = 1 → read 2 (.gmemQuery e)) ∧
          (z = 2 → StrandGives (.gmemStore e) e (incWrites i 8 false)
            (fun y => { y with stores := [storeEntry s e.val i (.granary 1) a.toNat 8] }) s) ∧
          (z = 3 → StrandGives (.gmemClear e) e (incWrites i 8 false)
            (fun y => { y with stores := [storeEntry s e.val i (.granary 2) a.toNat 8] }) s)))) ∧
    (∀ q qs, x.sx = none → x.stores = q :: qs → q.at_ < x.cycle → x.drainFree ≤ x.cycle → x.portUntil ≤ x.cycle → quietPort →
      (q.kind = .frame → q.size ≤ 8 → q.addr.toNat = off → off + q.size ≤ 0x8000 →
        (∀ a, frameBase e.val ≤ a → a < frameBase e.val + 0x8000 → s.mark a = .clean) →
        let c := 8 - off % 8
        let wrote (lo hi : Nat) (t : State) : Prop := exec (.storeDrain e) s = .next t ∧
          (t.eng e.val).drainFree = x.cycle + 1 ∧ (t.eng e.val).portUntil = x.cycle + 1 ∧
          (∀ b, lo ≤ b → b < hi → t.byte (at_ + b) = q.data.extractLsb' (8 * b) 8) ∧
          (∀ a, (a < at_ + lo ∨ at_ + hi ≤ a) → t.byte a = s.byte a)
        (q.size ≤ c → ∃ t, wrote 0 q.size t ∧ (t.eng e.val).stores = qs) ∧
        (c < q.size → q.half = false → ∃ t, wrote 0 c t ∧ (t.eng e.val).stores = { q with half := true } :: qs) ∧
        (c < q.size → q.half = true → ∃ t, wrote c q.size t ∧ (t.eng e.val).stores = qs)) ∧
      (∀ gop, q.kind = .granary gop → ∃ t, exec (.storeDrain e) s = .next t ∧ OnlyEngine e s t ∧
        (t.eng e.val).stores = qs ∧ (t.eng e.val).wcnt = x.wcnt + 1 ∧
        ∃ r w, (t.eng e.val).results = x.results ++ [r] ∧ r.toks = [w] ∧ w.kind = kGrnWrite ∧ w.pri = q.mp ∧
          tagAddr w.tag = q.addr.extractLsb' 3 23 ∧ w.data = q.data <<< (8 * (q.addr.toNat % 8))) ∧
      (q.kind = .path → pathRoom s (plotOf e) q.addr = true → ∃ t, exec (.storeDrain e) s = .next t ∧
        t = { s with engines := t.engines, rpath := t.rpath } ∧
        t.eng e.val = { x with stores := qs, drainFree := x.cycle + 1 } ∧ (∀ m, m ≠ e.val → t.eng m = s.eng m) ∧
        t.rpath = s.rpath ++ [{ req := .plot (plotOf e), eng := none, desc := 0, addr := q.addr, size := q.size, wr := some q.data,
                                at_ := now s, lost := false }]))

/-- Tokens, sheaves, fences and contexts of a strand, and the reply it waits for (R128, R129, R148, R149, R150, R151).
Where a clause meets a point that the spec leaves open, it states the model's choice (assumption log 100). -/
def Obligations.StrandTokens : Prop :=
  ∀ (s : State) (e : EngNo) (i : SIssue) (k : Strand), (s.eng e.val).strand = some k →
    let x := s.eng e.val
    let p := e.val / 17
    let op := (siOp i.word).toNat
    let sub := (siSub i.word).toNat
    let d := (siD i.word).setWidth 5
    let res (toks : List Proto) : Result :=
      { due := i.issued + 1, issued := i.issued, origin := .strand i.pc k.desc, toks := toks }
    let sends (c : Instr) (q : Proto) : Prop :=
      (malformed s q = false → StrandGives c e [] (fun y => { y with results := x.results ++ [res [q]] }) s) ∧
      (malformed s q = true → i.rep = false → StrandTraps c e k 5 i.pc 0 s)
    let back (c : Instr) (v : Word) (t : State) : Prop := exec c s = .next t ∧ (t.eng e.val).sx = none ∧
      ((t.eng e.val).strand = some { k with writes := insertWrite (resultWrite i d v 2) k.writes }) ∧ SameMemories s t
    (x.sx = some i → op = 0x30 →
      (sub = 0x02 → sends (.strandSend e) (proto1 kOperand (i.word.extractLsb' 22 2) i.a i.b)) ∧
      (sub = 0x03 → sends (.bsend e) (proto1 kBlock 3 i.a i.b)) ∧
      (sub = 0x04 → i.waited = false → i.stalled = false → x.sheafWr = [] → x.sheafTurn ≠ some (x.cycle, true) →
        let n := (siD i.word).toNat + 1
        let b := i.b.toNat
        let head := proto1 kSheafReq (i.flags.extractLsb' 10 2) i.a (ownId s ++ logicalD s e.val ++ (0 : BitVec 42))
        (b % 16 ≠ 0 → i.rep = false → StrandTraps (.shf e) e k 4 i.pc i.b s) ∧
        (b % 16 = 0 → b + 16 * n ≤ 0x8000 → malformed s head = false → tagSpace i.a = 0 → FrameClean s e →
          ∃ t, exec (.shf e) s = .next t ∧ OnlyEngine e s t ∧ (t.eng e.val).wcnt = x.wcnt + 1 ∧ (t.eng e.val).sx = none ∧
            (t.eng e.val).results = x.results ++ [res [{ head with payloads := (List.range n).map (fun m =>
              s.load (frameBase e.val + b + 16 * m + 8) 8 ++ s.load (frameBase e.val + b + 16 * m) 8) }]])) ∧
      (sub = 0x05 → x.stores = [] → x.fences = [] → s.flag (ereg e.val 0x80) 30 = false →
        (x.acnt = x.wcnt → StrandGives (.strandFence e) e [] (fun y => { y with strand := some { k with block := .none } }) s) ∧
        ((x.acnt - x.wcnt).getLsbD 15 = true → StrandGives (.strandFence e) e [] (fun y => { y with
          strand := some { k with block := .fence i.pc }, fences := [{ target := x.wcnt, node := none, issued := i.issued }] }) s)) ∧
      (sub = 0x0E →
        (∀ c, refuses s p (i.flags.extractLsb' 10 2).toNat = false → freeCtx s p = some c →
          ∃ t, back (.ctxn e) (c.setWidth 64) t ∧ ctxStatus t p c = 1) ∧
        (refuses s p (i.flags.extractLsb' 10 2).toNat = true → ∃ t, back (.ctxn e) (BitVec.allOnes 64) t ∧ t.plots = s.plots)) ∧
      (sub = 0x0F → s.flag (ereg e.val 0x80) 30 = false →
        let c := i.a.extractLsb' 0 16
        (c ≠ 0 → ctxStatus s p c = 1 → ∃ t, back (.ctxf e) 0 t ∧ ctxStatus t p c = 2 ∧
          (t.plot p).purges = (s.plot p).purges ++ [c]) ∧
        ((c = 0 ∨ ctxStatus s p c ≠ 1) → ∃ t, back (.ctxf e) (BitVec.allOnes 64) t ∧ OnlyEngine e s t))) ∧
    (∀ f fs, x.strandIn = f :: fs →
      (∀ a, k.block = .access a → a.accNo = some (tagIter f.tag) → f.poison = false → ∃ t, exec (.strandReply e) s = .next t ∧
        let c := a.arrives.getD x.cycle
        OnlyEngine e s t ∧ t.eng e.val = { x with strandIn := fs, strand := some { k with
          block := .none, issueAt := max k.issueAt (c + 4),
          writes := insertWrite { due := c + 2, issued := c, target := a.d.setWidth 5, rep := false, direct := false
                                  value := extend a.signed a.size (f.data >>> (8 * (a.addr.toNat % 8))) } k.writes } }) ∧
      (k.block = .none → x.pend = [] → ∃ t, exec (.strandReply e) s = .next t ∧ t.eng e.val = { x with strandIn := fs } ∧
        OnlyEngine e { s with regs := t.regs } t ∧ RegsBut [ereg e.val 0x130] s t ∧
        t.fld (ereg e.val 0x130) 0 16 = min 65535 (s.fld (ereg e.val 0x130) 0 16 + 1)))

/-- LIT (R199). -/
def Obligations.LiteralMicrowords : Prop :=
  ∀ (s : State) (e : EngNo) (r : Routine) (old : Word), MicroDue s e r →
    let w := microword s r.upc.toNat
    let dst := w.extractLsb' 25 5
    let lo := 16 * (w.extractLsb' 23 2).toNat
    w.extractLsb' 30 2 = 1 → w.extractLsb' 16 6 = 0 → microWritable dst = true → microRead s e.val r dst = some old →
    ∃ v : Word, MicroGives (.lit e .clean) e r dst v 1 s ∧
      ∀ i, i < 64 → v.getLsbD i =
        if lo ≤ i ∧ i < lo + 16 then w.getLsbD (i - lo) else if w.getLsbD 22 = true then false else old.getLsbD i

/-- Customer operations start, their microwords run, poll, end and resume (R197, R198, R200, R201, R202, R203, R205,
R211, R212, R215, R219). Where a clause meets a point that the spec leaves open, it states the model's choice
(assumption log 84, 85 and 102). -/
def Obligations.Microwords : Prop :=
  ∀ (s : State) (e : EngNo),
    let x := s.eng e.val
    let quietPort : Prop := x.sheafWr = [] ∧ x.sheafTurn ≠ some (x.cycle, true)
    (∀ f : Fire, x.exec = some f → f.closed = false → x.seqr = none → 0xE0 ≤ (nwOpc f.word).toNat →
      ∃ t r, exec (.customerNode e) s = .next t ∧ OnlyEngine e s t ∧
        t.eng e.val = { x with exec := none, seqr := some r } ∧ r.owner = .node f f.issued ∧ r.xl = f.l ∧ r.xr = f.r ∧
        r.upc = (uentry s e.val ((nwOpc f.word).toNat - 0xE0)).extractLsb' 0 11 ∧ r.readyAt = f.issued + 1 ∧ r.stack = []) ∧
    (∀ i : SIssue, x.sx = some i → x.seqr = none → (siOp i.word).toNat = 1 → 0xE0 ≤ (siSub i.word).toNat →
      ∃ t r, exec (.customerInstr e) s = .next t ∧ OnlyEngine e s t ∧ t.eng e.val = { x with
          sx := none, seqr := some r, strand := x.strand.map (fun k => { k with block := .routine i.pc }) } ∧
        r.owner = .strand i ∧ r.upc = (uentry s e.val ((siSub i.word).toNat - 0xE0)).extractLsb' 0 11 ∧
        r.readyAt = i.issued + 1) ∧
    (∀ r : Routine, MicroDue s e r →
      let w := microword s r.upc.toNat
      let dst := uwDst w
      let arg := (uwArg w).toNat
      let rd (n : BitVec 5) (v : Word) : Prop := microRead s e.val r n = some v
      let jump (c : Instr) (next : Nat) (st : List (BitVec 11)) : Prop := 0x610 ≤ next → next ≤ 0x7FF →
        ∃ t, exec c s = .next t ∧ OnlyEngine e s t ∧ t.eng e.val = { x with seqr := some { r with
          upc := BitVec.ofNat 11 next, stack := st, since := r.since + 2, readyAt := x.cycle + 2 } }
      (∀ a b d, rd (uwSa w) a → rd (uwSb w) b → rd dst d → microWritable dst = true →
        (uwFmt w = 0 → w.extractLsb' 0 9 = 0 →
          let gives (u : Nat) (v : Word) (cy ov : Bool) : Prop := (uwOp w).toNat = u →
            MicroGives (.oper e .clean) e
              (if w.getLsbD 9 = true then { r with z := decide (v = 0), n := v.msb, c := cy, v := ov } else r) dst v 1 s
          gives 1 (a + b) (decide (2 ^ 64 ≤ a.toNat + b.toNat)) (decide ((a + b).toInt ≠ a.toInt + b.toInt)) ∧
          gives 2 (a - b) (decide (a.toNat < b.toNat)) (decide ((a - b).toInt ≠ a.toInt - b.toInt)) ∧
          (∀ p : Nat × Word, p ∈ [(3, a &&& b), (4, a ||| b), (5, a ^^^ b), (6, a &&& ~~~b),
            (7, a <<< (b.toNat % 64)), (8, a >>> (b.toNat % 64)), (9, a.sshiftRight (b.toNat % 64)),
            (0xA, a.rotateLeft (b.toNat % 64)), (0xB, BitVec.ofNat 64 (min a.toNat b.toNat)),
            (0xC, BitVec.ofNat 64 (Nat.max a.toNat b.toNat)), (0xD, BitVec.ofInt 64 (min a.toInt b.toInt)),
            (0xE, BitVec.ofInt 64 (Max.max a.toInt b.toInt)), (0x11, if a.toNat < b.toNat then 1 else 0),
            (0x12, if a.toInt < b.toInt then 1 else 0), (0x13, if a = b then 1 else 0)] → gives p.1 p.2 false false) ∧
          (uwSb w = 0 →
            (∃ k, k ≤ 64 ∧ gives 0xF (BitVec.ofNat 64 k) false false ∧ (∀ i, 64 - k ≤ i → a.getLsbD i = false) ∧
              (k < 64 → a.getLsbD (63 - k) = true)) ∧
            gives 0x10 (BitVec.ofNat 64 ((List.range 64).countP (fun i => a.getLsbD i))) false false)) ∧
        (uwFmt w = 3 → (uwOp w).toNat = 1 → arg ≤ 3 →
          let m := routineMode r
          let v := vendorOp (0x30 + arg) m.1 m.2 a b d
          (r.fma = true → v.2 = 0 → MicroGives (.microFma e .clean) e r dst v.1 4 s) ∧
          (r.fma = false → ∃ t, exec (.microFma e .clean) s = .next t ∧ (t.eng e.val).seqr = none ∧
            t.flag (ereg e.val 0x208) 31 = true ∧ t.fld (ereg e.val 0x208) 24 4 = 5)) ∧
        (uwFmt w = 3 → (uwOp w).toNat = 2 → arg ≤ 2 → mulInExec x = false →
          MicroGives (.microMul e .clean) e r dst (if arg = 0 then a * b else
            if arg = 1 then (a.signExtend 128 * b.signExtend 128).extractLsb' 64 64
            else (a.setWidth 128 * b.setWidth 128).extractLsb' 64 64) 3 s) ∧
        (uwFmt w = 3 → (uwOp w).toNat = 3 → r.div = true →
          let a32 : BitVec 32 := a.extractLsb' 0 32
          let b32 : BitVec 32 := b.extractLsb' 0 32
          let held (n : Nat) (y : Engine) : Engine := { y with divFree := x.cycle + n }
          let zero (y : Engine) : Engine := { held 3 y with
            raises := insertRaise { due := x.cycle + 3, issued := (match r.owner with | .node _ c => c | .strand i => i.issued)
                                    origin := routineOrigin s e.val r, flags := 0x20, pend := true } x.raises }
          (b ≠ 0 → ∀ p : Nat × Word × Nat,
            p ∈ [(0, BitVec.ofNat 64 (a.toNat / b.toNat), divCycles 64 false a b),
              (1, BitVec.ofInt 64 (a.toInt.tdiv b.toInt), divCycles 64 true a b),
              (2, BitVec.ofNat 64 (a.toNat % b.toNat), divCycles 64 false a b),
              (3, BitVec.ofInt 64 (a.toInt.tmod b.toInt), divCycles 64 true a b)] →
            arg = p.1 → MicroGivesWith (.microDiv e .clean) e r dst p.2.1 p.2.2 (held p.2.2) s) ∧
          (b = 0 → ∀ p : Nat × Word, p ∈ [(0, BitVec.allOnes 64), (1, BitVec.allOnes 64), (2, a), (3, a)] →
            arg = p.1 → MicroGivesWith (.microDiv e .clean) e r dst p.2 3 zero s) ∧
          (b32 ≠ 0 → ∀ p : Nat × BitVec 32 × Nat,
            p ∈ [(4, BitVec.ofNat 32 (a32.toNat / b32.toNat), divCycles 32 false a32 b32),
              (5, BitVec.ofInt 32 (a32.toInt.tdiv b32.toInt), divCycles 32 true a32 b32),
              (6, BitVec.ofNat 32 (a32.toNat % b32.toNat), divCycles 32 false a32 b32),
              (7, BitVec.ofInt 32 (a32.toInt.tmod b32.toInt), divCycles 32 true a32 b32)] →
            arg = p.1 → MicroGivesWith (.microDiv e .clean) e r dst (p.2.1.setWidth 64) p.2.2 (held p.2.2) s) ∧
          (b32 = 0 → ∀ p : Nat × BitVec 32,
            p ∈ [(4, BitVec.allOnes 32), (5, BitVec.allOnes 32), (6, a32), (7, a32)] →
            arg = p.1 → MicroGivesWith (.microDiv e .clean) e r dst (p.2.setWidth 64) 3 zero s)) ∧
        (uwFmt w = 3 → (uwOp w).toNat = 4 → uwSb w = 0 → FrameClean s e → x.sx = none → x.portUntil ≤ x.cycle → quietPort →
          let off := (a + BitVec.ofNat 64 (8 * arg)).toNat
          off % 8 = 0 → off < 0x8000 → MicroGivesWith (.ldf e .clean) e r dst (s.load (frameBase e.val + off) 8) 2
            (fun y => { y with portFrom := x.cycle, portUntil := x.cycle + 1 }) s) ∧
        (uwFmt w = 3 → (uwOp w).toNat = 5 → dst = 0 → FrameClean s e → x.sx = none → x.portUntil ≤ x.cycle → quietPort →
          let off := (a + BitVec.ofNat 64 (8 * arg)).toNat
          off % 8 = 0 → off < 0x8000 → ∃ t, exec (.stf e .clean) s = .next t ∧ t.load (frameBase e.val + off) 8 = b ∧
            (∀ k, (k < frameBase e.val + off ∨ frameBase e.val + off + 8 ≤ k) → t.byte k = s.byte k) ∧
            (t.eng e.val).seqr = some { r with upc := r.upc + 1, since := r.since + 2, readyAt := x.cycle + 2 })) ∧
      (∀ next, uwFmt w = 2 → branchTarget s e.val r w = some next →
        (brKind w = 0 → jump (.microJmp e .clean) next r.stack) ∧
        (brKind w = 1 → r.stack.length < 4 → jump (.microCall e .clean) next ((r.upc + 1) :: r.stack))) ∧
      (∀ y ys, uwFmt w = 2 → brKind w = 2 → w.extractLsb' 0 28 = 0 → r.stack = y :: ys → jump (.microRet e .clean) y.toNat ys) ∧
      (uwFmt w = 3 → (uwOp w).toNat = 6 → w.extractLsb' 0 25 = 0 →
        (eventPending s e.val r false = false → ∃ t, exec (.poll e .clean) s = .next t ∧ OnlyEngine e s t ∧ t.eng e.val =
          { x with seqr := some { r with
            upc := r.upc + 1, since := 1, fireSince := none, strandSince := none, readyAt := x.cycle + 1 } }) ∧
        (∀ f c, eventPending s e.val r false = true → r.owner = .node f c → ∃ t, exec (.poll e .clean) s = .next t ∧
          t.eng e.val = { x with seqr := none, susp := some { r with
            upc := r.upc + 1, since := 0, fireSince := none, strandSince := none } } ∧ SameMemories s t) ∧
        (∀ i k, eventPending s e.val r false = true → r.owner = .strand i → x.strand = some k →
          ∃ t, exec (.poll e .clean) s = .next t ∧ SameMemories s t ∧
          t.eng e.val = { x with seqr := none, strand := some { k with
            block := .none, npc := i.pc, fetchAt := x.cycle + 1, fetch := none, dec := none, read := none,
            ctx := { k.ctx with pc := i.pc } } })) ∧
      (uwFmt w = 3 → (uwOp w).toNat = 7 → w.extractLsb' 1 24 = 0 → r.fireSince = none → r.strandSince = none →
        let ends (t : State) : Prop := exec (.microEnd e .clean) s = .next t ∧ OnlyEngine e { s with regs := t.regs } t ∧
          RegsBut [] s t
        (∀ f c, r.owner = .node f c → ∃ t, ends t ∧ t.eng e.val = { x with
          seqr := none, results := x.results ++ [{ due := x.cycle + 1, issued := c,
                                                   origin := .node f.node f.ctx f.iter f.word
                                                   toks := if w.getLsbD 0 = true then bothDests s e f r.res else [] }] }) ∧
        (∀ i k, r.owner = .strand i → x.strand = some k → ∃ t, ends t ∧ t.eng e.val = { x with
          seqr := none, strand := some { k with
            block := .none, issueAt := max k.issueAt (x.cycle + 2)
            writes := if w.getLsbD 0 = true then
                insertWrite { due := x.cycle, issued := x.cycle, target := (siD i.word).setWidth 5, value := r.res
                              rep := false, direct := true } k.writes
              else k.writes } }))) ∧
    (∀ r : Routine, x.susp = some r → routineReady s e.val x.cycle r.fma r.div = true →
      eventPending s e.val r true = false → ∃ t, exec (.routineResume e) s = .next t ∧ OnlyEngine e s t ∧
        t.eng e.val = { x with susp := none, seqr := some { r with readyAt := x.cycle + 2 } }) ∧
    (∀ (req : Requester) (off : BitVec 13), reaches s req e.val = true → unserved req s = false → s.mark (uaddr e.val (off.toNat / 4)) = .clean →
      ∃ t, exec (.ucodeWindowRead req e off .clean) s = .next t ∧ t = { s with rdata := t.rdata } ∧
        SMap.get t.rdata (reqKey req) 0 = (microword s (off.toNat / 4)).setWidth 64)

/-- What the Pruner's commands and the binary64 grant do (R170, R226, R229, R233, R240, R243, R244, R245, R247, R249).
Where a clause meets a point that the spec leaves open, it states the model's choice (assumption log 83, 103 and 137).
-/
def Obligations.PrunerAgent : Prop :=
  ∀ (s : State) (p : PlotNo),
    let pl := s.plot p.val
    (∀ (e : EngNo) (m : Pending) (own : BitVec 10), (s.eng e.val).mpb.find? (fun q => !q.asked) = some m →
      logicalOf s e.val = some own → bucketBits s (e.val / 17) = 0 →
      let answer := mkSheaf kSheafRsp m.tok.tok.flit.pri m.tok.tok.flit.epoch m.tok.tok.flit.seq
        (addrTag (ownId s) own (BitVec.ofNat 23 (8 * m.tok.set.toNat)) 3 0 0 (BitVec.ofNat 5 m.slot)) 0 [(0, false)]
      let pe := s.plot (e / 17)
      ∃ t, exec (.refillLookup e .clean) s = .next t ∧ t = { s with engines := t.engines, plots := t.plots } ∧
        t.eng e.val = { s.eng e.val with
          mpb := (s.eng e.val).mpb.map (fun q => if q.slot = m.slot then { q with asked := true } else q) } ∧
        t.plot (e / 17) = { pe with xfill := pe.xfill ++ answer.map (fun g => (pe.xcycle, g)) } ∧
        (∀ k, k ≠ e.val → t.eng k = s.eng k) ∧ ∀ k, k ≠ e.val / 17 → t.plot k = s.plot k) ∧
    (∀ (e : EngNo) (m : Pending) (own : BitVec 10), (s.eng e.val).mpb.find? (fun q => !q.asked) = some m →
      logicalOf s e.val = some own → 10 ≤ bucketBits s (e.val / 17) →
      let f := m.tok.tok.flit
      let a := e.val / 17
      let i : BitVec 4 := own.extractLsb' 0 4
      let ks := usedProbes s a i m.tok.set
      let mine := ks.filter (fun k => (slotEntry s a k).extractLsb' 112 4 == i)
      let hits := mine.filter (fun k => enKey (slotEntry s a k) == flitKey s e.val f)
      let found := hits.filter (fun k => enType (slotEntry s a k) != 2) ++ hits.filter (fun k => enType (slotEntry s a k) == 2)
      let left := mine.filter (fun k => !hits.contains k && slotSet s e.val (slotEntry s a k) == m.tok.set)
      let remain : BitVec 4 := BitVec.ofNat 4 (min 15 left.length)
      let back (v : Entry) : Entry := v.extractLsb' 119 9 ++ (0 : BitVec 2) ++ v.extractLsb' 116 1 ++ remain ++ (0 : BitVec 8) ++
        v.extractLsb' 0 104
      let answer (vs : List Entry) : List Flit := mkSheaf kSheafRsp f.pri f.epoch f.seq
        (addrTag (ownId s) own (BitVec.ofNat 23 (8 * m.tok.set.toNat)) 3 0 0 (BitVec.ofNat 5 m.slot)) 0 (vs.map (fun v => (v, false)))
      bucketsHeld s a ks = [] → (∀ k, k ∈ ks → slotBad s (bucketAddr s a k) 2 = false) →
      (∀ k, k ∈ ks → ∀ w, w ∈ slotWords (bucketAddr s a k) 2 → s.mark (wbyte w) = .clean) →
      ∃ t vs, exec (.refillLookup e .clean) s = .next t ∧ SameMemories s t ∧
        (hits = [] → vs = [(0 : BitVec 12) ++ remain ++ (0 : BitVec 112)]) ∧
        (hits ≠ [] → vs = found.map (fun k => back (slotEntry s a k))) ∧
        (t.plot a).xfill = (s.plot a).xfill ++ (answer vs).map (fun g => ((s.plot a).xcycle, g)) ∧
        t.eng e.val = { s.eng e.val with
          mpb := (s.eng e.val).mpb.map (fun q => if q.slot = m.slot then { q with asked := true } else q) } ∧
        (∀ k, slotUsed t a k = (slotUsed s a k && !hits.contains k)) ∧
        (∀ k, k ≠ e.val → t.eng k = s.eng k) ∧ ∀ k, k ≠ a → t.plot k = s.plot k) ∧
    (pl.depositMode = false → (inboundFull s p.val chReq = true ∨ inboundFull s p.val chRsp = true) →
      ∃ t, exec (.depositModeEnter p) s = .next t ∧ (t.plot p.val).depositMode = true ∧ t.engines = s.engines ∧
        SameMemories s t ∧ (∀ q, q ≠ p.val → t.plot q = s.plot q)) ∧
    (∀ k c f rest, pl.depositMode = true → freePool s p.val = some k → pl.xreq = (c, f) :: rest → depositable f = true →
      laneHolds s f = true → pl.xrsp = [] → lookupWaits s p.val = false → placementWaits s p.val = false →
      poolHeld s p.val (k :: pl.deposit.getLast?.toList) = [] →
      (∀ w, w ∈ slotWords (poolAddr s p.val k) 4 → bankDark s w = false ∧ wordBad s w = false) →
      (∀ j, pl.deposit.getLast? = some j → areaWord (poolAddr s p.val j + 16) ∉ slotWords (poolAddr s p.val k) 4) →
      (∀ w, w ∈ s.port0 → w.at_ ≠ s.time.now) → ∃ t, exec (.depositMove p) s = .next t ∧ (t.plot p.val).xreq = rest ∧
        (t.plot p.val).deposit = pl.deposit ++ [k] ∧ SMap.get (t.plot p.val).pool k false = true ∧
        poolFlit t p.val k = f ∧ t.engines = s.engines ∧ t.pres = s.pres) ∧
    (∀ k ks e, pl.deposit = k :: ks → lookupWaits s p.val = false → placementWaits s p.val = false →
      depositWaits s p.val = false → poolHeld s p.val [k] = [] → slotBad s (poolAddr s p.val k) 4 = false →
      slotOf s (poolFlit s p.val k).engOf = some e → retiring s (poolFlit s p.val k).engOf = false →
      intakeRoom (s.eng e) (poolFlit s p.val k) = true → pl.xinj = [] → ∃ t, exec (.reinject p) s = .next t ∧
        (t.plot p.val).xinj = [(pl.xcycle, poolFlit s p.val k)] ∧ t.engines = s.engines ∧ (t.plot p.val).deposit = ks ∧
        SMap.get (t.plot p.val).pool k false = false ∧
        (t.plot p.val).depositMode = pl.depositMode ∧ SameMemories s t) ∧
    (pl.depositMode = true → pl.deposit = [] → pl.xinj = [] → heldHeads s p.val = [] → ∃ t, exec (.depositMove p) s = .next t ∧
      (t.plot p.val).depositMode = false ∧ t.engines = s.engines ∧ SameMemories s t) ∧
    (∀ w, pl.windows.find? (fun v => !ctxAllocated s p.val v.ctx) = some w → pl.waitChain = [] → pl.holdIn = [] →
      (pl.windows.map (·.ctx)).Nodup → (∀ v, v ∈ pl.windows → v.chain = []) → ∃ t, exec (.windowEntryFree p) s = .next t ∧
        (t.plot p.val).windows = pl.windows.filter (fun v => v.ctx != w.ctx) ∧ t.engines = s.engines ∧ SameMemories s t) ∧
    (s.flag (preg p.val 0x118) 0 = false → plotIdle s p.val = true → ∃ t, exec (.plotQuiescent p) s = .next t ∧
      t.flag (preg p.val 0x118) 0 = true ∧ RegsBut [preg p.val 0x118] s t ∧ t.plots = s.plots ∧ t.engines = s.engines) ∧
    (s.flag (breg .mesh 0x4008) 16 = false → deviceIdle s = true → ∃ t, exec .deviceQuiescent s = .next t ∧
      t.flag (breg .mesh 0x4008) 16 = true ∧ RegsBut [breg .mesh 0x4008] s t ∧ t.plots = s.plots ∧ t.engines = s.engines) ∧
    (s.fld (breg .mesh 0x4000) 0 16 ≠ 0 → s.auditAt.toNat + 1000 * s.fld (breg .mesh 0x4000) 0 16 ≤ now s →
      logHeld s = [] → ∃ t, exec .auditPass s = .next t ∧ t.auditAt = s.time.now ∧ t.plots = s.plots ∧ t.pres = s.pres ∧
        t.fld (breg .mesh 0x400C) 0 16 = (s.fld (breg .mesh 0x400C) 0 16 + 1) % 65536) ∧
    (s.fld (preg p.val 0x114) 24 8 ≠ 0 → unplaced s p.val = true → logHeld s = [] → ∃ t, exec (.prunerExhausted p) s = .next t ∧
      t.flag (preg p.val 0x118) 6 = true ∧ t.engines = s.engines ∧ t.plots = s.plots ∧
      (let d : Detection := { Detection.bare 0x23 with
         plot := some p, locus := BitVec.ofNat 16 p.val, a := (prnFill s p.val).setWidth 64 }
       CollectorFree d s → RecordOpened d s t)) ∧
    ((∀ i k, i < 16 → slotOf s (BitVec.ofNat 10 (16 * p.val + i)) = some k → b64Post s k = none) →
      exec (.b64Grant p) s = .next (s.setPlot p.val { pl with b64cycle := pl.b64cycle + 1 })) ∧
    (∀ i e o ff p3, i < 16 → slotOf s (BitVec.ofNat 10 (16 * p.val + i)) = some e → inService s e = true →
      b64Post s e = some (o, ff, p3) → unitOfOpc o ≠ .b64iter →
      (∀ j k, j < 16 → j ≠ i → slotOf s (BitVec.ofNat 10 (16 * p.val + j)) = some k → b64Post s k = none) →
      ∃ t, exec (.b64Grant p) s = .next t ∧ t.eng e = { s.eng e with b64grant := some { fire := ff, iter := false, cycle := pl.b64cycle + 1 } } ∧
        t.plot p.val = { pl with b64cycle := pl.b64cycle + 1, b64ptr := BitVec.ofNat 4 i } ∧ t.regs = s.regs ∧
        (∀ k, k ≠ e → t.eng k = s.eng k))

/-- Queues and routers of the mesh (R52, R55, R257, R258, R260, R266, R268, R269, R270, R271, R276, R456). Where a
clause meets a point that the spec leaves open, it states the model's choice (assumption log 17, 64, 107, 108 and 119).
-/
def Obligations.MeshMoves : Prop :=
  ∀ (s : State),
    (∀ (p : PlotNo) (chan : Fin 3) (f : Flit) (fs : List Flit) (inp : Fin 7),
      let q : QueueKey := { site := BitVec.ofNat 8 p.val, toMesh := false, chan := BitVec.ofNat 3 chan.val, input := inp }
      let k := qkey p.val false chan.val
      s.q k = f :: fs → f.follow = 0 → s.power.linkDown = [] → holdAt s (holdQueue k) = none → readerRoom s p.val chan.val false = true →
      SMap.get s.owed k 0 = 0 → SMap.get s.appends k 0 = 0 →
      (checkFlit f = .clean → malformedFlit f = false → f.kind ≠ kSheafData → f.dev = ownId s →
        ∃ t, exec (.queueTransfer q 0) s = .next t ∧ t.q k = fs ∧
          t.plot p.val = (if chan.val = 0 then { s.plot p.val with xreq := (s.plot p.val).xreq ++ [((s.plot p.val).xcycle, f)] }
            else if chan.val = 1 then { s.plot p.val with xrsp := (s.plot p.val).xrsp ++ [((s.plot p.val).xcycle, f)] }
            else { s.plot p.val with xctl := (s.plot p.val).xctl ++ [((s.plot p.val).xcycle, f)] }) ∧
          (∀ j, j ≠ k → t.q j = s.q j) ∧ t.engines = s.engines ∧ t.regs = s.regs ∧ SameMemories s t) ∧
      (∀ u b, checkFlit (f ^^^ u) = .bad b → ∃ t, exec (.queueTransfer q u) s = .next t ∧ t.q k = fs ∧ t.plots = s.plots ∧
        t.fld (breg .mesh 0x14) 0 16 = min 65535 (s.fld (breg .mesh 0x14) 0 16 + 1) ∧ t.engines = s.engines)) ∧
    (∀ (q : QueueKey), legalChan q = true → q.site.toNat < 0x60 → (q.chan.toNat < 3 ∨ isRun q.site.toNat = true) →
      let k := qkey q.site.toNat q.toMesh q.chan.toNat
      SMap.get s.appends k 0 = 0 →
      (∀ f fs, s.q k = fs ++ [f] → leftOf s k = 0 → ∃ t, exec (.queueFlush q) s = .next t ∧ t.q k = s.q k ∧
        SMap.get t.flushing k false = true ∧ t = { s with queues := t.queues, flushing := t.flushing }) ∧
      (s.q k = [] → leftOf s k = 0 → s.power.linkDown = [] → ∃ t, exec (.queueFlush q) s = .next t ∧ t.q k = [] ∧
        SMap.get t.flushing k false = false ∧ t = { s with flushing := t.flushing }) ∧
      (0 < leftOf s k → SMap.get s.dropping k false = false → writerInReset s q.site.toNat q.toMesh = false →
        ∃ t, exec (.queueFlush q) s = .next t ∧ SMap.get t.flushing k false = true ∧ t = { s with flushing := t.flushing }) ∧
      (0 < leftOf s k → SMap.get s.dropping k false = false → writerInReset s q.site.toNat q.toMesh = true →
        (s.q k).length + leftOf s k ≤ qdepth q.site.toNat q.toMesh q.chan.toNat →
        ∃ t, exec (.queueFlush q) s = .next t ∧ t.q k = s.q k ++ brokenFlits (leftOf s k) ∧
          SMap.get t.dropping k false = true ∧ SMap.get t.flushing k false = true ∧
          (t.rd (breg .mesh 0x10)).toNat = min 0xFFFFFFFF ((s.rd (breg .mesh 0x10)).toNat + leftOf s k) ∧
          (∀ j, j ≠ k → t.q j = s.q j) ∧ t.engines = s.engines)) ∧
    (∀ (q : QueueKey) (v : PtrView), legalChan q = true → 64 ≤ q.site.toNat → q.site.toNat < 0x80 →
      (q.chan.toNat < 3 ∨ isRun q.site.toNat = true) →
      let k := qkey q.site.toNat q.toMesh q.chan.toNat
      let n := (s.q k).length
      let depth := qdepth q.site.toNat q.toMesh q.chan.toNat
      let bad := ptrMismatch (ptrSeen v depth (SMap.get s.reads k 0) n) false depth
      (bad = false → exec (.queueReset ⟨q, v⟩) s = .next s) ∧
      (bad = true → holdAt s (holdQueue k) = none →
        ∃ t, exec (.queueReset ⟨q, v⟩) s = .next t ∧ t.q k = [] ∧ (∀ j, j ≠ k → t.q j = s.q j) ∧
        (t.rd (breg .mesh 0x10)).toNat = min 0xFFFFFFFF ((s.rd (breg .mesh 0x10)).toNat + n) ∧ t.engines = s.engines ∧
        (0 < leftOf s k → SMap.get t.dropping k false = true) ∧
        (let d : Detection := { Detection.bare 0x45 with
           locus := (0 : BitVec 4) ++ BitVec.ofBool q.toMesh ++ queueCode q ++ q.site, a := BitVec.ofNat 64 n }
         CollectorFree d s → RecordOpened d s t)) ∧
      (∀ d m, bad = true →
        holdAt s (holdQueue k) = some (d, m) → d ≠ 0x1000 → 0 < m → SMap.get s.owed k 0 = 0 →
        ∃ t, exec (.queueReset ⟨q, v⟩) s = .next t ∧ t.q k = [] ∧ SMap.get t.owed k 0 = m ∧
          (t.rd (breg .mesh 0x10)).toNat = min 0xFFFFFFFF (min 0xFFFFFFFF ((s.rd (breg .mesh 0x10)).toNat + n) + m))) ∧
    (∀ (v : PtrView) (depth reads n : Nat), v.local0 ≠ v.local1 →
      ptrMismatch (ptrSeen v depth reads n) false depth = true ∧ ptrMismatch (ptrSeen v depth reads n) true depth = true) ∧
    (∀ (depth reads n : Nat) (write : Bool) (cycles : BitVec 3),
      let clean : PtrView := { local0 := 0, local1 := 0, sync0 := 0, sync1 := 0, before0 := 0, before1 := 0, cycles := cycles, write := write }
      ptrMismatch (ptrSeen clean depth reads n) false depth = false ∧ ptrMismatch (ptrSeen clean depth reads n) true depth = false) ∧
    (∀ (q : QueueKey) (v : PtrView), legalChan q = true → 0x80 ≤ q.site.toNat →
      let k := rkey (q.site.toNat - 0x80) q.input.val q.chan.toNat
      let depth := rcap q.chan.toNat
      ptrMismatch (ptrSeen v depth (SMap.get s.reads (rwkey k) 0) (rq s k).length) true depth = true →
      fifoHold s (q.site.toNat - 0x80) q.input.val q.chan.toNat = none →
      ∃ t, exec (.queueReset ⟨q, v⟩) s = .next t ∧ rq t k = [] ∧ (∀ j, j ≠ k → rq t j = rq s j) ∧
        (0 < leftOf s (rwkey k) → SMap.get t.dropping (rwkey k) false = true) ∧ t.queues = s.queues ∧
        (t.rd (breg .mesh 0x10)).toNat = min 0xFFFFFFFF ((s.rd (breg .mesh 0x10)).toNat + (rq s k).length)) ∧
    (∀ (p : PlotNo) (out : Fin 5) (a : Ask), asks s p.val out.val = [a] → 0 < out.val →
      (attach a.hop.dest).1 ≠ p.val → neighbour p.val out.val ≠ p.val →
      holdAt s (holdRouter p.val out.val a.chan) = none → SMap.get s.owed (rwkey (rkey p.val a.inp a.chan)) 0 = 0 →
      SMap.get s.dropping (rwkey (rkey (neighbour p.val out.val) (oppositeIn out.val) a.chan)) false = false →
      ∃ t, exec (.routerFlit p out) s = .next t ∧
        rq t (rkey p.val a.inp a.chan) = (rq s (rkey p.val a.inp a.chan)).drop 1 ∧
        (let k := rkey (neighbour p.val out.val) (oppositeIn out.val) a.chan
         rq t k = rq s k ++ [{ dest := a.hop.dest, at_ := s.arrivals, wait := 0, flit := a.hop.flit }]) ∧
        t.arrivals = s.arrivals + 1 ∧ t.queues = s.queues ∧ t.engines = s.engines ∧ t.plots = s.plots) ∧
    (∀ (req : Requester) (v : Reg32), unserved req s = false → outsider req = false →
      ∃ t, exec (.meshLinkselWrite req v) s = .next t ∧ t.rd64 (breg .mesh 0x1C) = 0 ∧
      t.fld (breg .mesh 0x18) 8 6 = (v.extractLsb' 8 6).toNat ∧ t = { s with regs := t.regs })

/-- Presence operations on granary words: reads, writes, sheaves, block reads and the release of a parked read (R42,
R281, R283, R286, R287, R289, R290, R291, R293). Where a clause meets a point that the spec leaves open, it states the
model's choice (assumption log 18, 106, 110, 112, 113 and 135). -/
def Obligations.GranaryRequests : Prop :=
  ∀ (s : State) (q : QuadNo) (j : PortNo) (f : Flit) (rest : List Flit),
    let w := firstWord f
    let p := presOf s w
    let v := grnWord s w
    let reply (x : Word) : Flit := mkToken kGrnReply f.pri f.epoch f.seq f.tag x false
    let ack : Flit := mkToken kGrnAck f.pri f.epoch (quad s q.val).seq f.tag 0
    let room (k : Nat) (fs : List Flit) (t : State) : Prop := QueueTakes s k 16 fs.length → t.q k = s.q k ++ fs
    (GrnDue s q j f [] rest →
      (f.kind = kGrnRead → goodRead s f = true →
        let op := (rdOp f.data).toNat
        (p = pFull → op = 0 → ∃ t, exec (.grnRead q j .clean) s = .next t ∧ Replies s q (reply v) t ∧ SameMemories s t) ∧
        (p = pFull → op = 1 → ∃ t, exec (.grnTake q j .clean) s = .next t ∧ Replies s q (reply v) t ∧ presOf t w = pEmpty ∧
          (∀ a, t.byte a = s.byte a) ∧ OnlyWord w s t) ∧
        (p = pFull → op = 3 → ∃ t, exec (.grnTas q j .clean) s = .next t ∧ Replies s q (reply v) t ∧ presOf t w = pFull ∧
          grnWord t w = 1 ∧ OnlyWord w s t) ∧
        (op = 2 → ∃ t, exec (.pres q j .clean) s = .next t ∧ Replies s q (reply (p.setWidth 64)) t ∧ SameMemories s t) ∧
        (p ≠ pFull → op ≠ 2 → dirEntry (quad s q.val) w = none → (quad s q.val).dir.length < 1024 →
          poolUsed (quad s q.val) < 4096 → ∃ t,
            exec (if op = 0 then .grnRead q j .clean else if op = 1 then .grnTake q j .clean else .grnTas q j .clean) s = .next t ∧
            presOf t w = pDeferred ∧ (∀ a, t.byte a = s.byte a) ∧ OnlyWord w s t ∧ (∀ k, t.q k = s.q k) ∧
            (quad t q.val).dir = (quad s q.val).dir ++ [{ word := w, readers := [f], ring := false, passes := 0 }])) ∧
      (f.kind = kGrnWrite → badAddrTag f.kind f.tag = false →
        let op := (tagOp f.tag).toNat
        let new := State.mergeMask v f.data (tagMask f.tag)
        (op = 0 → ∃ t, exec (.keep q j .clean) s = .next t ∧ Replies s q ack t ∧ grnWord t w = new ∧ presOf t w = p ∧
          OnlyWord w s t) ∧
        (op = 1 → p ≠ pDeferred → ∃ t, exec (.fill q j .clean) s = .next t ∧ Replies s q ack t ∧ grnWord t w = new ∧
          presOf t w = pFull ∧ OnlyWord w s t) ∧
        (op = 2 → ∃ t, exec (.clear q j .clean) s = .next t ∧ Replies s q ack t ∧ (∀ a, t.byte a = s.byte a) ∧ OnlyWord w s t ∧
          presOf t w = if p = pFull then pEmpty else p) ∧
        (∀ r, op = 1 → p = pDeferred → (quad s q.val).dir = [{ word := w, readers := [r], ring := false, passes := 0 }] →
          (rdOp r.data).toNat = 0 → (quad s q.val).ring = [] → ∃ t, exec (.fill q j .clean) s = .next t ∧ presOf t w = pFull ∧
            grnWord t w = new ∧ (quad t q.val).dir = [] ∧
            (let back := mkToken kGrnReply r.pri r.epoch r.seq r.tag new false
             replyQueue s q ack = replyQueue s q back → room (replyQueue s q ack) [ack, back] t))) ∧
      (f.kind = kBlkRead → badReadDesc f.kind f.data = false → badAddrTag f.kind f.tag = false →
        crossesBlock (requestWords f) = false →
        let fs := mkSheaf kSheafRsp f.pri f.epoch (quad s q.val).seq f.tag 0 ((List.range ((rdLen f.data).toNat + 1)).map (fun i =>
          (grnWord s (w + BitVec.ofNat 23 (2 * i + 1)) ++ grnWord s (w + BitVec.ofNat 23 (2 * i)), false)))
        ∃ t, exec (.blkRead q j .clean) s = .next t ∧ SameMemories s t ∧ room (replyQueue s q (fs.headD 0)) fs t)) ∧
    (∀ g, GrnDue s q j f [g] rest → f.kind = kSheafReq → badSheaf f [g] = false →
      badAddrTag f.kind f.tag = false → tagSpace f.tag = 0 → tagOp f.tag = 0 → crossesBlock (requestWords f) = false →
      f.len = 0 → ∃ t, exec (.sheafReq q j .clean) s = .next t ∧ grnWord t w = (Flit.payload g).extractLsb' 0 64 ∧
        grnWord t (w + 1) = (Flit.payload g).extractLsb' 64 64 ∧
        (let back := mkToken kGrnAck f.pri f.epoch (quad s q.val).seq (f.data.extractLsb' 42 22 ++ f.tag.extractLsb' 0 42) 0
         let dev := f.data.extractLsb' 52 12
         let d := blockDetect 0x42 (BitVec.ofNat 8 (siteGrn q.val 0)) back
         (decide (ownId s = 0xFFF) = decide (dev = 0xFFF) → Replies s q back t) ∧
         (decide (ownId s = 0xFFF) ≠ decide (dev = 0xFFF) → t.queues = s.queues ∧ (CollectorFree d s → RecordOpened d s t))) ∧
        (∀ a, (a < wbyte w ∨ wbyte w + 16 ≤ a) → t.byte a = s.byte a) ∧ t.engines = s.engines) ∧
    (∀ k, (quad s q.val).ring = [k] → (quad s q.val).replay = true →
      let r := ringFlit s q.val k
      (∀ x, x ∈ rdAddr r.data :: slotWords (ringAddr s q.val k) 4 → bankState s (bankOf x) = .on ∧ borrowed s x = false ∧
        wordBad s x = false) →
      (∀ x, x ∈ slotWords (ringAddr s q.val ((quad s q.val).ringWr % ringSize s q.val)) 4 → wordHeld s x = false) →
      checkFlit r = .clean → Flit.poison r = false → goodRead s r = true → (rdOp r.data).toNat = 0 →
      permitted s (askerFlit s r) false (rdAddr r.data) = true → presOf s (rdAddr r.data) = pFull →
      s.mark (wbyte (rdAddr r.data)) = .clean → (∀ i, i < 4 → quadTx s q.val i = []) →
      ∃ t, exec (.deferredReplayPass q) s = .next t ∧ (quad t q.val).ring = [] ∧ (quad t q.val).replay = false ∧
        Replies s q (mkToken kGrnReply r.pri r.epoch r.seq r.tag (grnWord s (rdAddr r.data)) false) t ∧ SameMemories s t)

/-- PEEK, the presence port, the write-back of a corrected word and the power of the banks (R281, R284, R288, R293,
R295, R296, R300). Where a clause meets a point that the spec leaves open, it states the model's choice (assumption log
19, 65, 80, 112, 113 and 139). -/
def Obligations.GranaryBanks : Prop :=
  ∀ (s : State) (req : Requester) (w : BitVec 23), unserved req s = false →
    let ok := bankState s (bankOf w) = .on ∧ borrowed s w = false ∧ wordBad s w = false ∧ s.mark (wbyte w) = .clean ∧
      permitted s (askerOf req) false w = true ∧ permitted s (askerOf req) true w = true
    let lost := breg .grn (0x10 + 4 * quadOf w)
    (∀ n : BitVec 4, ok → portQueued s w = false → 0 < n.toNat → n.toNat ≤ 8 →
      ∃ t, exec (.peek req (w ++ (0 : BitVec 3)) n .clean) s = .next t ∧
        (SMap.get t.rdata (reqKey req) 0).toNat = (grnWord s w).toNat % 2 ^ (8 * n.toNat) ∧
        t = { s with rdata := t.rdata, regs := t.regs } ∧ RegsBut [lost] s t) ∧
    (∀ v : Reg32, ok → outsider req = false → v.getLsbD 8 = true → s.fld (breg .grn 0x64) 0 23 = w.toNat → s.pop = none →
      let op := (v.extractLsb' 0 3).toNat
      let p := presOf s w
      let x := grnWord s w
      let data (u : State) : Word := u.rd64 (breg .grn 0x68)
      let does (q : State → Prop) : Prop := ∃ t, exec (.presencePortGo req v .clean) s = .next t ∧ q t ∧ OnlyWord w s t ∧
        t.flag (breg .grn 0x60) 30 = true ∧ t.fld (breg .grn 0x60) 28 2 = p.toNat ∧
        OnlyRegs [breg .grn 0x60, breg .grn 0x68, breg .grn 0x6C, lost]
          { s with mem := t.mem, marks := t.marks, pres := t.pres, port0 := t.port0 } t
      let same (t : State) : Prop := grnWord t w = x ∧ presOf t w = p
      (v.getLsbD 3 = true →
        (op = 0 → does (fun t => grnWord t w = data s ∧ presOf t w = p ∧ data t = data s)) ∧
        (op = 1 → p ≠ pDeferred → does (fun t => grnWord t w = data s ∧ presOf t w = pFull ∧ data t = data s)) ∧
        (op = 2 → does (fun t => grnWord t w = x ∧ presOf t w = (if p = pFull then pEmpty else p) ∧ data t = data s))) ∧
      (v.getLsbD 3 = false →
        (op = 2 → does (fun t => same t ∧ data t = p.setWidth 64)) ∧ (op = 4 → does (fun t => same t ∧ data t = x)) ∧
        (p = pFull → (op = 0 → does (fun t => same t ∧ data t = x)) ∧
          (op = 1 → does (fun t => grnWord t w = x ∧ presOf t w = pEmpty ∧ data t = x)) ∧
          (op = 3 → does (fun t => grnWord t w = 1 ∧ presOf t w = pFull ∧ data t = x))) ∧
        (p ≠ pFull → (op = 0 ∨ op = 1 ∨ op = 3) → does (fun t => same t ∧ data t = data s)))) ∧
    (∀ v : Reg32, outsider req = false → v.extractLsb' 0 3 = 1 → v.getLsbD 3 = true → v.getLsbD 8 = true →
      s.fld (breg .grn 0x64) 0 23 = w.toNat →
      (s.pop ≠ none → ∃ t, exec (.presencePortGo req v .clean) s = .next t ∧ t.flag (breg .grn 4) 7 = true ∧
        OnlyRegs [breg .grn 0x60, breg .grn 4] s t) ∧
      (s.pop = none → bankWaking s w = true → permitted s (askerOf req) true w = true →
        ∃ t o, exec (.presencePortGo req v .clean) s = .next t ∧ t.pop = some o ∧ o.word = w ∧ o.wr = true ∧ o.op = 1 ∧
          o.data = s.rd64 (breg .grn 0x68) ∧ SameMemories s t)) ∧
    (s.mark (wbyte w) = .single → bankState s (bankOf w) = .on → borrowed s w = false →
      (rivals s (quadOf w) 0 w = [] → ∃ t, exec (.grnEccWriteback w) s = .next t ∧
        t.mark (wbyte w) = .clean ∧ t = { s with marks := t.marks }) ∧
      (rivals s (quadOf w) 0 w ≠ [] → (∀ i, i ∈ rivals s (quadOf w) 0 w → (headWords s (quadOf w) i).head? ≠ some w) →
        ∃ t, exec (.grnEccWriteback w) s = .next t ∧ (t.rd lost).toNat = min 0xFFFFFFFF ((s.rd lost).toNat + 1) ∧
          OnlyRegs [lost] s t)) ∧
    (∀ (k : Fin 32) (v : Reg32), outsider req = false → s.profile ≠ .p0100 → k.val < 16 →
      (s.flag (breg .grn 0x200) 31 = true → ∃ t, exec (.bankRequest req k v) s = .next t ∧ t.flag (breg .grn 4) 7 = true ∧
        OnlyRegs [breg .grn 4] s t) ∧
      (s.flag (breg .grn 0x200) 31 = false → reacting s = true → ∃ t, exec (.bankRequest req k v) s = .next t ∧
        t.bankWait = true ∧ t.rd (breg .grn (0x100 + 4 * k.val)) = v ∧ t.bankQ = s.bankQ ∧ t.banks = s.banks) ∧
      (s.flag (breg .grn 0x200) 31 = false → reacting s = false → (∃ i, i < 32 ∧ bankShown s (32 * k.val + i) ≠ if v.getLsbD i then 3 else 0) →
        ∃ t, exec (.bankRequest req k v) s = .next t ∧ t.flag (breg .grn 0x200) 31 = true ∧ t.rd (breg .grn (0x100 + 4 * k.val)) = v ∧
          t.bankQ ≠ [] ∧ SameMemories s t)) ∧
    (∀ (b : Fin 512) (c : Bool), bankState s b.val = .waking c → s.pop = none → ∃ t, exec (.bankWakeComplete b) s = .next t ∧
      bankState t b.val = .on ∧ t.bankQ = s.bankQ.filter (· != b.val) ∧
      (∀ x, bankOf x = b.val → grnWord t x = (if c then 0 else grnWord s x) ∧ presOf t x = if c then pEmpty else presOf s x) ∧
      (∀ x, bankOf x ≠ b.val → grnWord t x = grnWord s x ∧ presOf t x = presOf s x) ∧
      (∀ a, 0x4000000 ≤ a → t.byte a = s.byte a)) ∧
    (∀ (b : Fin 512) (bs : List Nat), s.bankQ = b.val :: bs → bankAsked s b.val ≠ 3 → (quad s (b.val / 128)).borrow = none →
      (bankHolds s b.val = false → ∃ t, exec (.bankSleep b) s = .next t ∧ t.bankQ = bs ∧
        bankState t b.val = (if bankAsked s b.val = 1 then .retain else .off) ∧ (∀ a, 0x4000000 ≤ a → t.byte a = s.byte a)) ∧
      (bankHolds s b.val = true → ∃ t, exec (.bankSleep b) s = .next t ∧ t.bankQ = bs ∧ bankState t b.val = bankState s b.val ∧
        t.flag (breg .grn 0x200) 30 = true ∧ t.fld (breg .grn 0x200) 0 9 = b.val ∧ SameMemories s t))

/-- The Dibber's functions on a descriptor, submitted at its command port (R303, R304, R309, R310, R314, R315, R319,
R320, R322, R331, R344). Where a clause meets a point that the spec leaves open, it states the model's choice
(assumption log 59 and 60). -/
def Obligations.DibberFunctions : Prop :=
  ∀ (s : State) (d : BitVec 14) (v : Word),
    let cmd := breg .dib 0x20
    let p := d.toNat / 256
    let x := s.desc d.toNat
    let at_ (fn : Nat) : Prop := s.flag cmd 31 = true ∧ s.fld cmd 16 6 = fn ∧ s.fld cmd 0 14 = d.toNat ∧
      s.rd64 (breg .dib 0x24) = v ∧ blockTx s siteDib = []
    let done (refused : Bool) (t : State) : Prop := t.flag cmd 31 = false ∧ t.flag cmd 30 = true ∧ t.flag cmd 29 = refused ∧
      t.engines = s.engines ∧ SameMemories s t
    let only (y : Desc) (t : State) : Prop := done false t ∧ t.desc d.toNat = y ∧ (∀ k, k ≠ d.toNat → t.desc k = s.desc k)
    let ready (y : Desc) (t : State) : Prop := only { y with state := .ready, sent := none } t ∧
      readyOf t p = (readyOf s p).filter (· != d) ++ [d]
    let result (w : Word) (t : State) : Prop := done false t ∧ t.rd64 (breg .dib 0x2C) = w ∧ t.dib = s.dib
    (at_ 0x01 →
      (x.state = .idle → ∃ t, exec .wake s = .next t ∧ ready { x with deliver := some v, tmo := false } t) ∧
      (x.state ∈ [.ready, .standby, .running, .trapped] →
        (x.pw = false → ∃ t, exec .wake s = .next t ∧ only { x with wakeVal := v, pw := true } t) ∧
        (x.pw = true → ∃ t, exec .wake s = .next t ∧
          only { x with wovr := BitVec.ofNat 16 (min 65535 (x.wovr.toNat + 1)), wakeVal := v } t ∧
          t.fld (breg .dib 8) 0 16 = min 65535 (s.fld (breg .dib 8) 0 16 + 1) ∧ EventRaised 1945 s.time.now s t)) ∧
      (x.state = .cancelled → ∃ t, exec .wake s = .next t ∧ only { x with mrc := true } t ∧
        t.fld (breg .dib 8) 16 16 = min 65535 (s.fld (breg .dib 8) 16 16 + 1) ∧ EventRaised 1945 s.time.now s t) ∧
      (x.state = .free → x.fwdV = false → ∃ t, exec .wake s = .next t ∧ done false t ∧
        t.fld (breg .dib 8) 16 16 = min 65535 (s.fld (breg .dib 8) 16 16 + 1) ∧ (∀ k, t.desc k = s.desc k))) ∧
    (at_ 0x02 → x.state ≠ .free →
      let y : Desc :=
        { x with state := .cancelled, can := true, pw := false, deliver := none, resumeAfter := false, deadline := 0 }
      let tidied (t : State) : Prop := t.dib.deadlines = s.dib.deadlines.filter (fun k => k.2 != d) ∧
        readyOf t p = (readyOf s p).filter (· != d) ∧ (∀ j, j ≠ p → readyOf t j = readyOf s j)
      let k := engAt s x.lastEng
      (x.state ≠ .standby → x.state ≠ .running → ∃ t, exec .cancel s = .next t ∧ only y t ∧ tidied t ∧ t.queues = s.queues) ∧
      (x.state = .standby → ∃ t, exec .cancel s = .next t ∧ only { y with stopping := true } t ∧ tidied t ∧
        (∀ e, x.sent = some e → SMap.get s.dib.sby e.toNat none = some d → (∀ o, o ∈ s.dib.outst → o.eng ≠ e) →
          t.dib.outst = s.dib.outst ++ [{ eng := e, desc := d, recalling := true, thenTo := none }] ∧
          (QueueTakes s (qkey siteDib true chCtl) (qcap siteDib chCtl) 1 → t.q (qkey siteDib true chCtl) =
            s.q (qkey siteDib true chCtl) ++ [mkToken kDispatch 3 (curEpoch s) s.dib.seq (ownId s ++ e ++ d ++ (0 : BitVec 28)) 0])) ∧
        (x.sent = none → t.dib.outst = s.dib.outst ∧ t.queues = s.queues)) ∧
      (x.state = .running → ∃ t, exec .cancel s = .next t ∧ t.flag cmd 31 = false ∧ t.flag cmd 30 = true ∧ t.flag cmd 29 = false ∧
        SameMemories s t ∧ t.desc d.toNat = { y with stopping := true } ∧ (∀ j, j ≠ d.toNat → t.desc j = s.desc j) ∧ tidied t ∧
        (∀ j, j ≠ k → t.eng j = s.eng j) ∧
        (∀ z, (s.eng k).strand = some z → t.eng k = if z.desc = d then { s.eng k with stop := true } else s.eng k))) ∧
    (at_ 0x03 → x.state = .trapped → x.stopping = false → ∃ t, exec .resume s = .next t ∧ ready { x with deliver := none } t) ∧
    (at_ 0x04 → x.state = .free → (s.plot p).absent = false → ∃ t, exec .dibInit s = .next t ∧ only { Desc.free with
      state := .idle, base := v.extractLsb' 16 5, epri := v.extractLsb' 16 5, k := v.getLsbD 24, aff := v.extractLsb' 0 16 } t) ∧
    (at_ 0x05 → (x.state = .idle ∨ x.state = .cancelled) → ∃ t, exec .release s = .next t ∧
      only { Desc.free with fwd := x.fwd, fwdV := x.fwdV } t) ∧
    (at_ 0x06 → x.state = .idle → x.base ≠ v.extractLsb' 0 5 → ∃ t, exec .setpri s = .next t ∧ only { x with
      base := v.extractLsb' 0 5,
      epri := if x.inhV = true ∧ (v.extractLsb' 0 5).toNat < x.inh.toNat then x.inh else v.extractLsb' 0 5 } t) ∧
    (at_ 0x07 → x.state = .idle → ∃ t, exec .setaff s = .next t ∧ only { x with aff := v.extractLsb' 0 16 } t) ∧
    (∀ u : BitVec 14, at_ 0x08 → v.extractLsb' 0 14 = u → u ≠ d → x.state = .trapped → x.holds = false →
      (s.desc u.toNat).state = .free → (s.desc u.toNat).fwdV = false → (s.plot p).absent = false →
      (s.plot (u.toNat / 256)).absent = false → ∃ t, exec .migrate s = .next t ∧ done false t ∧
        t.desc u.toNat = { x with moving := true } ∧ t.desc d.toNat = { Desc.free with fwd := u, fwdV := true } ∧
        t.dib.migr = s.dib.migr ++ [(d, u)] ∧ (∀ k, k ≠ d.toNat → k ≠ u.toNat → t.desc k = s.desc k)) ∧
    (at_ 0x10 → x.state ≠ .free → ∃ t, exec .query s = .next t ∧ result (mirrorWord x 0) t) ∧
    (at_ 0x11 → d.toNat < 64 → ∃ t w, exec .findfree s = .next t ∧ result w t ∧
      ((∀ i, i < 256 → (s.desc (256 * d.toNat + i)).state ≠ .free ∨ (s.desc (256 * d.toNat + i)).fwdV = true) →
        w = BitVec.allOnes 64) ∧
      (∀ i, i < 256 → (s.desc (256 * d.toNat + i)).state = .free → (s.desc (256 * d.toNat + i)).fwdV = false →
        (∀ j, j < i → (s.desc (256 * d.toNat + j)).state ≠ .free ∨ (s.desc (256 * d.toNat + j)).fwdV = true) →
        w = BitVec.ofNat 64 (256 * d.toNat + i))) ∧
    (at_ 0x18 → d.toNat < 16 → ∃ t, exec .raise s = .next t ∧ done false t ∧ (∀ k, t.desc k = s.desc k) ∧
      (let r := routeOf s (2032 + d.toNat)
       (r.str = true ∨ r.msi = true) → (SMap.get t.dib.events (2032 + d.toNat) Event.none).pend = true)) ∧
    (∀ c : Instr × Nat, c ∈ [(.cancel, 0x02), (.setpri, 0x06), (.setaff, 0x07)] → at_ c.2 → x.state = .free → x.fwdV = false →
      ∃ t, exec c.1 s = .next t ∧ done true t ∧ t.dib = s.dib ∧
        t.fld (breg .dib 0xC) 0 16 = min 65535 (s.fld (breg .dib 0xC) 0 16 + 1)) ∧
    (∀ u ms, s.dib.migr = (u, d) :: ms → u.toNat ≠ d.toNat → ∃ t, exec .migrateCopyDone s = .next t ∧ t.dib.migr = ms ∧
      t.desc d.toNat = { x with moving := false } ∧
      (∀ k, k < 192 → t.byte (ctxBase d.toNat + k) = s.byte (ctxBase u.toNat + k)) ∧
      (∀ a, (a < ctxBase d.toNat ∨ ctxBase d.toNat + 192 ≤ a) → t.byte a = s.byte a)) ∧
    (∀ i ms, s.lck.direct = .inh d (some i) :: ms → x.state = .idle → x.base.toNat < i.toNat →
      { x with inh := i, inhV := true } ≠ x → ∃ t, exec .inheritanceUpdate s = .next t ∧ t.lck = { s.lck with direct := ms } ∧
        t.desc d.toNat = { x with inh := i, inhV := true, epri := i } ∧ t.regs = s.regs)

/-- Notices, selection, dispatch, switching, quantum and deadlines (R307, R311, R312, R313, R316, R317, R318, R321,
R323, R45, R154). Where a clause meets a point that the spec leaves open, it states the model's choice (assumption log
59, 61 and 116). -/
def Obligations.StrandScheduling : Prop :=
  ∀ (s : State) (p : PlotNo) (d : BitVec 14) (e : BitVec 10) (ns : List Notice),
    let x := s.desc d.toNat
    let home := d.toNat / 256
    let got (n : Notice) : Prop := (s.plot p.val).notices = n :: ns
    let took (t : State) : Prop := t.plot p.val = { s.plot p.val with notices := ns } ∧ SameMemories s t
    let becomes (y : Desc) (t : State) : Prop := took t ∧ t.desc d.toNat = y ∧ (∀ k, k ≠ d.toNat → t.desc k = s.desc k)
    let tail (t : State) : Prop := readyOf t home = (readyOf s home).filter (· != d) ++ [d]
    let head (t : State) : Prop := readyOf t home = d :: (readyOf s home).filter (· != d)
    (got (.run d e) → x.state = .standby → haltedAt s e = false → admits x e = true → ∃ t, exec (.noticeRun p) s = .next t ∧
      becomes { x with state := .running, lastEng := e, deliver := none, sent := none,
                       wakes := if x.deliver.isSome = true then x.wakes + 1 else x.wakes } t ∧
      SMap.get t.dib.run e.toNat none = some d ∧ t.engines = s.engines) ∧
    (got (.loaded d e) → x.state = .standby → x.sent = some e → haltedAt s e = false → admits x e = true →
      ∃ t, exec (.loaded p) s = .next t ∧ becomes x t ∧ SMap.get t.dib.sby e.toNat none = some d ∧ t.engines = s.engines) ∧
    (got (.recalled d e) → x.state = .standby → x.stopping = false → s.dib.outst = [] → ∃ t, exec (.recalled p) s = .next t ∧
      becomes { x with state := .ready, sent := none } t ∧ head t) ∧
    (∀ (why : LeaveReason) (dl : Word), got (.leave d why dl) → x.state = .running → 
      accessPending (s.setPlot p.val { s.plot p.val with notices := ns }) p.val d = false →
      let y : Desc := { x with accHold := false }
      ∃ t, exec (.leave p) s = .next t ∧ took t ∧ (∀ k, k ≠ d.toNat → t.desc k = s.desc k) ∧ t.engines = s.engines ∧
        ((why = .preempt ∨ why = .stop) → t.desc d.toNat = { y with state := .ready, sent := none } ∧ head t) ∧
        ((why = .quantum ∨ why = .yield) → t.desc d.toNat = { y with state := .ready, sent := none } ∧ tail t) ∧
        (why = .trap → t.desc d.toNat = { y with state := .trapped }) ∧
        (why = .exit → x.pw = false → t.desc d.toNat = { y with state := .idle }) ∧
        (why = .await → x.pw = true → t.desc d.toNat =
          { y with state := .ready, sent := none, deliver := some x.wakeVal, pw := false, tmo := false } ∧ tail t) ∧
        (why = .await → x.pw = false → dl = 0 →
          t.desc d.toNat = { y with state := .waiting, deadline := 0, waitAt := s.time.now, passes := 0 }) ∧
        (why = .await → x.pw = false → now s < dl.toNat → s.dib.deadlines.length < 4096 → (dl, d) ∈ t.dib.deadlines ∧
          t.desc d.toNat = { y with state := .waiting, deadline := dl, waitAt := s.time.now, passes := 0 })) ∧
    (got (.accessDone d false) → ∃ t, exec (.accessDone p) s = .next t ∧ becomes { x with accHold := false } t ∧ t.engines = s.engines) ∧
    (∀ v, got (.halt e v) → SMap.get s.dib.sby e.toNat none = none → SMap.get s.dib.run e.toNat none = none →
      ∃ t, exec (.halt p) s = .next t ∧ took t ∧ haltedAt t e = v ∧ t.dib.descs = s.dib.descs ∧ t.engines = s.engines) ∧
    (plotGone s p.val = false → blockTx s siteDib = [] → selectFor s p.val (engineOrder s p.val) = some (e, d, none) →
      ∃ t, exec (.selectDispatch p) s = .next t ∧ t.desc d.toNat = { x with state := .standby, sent := some e } ∧
        (∀ k, k ≠ d.toNat → t.desc k = s.desc k) ∧ readyOf t home = (readyOf s home).filter (· != d) ∧
        t.dib.outst = s.dib.outst ++ [{ eng := e, desc := d, recalling := false, thenTo := none }] ∧ t.engines = s.engines) ∧
    (∀ (k : EngNo) (f : Flit) (fs : List Flit), (s.eng k.val).dispIn = f :: fs → f.poison = false → tagDesc f.tag = d →
      f.tag.extractLsb' 0 28 = 0 → (s.eng k.val).standby = none → (∀ t, (s.eng k.val).strand = some t → t.desc ≠ d) →
      let b : Standby :=
        { desc := d, ctx := loadCtx s d.toNat x.k, k := x.k, epri := x.epri, value := f.data, timeout := x.tmo }
      ∃ t, exec (.dispatch k) s = .next t ∧ t.eng k.val = { s.eng k.val with dispIn := fs, standby := some b } ∧
        (t.plot (k.val / 17)).notices = (s.plot (k.val / 17)).notices ++ [.loaded d (logicalD s k.val)] ∧ SameMemories s t) ∧
    (∀ (k : EngNo) (b : Standby), inService s k.val = true → (s.eng k.val).strand = none → (s.eng k.val).standby = some b →
      execOlder (s.eng k.val) = false → ∃ t y, exec (.switchStart k) s = .next t ∧
        t.eng k.val = { s.eng k.val with standby := none, strand := some y, dueAt := none } ∧ y.desc = b.desc ∧ y.k = b.k ∧
        y.epri = b.epri ∧ y.ctx = deliverWake b ∧ y.npc = b.ctx.pc ∧ y.writes = [] ∧ y.block = .none ∧
        y.issueAt = (s.eng k.val).cycle + (if s.profile = .p0100 then 10 else 8) ∧
        (t.plot (k.val / 17)).notices = (s.plot (k.val / 17)).notices ++ [.run b.desc (logicalD s k.val)] ∧ SameMemories s t) ∧
    (∀ (k : EngNo) (y : Strand) (why : LeaveReason) (dl : Word), inService s k.val = true → (s.eng k.val).strand = some y →
      y.block = .none → (s.eng k.val).sx = none → execOlder (s.eng k.val) = false → strandDrained (s.eng k.val) y = true →
      let x := s.eng k.val
      let c0 := drained x.cycle y
      let c : Ctx := { c0 with flags := putBit c0.flags 13 false }
      let left (t : State) : Prop := (t.eng k.val).standby = none ∧ (t.eng k.val).resv = none ∧ (t.eng k.val).stop = false ∧
        (∀ j, j ≠ k.val → t.eng j = s.eng j) ∧ (why = .exit → SameMemories s t) ∧
        (why ≠ .exit → (∀ i (h : i < (ctxWords c).length), t.load (ctxBase y.desc.toNat + 8 * i) 8 = (ctxWords c)[i]) ∧
          ∀ a, (a < ctxBase y.desc.toNat ∨ ctxBase y.desc.toNat + 192 ≤ a) → t.byte a = s.byte a)
      (x.standby = none → (y.leave = some (why, dl) ∨ (y.leave = none ∧ x.stop = true ∧ why = .stop ∧ dl = 0)) →
        ∃ t, exec (.switchStart k) s = .next t ∧ left t ∧ (t.eng k.val).strand = none ∧
          (t.plot (k.val / 17)).notices = (s.plot (k.val / 17)).notices ++ [.leave y.desc why dl]) ∧
      (∀ b, x.standby = some b → (y.leave = some (why, dl) ∨ (y.leave = none ∧ dl = 0 ∧ ((x.stop = true ∧ why = .stop) ∨
          (x.stop = false ∧ y.epri.toNat < b.epri.toNat ∧ why = .preempt) ∨
          (x.stop = false ∧ y.epri = b.epri ∧ y.quantum = true ∧ why = .quantum)))) →
        ∃ t z, exec (.switchStart k) s = .next t ∧ left t ∧ (t.eng k.val).strand = some z ∧ z.desc = b.desc ∧ z.k = b.k ∧
          z.epri = b.epri ∧ z.ctx = deliverWake b ∧ z.npc = b.ctx.pc ∧ z.writes = [] ∧ z.block = .none ∧ z.leave = none ∧
          z.issueAt = x.cycle + (if s.profile = .p0100 then 10 else 8) ∧ (t.plot (k.val / 17)).notices =
            (s.plot (k.val / 17)).notices ++ [.run b.desc (logicalD s k.val), .leave y.desc why dl])) ∧
    (∀ (k : EngNo) (y : Strand) (b : Standby), inService s k.val = true → (s.eng k.val).strand = some y →
      (s.eng k.val).standby = some b → y.leave = none → (s.eng k.val).stop = false → b.epri.toNat < y.epri.toNat →
      exec (.switchStart k) s = .next s) ∧
    (∀ (k : EngNo) (y : Strand) (b : Standby), (s.eng k.val).strand = some y → (s.eng k.val).standby = some b →
      quantum s ≠ 0 → y.epri = b.epri → y.since + 1000 * quantum s ≤ now s → ∃ t, exec (.quantumExpiry k) s = .next t ∧
        OnlyEngine k s t ∧ t.eng k.val = { s.eng k.val with strand := some { y with quantum := true } } ∧
        switchDue (t.eng k.val) = true) ∧
    (∀ (w : BitVec 64) ks, s.dib.deadlines = (w, d) :: ks → w.toNat ≤ now s → ∃ t, exec .deadlineExpiry s = .next t ∧
      t.desc d.toNat = { x with state := .ready, sent := none, deliver := none, tmo := true, deadline := 0 } ∧ tail t ∧
      t.dib.deadlines = ks.filter (fun k => k.2 != d) ∧ t.engines = s.engines)

/-- The event port, the software events, the pending bits and the Dibber's command port (R324, R325, R330, R331, R468).
Where a clause meets a point that the spec leaves open, it states the model's choice (assumption log 9). -/
def Obligations.EventsServed : Prop :=
  ∀ (s : State) (req : Requester) (v : Reg32),
    let ev (t : State) (n : Nat) : Event := SMap.get t.dib.events n Event.none
    let pend (n : Nat) : Prop := (ev s n).pend = true
    let urg (n : Nat) : Bool := (routeOf s n).urg
    let cmd := breg .dib 0x20
    (∀ n, s.stored → s.sieve.diverged.contains 0x45 = false → pend n →
      ((urg n = true ∧ (∀ m, m < n → pend m → urg m = false)) ∨
       ((∀ m, pend m → urg m = false) ∧ s.dib.evPtr.toNat ≤ n ∧ (∀ m, s.dib.evPtr.toNat ≤ m → m < n → ¬ pend m)) ∨
       ((∀ m, pend m → urg m = false) ∧ (∀ m, s.dib.evPtr.toNat ≤ m → ¬ pend m) ∧ (∀ m, m < n → ¬ pend m))) →
      let r := routeOf s n
      let x := s.desc r.desc.toNat
      (r.str = false ∨ x.state = .idle ∨ x.state = .waiting) →
      ∃ t, exec .eventServe s = .next t ∧ ev t n = Event.none ∧ (∀ k, k ≠ n → ev t k = ev s k) ∧
        t.dib.evPtr = (if urg n = true then s.dib.evPtr else BitVec.ofNat 11 (n + 1)) ∧ SameMemories s t ∧ t.engines = s.engines ∧
        (r.str = true → t.desc r.desc.toNat = { x with
            state := .ready, sent := none, tmo := false, deadline := if x.state = .waiting then 0 else x.deadline,
            deliver := some ((ev s n).stamp ++ (ev s n).count ++ (0 : BitVec 5) ++ BitVec.ofNat 11 n) } ∧
          readyOf t (r.desc.toNat / 256) = (readyOf s (r.desc.toNat / 256)).filter (· != r.desc) ++ [r.desc] ∧
          (∀ k, k ≠ r.desc.toNat → t.desc k = s.desc k)) ∧
        (r.str = false → t.dib.descs = s.dib.descs) ∧ (r.msi = false → t.host = s.host) ∧
        (r.msi = true → r.vec ∉ s.host.pba → vectorOpen s r.vec = true → t.host = { s.host with
          msgs := s.host.msgs ++ [(s.rd (breg .bar4 (0x8004 + 16 * r.vec.toNat)) ++ s.rd (breg .bar4 (0x8000 + 16 * r.vec.toNat)),
            s.rd (breg .bar4 (0x8008 + 16 * r.vec.toNat)))] }) ∧
        (r.msi = true → r.vec ∉ s.host.pba → vectorOpen s r.vec = false → t.host = { s.host with pba := s.host.pba ++ [r.vec] })) ∧
    (unserved req s = false → outsider req = false → ∃ t, exec (.dibSwevWrite req v) s = .next t ∧ t = { s with dib := { s.dib with events := t.dib.events } } ∧
      ∀ n, ev t n = (if 2032 ≤ n ∧ n < 2048 ∧ v.getLsbD (n - 2032) = true then eventAfter s n s.time.now else ev s n)) ∧
    (∀ k : Fin 64, unserved req s = false → outsider req = false → ∃ t, exec (.evpendClear req k v) s = .next t ∧ t = { s with dib := { s.dib with events := t.dib.events } } ∧
      ∀ n, ev t n = (if n / 32 = k.val ∧ v.getLsbD (n % 32) = true then Event.none else ev s n)) ∧
    (unserved req s = false → outsider req = false → s.flag cmd 31 = true → ∃ t, exec (.dibCmdGo req v) s = .next t ∧ OnlyRegs [breg .dib 4] s t ∧ t.flag (breg .dib 4) 31 = true) ∧
    (unserved req s = false → outsider req = false → s.flag cmd 31 = false → v.getLsbD 28 = true →
      let bad := badCmdFn (v.extractLsb' 16 6) (v.extractLsb' 0 14) (s.rd64 (breg .dib 0x24))
      (bad = false → ∃ t, exec (.dibCmdGo req v) s = .next t ∧ OnlyRegs [cmd] s t ∧ t.flag cmd 31 = true ∧
        t.fld cmd 16 6 = (v.extractLsb' 16 6).toNat ∧ t.fld cmd 0 14 = (v.extractLsb' 0 14).toNat) ∧
      (bad = true → ∃ t, exec (.dibCmdGo req v) s = .next t ∧
        OnlyRegs [cmd, breg .dib 0xC, breg .dib 0x2C, breg .dib 0x30] s t ∧ t.flag cmd 31 = false ∧ t.flag cmd 30 = true ∧
        t.flag cmd 29 = true ∧ t.rd64 (breg .dib 0x2C) = BitVec.allOnes 64 ∧
        t.fld (breg .dib 0xC) 0 16 = min 65535 (s.fld (breg .dib 0xC) 0 16 + 1)))

/-- EVIO's schedules, timers and replies (R25, R327, R315, R445, R456). Where a clause meets a point that the spec
leaves open, it states the model's choice (assumption log 21, 63 and 117). -/
def Obligations.EvioFunctions : Prop :=
  ∀ (s : State) (f : Flit) (fs : List Flit),
    let u := (tagUnit f.tag).toNat
    let popped : Evio := { s.evio with intake := fs }
    let timed (x : Timer) : Evio := { popped with timers := SMap.set s.evio.timers (u - 0x100) x Timer.off }
    let enabled : Bool := s.flag (breg .upk (0x200 + 16 * f.epoch.toNat)) u
    (∀ c : Instr × BitVec 6 × Bool, c ∈ [(.outHigh, 0x01, true), (.outLow, 0x02, false)] → EvioHead s c.2.1 f fs →
      s.sieve.safe = none → (epochBusy s = true ∨ f.epoch = curEpoch s) →
      let queued := SMap.set s.evio.queues u (insertSchedule (f.data, c.2.2) (schedules s u)) []
      (enabled = true → (schedules s u).length < 8 → now s < f.data.toNat →
        exec c.1 s = .next { s with evio := { popped with queues := queued } }) ∧
      (enabled = true → (schedules s u).length < 8 → f.data.toNat ≤ now s → ∃ t, exec c.1 s = .next t ∧
        t.evio = { popped with queues := queued } ∧ RegsBut [breg .evio 8] s t ∧
        t.fld (breg .evio 8) 0 32 = min (2 ^ 32 - 1) (s.fld (breg .evio 8) 0 32 + 1) ∧ EventRaised (1968 + u) s.time.now s t ∧
        t = { s with evio := t.evio, regs := t.regs, dib := { s.dib with events := t.dib.events } }) ∧
      (enabled = true → 8 ≤ (schedules s u).length → ∃ t, exec c.1 s = .next t ∧ t.evio = popped ∧ SameMemories s t ∧
        t.engines = s.engines ∧
        (let d : Detection := { Detection.bare 0x4D with locus := BitVec.ofNat 16 u, a := f.data }
         CollectorFree d s → RecordOpened d s t)) ∧
      (enabled = false → ∃ t, exec c.1 s = .next t ∧ t.evio = popped ∧ RegsBut [breg .upk 0x6C] s t ∧
        t.fld (breg .upk 0x6C) 0 16 = min 65535 (s.fld (breg .upk 0x6C) 0 16 + 1) ∧ t = { s with evio := t.evio, regs := t.regs })) ∧
    (EvioHead s 0x03 f fs → exec .outFlush s = .next { s with evio := { popped with queues := SMap.set s.evio.queues u [] [] } }) ∧
    (EvioHead s 0x08 f fs →
      (now s < f.data.toNat → exec .tmrAt s = .next { s with evio := timed { armed := true, expiry := f.data.toNat, period := 0 } }) ∧
      (f.data.toNat ≤ now s → ∃ t, exec .tmrAt s = .next t ∧ EventRaised (1088 + (u - 0x100)) s.time.now s t ∧
        t.evio = timed Timer.off ∧
        t = { s with evio := t.evio, dib := { s.dib with events := t.dib.events } })) ∧
    (EvioHead s 0x09 f fs →
      let first : Nat := s.evio.intakeAt.toNat + f.data.toNat
      (now s < first → exec .tmrEvery s =
        .next { s with evio := timed { armed := true, expiry := first, period := f.data.toNat } }) ∧
      (first ≤ now s → f.data ≠ 0 → ∃ t, exec .tmrEvery s = .next t ∧ EventRaised (1088 + (u - 0x100)) s.time.now s t ∧
        t.evio = timed { armed := true, expiry := first + f.data.toNat, period := f.data.toNat } ∧
        t = { s with evio := t.evio, dib := { s.dib with events := t.dib.events } })) ∧
    (EvioHead s 0x0A f fs → exec .tmrStop s = .next { s with evio := timed Timer.off }) ∧
    (∀ c : Instr × BitVec 6 × Word, c ∈ [(.time, 0x10, s.evio.intakeAt),
        (.stamp, 0x11, if s.fld (breg .evio (0x100 + 4 * (u - 0x200))) 8 2 = 0 then 0 else (filterOf s (u - 0x200)).stamp)] →
      EvioHead s c.2.1 f fs → f.data.extractLsb' 62 2 = 1 →
      let k := qkey siteEvio true chCtl
      QueueTakes s k (qcap siteEvio chCtl) 1 →
      let w := f.data
      let tag : BitVec 64 := ownId s ++ w.extractLsb' 42 10 ++ w.extractLsb' 30 12 ++ w.extractLsb' 28 2 ++ f.tag.extractLsb' 0 28
      ∃ t, exec c.1 s = .next t ∧ t.q k = s.q k ++ [mkToken kOperand 3 (curEpoch s) s.evio.seq tag c.2.2] ∧
        (∀ j, j ≠ k → t.q j = s.q j) ∧
        t = { s with evio := { popped with seq := s.evio.seq + 1 }, queues := t.queues, tx := t.tx, wleft := t.wleft }) ∧
    (∀ n : Fin 256,
      let x := SMap.get s.evio.timers n.val Timer.off
      x.armed = true → x.expiry ≤ now s → ∃ t, exec (.timerExpiry n) s = .next t ∧ EventRaised (1088 + n.val) s.time.now s t ∧
        SMap.get t.evio.timers n.val Timer.off = (if x.period = 0 then Timer.off else { x with expiry := x.expiry + x.period }) ∧
        t = { s with evio := { s.evio with timers := t.evio.timers }, dib := { s.dib with events := t.dib.events } }) ∧
    (∀ (n : Fin 32) (pre post : List (BitVec 64 × Bool)) (k : BitVec 64 × Bool), schedules s n.val = pre ++ k :: post →
      (∀ m, m ∈ pre → m.1.toNat ≤ now s) → k.1.toNat ≤ now s → (∀ m, m ∈ post → now s < m.1.toNat) →
      ∃ t, exec (.scheduleApply n) s = .next t ∧ schedules t n.val = post ∧
        outLevel t n.val = (if k.2 = true then .high else .low) ∧
        (∀ m, m ≠ n.val → schedules t m = schedules s m ∧ outLevel t m = outLevel s m) ∧
        t = { s with evio := { s.evio with queues := t.evio.queues, outs := t.evio.outs } })

/-- The time base, the input filters, the PPS input and the exchange with the parent (R26, R379, R380, R381, R382, R414,
R479, R480, R483). Where a clause meets a point that the spec leaves open, it states the model's choice (assumption log
26, 31, 62 and 145). -/
def Obligations.InputsAndTime : Prop :=
  ∀ (s : State),
    let cfg (n : Nat) : Nat := breg .evio (0x100 + 4 * n)
    let stat := breg .run 0x24
    let locked := s.flag (breg .clk 0) 1
    let slow := (now s - s.time.unlockAt.toNat) / 10
    let first (n : Nat) : BitVec 64 :=
      let k := filtOf s n - 1
      if locked = true then s.time.now - BitVec.ofNat 64 k
      else if k ≤ slow then s.time.now - BitVec.ofNat 64 (10 * k) else s.time.unlockAt - BitVec.ofNat 64 (k - slow)
    let next : BitVec 64 := s.time.now + (if locked = true then 1 else 10)
    (s.pending = [] → s.opState ≠ .off → ∃ t, step s = .next t ∧ t = { s with time := t.time } ∧
      (s.time.started = false → t = s) ∧
      (s.time.started = true → s.flag (breg .clk 0) 1 = false → t.time = { s.time with now := s.time.now + 10 }) ∧
      (s.time.started = true → s.flag (breg .clk 0) 1 = true → ∃ k : Int, t.time.now = s.time.now + BitVec.ofInt 64 k ∧
        1000000000 * k + t.time.frac = s.time.frac + 1000000000 + max (-200000) (min 200000 (s.rd (breg .run 0x30)).toInt) ∧
        t.time.frac < 1000000000)) ∧
    (∀ n : Fin 64, counted s n.val = true →
      let x := filterOf s n.val
      let hit := s.flag (cfg n.val) (if x.level = true then 9 else 8)
      ∃ t, exec (.evinEdge n) s = .next t ∧ filterOf t n.val =
          { level := !x.level, since := next, stamp := if hit = true then first n.val else x.stamp } ∧
        (∀ m, m ≠ n.val → filterOf t m = filterOf s m) ∧
        (hit = true → EventRaised (1344 + n.val) (first n.val) s t) ∧ (hit = false → t.dib = s.dib) ∧
        t = { s with evio := { s.evio with inputs := t.evio.inputs }, dib := { s.dib with events := t.dib.events } }) ∧
    (∀ n : Fin 65, sampling s = false → exec (.evinGlitch n) s = .next s) ∧
    (∀ n : Fin 65, sampling s = true →
      let a := if n.val = 64 then breg .evio 0x20 else cfg n.val
      ∃ t, exec (.evinGlitch n) s = .next t ∧ filterOf t n.val = { filterOf s n.val with since := next } ∧
        (∀ m, m ≠ n.val → filterOf t m = filterOf s m) ∧ RegsBut [a] s t ∧
        t.fld a 16 16 = min 65535 (s.fld a 16 16 + 1) ∧ t.fld a 0 16 = s.fld a 0 16 ∧ t.dib = s.dib) ∧
    (∀ (n : Fin 64) (req : Requester) (v : Reg32), unserved req s = false → outsider req = false → s.opState ≠ .off →
      v.extractLsb' 0 8 ≠ 0 →
      ∃ t, exec (.evinCfgWrite req n v) s = .next t ∧ RegsBut [cfg n.val] s t ∧
        t.fld (cfg n.val) 0 10 = (v.extractLsb' 0 10).toNat ∧ t.fld (cfg n.val) 16 16 = s.fld (cfg n.val) 16 16 ∧
        filterOf t n.val = { filterOf s n.val with since := next } ∧ (∀ m, m ≠ n.val → filterOf t m = filterOf s m) ∧
        t.dib = s.dib) ∧
    (counted s 64 = true →
      let x := s.evio.pps
      s.flag (breg .run 0x34) 1 = x.level → s.flag (breg .run 0x34) 0 = true → timeSource s = 1 →
      ∃ t, exec .ppsEdge s = .next t ∧ t.evio.pps = { level := !x.level, since := next, stamp := first 64 } ∧
        t.evio.ppsAt = first 64 ∧ t.evio.inputs = s.evio.inputs ∧ t.flag stat 30 = true ∧ t.flag stat 31 = true ∧
        t.rd (breg .run 0x30) = BitVec.ofInt 32 (max (-200000) (min 200000 (Int.tdiv (-(ppsError s (first 64))) 8))) ∧
        RegsBut [stat, breg .run 0x30] s t ∧ t.time = s.time) ∧
    (s.flag stat 30 = true → s.evio.ppsAt.toNat + 1500000000 ≤ now s → ∃ t, exec .ppsLoss s = .next t ∧
      t.flag stat 30 = false ∧ (timeSource s = 1 → t.flag stat 31 = false) ∧ RegsBut [stat] s t ∧ t.evio = s.evio ∧ t.time = s.time) ∧
    (∀ (n : LinkNo) (f : BitVec 256), FrameIn s n f 3 →
      let p := frPayload f
      let y := frameApplied s n f
      let low : BitVec 48 := s.time.now.extractLsb' 0 48
      let tid : BitVec 8 := p.extractLsb' 144 8
      let t2 : BitVec 48 := p.extractLsb' 96 48
      let t1 : BitVec 48 := s.fabric.t1.extractLsb' 0 48
      let delay : Int := ((low - t1).toInt - ((p.extractLsb' 48 48 : BitVec 48) - t2).toInt) / 2
      let offset : Int := (t2 - t1).toInt - delay
      let lim := s.fld (breg .run 0x20) 0 8
      let good := offset.natAbs ≤ lim ∧ p.getLsbD 157 = true
      (p.extractLsb' 158 2 = 1 → ∃ t, exec (.tsync n f) s = .next t ∧ OnlyLink n [] s t ∧
        link t n.val = { y with tsyncTx := y.tsyncTx ++ [{ tt := 2, tid := tid, t2 := low }] }) ∧
      (p.extractLsb' 158 2 = 2 → timeSource s = 2 → parentLink s = n.val → s.fabric.waiting = true → s.fabric.tid = tid →
        ∃ t, exec (.tsync n f) s = .next t ∧ link t n.val = y ∧ t.fabric.waiting = false ∧ t.fabric.missed = 0 ∧
          t.rd (breg .run 0x28) = BitVec.ofInt 32 (max (-(2 ^ 31 - 1)) (min (2 ^ 31 - 1) offset)) ∧
          t.rd (breg .run 0x2C) = BitVec.ofInt 32 delay ∧ RegsBut [stat, breg .run 0x28, breg .run 0x2C, breg .run 0x30] s t ∧
          (s.flag stat 31 = false → 1000 ≤ offset → t.time = { s.time with now := s.time.now + BitVec.ofInt 64 offset } ∧
            t.rd (breg .run 0x30) = s.rd (breg .run 0x30)) ∧
          ((s.flag stat 31 = true ∨ offset < 1000) → t.time = s.time ∧ t.rd (breg .run 0x30) =
            BitVec.ofInt 32 (max (-200000) (min 200000 (Int.tdiv (offset * 1000000) (8 * (syncPeriod s : Int)))))) ∧
          (good → t.fabric.good = s.fabric.good + 1) ∧ (¬ good → t.fabric.good = 0) ∧
          (good → 7 ≤ s.fabric.good → t.flag stat 31 = true) ∧
          (8 * lim < offset.natAbs → t.flag stat 31 = false))) ∧
    (timeSource s = 2 → s.opState ≠ .off → s.fabric.exchAt.toNat + 1000 * syncPeriod s ≤ now s →
      let k := parentLink s
      linkState s k = 5 → ∃ t, exec .tsyncExchange s = .next t ∧ t.fabric.tid = s.fabric.tid + 1 ∧ t.fabric.waiting = true ∧
        t.fabric.exchAt = s.time.now ∧
        link t k = { link s k with tsyncTx := (link s k).tsyncTx ++ [{ tt := 1, tid := s.fabric.tid + 1, t2 := 0 }] } ∧
        (s.fabric.waiting = false → t.regs = s.regs ∧ t.fabric.missed = s.fabric.missed) ∧
        (s.fabric.waiting = true → t.fabric.missed = s.fabric.missed + 1 ∧
          t.fld stat 0 16 = min 65535 (s.fld stat 0 16 + 1) ∧ (4 ≤ s.fabric.missed + 1 → t.flag stat 31 = false)))

/-- The functions of a BLOCK token on a lock (R333, R336, R337, R338, R339, R340, R341, R342, R343, R344, R349). Where a
clause meets a point that the spec leaves open, it states the model's choice (assumption log 21 and 114). -/
def Obligations.LockFunctions : Prop :=
  ∀ (s : State) (f : Flit) (fs : List Flit),
    let n := (f.tag.extractLsb' 28 12 : BitVec 12).toNat
    let o := wordOwner f.data
    let x := s.lock n
    let gives (i : Instr) (code : Option (BitVec 8)) (y : Lock) (as : List Nat) : Prop := ∃ t, exec i s = .next t ∧
      t.lck.intake = fs ∧ LockBecomes n y s t ∧ LockReplied f code s t ∧ (¬ LockDiscards f code s → RegsBut as s t)
    let counted (a lo : Nat) (i : Instr) : Prop := ∃ t, exec i s = .next t ∧ t.fld a lo 16 = min 65535 (s.fld a lo 16 + 1)
    let waiter (watch : Bool) : Waiter := { who := o, word := f.data, ctxIter := f.tag.extractLsb' 0 28, watch := watch }
    let refuse := breg .lck 8
    let misc := breg .lck 0xC
    (∀ c : Instr × BitVec 6, c ∈ [(.acquire, 1), (.lockTry, 2)] → LockAsked s c.2 f fs →
      (x.state = .free → gives c.1 (some (if x.abn = true then 2 else 1)) { x with state := .held, abn := false, owner := o } []) ∧
      (x.state ≠ .free → x.owner = o → gives c.1 (some 0x0A) x [])) ∧
    (LockAsked s 1 f fs → x.state ≠ .free → x.owner ≠ o →
      (lockPool s < 2048 → gives .acquire none { x with waiters := insertWaiter (waiter false) x.waiters } []) ∧
      (2048 ≤ lockPool s → gives .acquire (some 8) x [refuse] ∧ counted refuse 0 .acquire) ∧
      (∀ d, lockPool s < 2048 → x.state = .held → x.owner = .desc (ownId s) d → s.flag (breg .lck 0) 0 = true →
        ∃ t, exec .acquire s = .next t ∧ (inhOf t d ≠ SMap.get s.lck.inh d.toNat none → .inh d (inhOf t d) ∈ t.lck.direct))) ∧
    (LockAsked s 2 f fs → x.owner ≠ o → (x.state = .held → gives .lockTry (some 3) x []) ∧
      (x.state = .stuck → gives .lockTry (some 0x0B) x [])) ∧
    (LockAsked s 3 f fs → (x.state = .free → gives .lockWait (some (if x.abn = true then 5 else 4)) x []) ∧
      (x.state ≠ .free → lockPool s < 2048 →
        gives .lockWait none { x with waiters := insertWaiter (waiter true) x.waiters } []) ∧
      (x.state ≠ .free → 2048 ≤ lockPool s → gives .lockWait (some 8) x [refuse] ∧ counted refuse 0 .lockWait)) ∧
    (LockAsked s 4 f fs →
      (x.state = .held → x.owner = o →
        (x.waiters = [] → gives .lockRelease (some 6) { state := .free, abn := x.abn, owner := .none, waiters := [] } [] ∧
          (s.profile ≠ .p0100 → x.abn = false → ¬ LockDiscards f (some 6) s → s.flag (breg .lck (0x100 + 16 * (n / 64))) 7 = true →
            ∃ t, exec .lockRelease s = .next t ∧ EventRaised (1664 + 2 * (n / 64)) s.time.now s t)) ∧
        (∀ a as, x.waiters.filter (fun w => !w.watch) = a :: as → ∃ t, exec .lockRelease s = .next t ∧ t.lck.intake = fs ∧
          LockBecomes n { state := .held, abn := false, owner := a.who, waiters := as } s t)) ∧
      ((x.state ≠ .held ∨ x.owner ≠ o) → counted misc 16 .lockRelease ∧
        gives .lockRelease (some (if x.state = .held then 9 else if x.state = .stuck then 0x0B else 0x0F)) x [misc])) ∧
    (LockAsked s 5 f fs →
      (x.state ≠ .free → x.owner = o → (∀ v, v ∈ x.waiters → v.who ≠ o) → gives .withdraw (some 0x0A) x []) ∧
      (∀ w pre post, x.state ≠ .free → x.owner = o → x.waiters = pre ++ w :: post → (∀ v, v ∈ pre → v.who ≠ o) → w.who = o →
        gives .withdraw (some 0x0A) { x with waiters := pre ++ post } []) ∧
      (∀ w pre post, (x.state = .free ∨ x.owner ≠ o) → x.waiters = pre ++ w :: post → (∀ v, v ∈ pre → v.who ≠ o) → w.who = o →
        gives .withdraw (some 0x0C) { x with waiters := pre ++ post } []) ∧
      ((x.state = .free ∨ x.owner ≠ o) → (∀ v, v ∈ x.waiters → v.who ≠ o) → gives .withdraw (some 0x0D) x [])) ∧
    (∀ c : Instr × BitVec 6, c ∈ [(.acquire, 1), (.lockTry, 2), (.lockWait, 3), (.lockRelease, 4), (.withdraw, 5)] →
      LockHead s c.2 f fs →
      ((f.hops == 0) ≠ (lwDev f.data == ownId s) → gives c.1 (some 0x0E) x []) ∧
      ((f.hops == 0) = (lwDev f.data == ownId s) → groupAdmits s (n / 64) o = false →
        gives c.1 (some 7) x [refuse] ∧ counted refuse 16 c.1)) ∧
    (∀ k, LockHead s 8 f fs → gives (.force k) (some 0x0E) x [])

/-- The lock unit's command port, FORCE, reset notices and INH_EN (R338, R341, R345, R346, R347, R348, R351). -/
def Obligations.LockPortAndResets : Prop :=
  ∀ (s : State), s.lck.direct.length < 64 → blockTx s siteLck = [] →
    let cmd := breg .lck 0x20
    let res := breg .lck 0x24
    let abnc := breg .lck 0x10
    let busy := (lckCmd s).1
    let shows (n : Nat) (code : Nat) (t : State) : Prop := t.flag cmd 31 = false ∧ t.flag cmd 30 = true ∧
      t.fld res 0 8 = code ∧ t.fld res 16 12 = n
    (∀ (req : Requester) (v : Reg32), unserved req s = false → (busy = true ∨ (req ≠ .host ∧ req ≠ .mc)) → ∃ t, exec (.lckCmdGo req v) s = .next t ∧
      OnlyRegs [breg .lck 4] s t ∧ t.flag (breg .lck 4) 31 = true) ∧
    (s.profile ≠ .p0100 →
      (∀ (req : Requester) (v : Reg32), unserved req s = false → busy = false → (req = .host ∨ req = .mc) → v.getLsbD 28 = true →
        let fn : BitVec 6 := v.extractLsb' 16 6
        (fn ∈ ([1, 2, 3, 4, 5, 8] : List (BitVec 6)) → ∃ t, exec (.lckCmdGo req v) s = .next t ∧ t.flag cmd 31 = true ∧
          t.fld cmd 16 6 = fn.toNat ∧ t.fld cmd 0 12 = (v.extractLsb' 0 12).toNat ∧ t.lck = { s.lck with cmdMc := req == .mc } ∧
          RegsBut [cmd] s t) ∧
        (fn ∉ ([1, 2, 3, 4, 5, 8] : List (BitVec 6)) → ∃ t, exec (.lckCmdGo req v) s = .next t ∧
          shows (v.extractLsb' 0 12).toNat 0x0E t ∧ t.lck = { s.lck with cmdMc := req == .mc } ∧ RegsBut [cmd, res] s t)) ∧
      (busy = true → s.lck.notices = [] → ∀ n, s.fld cmd 0 12 = n →
        let o : Owner := if s.lck.cmdMc = true then .mc else .host
        let x := s.lock n
        (s.fld cmd 16 6 = 2 → groupAdmits s (n / 64) o = true → x.state = .free → ∃ t, exec .lockTry s = .next t ∧
          shows n (if x.abn = true then 2 else 1) t ∧ LockBecomes n { x with state := .held, abn := false, owner := o } s t) ∧
        (s.fld cmd 16 6 = 4 → groupAdmits s (n / 64) o = true → x.state = .held → x.owner = o → x.waiters = [] →
          ∃ t, exec .lockRelease s = .next t ∧ shows n 6 t ∧
          LockBecomes n { state := .free, abn := x.abn, owner := .none, waiters := [] } s t) ∧
        (s.fld cmd 16 6 = 1 → ∃ t, exec .acquire s = .next t ∧ shows n 0x0E t ∧ LockBecomes n x s t)) ∧
      (busy = false → s.lck.notices = [] → (∀ f fs, s.lck.intake = f :: fs → tagFn f.tag ≠ 8) → ∀ n : BitVec 12,
        let x := s.lock n.toNat
        (x.state ≠ .free → ∃ t, exec (.force n) s = .next t ∧ shows n.toNat 6 t ∧ t.fld cmd 16 6 = 8 ∧ t.fld cmd 0 12 = n.toNat ∧
          t.fld abnc 16 16 = min 65535 (s.fld abnc 16 16 + 1) ∧ LockBecomes n.toNat (passedLock n true x).1 s t ∧
          (x.waiters = [] → t.lock n.toNat = { state := .free, abn := true, owner := .none, waiters := [] })) ∧
        (x.state = .free → ∃ t, exec (.force n) s = .next t ∧ shows n.toNat 0x0F t ∧ LockBecomes n.toNat x s t ∧
          t.fld abnc 16 16 = s.fld abnc 16 16))) ∧
    (∀ m ms, s.stored → s.lck.notices = m :: ms → ∃ t, exec .resetNotice s = .next t ∧ t.lck.notices = ms ∧ SameMemories s t ∧
      t.engines = s.engines ∧ ∀ k, k < 4096 →
        let x := { s.lock k with waiters := (s.lock k).waiters.filter (fun w => !m.names w.who) }
        t.lock k = (if x.state = .held ∧ m.names x.owner = true then
          (if m.service = true then { x with state := .stuck } else (passedLock (BitVec.ofNat 12 k) true x).1) else x)) ∧
    (∀ m ms (f : Flit) fs, s.stored → s.lck.notices = m :: ms → m.service = true → busy = false → s.lck.intake = f :: fs →
      tagFn f.tag = 4 → (f.hops == 0) = (lwDev f.data == ownId s) →
      let n := (f.tag.extractLsb' 28 12 : BitVec 12).toNat
      let x := s.lock n
      groupAdmits s (n / 64) (wordOwner f.data) = true → x.state = .held → x.owner = wordOwner f.data →
      m.names x.owner = true → ∃ t, exec .lockRelease s = .next t ∧ t.lck.notices = ms ∧ t.lck.intake = fs ∧
        t.lock n = { x with state := .stuck, waiters := x.waiters.filter (fun w => !m.names w.who) }) ∧
    (∀ req : Requester, unserved req s = false → (req = .host ∨ req = .mc) → ∃ t, exec (.inhDisable req) s = .next t ∧ t.flag (breg .lck 0) 0 = false ∧
      RegsBut [breg .lck 0] s t ∧ t.lck.locks = s.lck.locks ∧
      ∀ (d : BitVec 14) p, SMap.get s.lck.inh d.toNat none = some p →
        SMap.get t.lck.inh d.toNat none = none ∧ DirectMsg.inh d none ∈ t.lck.direct)

/-- The states of a Runner link (R359, R362, R377, R384, R415, R488). Where a clause meets a point that the spec leaves
open, it states the model's choice (assumption log 47 and 109). -/
def Obligations.LinkTraining : Prop :=
  ∀ (s : State) (n : LinkNo), s.opState ≠ .off →
    let k := n.val
    let x := link s k
    let st := linkState s k
    let cnt := rlink k 0x18
    let enters (i : Instr) (dst : Nat) : Prop := ∃ t, EntersState i n dst s t
    (st = 1 → linkWaited s k 1000000 = true → scanDrives s = false →
      ∃ t, EntersState (.linkDetect n) n 2 s t ∧ t.fld (rlink k 4) 12 4 = 15) ∧
    (scanDrives s = true → ∀ c, c ∈ [Instr.linkDetect n, .linkDownRestart n] → exec c s = .next s) ∧
    (∀ peer : Peer, scanDrives s = true → exec (.linkTrainStep n peer) s = .next s) ∧
    (∀ peer : Peer, scanDrives s = false → (∀ lim, phaseLimit st = some lim → linkWaited s k lim = false) →
      (st = 2 → enters (.linkTrainStep n peer) 3) ∧ (st = 3 → enters (.linkTrainStep n peer) 4) ∧
      (st = 4 → ∃ t, EntersState (.linkTrainStep n peer) n 5 s t ∧ EventRaised (1952 + k) s.time.now s t ∧
        link t k = { newSession x with since := s.time.now, upAt := s.time.now } ∧
        t.fld (rlink k 4) 16 12 = peer.id.toNat ∧ t.fld (rlink k 4) 28 3 = peer.port.toNat ∧ t.rd64 (rlink k 8) = peer.uid) ∧
      (st = 6 → ∃ t, EntersState (.linkTrainStep n peer) n 5 s t ∧ EventRaised (1952 + k) s.time.now s t ∧
        link t k = { x with resend := x.replay, replays := 0, since := s.time.now, upAt := s.time.now })) ∧
    (∀ (peer : Peer) lim, phaseLimit st = some lim → linkWaited s k lim = true → exec (.linkTrainStep n peer) s = .next s) ∧
    (∀ lim, phaseLimit st = some lim → linkWaited s k lim = true → ∃ t, EntersState (.linkStateTimeout n) n 7 s t ∧
      EventRaised (1952 + k) s.time.now s t ∧ t.fld cnt 16 16 = min 65535 (s.fld cnt 16 16 + 1) ∧
      t.fld (rlink k 0x1C) 0 16 = min 65535 (s.fld (rlink k 0x1C) 0 16 + x.replay.length) ∧
      link t k = { x with since := s.time.now, replay := [], resend := [], part := [] }) ∧
    (st = 7 → scanDrives s = false → s.flag (rlink k 0) 1 = true → linkWaited s k 10000000 = true → enters (.linkDownRestart n) 1) ∧
    (st = 5 → ∃ t, EntersState (.linkRetrain n) n 6 s t ∧ t.fld cnt 0 16 = min 65535 (s.fld cnt 0 16 + 1)) ∧
    (st ≠ 5 → exec (.linkRetrain n) s = .next s) ∧
    (∀ (req : Requester) (v : Reg32), unserved req s = false → (req = .host ∨ req = .mc ∨ req = .relay) →
      (v.getLsbD 0 = false → st ≠ 0 → ∃ t, EntersState (.runCtlWrite req n v) n 0 s t ∧ t.fld (rlink k 0) 0 2 = (v.extractLsb' 0 2).toNat) ∧
      (v.getLsbD 0 = true → st = 0 → linkPowered s k = true → scanDrives s = false → enters (.runCtlWrite req n v) 1) ∧
      (v.getLsbD 0 = true → v.getLsbD 2 = true → st = 5 → enters (.runCtlWrite req n v) 6) ∧
      (v.getLsbD 0 = true → v.getLsbD 2 = false → st ≠ 0 → ∃ t, exec (.runCtlWrite req n v) s = .next t ∧
        OnlyRegs [rlink k 0] s t ∧ t.fld (rlink k 0) 0 2 = (v.extractLsb' 0 2).toNat)) ∧
    (∀ (req : Requester) (v : Reg32), req ≠ .host → req ≠ .mc → req ≠ .relay → ∃ t, exec (.runCtlWrite req n v) s = .next t ∧
      OnlyRegs [breg .dev 0x10] s t ∧ t.fld (breg .dev 0x10) 0 32 = min (2 ^ 32 - 1) (s.fld (breg .dev 0x10) 0 32 + 1))

/-- The frames of an ACTIVE link: what it accepts, what it replays and what it sends (R356, R357, R358, R361, R362,
R363, R364, R365, R367, R456). Where a clause meets a point that the spec leaves open, it states the model's choice
(assumption log 24). -/
def Obligations.LinkFrames : Prop :=
  ∀ (s : State) (n : LinkNo) (f : BitVec 256),
    let k := n.val
    let x := link s k
    let p := frPayload f
    let err := rlink k 0x14
    let y := frameApplied s n f
    let replayed (z : Link) (i : Instr) : Prop :=
      (z.replays + 1 < s.fld (rlink k 0x10) 16 8 → ∃ t, exec i s = .next t ∧ OnlyLink n [err] s t ∧
        t.fld err 16 16 = min 65535 (s.fld err 16 16 + 1) ∧ link t k = { z with resend := z.replay, replays := z.replays + 1 }) ∧
      (s.fld (rlink k 0x10) 16 8 ≤ z.replays + 1 → ∃ t, EntersState i n 6 s t ∧ (link t k).resend = z.replay)
    (s.opState ≠ .off → linkState s k = 5 → ∃ t, exec (.badFrame n) s = .next t ∧ OnlyLink n [err] s t ∧
      t.fld err 0 16 = min 65535 (s.fld err 0 16 + 1) ∧
      link t k = (if x.nak = true then x else { x with nak := true, nakDue := true })) ∧
    (FrameIn s n f 0 → ∃ t, exec (.idleFrame n f) s = .next t ∧ OnlyLink n [rlink k 4] s t ∧
      t.fld (rlink k 4) 16 12 = (p.extractLsb' 100 12).toNat ∧
      (∀ c, c < 6 → SMap.get (link t k).returned c 0 = p.extractLsb' (112 + 8 * (5 - c)) 8) ∧
      link t k = { y with returned := (link t k).returned }) ∧
    (FrameNext s n f 1 →
      let z := frameAccepted s n f
      (∀ c, rxQueue z p = some c → SMap.get s.dropping (qkey (siteRun k) true c) false = false →
        ∃ t, exec (.flitFrame n f) s = .next t ∧ link t k = { z with part := partAfter p c z.part } ∧
        t.q (qkey (siteRun k) true c) = s.q (qkey (siteRun k) true c) ++ [p] ∧
        (∀ j, j ≠ qkey (siteRun k) true c → t.q j = s.q j) ∧ t.rd64 (rlink k 0x2C) = s.rd64 (rlink k 0x2C) + 1 ∧
        SameMemories s t ∧ t.engines = s.engines) ∧
      (rxQueue z p = none → ∃ t, exec (.flitFrame n f) s = .next t ∧ t.queues = s.queues ∧
        (let c := (Flit.vc p).toNat
         link t k = { z with left := SMap.set z.left c (SMap.get z.left c 0 + 1) 0 }) ∧
        (let d := blockDetect 0x42 (BitVec.ofNat 8 (siteRun k)) p
         CollectorFree d s → RecordOpened d s t))) ∧
    (FrameIn s n f 1 → frSeq f ≠ x.expect → (frSeq f - x.expect).toNat < 128 → ∃ t, exec (.flitFrame n f) s = .next t ∧
      OnlyLink n [] s t ∧ link t k = (if y.nak = true then y else { y with nak := true, nakDue := true })) ∧
    (FrameIn s n f 2 → replayed y (.nak n f)) ∧
    (linkState s k = 5 → x.replay ≠ [] → replayed x (.replayTimeout n)) ∧
    (s.opState ≠ .off → linkState s k = 5 → s.sieve.diverged.contains 0x43 = false →
      let sends (y : Link) : Prop := ∃ t, exec (.frameSlot n) s = .next t ∧ link t k = y ∧ (∀ j, j ≠ k → link t j = link s j) ∧
        t.queues = s.queues ∧ SameMemories s t ∧ t.regs = s.regs
      let quiet := x.resend = [] ∧ x.nakDue = false ∧ x.tsyncTx = []
      (∀ q fr fs, x.resend = (q, fr) :: fs → sends { afterSend x fr.ftype q x.got fr.payload with resend := fs }) ∧
      (x.resend = [] → x.nakDue = true → sends { afterSend x 2 0 true 0 with nakDue := false }) ∧
      (∀ d ds, x.resend = [] → x.nakDue = false → x.tsyncTx = d :: ds →
        sends { afterSend x 3 0 x.got (tsyncPayload s d) with tsyncTx := ds }) ∧
      (∀ d ds, quiet → x.noticeTx = d :: ds → mgmtReady x = true → sends (countSent 6 { afterNew x 5 d with noticeTx := ds })) ∧
      (∀ d ds, quiet → x.noticeTx = [] → x.mgmtTx = d :: ds → mgmtReady x = true →
        sends (countSent 6 { afterNew x 4 d with mgmtTx := ds })) ∧
      let whole := rtBusy s = false ∧ (∀ j, j < 3 → discarding s k j = false) ∧
        ∀ j, j < 3 → SMap.get s.owed (qkey (siteRun k) false j) 0 = 0 ∧ SMap.get s.appends (qkey (siteRun k) false j) 0 = 0
      (quiet → x.noticeTx = [] → x.mgmtTx = [] → whole → txChoice s k = none → sends (afterSend x 0 0 x.got (idlePayload s x))) ∧
      (∀ c (g : Flit) fs, quiet → x.noticeTx = [] → x.mgmtTx = [] → whole → txChoice s k = some c → x.replay.length < 128 →
        let qk := qkey (siteRun k) false c
        s.q qk = g :: fs → checkFlit g = .clean → g.follow = 0 → holdAt s (holdQueue qk) = none → g.hops.toNat < 16 →
        let code := txCode s k c g
        let out : Flit := sealFlit (put (putBit g 152 (decide (code % 2 = 1))) 0 (g.hops + 1))
        ∃ t, exec (.frameSlot n) s = .next t ∧ t.q qk = fs ∧ (∀ j, j ≠ qk → t.q j = s.q j) ∧
          link t k = countSent code (afterNew x 1 out) ∧ SameMemories s t ∧
          t.rd64 (rlink k 0x24) = s.rd64 (rlink k 0x24) + 1)) ∧
    (s.opState ≠ .off → linkState s k = 6 → exec (.frameSlot n) s = .next s) ∧
    (s.opState ≠ .off → linkState s k ≠ 5 → linkState s k ≠ 6 → ∀ c (g : Flit) fs, c < 3 →
      (∀ j, j < c → s.q (qkey (siteRun k) false j) = []) → (∀ j, j < 3 → discarding s k j = false) →
      (∀ j, j ≤ c → SMap.get s.owed (qkey (siteRun k) false j) 0 = 0) → SMap.get s.appends (qkey (siteRun k) false c) 0 = 0 →
      let qk := qkey (siteRun k) false c
      s.q qk = g :: fs → g.follow = 0 → holdAt s (holdQueue qk) = none →
      ∃ t, exec (.frameSlot n) s = .next t ∧ t.q qk = fs ∧ (∀ j, j ≠ qk → t.q j = s.q j) ∧
        t.fld (rlink k 0x1C) 0 16 = min 65535 (s.fld (rlink k 0x1C) 0 16 + 1) ∧ SameMemories s t ∧
        (let d : Detection := { Detection.bare 0x4F with
           locus := BitVec.ofNat 16 k, a := BitVec.ofNat 64 (t.fld (rlink k 0x1C) 0 16) }
         CollectorFree d s → RecordOpened d s t))

/-- Management frames, notices and routing entries (R346, R369, R371, R372, R373, R374, R375, R378, R398, R404). Where a
clause meets a point that the spec leaves open, it states the model's choice (assumption log 25, 68 and 69). -/
def Obligations.FabricManagement : Prop :=
  ∀ (s : State) (n : LinkNo) (f : BitVec 256),
    let k := n.val
    let p := frPayload f
    let z := mgmtAccepted s n f
    let here (op : BitVec 4) : Prop := FrameNext s n f 4 ∧ mgTarget p = true ∧ mgOp p = op
    let answers (i : Instr) (status : BitVec 8) (data : Word) (off : BitVec 16) (t : State) : Prop := ∃ q : BitVec 160,
      exec i s = .next t ∧ link t k = { z with mgmtTx := z.mgmtTx ++ [q] } ∧ (∀ j, j ≠ k → link t j = link s j) ∧
      mgOp q = mgOp p ||| 8 ∧ mgTag q = mgTag p ∧ mgPlen q = mgPlen p ∧ mgHidx q = mgHidx p ∧ mgStatus q = status ∧
      mgData q = data ∧ mgOff q = off ∧ mgPath q (mgHidx p).toNat = BitVec.ofNat 3 k ∧ SameMemories s t ∧ t.engines = s.engines
    (here 1 → ∃ t, answers (.probe n f) 0 Config.uid
      (BitVec.ofBool (s.flag (breg .run 0) 31) ++ BitVec.ofNat 3 k ++ ownId s) t ∧ t.regs = s.regs) ∧
    (here 2 → (∀ v, (readRun .relay (mgOff p).toNat s).1 = some v →
        ∃ t, answers (.rd n f) 0 (v.setWidth 64) (mgOff p) t ∧ t.regs = s.regs) ∧
      ((readRun .relay (mgOff p).toNat s).1 = none → ∃ t, answers (.rd n f) 3 0 (mgOff p) t)) ∧
    (here 3 → (s.flag (breg .run 4) 0 = true → ∃ t, answers (.wr n f) 2 (mgData p) (mgOff p) t ∧ t.regs = s.regs) ∧
      (s.flag (breg .run 4) 0 = false → (runWritable s (mgOff p).toNat = false ∨ runAbsent s (mgOff p).toNat = true) →
        ∃ t, answers (.wr n f) 3 (mgData p) (mgOff p) t ∧ RegsBut [breg .dev 0x10] s t) ∧
      (s.flag (breg .run 4) 0 = false → mgOff p = 0 → s.flag (breg .run 0) 31 = false → (mgData p).extractLsb' 0 12 ≠ (0 : BitVec 12) →
        ∃ t, answers (.wr n f) 0 (mgData p) 0 t ∧ RegsBut [breg .run 0] s t ∧ ownId t = (mgData p).extractLsb' 0 12)) ∧
    (here 4 →
      let a : BitVec 24 := mgTag p ++ mgOff p
      let w : BitVec 23 := a.extractLsb' 0 23
      (s.opState = .boot → a.getLsbD 23 = false → s.flag (breg .run 4) 0 = true → ∃ t, exec (.img n f) s = .next t ∧
        OnlyLink n [] s t ∧ link t k = z) ∧
      (s.opState = .boot → a.getLsbD 23 = false → s.flag (breg .run 4) 0 = false → wordBad s w = false → s.mark (wbyte w) = .clean →
        ∃ t, exec (.img n f) s = .next t ∧ link t k = z ∧ grnWord t w = mgData p ∧ OnlyWord w s t ∧
          presOf t w = presOf s w ∧ t.rd (breg .run 0x10) = s.rd (breg .run 0x10) + 1) ∧
      ((s.opState ≠ .boot ∨ a.getLsbD 23 = true) → ∃ t, exec (.img n f) s = .next t ∧ link t k = z ∧ SameMemories s t ∧
        t.fld (rlink k 0x1C) 16 16 = min 65535 (s.fld (rlink k 0x1C) 16 16 + 1))) ∧
    (FrameNext s n f 4 → mgTarget p = false →
      let q := mgArrived n.val p
      let dst : Fin 8 := (mgPath q (mgHidx q).toNat).toFin
      (mgBad p = true → ∃ t, exec (.mgmtForward n f) s = .next t ∧ OnlyLink n [rlink k 0x1C] s t ∧ link t k = z ∧
        t.fld (rlink k 0x1C) 16 16 = min 65535 (s.fld (rlink k 0x1C) 16 16 + 1)) ∧
      (mgBad p = false → mgRequest p = true → 15 ≤ (mgHidx p).toNat → ∃ t, exec (.mgmtForward n f) s = .next t ∧
        OnlyLink n [rlink k 0x1C] s t ∧ link t k = z ∧
        t.fld (rlink k 0x1C) 16 16 = min 65535 (s.fld (rlink k 0x1C) 16 16 + 1)) ∧
      (mgBad p = false → mgRequest p = false → mgHidx p ≠ 0 →
        let r : BitVec 160 := put p 151 (mgHidx p - 1)
        let back : Fin 8 := (mgPath r (mgHidx r).toNat).toFin
        back.val ≠ k → ∃ t, exec (.mgmtForward n f) s = .next t ∧ link t k = z ∧ t.regs = s.regs ∧
          link t back.val = { link s back.val with mgmtTx := (link s back.val).mgmtTx ++ [r] }) ∧
      (mgBad p = false → mgRequest p = true → (mgHidx p).toNat + 1 < (mgPlen p).toNat →
        (linkState s dst.val = 5 → dst.val ≠ k → ∃ t, exec (.mgmtForward n f) s = .next t ∧ link t k = z ∧
          link t dst.val = { link s dst.val with mgmtTx := (link s dst.val).mgmtTx ++ [q] } ∧ mgHidx q = mgHidx p + 1 ∧
          mgPath q (mgHidx p).toNat = BitVec.ofNat 3 k ∧ mgData q = mgData p ∧ mgOp q = mgOp p) ∧
        (linkState s dst.val ≠ 5 → mgOp p ≠ 4 → ∃ t, answers (.mgmtForward n f) 1 (mgData p) (mgOff p) t)) ∧
      (mgBad p = false → mgRequest p = false → mgHidx p = 0 → s.flag (breg .run 0) 31 = true →
        s.fabric.out.any (fun o => o.tag == mgTag p) = true → s.fabric.responses.length < 16 →
        ∃ t, exec (.mgmtForward n f) s = .next t ∧ link t k = z ∧ EventRaised 1938 s.time.now s t ∧
          t.fabric.out = s.fabric.out.filter (fun o => o.tag != mgTag p) ∧
          t.fabric.responses = s.fabric.responses ++ [{
            mop := mgOp p, timeout := false, tag := mgTag p, status := mgStatus p, off := mgOff p, data := mgData p }]) ∧
      (mgBad p = false → mgRequest p = false → mgHidx p = 0 → s.flag (breg .run 0) 31 = true →
        s.fabric.out.any (fun o => o.tag == mgTag p) = true → 16 ≤ s.fabric.responses.length →
        ∃ t, exec (.mgmtForward n f) s = .next t ∧ link t k = z ∧ t.dib = s.dib ∧ t.fabric.responses = s.fabric.responses ∧
          t.fabric.out = s.fabric.out.filter (fun o => o.tag != mgTag p))) ∧
    (FrameNext s n f 5 →
      let odev : BitVec 12 := p.extractLsb' 148 12
      let pair := (odev, (p.extractLsb' 136 8 : BitVec 8))
      let hops : BitVec 5 := p.extractLsb' 131 5
      let known := odev = ownId s ∨ pair ∈ s.fabric.seen
      (known → ∃ t, exec (.notice n f) s = .next t ∧ OnlyLink n [] s t ∧ link t k = z) ∧
      (¬ known → ∃ t, exec (.notice n f) s = .next t ∧ link t k = z ∧ t.fabric.seen = (pair :: s.fabric.seen).take 16 ∧
        RegsBut [breg .run 0xC] s t ∧ t.fld (breg .run 0xC) 0 12 = odev.toNat ∧ t.flag (breg .run 0xC) 31 = true ∧
        t.fld (breg .run 0xC) 24 4 = ((p.extractLsb' 144 4 : BitVec 4)).toNat ∧ t.fld (breg .run 0xC) 16 3 = k ∧
        EventRaised (1960 + k) s.time.now s t ∧
        t.lck.notices = s.lck.notices ++ [{ who := .none, dev := some odev, service := s.opState == .service }] ∧
        (∀ j, j < 8 → j ≠ k → link t j = (if s.flag (breg .run 4) 2 = true ∧ hops.toNat < 16 ∧ linkState s j = 5 then
          { link s j with noticeTx := (link s j).noticeTx ++ [put p 131 (hops + 1)] } else link s j)))) ∧
    (∀ o os, s.fabric.out = o :: os → o.at_.toNat + 100000 ≤ now s → s.fabric.responses.length < 16 →
      ∃ t, exec .mgmtTimeout s = .next t ∧ EventRaised 1938 s.time.now s t ∧
        t.fabric.out = s.fabric.out.filter (fun m => m.tag != o.tag) ∧
        t.fabric.responses = s.fabric.responses ++ [{ mop := o.mop, timeout := true, tag := o.tag, status := 0, off := 0, data := 0 }]) ∧
    (∀ (r : Fin 1024) (req : Requester) (v : Reg32), unserved req s = false → (req = .host ∨ req = .mc ∨ req = .relay) →
      let a := breg .run (0x4000 + 4 * r.val)
      v &&& 0x70707070 = 0 → ∃ t, exec (.runRtWrite req r v) s = .next t ∧ RegsBut [a] s t ∧ t.rd a = v ∧
        t = { s with regs := t.regs, free := t.free,
                     fabric := { s.fabric with rtOld := t.fabric.rtOld, rtUntil := t.fabric.rtUntil } } ∧
        (rtBusy s = false → ∀ d : BitVec 12, d.toNat / 4 = r.val → rtEntry t d = rtEntry s d ∨
          rtEntry t d = v.extractLsb' (8 * (d.toNat % 4)) 8))

/-- The plot clocks and supplies, the power ceiling, the detectors and the link domains (R415, R416, R417, R418, R420,
R421, R423, R424, R432, R433, R438, R456). Where a clause meets a point that the spec leaves open, it states the model's
choice (assumption log 27, 50, 51, 52, 70, 89 and 122). -/
def Obligations.PowerAndClocks : Prop :=
  ∀ (s : State), s.opState ≠ .off →
    (∀ (p : PlotNo) (req : Requester) (v : Reg32),
      let k := p.val
      let t0 : Nat := (v.extractLsb' 0 6 : BitVec 6).toNat
      let eff := if v.getLsbD 8 = true then t0 else min t0 (ceilCode s)
      (unserved req s = false → (req = .host ∨ req = .mc) → 8 ≤ t0 → t0 ≤ 32 → ∃ t, exec (.clkPlotReqWrite req p v) s = .next t ∧
        RegsBut [clkReq k, clkStat k, breg .pwr 0] s t ∧ t.fld (clkReq k) 0 6 = t0 ∧ t.flag (clkReq k) 8 = v.getLsbD 8 ∧
        effCode t k = eff ∧ curCode t k = curCode s k ∧
        (plotOn s k = true → s.flag (clkStat k) 30 = false → s.power.frozen = false → reacting s = false → curCode s k ≠ eff →
          t.flag (clkStat k) 31 = true)) ∧
      (req ≠ .host → req ≠ .mc → ∃ t, exec (.clkPlotReqWrite req p v) s = .next t ∧ OnlyRegs [breg .clk 0] s t ∧
        t.flag (breg .clk 0) 31 = true)) ∧
    (∀ p : PlotNo, plotOn s p.val = true → s.power.frozen = false →
      let k := p.val
      let cur := curCode s k
      let eff := effCode s k
      let want := ldoWant s k eff
      let need := vcoreNeed s
      let stat := clkStat k
      (s.flag stat 30 = false → reacting s = false → s.flag (ldoReg k) 31 = true →
        (eff < cur → ∃ t, exec (.dvfsStep p) s = .next t ∧ curCode t k = cur - 1 ∧ RegsBut [stat] s t) ∧
        (cur < eff → want ≤ ldoOut s k → ∃ t, exec (.dvfsStep p) s = .next t ∧ curCode t k = cur + 1 ∧ RegsBut [stat] s t) ∧
        ((cur < eff ∧ ldoOut s k < want ∨ cur = eff ∧ ldoOut s k ≠ want) →
          (vcore s < need → ∃ t, exec (.dvfsStep p) s = .next t ∧ vcore t = need ∧ RegsBut [stat, breg .pwr 0x30] s t) ∧
          (need ≤ vcore s → ∃ t, exec (.dvfsStep p) s = .next t ∧ ldoOut t k = want ∧ t.flag (ldoReg k) 31 = false ∧
            RegsBut [stat, ldoReg k] s t ∧ t.flag stat 31 = (s.flag stat 31 || decide (cur ≠ eff)))) ∧
        (cur = eff → ldoOut s k = want → vcore s ≠ need → ∃ t, exec (.dvfsStep p) s = .next t ∧ vcore t = need ∧
          RegsBut [stat, breg .pwr 0x30] s t) ∧
        (cur = eff → ldoOut s k = want → vcore s = need → ∃ t, exec (.dvfsStep p) s = .next t ∧ RegsBut [stat] s t ∧
          t.flag stat 31 = false ∧ curCode t k = cur)) ∧
      (s.flag stat 30 = false → reacting s = true → s.flag stat 31 = true → s.flag (ldoReg k) 31 = true →
        ∃ t, exec (.dvfsStep p) s = .next t ∧ OnlyRegs [stat] s t ∧ t.flag stat 31 = false ∧ t.flag stat 29 = true ∧
        curCode t k = cur) ∧
      (reacting s = true → s.flag stat 31 = true → s.flag (ldoReg k) 31 = false → ∃ t, exec (.ldoSettled p) s = .next t ∧
        t.flag stat 31 = false ∧ t.flag stat 29 = true ∧ curCode t k = cur) ∧
      (s.flag (ldoReg k) 31 = false → ∃ t, exec (.ldoSettled p) s = .next t ∧
        OnlyRegs [ldoReg k, stat] { s with upkeep := t.upkeep } t ∧ (s.flag stat 31 = false → t.upkeep = s.upkeep) ∧
        (s.flag stat 31 = true → SMap.get t.upkeep.moved k false = true) ∧
        t.flag (ldoReg k) 31 = true ∧ ldoOut t k = ldoOut s k ∧ (s.flag stat 31 = false → t.flag stat 31 = false)) ∧
      (s.flag stat 30 = false → ∃ t, exec (.ppllUnlock p) s = .next t ∧ curCode t k = 8 ∧ t.flag stat 30 = true ∧
        t.flag stat 31 = false ∧ t.fld stat 16 8 = min 255 (s.fld stat 16 8 + 1) ∧ SameMemories s t ∧ t.engines = s.engines ∧
        (let d : Detection := { Detection.bare 0x25 with
           plot := some p, locus := BitVec.ofNat 16 k, a := BitVec.ofNat 64 cur, b := 8 }
         CollectorFree d s → RecordOpened d s t)) ∧
      (s.flag stat 30 = true → ∃ t, exec (.ppllRelock p) s = .next t ∧ RegsBut [stat] s t ∧ t.flag stat 30 = false ∧
        curCode t k = cur ∧ (eff ≠ 8 → reacting s = false → cur ≠ eff → t.flag stat 31 = true))) ∧
    (∀ w : BitVec 16, reacting s = false → s.power.frozen = false → s.sieve.diverged.contains 0x46 = false →
      let c := ceilCode s
      let m := topTarget s
      let fmin := s.fld (breg .pwr 0xC) 0 6
      let l := capLimit s
      let spare := if w.toNat + 500 < l then min 10 (s.power.spare + 1) else 0
      let next := if s.power.hot = true then max 8 (min c m - 2) else if l < w.toNat then max fmin (min c m - 2)
        else if c < fmin ∨ 10 ≤ spare then min 32 (c + 2) else c
      ∃ t, exec (.ceilingEval w) s = .next t ∧ ceilCode t = next ∧ t.power.spare = spare ∧ t.fld (breg .pwr 4) 0 16 = w.toNat ∧
        (s.power.overs = 99 → next = fmin → l < w.toNat → t.flag (breg .pwr 0) 2 = true ∧
          (let d : Detection := { Detection.bare 0x52 with a := BitVec.ofNat 64 (l / 100), b := BitVec.ofNat 16 (w.toNat / 100) }
           CollectorFree d s → RecordOpened d s t))) ∧
    (∀ tj tc : BitVec 12,
      let warn := s.fld (breg .pwr 0x10) 0 8
      ∃ t, exec (.thermalSample tj tc) s = .next t ∧ t.rd (breg .pwr 8) = (0 : BitVec 4) ++ tj ++ (0 : BitVec 4) ++ tc ∧
        ((4 * warn : Int) ≤ tj.toInt → t.flag (breg .pwr 0) 7 = true ∧
          (s.flag (breg .pwr 0) 7 = false → tj.toInt < 460 → EventRaised 1934 s.time.now s t)) ∧
        (tj.toInt < 4 * (warn : Int) - 12 → t.flag (breg .pwr 0) 7 = false) ∧
        ((4 * s.fld (breg .pwr 0x10) 16 8 : Int) ≤ tj.toInt → t.power.hot = true) ∧
        (tj.toInt < 4 * (s.fld (breg .pwr 0x10) 16 8 : Int) - 12 → t.power.hot = false) ∧
        (460 ≤ tj.toInt → s.power.crit = 1 →
          let d : Detection := { Detection.bare 0x62 with a := 460, b := tj.signExtend 16 }
          CollectorFree d s → RecordOpened d s t)) ∧
    (let records (c : PowerDetector) (d : Detection) : Prop := ∃ t, exec (.powerDetectorFault c) s = .next t ∧
       SameMemories s t ∧ t.engines = s.engines ∧ (CollectorFree d s → RecordOpened d s t)
     (∀ (i : BitVec 6) (mv : BitVec 16) v, railSetting s i.toNat = some v →
       (5 * v < 100 * apart v mv.toNat → records (.rail i mv)
         { Detection.bare 0x61 with locus := i.setWidth 16, a := BitVec.ofNat 64 v, b := mv }) ∧
       (100 * apart v mv.toNat ≤ 5 * v → exec (.powerDetectorFault (.rail i mv)) s = .next s)) ∧
     (∀ (p : PlotNo) (mv : BitVec 16), plotOn s p.val = true → s.flag (ldoReg p.val) 31 = true →
       30 < apart (ldoOut s p.val) mv.toNat → records (.ldo p mv) { Detection.bare 0x27 with
         plot := some p, locus := BitVec.ofNat 16 p.val, a := BitVec.ofNat 64 (ldoOut s p.val), b := mv }) ∧
     records .refLoss (Detection.bare 0x63) ∧
     (¬ (s.opState = .boot ∧ bootStep s = 0) → records .pllm (Detection.bare 0x64))) ∧
    (∀ (n : LinkNo) (v : Reg32),
      let k := n.val
      let low := if leastEye v < s.fld (breg .upk 0x50) 16 8 then (link s k).eyeLow + 1 else 0
      linkState s k = 5 → s.flag (breg .upk 0x50) (24 + k) = true → s.upkeep.eyeAt.toNat / 1000000 < now s / 1000000 →
      (∀ j, j < 8 → j ≠ k → linkState s j ≠ 5 ∨ s.flag (breg .upk 0x50) (24 + j) = false) →
      let seen : State := { s with upkeep := { s.upkeep with eyeAt := s.time.now } }
      (low < s.fld (breg .upk 0x50) 12 4 → ∃ t, exec (.linkEyeCheck [(n, v)]) s = .next t ∧ OnlyLink n [rlink k 0x20] seen t ∧
        t.rd (rlink k 0x20) = v ∧ link t k = { link s k with eyeLow := low }) ∧
      (s.fld (breg .upk 0x50) 12 4 ≤ low → (link s k).upAt.toNat + 1000000 * s.fld (breg .upk 0x50) 0 8 ≤ now s →
        ∃ t, EntersState (.linkEyeCheck [(n, v)]) n 6 s t ∧ t.rd (rlink k 0x20) = v ∧ t.upkeep = seen.upkeep ∧
          t.fld (breg .upk 0x54) 16 16 = min 65535 (s.fld (breg .upk 0x54) 16 16 + 1) ∧ t.fld (breg .upk 0x54) 0 3 = k)) ∧
    (∀ (req : Requester) (v : Reg32), unserved req s = false → (req = .host ∨ req = .mc) → s.power.frozen = false →
      let pd := breg .pwr 0x18
      let refused (n : Nat) : Bool := !v.getLsbD n && s.flag pd n && linkState s n != 0
      (reacting s = true →
        exec (.pdreqLinkWrite req v) s = .next { s with power := { s.power with linkAsk := some v } }) ∧
      (reacting s = false → s.power.linkDown = [] → ∃ t, exec (.pdreqLinkWrite req v) s = .next t ∧ RegsBut [pd, breg .pwr 0x24, breg .pwr 0x28, breg .mesh 0x10] s t ∧
        t.fld (breg .pwr 0x28) 24 8 = min 255 (s.fld (breg .pwr 0x28) 24 8 + ((List.range 8).filter refused).length) ∧
        ∀ n : LinkNo, t.flag pd n.val = (v.getLsbD n.val || refused n.val) ∧
          (v.getLsbD n.val = true → linkPowered s n.val = false → n ∈ t.power.linkUp) ∧
          (v.getLsbD n.val = true → linkPowered t n.val = linkPowered s n.val) ∧
          (v.getLsbD n.val = false → s.flag pd n.val = true → linkState s n.val = 0 →
            (linkPowered t n.val = true ↔ n ∈ t.power.linkDown) ∧ n ∉ t.power.linkUp ∧
            (s.queues = [] → s.wleft = [] → s.appends = [] → linkPowered t n.val = false)) ∧
          (refused n.val = true → linkPowered t n.val = linkPowered s n.val))) ∧
    (∀ n : LinkNo, n ∈ s.power.linkUp → s.power.frozen = false → ∃ t, exec (.pdLinkPowerOn n) s = .next t ∧ linkPowered t n.val = true ∧
      n ∉ t.power.linkUp ∧ (linkState s n.val = 0 → s.flag (rlink n.val 0) 0 = true → scanDrives s = false →
        linkState t n.val = 1) ∧ (linkState s n.val ≠ 0 → linkState t n.val = linkState s n.val))

/-- Calibration, scrubbing, march tests on borrowed stripes and the mode epochs (R436, R437, R439, R440, R441, R442,
R443, R444, R446, R448, R449, R456). Where a clause meets a point that the spec leaves open, it states the model's
choice (assumption log 53, 54, 56, 57, 121 and 122). -/
def Obligations.Upkeep : Prop :=
  ∀ (s : State), s.opState ≠ .off →
    let ctl := breg .upk 0x40
    let stat := breg .upk 0x64
    let werr := breg .upk 0x1C
    let tick := breg .upk 0x18
    (∀ (p : PlotNo) (m : BitVec 6), plotGone s p.val = false → s.upkeep.calAt.toNat / 100000 < now s / 100000 → s.flag ctl 31 = true → reacting s = false → s.power.frozen = false →
      SMap.get s.upkeep.moved p.val false = false → s.flag (clkStat p.val) 31 = false → s.flag (clkStat p.val) 30 = false →
      let k := p.val
      let i : Instr := .calEval [{ plot := p, slack := m, cycles := 1024 }, { plot := p, slack := 0, cycles := 1023 }]
      let v := m.toNat
      let trim := trimOf s k
      let may : Bool := !(decide (v < s.fld ctl 6 6) && (decide (trim = trimLimit s 8) || decide (trimRoom s k < trim + 1)))
      let up (n : Nat) : Int := if may = true then min (min (trimLimit s 8) (trim + n)) (trimRoom s k) else trim
      let ends (x : Int) (n : Nat) (t : State) : Prop := exec i s = .next t ∧ trimOf t k = (BitVec.ofInt 5 x).toInt ∧
        SMap.get t.upkeep.above k 0 = n ∧ t.upkeep.moved = [] ∧ t.upkeep.calAt = s.time.now ∧ t.fld (calReg k) 24 6 = v ∧ t.flag (calReg k) 30 = false ∧
        (∀ j : PlotNo, j ≠ p → trimOf t j.val = trimOf s j.val ∧ (plotGone s j.val = false → t.flag (calReg j.val) 30 = true)) ∧
        SameMemories s t ∧ t.engines = s.engines
      let crit := s.fld ctl 18 6
      let n := SMap.get s.upkeep.above k 0 + 1
      (v < crit → ∃ t, ends (up 2) 0 t ∧
        (let d : Detection := { Detection.bare 0x26 with
           plot := some p, locus := BitVec.ofNat 16 k, a := BitVec.ofNat 64 crit
           b := BitVec.ofBool (!may) ++ (0 : BitVec 9) ++ m }
         CollectorFree d s → RecordOpened d s t)) ∧
      (crit ≤ v → v < s.fld ctl 6 6 → ∃ t, ends (up 1) 0 t) ∧
      (crit ≤ v → s.fld ctl 6 6 ≤ v → s.fld ctl 12 6 < v →
        (s.fld ctl 0 6 ≤ n → ∃ t, ends (max (trimLimit s 0) (trim - 1)) 0 t) ∧ (n < s.fld ctl 0 6 → ∃ t, ends trim n t)) ∧
      (crit ≤ v → s.fld ctl 6 6 ≤ v → v ≤ s.fld ctl 12 6 → ∃ t, ends trim 0 t)) ∧
    (now s / 100000 ≤ s.upkeep.calAt.toNat / 100000 → ∀ ms, exec (.calEval ms) s = .next s) ∧
    (s.flag (breg .upk 0x10) 1 = true → now s < s.upkeep.tickAt.toNat + 1000000 * s.fld (breg .upk 0x14) 8 8 / 4096 →
      exec (.scrubTick []) s = .next s) ∧
    (s.flag (breg .upk 0x10) 1 = true → s.upkeep.tickAt.toNat + 1000000 * s.fld (breg .upk 0x14) 8 8 / 4096 ≤ now s →
      let x := s.upkeep.tick
      let ticked (t : State) : Prop := t.upkeep = { s.upkeep with tick := (x + 1) % 4096, tickAt := s.time.now } ∧ t.mem = s.mem ∧ t.pres = s.pres ∧
        (x ≠ 4095 → t.rd tick = s.rd tick) ∧ (x = 4095 → t.fld tick 8 8 = (s.fld tick 8 8 + 1) % 256)
      (s.marks = [] → ∃ t, exec (.scrubTick []) s = .next t ∧ ticked t ∧ t.marks = [] ∧ RegsBut [tick] s t) ∧
      (∀ e : EngNo, x < 4096 → plotOn s (e.val / 17) = true →
        let a := frameBase e.val + 8 * x
        (s.marks = [(a, .single)] → ∃ t, exec (.scrubTick []) s = .next t ∧ ticked t ∧ t.mark a = .clean ∧
          t.fld werr 16 16 = min 65535 (s.fld werr 16 16 + 1)) ∧
        (s.marks = [(a, .double)] → ∃ t, exec (.scrubTick []) s = .next t ∧ ticked t ∧ t.mark a = .double ∧
          t.fld werr 0 16 = min 65535 (s.fld werr 0 16 + 1)))) ∧
    (∀ q : QuadNo, weederHeld s = false → s.flag (breg .upk 0x10) 0 = true →
      let g := SMap.get s.upkeep.gscrub q.val 0
      let ws := groupWords q.val (g / 2048) (g % 2048)
      g + 1 < 262144 → bankState s (128 * q.val + g / 2048) = .on → bankState s (128 * q.val + (g + 1) / 2048) = .on →
      (∀ w, w ∈ ws → borrowed s w = false ∧ wordBad s w = false) →
      ((∀ w, w ∈ ws → s.mark (wbyte w) = .clean) → (∀ u, u ∈ s.port1 → u.at_ ≠ s.time.now) →
        exec (.scrubBurst q [] []) s = .next { s with
          port1 := [{ bank := 128 * q.val + g / 2048, rank := 2, at_ := s.time.now }]
          upkeep := { s.upkeep with gscrub := SMap.set s.upkeep.gscrub q.val (g + 1) 0 } }) ∧
      (∀ w, w ∈ ws → s.mark (wbyte w) = .single → (∀ v, v ∈ ws → v ≠ w → s.mark (wbyte v) = .clean) →
        ∃ t, exec (.scrubBurst q [] []) s = .next t ∧ t.mark (wbyte w) = .clean ∧ SameMemories s t ∧
          t.fld werr 16 16 = min 65535 (s.fld werr 16 16 + 1) ∧ SMap.get t.upkeep.gscrub q.val 0 = g + 1)) ∧
    (∀ q : QuadNo,
      let x := quad s q.val
      let wq := wqReg q.val
      (∀ k, weederHeld s = false → s.flag (breg .upk 0x10) 2 = true → x.borrow = none →
        x.borrowAt.toNat + 10000 * s.fld (breg .upk 0x14) 24 8 ≤ now s → nextStripe s q.val 129 x.march = some k →
        (∀ a m, (a, m) ∈ s.marks → inStripe q.val (k / 32) (k % 32) a = false) →
        (∀ w c, (w, c) ∈ s.pres → inStripe q.val (k / 32) (k % 32) (8 * w) = false) →
        ∃ t, exec (.borrowStart q) s = .next t ∧ OnlyRegs [wq] { s with quads := t.quads } t ∧ t.flag wq 31 = true ∧
          quad t q.val = { x with march := (k + 1) % 4096, borrowAt := s.time.now,
                                  borrow := some {
                                    bank := k / 32, stripe := k % 32, wanted := false
                                    shadow := s.mem.filter (fun c => inStripe q.val (k / 32) (k % 32) c.1)
                                    shadowPres := s.pres.filter (fun c => inStripe q.val (k / 32) (k % 32) (8 * c.1)) } } ∧
          (∀ j : QuadNo, j ≠ q → quad t j.val = quad s j.val)) ∧
      (∀ b, x.borrow = some b → s.pop = none → s.stored →
        let kept (t : State) : Prop := quad t q.val = { x with borrow := none } ∧
          (∀ a, inStripe q.val b.bank b.stripe a = false → t.byte a = s.byte a) ∧
          (b = { shadowOf q.val b.bank b.stripe s with wanted := b.wanted } →
            (∀ a, t.byte a = s.byte a) ∧ ∀ w, presOf t w = presOf s w)
        let recorded (r : MarchRead) (t : State) : Prop := t.flag (breg .upk 0x30) 31 = true ∧
          t.fld (breg .upk 0x30) 14 9 = (128 * q.val + b.bank) % 512 ∧ t.fld (breg .upk 0x30) 0 9 = r.row.toNat ∧
          (let d : Detection := { Detection.bare 0x50 with
             locus := BitVec.ofNat 16 (128 * q.val + b.bank), a := BitVec.ofNat 64 (512 * b.stripe + r.row.toNat) }
           CollectorFree d s → RecordOpened d s t)
        (b.wanted = false → (∃ t, exec (.borrowComplete q []) s = .next t ∧ kept t ∧ t.flag wq 31 = false ∧
            OnlyRegs [wq] { s with quads := t.quads, mem := t.mem, pres := t.pres } t) ∧
          (∀ r rs, r ∈ rs → (∀ m, m ∈ rs → m ≠ r → marchTurn r < marchTurn m) →
            ∃ t, exec (.borrowComplete q rs) s = .next t ∧ kept t ∧ recorded r t)) ∧
        (∀ w, b.wanted = true → (∃ t, exec (.borrowAbort q ⟨w, []⟩) s = .next t ∧ kept t ∧
            OnlyRegs [wq, breg .upk 0x34] { s with quads := t.quads, mem := t.mem, pres := t.pres } t ∧
            t.fld wq 16 8 = max (s.fld wq 16 8) (min w.toNat 96) ∧
            t.fld (breg .upk 0x34) 0 32 = min (2 ^ 32 - 1) (s.fld (breg .upk 0x34) 0 32 + 1)) ∧
          (∀ r rs, r ∈ rs → (∀ m, m ∈ rs → m ≠ r → marchTurn r < marchTurn m) →
            ∃ t, exec (.borrowAbort q ⟨w, rs⟩) s = .next t ∧ kept t ∧ recorded r t ∧
              t.fld (breg .upk 0x34) 0 32 = min (2 ^ 32 - 1) (s.fld (breg .upk 0x34) 0 32 + 1))))) ∧
    (∀ (req : Requester) (v : Reg32),
      ((req ≠ .host ∧ req ≠ .mc) → ∃ t, exec (.epochAdvance req v) s = .next t ∧ OnlyRegs [breg .upk 0] s t ∧
        t.flag (breg .upk 0) 31 = true) ∧
      (unserved req s = false → (req = .host ∨ req = .mc) → v.getLsbD 31 = true →
        ((epochBusy s = true ∨ s.flag stat 1 = true) → ∃ t, exec (.epochAdvance req v) s = .next t ∧
          t.flag (breg .upk 0) 31 = true ∧ OnlyRegs [breg .upk 0] s t ∧ curEpoch t = curEpoch s ∧ t.upkeep = s.upkeep) ∧
        (epochBusy s = false → s.flag stat 1 = false → epochHalted s = false → reacting s = true →
          ∃ t, exec (.epochAdvance req v) s = .next t ∧ t.upkeep = { s.upkeep with asked := true } ∧
          t.fld (breg .upk 0x60) 0 16 = (v.extractLsb' 0 16).toNat ∧ RegsBut [breg .upk 0x60] s t) ∧
        (epochBusy s = false → s.flag stat 1 = false → s.upkeep.asked = false → epochHalted s = false → reacting s = false →
          orderedPlots s ≠ [] → ∃ t, exec (.epochAdvance req v) s = .next t ∧ RegsBut [breg .upk 0x60, stat] s t ∧
          curEpoch t = !curEpoch s ∧ epochBusy t = true ∧ t.fld (breg .upk 0x60) 0 16 = (v.extractLsb' 0 16).toNat ∧
          (∀ p : PlotNo, p ∈ orderedPlots s → t.plot p.val = (let set := !curEpoch s
            let v := s.rd64 (breg .upk (0x1000 + 0x200 * set.toNat + 8 * p.val))
            if set = true then { s.plot p.val with pages1 := v } else { s.plot p.val with pages0 := v })) ∧
          (∀ p : PlotNo, p ∉ orderedPlots s → t.plot p.val = s.plot p.val) ∧ t.upkeep = { s.upkeep with
            waiting := (orderedPlots s).map (fun p => (p, s.time.now)), drainAt := none, asked := false })) ∧
      (unserved req s = false → (req = .host ∨ req = .mc) → v.getLsbD 31 = false → ∃ t, exec (.epochAdvance req v) s = .next t ∧
        OnlyRegs [breg .upk 0x60] s t ∧ t.fld (breg .upk 0x60) 0 16 = (v.extractLsb' 0 16).toNat)) ∧
    (∀ (p : PlotNo) w, epochHalted s = false → (p, w) ∈ s.upkeep.waiting →
      let rest := s.upkeep.waiting.filter (fun k => k.1 != p)
      (∃ t, exec (.epochSwitch p) s = .next t ∧ t.plot p.val = { s.plot p.val with epoch := curEpoch s } ∧
        (∀ j, j ≠ p.val → t.plot j = s.plot j) ∧ t.upkeep.waiting = rest ∧ t.regs = s.regs ∧
        (rest = [] → epochBusy s = true → s.upkeep.drainAt = none → t.upkeep.drainAt = some s.time.now)) ∧
      (s.upkeep.waiting.find? (fun k => k.1 == p) = some (p, w) → w.toNat + 100000 ≤ now s →
        ∃ t, exec (.epochTimeout p) s = .next t ∧ t.upkeep.waiting = rest ∧ t.flag stat 1 = true ∧ t.flag stat 15 = true ∧
          t.fld stat 8 6 = p.val ∧ (t.plot p.val).epochLate = true ∧
          (let d : Detection := { Detection.bare 0x51 with plot := some p, locus := BitVec.ofNat 16 p.val, a := w }
           CollectorFree d s → RecordOpened d s t))) ∧
    (∀ w, s.upkeep.drainAt = some w → epochHalted s = false → w.toNat + 1000 * s.fld (breg .upk 0x60) 0 16 ≤ now s →
      ∃ t, exec .epochRetire s = .next t ∧ epochBusy t = false ∧ curEpoch t = curEpoch s ∧ t.upkeep = { s.upkeep with drainAt := none } ∧
        EventRaised 1931 s.time.now s t ∧ RegsBut [stat] s t)

/-- Detections, the history queue, voting and FIFO resets (R451, R453, R454, R457, R459, R460, R466, R468, R469, R471).
Where a clause meets a point that the spec leaves open, it states the model's choice (assumption log 22, 66, 67, 91, 123
and 143). -/
def Obligations.SieveRecords : Prop :=
  ∀ (s : State),
    let hist := breg .sieve 8
    let records (i : Instr) (d : Detection) : Prop := ∃ t, exec i s = .next t ∧ t.engines = s.engines ∧ t.plots = s.plots ∧
      (CollectorFree d s → RecordOpened d s t)
    (∀ d : Detection, s.opState ≠ .off → listedCode d.code.toNat = true → (d.code.toNat < 0x40 → d.plot.isSome = true) →
      let d' : Detection := { d with inj := d.inj && s.testMode }
      records (.faultDetect d) d' ∧ (∃ t, exec (.faultDetect d) s = .next t ∧ SameMemories s t) ∧
      (∀ r, d.code ≠ 0x43 → s.sieve.safe = none → s.sieve.masks = [] → recOf s (collectorOf d' s) = some r → r.open_ = true →
        mergedReact r d' (reactOf s d.code.toNat) = none → ∃ t r', exec (.faultDetect d) s = .next t ∧
          recOf t (collectorOf d' s) = some r' ∧ r'.merge = (if r.merge = 0xFFFF then r.merge else r.merge + 1) ∧
          r'.last = d.code ∧ r'.react = r.react ∧ r'.recno = r.recno ∧ r'.code = r.code ∧ r'.open_ = true ∧ t.sieve.recno = s.sieve.recno)) ∧
    (∀ c cs r, s.sieve.travel = c :: cs → recOf s c = some r → s.sieve.safe = none →
      let i := (histHead s + histCount s) % 64
      (histCount s < 64 → r.phase = .none → c ∉ cs → c ∉ s.sieve.queue → ∃ t, exec .recordArrival s = .next t ∧ t.sieve.travel = cs ∧
        histAt t i = recOf t c ∧ histCount t = histCount s + 1 ∧ histHead t = histHead s ∧
        recOf t c = some { r with
          hist := some (BitVec.ofNat 6 i), phase := if aboveEvent r.react = true then .queued else .none } ∧
        (r.react ≠ reLog → EventRaised 1936 s.time.now s t) ∧ (r.react = reLog → t.dib.events = s.dib.events) ∧
        t.sieve.queue = (if aboveEvent r.react = true then
          (if r.worstCls = 3 then c :: s.sieve.queue else
            s.sieve.queue.takeWhile (opensFirst s · c) ++ c :: s.sieve.queue.dropWhile (opensFirst s · c))
          else s.sieve.queue)) ∧
      (64 ≤ histCount s → r.cls ≠ 3 → r.react = reLog → ∃ t, exec .recordArrival s = .next t ∧ t.sieve.travel = cs ∧
        t.sieve.hist = s.sieve.hist ∧ recOf t c = some r ∧ t.flag hist 31 = true ∧
        t.fld hist 16 8 = min 255 (s.fld hist 16 8 + 1) ∧ EventRaised 1937 s.time.now s t)) ∧
    (∀ (c : Fin 66) r, recOf s c.val = some r → r.open_ = true → c.val ∉ s.sieve.travel →
      let closes : Prop := ∃ t, exec (.recordClose c) s = .next t ∧ recOf t c.val = none ∧
        (∀ i, r.hist = some i → histAt t i.toNat = some { r with open_ := false, tClose := s.time.now, phase := .done }) ∧
        (∀ k, k ≠ c.val → recOf t k = recOf s k) ∧ t.dib = s.dib
      (r.react = reSafe → exec (.recordClose c) s = .next s) ∧
      (r.react ≠ reSafe → r.phase = .none → aboveEvent r.react = false →
        (r.tDet.toNat + 1000 * s.fld (breg .sieve 0) 8 8 ≤ now s → closes) ∧
        (now s < r.tDet.toNat + 1000 * s.fld (breg .sieve 0) 8 8 → exec (.recordClose c) s = .next s)) ∧
      (∀ k, r.react ≠ reSafe → r.phase = .done → r.tDone = some k → k.toNat + 1000 * s.fld (breg .sieve 0) 0 8 ≤ now s → closes)) ∧
    (∀ (req : Requester) (v : Reg32), unserved req s = false → (req = .host ∨ req = .mc) → v.getLsbD 0 = true →
      (∀ r, histAt s (histHead s) = some r → r.open_ = false → ∃ t, exec (.sieveHistPop req v) s = .next t ∧
        histAt t (histHead s) = none ∧ (∀ i, i ≠ histHead s → histAt t i = histAt s i) ∧
        histHead t = (histHead s + 1) % 64 ∧ (1 ≤ histCount s → histCount t = histCount s - 1) ∧ RegsBut [hist] s t) ∧
      ((∀ r, histAt s (histHead s) = some r → r.open_ = true) → ∃ t, exec (.sieveHistPop req v) s = .next t ∧
        OnlyRegs [breg .sieve 4] s t ∧ t.flag (breg .sieve 4) 31 = true)) ∧
    (∀ (req : Requester) (v : Reg32), unserved req s = false → (req = .host ∨ req = .mc) →
      (v.getLsbD 31 = true → records (.swSafe req v) (Detection.bare 0x67)) ∧
      (∃ t, exec (.swSafe req v) s = .next t ∧ t.flag (breg .sieve 0x38) 0 = v.getLsbD 0 ∧
        (v.getLsbD 31 = false → OnlyRegs [breg .sieve 0x38] s t))) ∧
    (∀ (req : Requester) (v : Reg32), req ≠ .host → req ≠ .mc → ∀ c, c ∈ [Instr.sieveHistPop req v, .swSafe req v] →
      ∃ t, exec c s = .next t ∧ OnlyRegs [breg .sieve 4] s t ∧ t.flag (breg .sieve 4) 31 = true) ∧
    (s.opState ≠ .off → records .mcWdog (Detection.bare 0x66)) ∧
    exec (.votePass none) s = .next s ∧
    (∀ u : VoteUpset, voteWord u.site.toNat u.addr.toNat = false → exec (.votePass (some u)) s = .next s) ∧
    (∀ u : VoteUpset, voteWord u.site.toNat u.addr.toNat = true →
      let d (code : BitVec 8) : Detection :=
        { Detection.bare code with locus := u.site.setWidth 16, a := u.addr.setWidth 64, b := u.copies.setWidth 16 }
      (popcount u.copies = 1 → ∃ t, exec (.votePass (some u)) s = .next t ∧ (CollectorFree (d 0x53) s → RecordOpened (d 0x53) s t) ∧
        t.fld (breg .sieve 0x20) 24 8 = min 255 (s.fld (breg .sieve 0x20) 24 8 + 1) ∧
        t.fld (breg .sieve 0x20) 8 8 = u.site.toNat ∧ t.sieve.diverged = s.sieve.diverged ∧ t.free = s.free) ∧
      (2 ≤ popcount u.copies → ∃ t, exec (.votePass (some u)) s = .next t ∧ u.site ∈ t.sieve.diverged ∧ t.free = s.free + 1 ∧
        SameMemories s t ∧ (u.site = 0x41 → ∀ n, n < 32 → outLevel t n = .z) ∧ (u.site = 0x46 → ceilCode t = 8) ∧
        (64 ≤ u.site.toNat →
          CollectorFree (d 0x65) s → ∃ r, recOf t 64 = some r ∧ r.code = 0x65 ∧ r.open_ = true))) ∧
    (∀ site : FifoSite,
      let n := (emptyFifo site.val s).1
      ∃ t, exec (.fifoPtr site) s = .next t ∧ SameMemories s t ∧ t.engines = s.engines ∧
        t.fld (breg .sieve 0x24) 24 8 = min 255 (s.fld (breg .sieve 0x24) 24 8 + 1) ∧ t.fld (breg .sieve 0x24) 8 8 = site.val ∧
        t.fld (breg .sieve 0x28) 0 32 = min (2 ^ 32 - 1) (s.fld (breg .sieve 0x28) 0 32 + n) ∧
        (site.val = 0 → n = s.dib.intake.length ∧ t.dib.intake = []) ∧ (site.val = 1 → n = s.lck.intake.length ∧ t.lck.intake = []) ∧
        (site.val = 2 → n = s.lck.direct.length ∧ t.lck.direct = []) ∧
        (∀ q : QuadNo, site.val = 3 + q.val → n = (quad s q.val).ring.length ∧ (quad t q.val).ring = []) ∧
        (site.val = 7 → n = s.dib.deadlines.length ∧ t.dib.deadlines = []) ∧
        (site.val = 8 → n = histCount s ∧ t.sieve.hist = [] ∧ (CollectorFree (Detection.bare 0x46) s →
          t.sieve.travel.head? = some 64)) ∧
        (site.val < 8 →
          let d : Detection := { Detection.bare 0x46 with locus := BitVec.ofNat 16 site.val, a := BitVec.ofNat 64 n }
          CollectorFree d s → RecordOpened d s t))

/-- The reactions: start, retirement, plot reset, quarantine, the safe state and completion (R3, R16, R19, R428, R431,
R458, R460, R462, R464, R465, R467, R482). Where a clause meets a point that the spec leaves open, it states the model's
choice (assumption log 89, 123, 125 and 144). -/
def Obligations.SieveReactions : Prop :=
  ∀ (s : State),
    let runs (react : BitVec 3) (c : Nat) (r : Rec) (p : PlotNo) : Prop := s.sieve.running = some c ∧ recOf s c = some r ∧
      r.tplot = some p ∧ s.sieve.runReact = react ∧ r.phase = .running
    let reacted (c : Nat) (t : State) : Prop := ∃ r, recOf t c = some r ∧ r.phase = .acted
    (∀ c cs r, s.sieve.running = none → s.sieve.queue = c :: cs → recOf s c = some r →
      (transiting s = true → exec .reactionStart s = .next s) ∧
      (∀ k x, transiting s = false → s.sieve.safe = some k → k ≠ c → recOf s k = some x → ∃ t, exec .reactionStart s = .next t ∧
        t.sieve.running = none ∧ t.sieve.queue = cs ∧ recOf t c = none ∧ SameMemories s t ∧ t.engines = s.engines ∧
        (∃ y, recOf t k = some y ∧ y.conseq = (if x.conseq = 0xFFFF then x.conseq else x.conseq + 1))) ∧
      (transiting s = false → s.sieve.safe = none →
        let starts (react : BitVec 3) (t : State) : Prop := exec .reactionStart s = .next t ∧ t.sieve.running = some c ∧
          t.sieve.runReact = react ∧ t.sieve.queue = cs ∧ recOf t c = some { r with react := react, phase := .running } ∧
          SameMemories s t ∧ t.engines = s.engines ∧
          (∀ p : PlotNo, s.flag (clkStat p.val) 31 = true → s.flag (ldoReg p.val) 31 = true →
            t.flag (clkStat p.val) 31 = false ∧ t.flag (clkStat p.val) 29 = true ∧ curCode t p.val = curCode s p.val)
        (r.react = reSafe → ∃ t, starts reSafe t ∧ t.plots = s.plots ∧ ∃ w, w ∈ t.sieve.masks ∧ w.mask = .device ∧ w.col = c) ∧
        (∀ p : PlotNo, r.tplot = some p → (s.plot p.val).absent = false →
          (r.react = reRetire → r.phys ≠ 0x7FF → recSlot r ≠ outSlot s p.val → s.flag (preg p.val 0) 30 = true → ∃ t, starts reRetire t ∧
            (∃ w, w ∈ t.sieve.masks ∧ w.mask = .engine p (logicalD s r.phys.toNat) (BitVec.ofNat 5 (recSlot r)) ∧ w.col = c) ∧
            retiring t (logicalD s r.phys.toNat) = true ∧ inService t r.phys.toNat = false) ∧
          ((r.react = reReset ∨ r.react = reQuarantine) → (s.plot p.val).resetting = none → ∃ t, starts r.react t ∧
            (∃ w, w ∈ t.sieve.masks ∧ w.mask = .plot p ∧ w.col = c) ∧
            (t.plot p.val).resetting = some {
              origin := if r.react = reReset then .reaction else .quarantine, service := s.opState == .service })))) ∧
    (∀ c r p, runs reRetire c r p → recSlot r < 16 → outSlot s p.val ≠ recSlot r →
      let e := 17 * p.val + recSlot r
      let spare := 17 * p.val + 16
      ∃ t, exec .engineRetire s = .next t ∧ reacted c t ∧ t.eng e = Engine.reset ∧ t.eng spare = Engine.reset ∧
        t.fld (preg p.val 0) 21 5 = recSlot r ∧ t.flag (preg p.val 0) 31 = true ∧ t.flag (preg p.val 0) 30 = false ∧
        t.flag (preg p.val 0) (recSlot r) = true ∧
        ((s.plot p.val).absent = false → slotOf t (BitVec.ofNat 10 (16 * p.val + recSlot r)) = some spare) ∧
        ((∀ i, i < 4096 → s.mark (imemBase e + 8 * i) ≠ .double ∧ s.mark (frameBase e + 8 * i) ≠ .double) →
          ∀ i, i < 0x8000 → t.byte (imemBase spare + i) = s.byte (imemBase e + i) ∧
            t.byte (frameBase spare + i) = s.byte (frameBase e + i)) ∧
        (∀ o, o ∈ [0x10, 0x14, 0x80] → t.rd (ereg spare o) = s.rd (ereg e o)) ∧
        (∀ k, k ≠ e → k ≠ spare → t.eng k = s.eng k)) ∧
    (∀ c r p x, s.stored → runs reReset c r p → (s.plot p.val).resetting = some x → x.origin ≠ .command →
      ∃ t, exec .plotResetReaction s = .next t ∧ reacted c t ∧ (t.plot p.val).resetting = none ∧ (t.plot p.val).ctxs = [] ∧
        (t.plot p.val).epoch = curEpoch s ∧ (t.plot p.val).absent = (s.plot p.val).absent ∧
        (∀ i, i < 17 → t.eng (17 * p.val + i) = Engine.reset) ∧
        (∀ k, (k < 17 * p.val ∨ 17 * p.val + 17 ≤ k) → t.eng k = s.eng k) ∧
        (∀ d, d < 16384 → (s.desc d).state = .running → (s.desc d).lastEng.toNat / 16 = p.val →
          (t.desc d).state = .cancelled ∧ (t.desc d).lost = true)) ∧
    (∀ c r p, runs reQuarantine c r p → ∃ t, exec .plotQuarantine s = .next t ∧ reacted c t ∧ (t.plot p.val).absent = true ∧
      (t.plot p.val).powered = false ∧ (t.plot p.val).resetting = none ∧
      t.flag (breg .sieve (0x30 + 4 * (p.val / 32))) (p.val % 32) = true ∧
      t.flag (breg .pwr (0x1C + 4 * (p.val / 32))) (p.val % 32) = false ∧ ldoOut t p.val = 0 ∧ curCode t p.val = 0 ∧
      (∀ i, i < 17 → t.eng (17 * p.val + i) = Engine.reset) ∧
      (∀ k, (k < 17 * p.val ∨ 17 * p.val + 17 ≤ k) → t.eng k = s.eng k) ∧
      (∀ e : BitVec 10, e.toNat / 16 = p.val → slotOf t e = none)) ∧
    (∀ c r, recOf s c = some r → s.sieve.safe = none →
      let safes (t : State) : Prop := exec .deviceSafe s = .next t ∧ t.sieve.safe = some c ∧ t.faultN = true ∧ t.sieve.queue = [] ∧
        t.evio.queues = [] ∧ (∀ n, n < 32 → outLevel t n = safeLevel s n) ∧ t.opState = s.opState ∧ SameMemories s t ∧
        (s.flag (breg .sieve 0x38) 0 = true → ∀ e : EngNo, inService s e.val = true →
          t.flag (ereg e.val 4) 0 = true ∧ t.flag (ereg e.val 4) 1 = true)
      (s.sieve.recs = [(c, some r)] → s.sieve.travel = [] → r.open_ = true → r.react = reSafe → r.worstCls = 3 →
        s.sieve.running = none → ∃ t, safes t ∧ t.power.frozen = true ∧ t.flag (breg .upk 0x64) 30 = true ∧
        (∀ p, p < 64 → s.flag (clkStat p) 31 = true → t.flag (clkStat p) 31 = false ∧ t.flag (clkStat p) 29 = true) ∧
        (∃ r', recOf t c = some r' ∧ r'.phase = .done)) ∧
      (fatalSafe s = none → s.sieve.running = some c → s.sieve.runReact = reSafe → r.phase = .running →
        (s.sieve.queue = [] → ∃ t, safes t ∧ t.power.frozen = s.power.frozen ∧ reacted c t))) ∧
    (∀ c r, s.sieve.running = some c → recOf s c = some r → r.phase = .acted → severity r.react ≤ severity s.sieve.runReact →
      let ends (t : State) : Prop := exec .reactionComplete s = .next t ∧ t.sieve.running = none ∧ t.sieve.runReact = 0 ∧
        recOf t c = some { r with phase := .done, tDone := some s.time.now }
      (s.sieve.queue ≠ [] → ∃ t, ends t ∧ t.upkeep = s.upkeep ∧ t.bankWait = s.bankWait ∧ t.bankQ = s.bankQ) ∧
      (s.sieve.queue = [] → s.upkeep.asked = true → s.flag (breg .upk 0x64) 30 = false → s.bankWait = false →
        orderedPlots s ≠ [] → ∃ t, ends t ∧ curEpoch t = !curEpoch s ∧ epochBusy t = true ∧ t.upkeep.asked = false) ∧
      ((s.sieve.queue ≠ [] ∨ (s.upkeep.asked = false ∧ s.bankWait = false ∧ s.power.linkAsk = none)) → ∃ t, ends t ∧
        t.opState = (if s.sieve.runReact ≠ reSafe ∧ s.opState = .service then .recovery else s.opState) ∧
        (∀ w, w ∈ t.sieve.masks → w.col = c → w.ends.isSome = true) ∧ SameMemories s t ∧ t.engines = s.engines ∧
        t.plots = s.plots) ∧
      (s.sieve.queue = [] → s.power.frozen = false → s.opState ≠ .off → ∃ t, ends t ∧
        ∀ p : PlotNo, (s.plot p.val).powered = true → (s.plot p.val).absent = false → s.flag (clkStat p.val) 30 = false →
          curCode s p.val ≠ effCode s p.val → t.flag (clkStat p.val) 31 = true ∧ curCode t p.val = curCode s p.val)) ∧
    (∀ c k r x, s.sieve.running = some c → recOf s c = some r → r.phase = .acted → severity s.sieve.runReact < severity r.react →
      s.sieve.safe = some k → k ≠ c → recOf s k = some x → ∃ t, exec .reactionComplete s = .next t ∧
        t.sieve.running = none ∧ recOf t c = none ∧
        (∃ y, recOf t k = some y ∧ y.conseq = (if x.conseq = 0xFFFF then x.conseq else x.conseq + 1)))

/-- Where the resets, the image start, the long commands, the register accesses and the mailbox's requests complete
(15_power_and_clocks R429, 14_host_and_boot R391, 14_host_and_boot R393, 14_host_and_boot R395, 14_host_and_boot R397,
14_host_and_boot R398, 14_host_and_boot R402, 14_host_and_boot R404, 09_mesh_and_queues R275, 15_power_and_clocks R431,
12_locks R348). Where a clause meets a point that the spec leaves open, it states the model's choice (assumption log 33,
40, 44 and 105). -/
def Obligations.CommandsComplete : Prop :=
  ∀ (s : State),
    let ended (code : Nat) (t : State) : Prop :=
      t.flag portReg 31 = false ∧ t.flag portReg 30 = true ∧ t.fld portReg 16 8 = code ∧ t.cmd = none
    let noArgs : Prop := ∀ k, k < 4 → s.rd (argReg k) = 0
    let mbx := breg .mc 0
    let answered (req : Nat) (t : State) : Prop := t.flag mbx 31 = false ∧ t.flag mbx 30 = true ∧ t.fld mbx 0 8 = req
    (∀ rootSel testMode : Bool,
      let boots (opc cause : Nat) (t : State) : Prop := t.opState = .boot ∧ bootStep t = 0 ∧ t.flag portReg 31 = true ∧
        t.fld portReg 0 8 = opc ∧ t.rd (breg .pwr 0x2C) = BitVec.ofNat 32 cause ∧ t.time = s.time
      (s.opState ≠ .off → ∃ t, exec (.resetN rootSel testMode) s = .next t ∧ boots 0 2 t) ∧
      (hostReady s = true → hostBusy s = false → noArgs →
        ∃ t, exec (.deviceReset rootSel testMode) s = .next t ∧ boots 7 4 t)) ∧
    (∀ r : LoadResult, s.opState = .boot → bootStep s = 4 → hostBusy s = false →
      let starts (t : State) : Prop := (t.opState = .service ∧ bootStep t = 15 ∧ ended 0 t) ∨ (bootStep t = 4 ∧ ended 8 t)
      (hostReady s = true → scanDrives s = false → noArgs → ∃ t, exec (.verifyAndStart r) s = .next t ∧ starts t) ∧
      (let n := s.rd (breg .run 0x10)
       let h := readImage 0 16 { s with fabric := { s.fabric with imgSeen := n } }
       scanDrives s = false → s.flag (breg .host 0) 31 = false → n ≠ s.fabric.imgSeen → field h.1 0 4 = 0x41545045 →
        field h.1 8 4 / 8 ≤ n.toNat → ∃ t, exec (.fabricBootStart r) s = .next t ∧ starts t)) ∧
    (∀ c : HostCmd, s.cmd = some c → hostBusy s = true →
      (∀ data : List Byte, c.opc = 1 → data.length = c.a2.toNat →
        ∃ t, exec (.loadImageComplete .done data) s = .next t ∧ ended 0 t) ∧
      (∀ units : BitVec 11, c.opc = 4 → c.abort = false → c.lost = false → s.banks = [] →
        c.a0.toNat + c.a1.toNat ≤ 1024 → s.stored → ∃ t, exec (.granaryClearComplete units) s = .next t ∧ ended 0 t) ∧
      (∀ n : BitVec 7, c.opc = 5 → c.a0 = 0 → c.dirty = false →
        ∃ t, exec (.selfTestComplete n [] []) s = .next t ∧ ended 0 t ∧ t.opState = s.prevState)) ∧
    (∀ (p : PlotNo) (r : PlotReset), (s.plot p.val).resetting = some r → r.origin ≠ .quarantine →
      ∃ t, exec (.plotResetComplete p) s = .next t ∧
        ((runningAs s reQuarantine).any (fun k => k.2.2 == p) = false → (t.plot p.val).resetting = none) ∧
        ∀ i, i < 17 → t.eng (17 * p.val + i) = Engine.reset) ∧
    (∀ (req : Requester) (addr : BitVec 40), req = .host ∨ req = .mc ∨ req = .smbus → s.opState ≠ .off →
      s.fld (breg .mesh 0x24) 0 16 ≠ 0 → readOutstanding s req addr (1000 * s.fld (breg .mesh 0x24) 0 16) = true →
      (req = .smbus → addr = s.smb.ptr ∧ smbAnswers s = true) →
      ∃ t, exec (.rpathTimeout req addr) s = .next t ∧
        SMap.get t.rdata (reqKey req) 0 = (if req = .smbus then 0xFFFFFFFF else BitVec.allOnes 64)) ∧
    (hostReady s = true → (mbxBusy s = false ∨ s.fld mbx 0 8 = 0x01) → ∃ t, exec .version s = .next t ∧ answered 0x01 t ∧
      t.rd (breg .mc 0x30) = s.mcVersion) ∧
    (hostReady s = true → (mbxBusy s = false ∨ s.fld mbx 0 8 = 0x10) → ∃ t, exec .mgmtPost s = .next t ∧ answered 0x10 t) ∧
    (hostReady s = true → (mbxBusy s = false ∨ s.fld mbx 0 8 = 0x11) → ∃ t, exec .mgmtGet s = .next t ∧ answered 0x11 t ∧
      t.fabric = { s.fabric with responses := s.fabric.responses.drop 1 }) ∧
    (hostReady s = true → (mbxBusy s = false ∨ s.fld mbx 0 8 = 0x20) → forceWaits s = false →
      ∃ t, exec .lockForce s = .next t ∧ answered 0x20 t)
end

