-- ==== Sys2Proof/Laws/Detect.lean ====
section
/-! SUPPORT. What events and detections can change: the registers, the Dibber, the Sieve and the counter of free values. -/

namespace Sys2Proof.Machine

/-- The second state is the first but for its registers, its Dibber, its Sieve and its counter of free values. -/
def Reports (s t : State) : Prop :=
  ∃ r d v n, t = { s with regs := r, dib := d, sieve := v, free := n }

theorem Reports.refl (s : State) : Reports s s := ⟨_, _, _, _, rfl⟩

theorem Reports.trans {s t u : State} (h : Reports s t) (k : Reports t u) : Reports s u := by
  obtain ⟨_, _, _, _, rfl⟩ := h
  obtain ⟨_, _, _, _, rfl⟩ := k
  exact ⟨_, _, _, _, rfl⟩

theorem Reports.wr (s : State) (a : Nat) (v : Reg32) : Reports s (s.wr a v) := ⟨_, _, _, _, rfl⟩

theorem Reports.frame {s t : State} (h : Reports s t) :
    t = { s with regs := t.regs, dib := t.dib, sieve := t.sieve, free := t.free } := by
  obtain ⟨_, _, _, _, rfl⟩ := h
  rfl

/-- A fold of reporting steps reports. -/
theorem Reports.foldl {β : Type} {f : State → β → State} (h : ∀ s b, Reports s (f s b)) :
    ∀ (l : List β) (s : State), Reports s (l.foldl f s)
  | [], s => .refl s
  | b :: l, s => (h s b).trans (Reports.foldl h l _)

theorem Reports.ite {c : Prop} [Decidable c] {s t u : State} (h : Reports s t) (k : Reports s u) :
    Reports s (if c then t else u) := by
  split
  · exact h
  · exact k

/-- An event changes the Dibber's pending events. -/
theorem raiseEvent_reports (n : Nat) (s : State) : Reports s (raiseEvent n s) := by
  unfold raiseEvent raiseEventAt
  exact .ite (.refl s) ⟨_, _, _, _, rfl⟩

theorem latchRec_reports (p : Nat) (r : Rec) (s : State) : Reports s (latchRec p r s) :=
  Reports.foldl (f := fun s w => s.wr (preg p (0x240 + 4 * w)) (recWord r w)) (fun s _ => .wr s _ _) (List.range 16) s

theorem setRec_reports (c : Nat) (r : Rec) (s : State) : Reports s (setRec c r s) := by
  have latched (t : State) (h : Reports s t) : Reports s (if c < 64 ∧ r.latched = true then latchRec c r t else t) := by
    split
    · exact h.trans (latchRec_reports c r t)
    · exact h
  unfold setRec
  cases r.hist with
  | none => exact latched _ ⟨_, _, _, _, rfl⟩
  | some i => exact latched _ ⟨_, _, _, _, rfl⟩

theorem addConseq_reports (c : Nat) (s : State) : Reports s (addConseq c s) := by
  unfold addConseq
  split
  · exact setRec_reports ..
  · exact .refl s

theorem enqueue_reports (c : Nat) (first : Bool) (s : State) : Reports s (enqueue c first s) := by
  unfold enqueue
  exact .ite (.refl s) ⟨_, _, _, _, rfl⟩

theorem closeRec_reports (c : Nat) (s : State) : Reports s (closeRec c s) := by
  unfold closeRec
  split
  · exact .refl s
  · exact (setRec_reports ..).trans ⟨_, _, _, _, rfl⟩

theorem dropReaction_reports (k c : Nat) (s : State) : Reports s (dropReaction k c s) :=
  (addConseq_reports ..).trans (closeRec_reports ..)

theorem requeue_reports (c : Nat) (fatal : Bool) (s : State) : Reports s (requeue c fatal s) := by
  unfold requeue
  split
  · split
    · split
      · exact .ite (.refl s) (dropReaction_reports ..)
      · exact (setRec_reports ..).trans (enqueue_reports ..)
    · exact .ite (.trans ⟨_, _, _, _, rfl⟩ (enqueue_reports ..)) (.refl s)
  · exact .refl s

theorem openRecord_reports (d : Detection) (c : Nat) (s : State) : Reports s (openRecord d c s) := by
  have opened (t : State) (h : Reports s t) (v : Sieve) : Reports s { t with sieve := v } := h.trans ⟨_, _, _, _, rfl⟩
  have drawn (p : Prop) [Decidable p] : Reports s (if p then s.draw.2 else s) := .ite ⟨_, _, _, _, rfl⟩ (.refl s)
  unfold openRecord
  extract_lets code fr free u cls react no vld r src v w x
  have hv : Reports s v := opened _ (drawn free) _
  have hw : Reports v w := .wr _ _ _
  exact ((hv.trans hw).trans (.ite (.ite ((Reports.wr _ _ _).trans (.wr _ _ _)) (.wr _ _ _)) (.refl _))).trans (setRec_reports ..)

theorem mergeRecord_reports (d : Detection) (c : Nat) (r : Rec) (s : State) : Reports s (mergeRecord d c r s) := by
  unfold mergeRecord
  dsimp only
  split
  · exact setRec_reports ..
  · exact ((setRec_reports ..).trans (raiseEvent_reports ..)).trans (requeue_reports ..)

/-- A detection changes the registers, the Dibber's events, the Sieve and the counter of free values alone (R453, R457,
R467). -/
theorem detectAt_reports (chan : BitVec 3) (d : Detection) (s : State) : Reports s (detectAt chan d s) := by
  unfold detectAt
  split
  · split
    · exact addConseq_reports ..
    · exact .refl s
  · split
    · exact addConseq_reports ..
    · split
      · exact .wr s _ _
      · dsimp only
        split
        · split
          · exact mergeRecord_reports ..
          · exact openRecord_reports ..
        · exact openRecord_reports ..

theorem detect_reports (d : Detection) (s : State) : Reports s (detect d s) := detectAt_reports ..

end Sys2Proof.Machine
end

