-- ==== Sys2Proof/Laws/SMap.lean ====
section
/-! SUPPORT. The laws of sparse maps: a read after a write to the same key, to another key, and that every
operation keeps the canonical form. -/

namespace Sys2Proof.Machine

variable {β : Type}

theorem SMap.above_mono {k j : Nat} (h : j ≤ k) : ∀ {m : SMap β}, SMap.above k m = true → SMap.above j m = true := by
  intro m hm
  simp only [SMap.above, List.all_eq_true, decide_eq_true_eq] at *
  intro p hp; have := hm p hp; omega

theorem SMap.get_above {k j : Nat} {d : β} : ∀ {m : SMap β}, SMap.above k m = true → j ≤ k → SMap.get m j d = d
  | [], _, _ => rfl
  | (i, v) :: m, h, hj => by
    simp only [SMap.above, List.all_cons, Bool.and_eq_true, decide_eq_true_eq] at h
    have hne : ¬ (j = i) := by have := h.1; omega
    simp only [SMap.get, if_neg hne]
    exact SMap.get_above (k := k) h.2 hj

theorem SMap.get_insert_same (m : SMap β) (k : Nat) (x d : β) : SMap.get (SMap.insert m k x) k d = x := by
  induction m with
  | nil => simp [SMap.insert, SMap.get]
  | cons p m ih =>
    obtain ⟨i, v⟩ := p
    simp only [SMap.insert]
    split
    · simp [SMap.get]
    · split
      · simp [SMap.get]
      · rename_i h _; simp [SMap.get, h, ih]

theorem SMap.get_insert_ne (m : SMap β) {k j : Nat} (h : j ≠ k) (x d : β) :
    SMap.get (SMap.insert m k x) j d = SMap.get m j d := by
  induction m with
  | nil => simp [SMap.insert, SMap.get, h]
  | cons p m ih =>
    obtain ⟨i, v⟩ := p
    simp only [SMap.insert]
    split
    · rename_i hk; subst hk; simp [SMap.get, h]
    · split
      · simp [SMap.get, h]
      · simp only [SMap.get, ih]

theorem SMap.get_erase_ne (m : SMap β) {k j : Nat} (h : j ≠ k) (d : β) :
    SMap.get (SMap.erase m k) j d = SMap.get m j d := by
  induction m with
  | nil => rfl
  | cons p m ih =>
    obtain ⟨i, v⟩ := p
    simp only [SMap.erase, List.filter] at ih ⊢
    split
    · simp only [SMap.get, ih]
    · rename_i hk
      have hk' : i = k := by simpa using hk
      have hne : ¬ (j = i) := by omega
      simp only [SMap.get, if_neg hne, ih]

theorem SMap.get_erase_same (m : SMap β) (k : Nat) (d : β) : SMap.get (SMap.erase m k) k d = d := by
  induction m with
  | nil => rfl
  | cons p m ih =>
    obtain ⟨i, v⟩ := p
    simp only [SMap.erase, List.filter] at ih ⊢
    split
    · rename_i hk
      have hk' : i ≠ k := by simpa using hk
      have hne : ¬ (k = i) := by omega
      simp only [SMap.get, if_neg hne, ih]
    · exact ih

/-- A write is seen by other keys as before. -/
@[simp] theorem SMap.get_set_ne [DecidableEq β] (m : SMap β) {k j : Nat} (h : j ≠ k) (x d d' : β) :
    SMap.get (SMap.set m k x d') j d = SMap.get m j d := by
  unfold SMap.set; split
  · exact SMap.get_erase_ne m h d
  · exact SMap.get_insert_ne m h x d

/-- A write is read back. -/
@[simp] theorem SMap.get_set_same [DecidableEq β] (m : SMap β) (k : Nat) (x d : β) :
    SMap.get (SMap.set m k x d) k d = x := by
  unfold SMap.set; split
  · rename_i h; subst h; exact SMap.get_erase_same m k x
  · exact SMap.get_insert_same m k x d

theorem SMap.above_insert {j k : Nat} {x : β} (hj : j < k) :
    ∀ {m : SMap β}, SMap.above j m = true → SMap.above j (SMap.insert m k x) = true
  | [], _ => by simp [SMap.insert, SMap.above, hj]
  | (i, v) :: m, h => by
    simp only [SMap.above, List.all_cons, Bool.and_eq_true] at h
    simp only [SMap.insert]
    split
    · simp only [SMap.above, List.all_cons, Bool.and_eq_true, decide_eq_true_eq]; exact ⟨hj, h.2⟩
    · split
      · simp only [SMap.above, List.all_cons, Bool.and_eq_true, decide_eq_true_eq]
        exact ⟨hj, by simpa using h.1, h.2⟩
      · simp only [SMap.above, List.all_cons, Bool.and_eq_true]
        exact ⟨h.1, SMap.above_insert hj h.2⟩

theorem SMap.wf_insert [DecidableEq β] {dflt : Nat → β} {k : Nat} {x : β} (hx : x ≠ dflt k) :
    ∀ {m : SMap β}, SMap.wf dflt m = true → SMap.wf dflt (SMap.insert m k x) = true
  | [], _ => by simp [SMap.insert, SMap.wf, SMap.above, hx]
  | (i, v) :: m, h => by
    simp only [SMap.wf, Bool.and_eq_true] at h
    simp only [SMap.insert]
    split
    · rename_i hk; subst hk
      simp only [SMap.wf, Bool.and_eq_true, bne_iff_ne, ne_eq]; exact ⟨⟨h.1.1, hx⟩, h.2⟩
    · split
      · rename_i hlt
        simp only [SMap.wf, Bool.and_eq_true, bne_iff_ne, ne_eq]
        refine ⟨⟨?_, hx⟩, ⟨h.1.1, by simpa using h.1.2⟩, h.2⟩
        simp only [SMap.above, List.all_cons, Bool.and_eq_true, decide_eq_true_eq]
        exact ⟨hlt, SMap.above_mono (Nat.le_of_lt hlt) h.1.1⟩
      · rename_i hk hlt
        simp only [SMap.wf, Bool.and_eq_true]
        exact ⟨⟨SMap.above_insert (by omega) h.1.1, h.1.2⟩, SMap.wf_insert hx h.2⟩

theorem SMap.above_filter {j : Nat} {q : Nat × β → Bool} :
    ∀ {m : SMap β}, SMap.above j m = true → SMap.above j (m.filter q) = true := by
  intro m h
  simp only [SMap.above, List.all_eq_true, decide_eq_true_eq, List.mem_filter] at *
  intro p hp; exact h p hp.1

theorem SMap.wf_filter [DecidableEq β] {dflt : Nat → β} {q : Nat × β → Bool} :
    ∀ {m : SMap β}, SMap.wf dflt m = true → SMap.wf dflt (m.filter q) = true
  | [], _ => rfl
  | p :: m, h => by
    simp only [SMap.wf, Bool.and_eq_true] at h
    simp only [List.filter]
    split
    · simp only [SMap.wf, Bool.and_eq_true]
      exact ⟨⟨SMap.above_filter h.1.1, h.1.2⟩, SMap.wf_filter h.2⟩
    · exact SMap.wf_filter h.2

/-- A write keeps the canonical form. -/
theorem SMap.wf_set [DecidableEq β] {dflt : Nat → β} {m : SMap β} (h : SMap.wf dflt m = true) (k : Nat) (x : β) :
    SMap.wf dflt (SMap.set m k x (dflt k)) = true := by
  unfold SMap.set; split
  · exact SMap.wf_filter h
  · rename_i hx; exact SMap.wf_insert hx h

/-- Dropping a range of keys keeps the canonical form. -/
theorem SMap.wf_dropRange [DecidableEq β] {dflt : Nat → β} {m : SMap β} (h : SMap.wf dflt m = true) (lo hi : Nat) :
    SMap.wf dflt (SMap.dropRange m lo hi) = true := SMap.wf_filter h

end Sys2Proof.Machine
end

