-- ==== Sys2Proof/Laws/State.lean ====
section
/-! SUPPORT. What each update of the state leaves as it was, one lemma per field and per reader, and what it reads back as. -/

namespace Sys2Proof.Machine.State

@[simp] theorem wr_pending (s : State) (a : Nat) (v : Reg32) : (s.wr a v).pending = s.pending := rfl
@[simp] theorem wr_opState (s : State) (a : Nat) (v : Reg32) : (s.wr a v).opState = s.opState := rfl
@[simp] theorem wr_prevState (s : State) (a : Nat) (v : Reg32) : (s.wr a v).prevState = s.prevState := rfl
@[simp] theorem wr_profile (s : State) (a : Nat) (v : Reg32) : (s.wr a v).profile = s.profile := rfl
@[simp] theorem wr_time (s : State) (a : Nat) (v : Reg32) : (s.wr a v).time = s.time := rfl
@[simp] theorem wr_latches (s : State) (a : Nat) (v : Reg32) : (s.wr a v).latches = s.latches := rfl
@[simp] theorem wr_stages (s : State) (a : Nat) (v : Reg32) : (s.wr a v).stages = s.stages := rfl
@[simp] theorem wr_rdata (s : State) (a : Nat) (v : Reg32) : (s.wr a v).rdata = s.rdata := rfl
@[simp] theorem wr_mem (s : State) (a : Nat) (v : Reg32) : (s.wr a v).mem = s.mem := rfl
@[simp] theorem wr_marks (s : State) (a : Nat) (v : Reg32) : (s.wr a v).marks = s.marks := rfl
@[simp] theorem wr_pres (s : State) (a : Nat) (v : Reg32) : (s.wr a v).pres = s.pres := rfl
@[simp] theorem wr_ucode (s : State) (a : Nat) (v : Reg32) : (s.wr a v).ucode = s.ucode := rfl
@[simp] theorem wr_engines (s : State) (a : Nat) (v : Reg32) : (s.wr a v).engines = s.engines := rfl
@[simp] theorem wr_plots (s : State) (a : Nat) (v : Reg32) : (s.wr a v).plots = s.plots := rfl
@[simp] theorem wr_queues (s : State) (a : Nat) (v : Reg32) : (s.wr a v).queues = s.queues := rfl
@[simp] theorem wr_routers (s : State) (a : Nat) (v : Reg32) : (s.wr a v).routers = s.routers := rfl
@[simp] theorem wr_holds (s : State) (a : Nat) (v : Reg32) : (s.wr a v).holds = s.holds := rfl
@[simp] theorem wr_flushing (s : State) (a : Nat) (v : Reg32) : (s.wr a v).flushing = s.flushing := rfl
@[simp] theorem wr_dropping (s : State) (a : Nat) (v : Reg32) : (s.wr a v).dropping = s.dropping := rfl
@[simp] theorem wr_wleft (s : State) (a : Nat) (v : Reg32) : (s.wr a v).wleft = s.wleft := rfl
@[simp] theorem wr_appends (s : State) (a : Nat) (v : Reg32) : (s.wr a v).appends = s.appends := rfl
@[simp] theorem wr_owed (s : State) (a : Nat) (v : Reg32) : (s.wr a v).owed = s.owed := rfl
@[simp] theorem wr_reads (s : State) (a : Nat) (v : Reg32) : (s.wr a v).reads = s.reads := rfl
@[simp] theorem wr_dests (s : State) (a : Nat) (v : Reg32) : (s.wr a v).dests = s.dests := rfl
@[simp] theorem wr_arrivals (s : State) (a : Nat) (v : Reg32) : (s.wr a v).arrivals = s.arrivals := rfl
@[simp] theorem wr_auditAt (s : State) (a : Nat) (v : Reg32) : (s.wr a v).auditAt = s.auditAt := rfl
@[simp] theorem wr_rpath (s : State) (a : Nat) (v : Reg32) : (s.wr a v).rpath = s.rpath := rfl
@[simp] theorem wr_pathAt (s : State) (a : Nat) (v : Reg32) : (s.wr a v).pathAt = s.pathAt := rfl
@[simp] theorem wr_quads (s : State) (a : Nat) (v : Reg32) : (s.wr a v).quads = s.quads := rfl
@[simp] theorem wr_banks (s : State) (a : Nat) (v : Reg32) : (s.wr a v).banks = s.banks := rfl
@[simp] theorem wr_bankQ (s : State) (a : Nat) (v : Reg32) : (s.wr a v).bankQ = s.bankQ := rfl
@[simp] theorem wr_bankWait (s : State) (a : Nat) (v : Reg32) : (s.wr a v).bankWait = s.bankWait := rfl
@[simp] theorem wr_port0 (s : State) (a : Nat) (v : Reg32) : (s.wr a v).port0 = s.port0 := rfl
@[simp] theorem wr_port1 (s : State) (a : Nat) (v : Reg32) : (s.wr a v).port1 = s.port1 := rfl
@[simp] theorem wr_pop (s : State) (a : Nat) (v : Reg32) : (s.wr a v).pop = s.pop := rfl
@[simp] theorem wr_dib (s : State) (a : Nat) (v : Reg32) : (s.wr a v).dib = s.dib := rfl
@[simp] theorem wr_lck (s : State) (a : Nat) (v : Reg32) : (s.wr a v).lck = s.lck := rfl
@[simp] theorem wr_evio (s : State) (a : Nat) (v : Reg32) : (s.wr a v).evio = s.evio := rfl
@[simp] theorem wr_sieve (s : State) (a : Nat) (v : Reg32) : (s.wr a v).sieve = s.sieve := rfl
@[simp] theorem wr_tx (s : State) (a : Nat) (v : Reg32) : (s.wr a v).tx = s.tx := rfl
@[simp] theorem wr_host (s : State) (a : Nat) (v : Reg32) : (s.wr a v).host = s.host := rfl
@[simp] theorem wr_cmd (s : State) (a : Nat) (v : Reg32) : (s.wr a v).cmd = s.cmd := rfl
@[simp] theorem wr_fabric (s : State) (a : Nat) (v : Reg32) : (s.wr a v).fabric = s.fabric := rfl
@[simp] theorem wr_power (s : State) (a : Nat) (v : Reg32) : (s.wr a v).power = s.power := rfl
@[simp] theorem wr_upkeep (s : State) (a : Nat) (v : Reg32) : (s.wr a v).upkeep = s.upkeep := rfl
@[simp] theorem wr_tap (s : State) (a : Nat) (v : Reg32) : (s.wr a v).tap = s.tap := rfl
@[simp] theorem wr_smb (s : State) (a : Nat) (v : Reg32) : (s.wr a v).smb = s.smb := rfl
@[simp] theorem wr_rootSel (s : State) (a : Nat) (v : Reg32) : (s.wr a v).rootSel = s.rootSel := rfl
@[simp] theorem wr_testMode (s : State) (a : Nat) (v : Reg32) : (s.wr a v).testMode = s.testMode := rfl
@[simp] theorem wr_faultN (s : State) (a : Nat) (v : Reg32) : (s.wr a v).faultN = s.faultN := rfl
@[simp] theorem wr_pwrGood (s : State) (a : Nat) (v : Reg32) : (s.wr a v).pwrGood = s.pwrGood := rfl
@[simp] theorem wr_image (s : State) (a : Nat) (v : Reg32) : (s.wr a v).image = s.image := rfl
@[simp] theorem wr_mcVersion (s : State) (a : Nat) (v : Reg32) : (s.wr a v).mcVersion = s.mcVersion := rfl
@[simp] theorem wr_free (s : State) (a : Nat) (v : Reg32) : (s.wr a v).free = s.free := rfl
@[simp] theorem eng_wr (s : State) (a : Nat) (v : Reg32) (e' : Nat) : (s.wr a v).eng e' = s.eng e' := rfl
@[simp] theorem plot_wr (s : State) (a : Nat) (v : Reg32) (p' : Nat) : (s.wr a v).plot p' = s.plot p' := rfl
@[simp] theorem q_wr (s : State) (a : Nat) (v : Reg32) (k' : Nat) : (s.wr a v).q k' = s.q k' := rfl
@[simp] theorem desc_wr (s : State) (a : Nat) (v : Reg32) (d' : Nat) : (s.wr a v).desc d' = s.desc d' := rfl
@[simp] theorem lock_wr (s : State) (a : Nat) (v : Reg32) (n' : Nat) : (s.wr a v).lock n' = s.lock n' := rfl
@[simp] theorem byte_wr (s : State) (a : Nat) (v : Reg32) (a' : Nat) : (s.wr a v).byte a' = s.byte a' := rfl
@[simp] theorem mark_wr (s : State) (a : Nat) (v : Reg32) (a' : Nat) : (s.wr a v).mark a' = s.mark a' := rfl

@[simp] theorem setFld_pending (s : State) (a l n v : Nat) : (s.setFld a l n v).pending = s.pending := rfl
@[simp] theorem setFld_opState (s : State) (a l n v : Nat) : (s.setFld a l n v).opState = s.opState := rfl
@[simp] theorem setFld_prevState (s : State) (a l n v : Nat) : (s.setFld a l n v).prevState = s.prevState := rfl
@[simp] theorem setFld_profile (s : State) (a l n v : Nat) : (s.setFld a l n v).profile = s.profile := rfl
@[simp] theorem setFld_time (s : State) (a l n v : Nat) : (s.setFld a l n v).time = s.time := rfl
@[simp] theorem setFld_latches (s : State) (a l n v : Nat) : (s.setFld a l n v).latches = s.latches := rfl
@[simp] theorem setFld_stages (s : State) (a l n v : Nat) : (s.setFld a l n v).stages = s.stages := rfl
@[simp] theorem setFld_rdata (s : State) (a l n v : Nat) : (s.setFld a l n v).rdata = s.rdata := rfl
@[simp] theorem setFld_mem (s : State) (a l n v : Nat) : (s.setFld a l n v).mem = s.mem := rfl
@[simp] theorem setFld_marks (s : State) (a l n v : Nat) : (s.setFld a l n v).marks = s.marks := rfl
@[simp] theorem setFld_pres (s : State) (a l n v : Nat) : (s.setFld a l n v).pres = s.pres := rfl
@[simp] theorem setFld_ucode (s : State) (a l n v : Nat) : (s.setFld a l n v).ucode = s.ucode := rfl
@[simp] theorem setFld_engines (s : State) (a l n v : Nat) : (s.setFld a l n v).engines = s.engines := rfl
@[simp] theorem setFld_plots (s : State) (a l n v : Nat) : (s.setFld a l n v).plots = s.plots := rfl
@[simp] theorem setFld_queues (s : State) (a l n v : Nat) : (s.setFld a l n v).queues = s.queues := rfl
@[simp] theorem setFld_routers (s : State) (a l n v : Nat) : (s.setFld a l n v).routers = s.routers := rfl
@[simp] theorem setFld_holds (s : State) (a l n v : Nat) : (s.setFld a l n v).holds = s.holds := rfl
@[simp] theorem setFld_flushing (s : State) (a l n v : Nat) : (s.setFld a l n v).flushing = s.flushing := rfl
@[simp] theorem setFld_dropping (s : State) (a l n v : Nat) : (s.setFld a l n v).dropping = s.dropping := rfl
@[simp] theorem setFld_wleft (s : State) (a l n v : Nat) : (s.setFld a l n v).wleft = s.wleft := rfl
@[simp] theorem setFld_appends (s : State) (a l n v : Nat) : (s.setFld a l n v).appends = s.appends := rfl
@[simp] theorem setFld_owed (s : State) (a l n v : Nat) : (s.setFld a l n v).owed = s.owed := rfl
@[simp] theorem setFld_reads (s : State) (a l n v : Nat) : (s.setFld a l n v).reads = s.reads := rfl
@[simp] theorem setFld_dests (s : State) (a l n v : Nat) : (s.setFld a l n v).dests = s.dests := rfl
@[simp] theorem setFld_arrivals (s : State) (a l n v : Nat) : (s.setFld a l n v).arrivals = s.arrivals := rfl
@[simp] theorem setFld_auditAt (s : State) (a l n v : Nat) : (s.setFld a l n v).auditAt = s.auditAt := rfl
@[simp] theorem setFld_rpath (s : State) (a l n v : Nat) : (s.setFld a l n v).rpath = s.rpath := rfl
@[simp] theorem setFld_pathAt (s : State) (a l n v : Nat) : (s.setFld a l n v).pathAt = s.pathAt := rfl
@[simp] theorem setFld_quads (s : State) (a l n v : Nat) : (s.setFld a l n v).quads = s.quads := rfl
@[simp] theorem setFld_banks (s : State) (a l n v : Nat) : (s.setFld a l n v).banks = s.banks := rfl
@[simp] theorem setFld_bankQ (s : State) (a l n v : Nat) : (s.setFld a l n v).bankQ = s.bankQ := rfl
@[simp] theorem setFld_bankWait (s : State) (a l n v : Nat) : (s.setFld a l n v).bankWait = s.bankWait := rfl
@[simp] theorem setFld_port0 (s : State) (a l n v : Nat) : (s.setFld a l n v).port0 = s.port0 := rfl
@[simp] theorem setFld_port1 (s : State) (a l n v : Nat) : (s.setFld a l n v).port1 = s.port1 := rfl
@[simp] theorem setFld_pop (s : State) (a l n v : Nat) : (s.setFld a l n v).pop = s.pop := rfl
@[simp] theorem setFld_dib (s : State) (a l n v : Nat) : (s.setFld a l n v).dib = s.dib := rfl
@[simp] theorem setFld_lck (s : State) (a l n v : Nat) : (s.setFld a l n v).lck = s.lck := rfl
@[simp] theorem setFld_evio (s : State) (a l n v : Nat) : (s.setFld a l n v).evio = s.evio := rfl
@[simp] theorem setFld_sieve (s : State) (a l n v : Nat) : (s.setFld a l n v).sieve = s.sieve := rfl
@[simp] theorem setFld_tx (s : State) (a l n v : Nat) : (s.setFld a l n v).tx = s.tx := rfl
@[simp] theorem setFld_host (s : State) (a l n v : Nat) : (s.setFld a l n v).host = s.host := rfl
@[simp] theorem setFld_cmd (s : State) (a l n v : Nat) : (s.setFld a l n v).cmd = s.cmd := rfl
@[simp] theorem setFld_fabric (s : State) (a l n v : Nat) : (s.setFld a l n v).fabric = s.fabric := rfl
@[simp] theorem setFld_power (s : State) (a l n v : Nat) : (s.setFld a l n v).power = s.power := rfl
@[simp] theorem setFld_upkeep (s : State) (a l n v : Nat) : (s.setFld a l n v).upkeep = s.upkeep := rfl
@[simp] theorem setFld_tap (s : State) (a l n v : Nat) : (s.setFld a l n v).tap = s.tap := rfl
@[simp] theorem setFld_smb (s : State) (a l n v : Nat) : (s.setFld a l n v).smb = s.smb := rfl
@[simp] theorem setFld_rootSel (s : State) (a l n v : Nat) : (s.setFld a l n v).rootSel = s.rootSel := rfl
@[simp] theorem setFld_testMode (s : State) (a l n v : Nat) : (s.setFld a l n v).testMode = s.testMode := rfl
@[simp] theorem setFld_faultN (s : State) (a l n v : Nat) : (s.setFld a l n v).faultN = s.faultN := rfl
@[simp] theorem setFld_pwrGood (s : State) (a l n v : Nat) : (s.setFld a l n v).pwrGood = s.pwrGood := rfl
@[simp] theorem setFld_image (s : State) (a l n v : Nat) : (s.setFld a l n v).image = s.image := rfl
@[simp] theorem setFld_mcVersion (s : State) (a l n v : Nat) : (s.setFld a l n v).mcVersion = s.mcVersion := rfl
@[simp] theorem setFld_free (s : State) (a l n v : Nat) : (s.setFld a l n v).free = s.free := rfl
@[simp] theorem eng_setFld (s : State) (a l n v : Nat) (e' : Nat) : (s.setFld a l n v).eng e' = s.eng e' := rfl
@[simp] theorem plot_setFld (s : State) (a l n v : Nat) (p' : Nat) : (s.setFld a l n v).plot p' = s.plot p' := rfl
@[simp] theorem q_setFld (s : State) (a l n v : Nat) (k' : Nat) : (s.setFld a l n v).q k' = s.q k' := rfl
@[simp] theorem desc_setFld (s : State) (a l n v : Nat) (d' : Nat) : (s.setFld a l n v).desc d' = s.desc d' := rfl
@[simp] theorem lock_setFld (s : State) (a l n v : Nat) (n' : Nat) : (s.setFld a l n v).lock n' = s.lock n' := rfl
@[simp] theorem byte_setFld (s : State) (a l n v : Nat) (a' : Nat) : (s.setFld a l n v).byte a' = s.byte a' := rfl
@[simp] theorem mark_setFld (s : State) (a l n v : Nat) (a' : Nat) : (s.setFld a l n v).mark a' = s.mark a' := rfl

@[simp] theorem setFlag_pending (s : State) (a i : Nat) (b : Bool) : (s.setFlag a i b).pending = s.pending := rfl
@[simp] theorem setFlag_opState (s : State) (a i : Nat) (b : Bool) : (s.setFlag a i b).opState = s.opState := rfl
@[simp] theorem setFlag_prevState (s : State) (a i : Nat) (b : Bool) : (s.setFlag a i b).prevState = s.prevState := rfl
@[simp] theorem setFlag_profile (s : State) (a i : Nat) (b : Bool) : (s.setFlag a i b).profile = s.profile := rfl
@[simp] theorem setFlag_time (s : State) (a i : Nat) (b : Bool) : (s.setFlag a i b).time = s.time := rfl
@[simp] theorem setFlag_latches (s : State) (a i : Nat) (b : Bool) : (s.setFlag a i b).latches = s.latches := rfl
@[simp] theorem setFlag_stages (s : State) (a i : Nat) (b : Bool) : (s.setFlag a i b).stages = s.stages := rfl
@[simp] theorem setFlag_rdata (s : State) (a i : Nat) (b : Bool) : (s.setFlag a i b).rdata = s.rdata := rfl
@[simp] theorem setFlag_mem (s : State) (a i : Nat) (b : Bool) : (s.setFlag a i b).mem = s.mem := rfl
@[simp] theorem setFlag_marks (s : State) (a i : Nat) (b : Bool) : (s.setFlag a i b).marks = s.marks := rfl
@[simp] theorem setFlag_pres (s : State) (a i : Nat) (b : Bool) : (s.setFlag a i b).pres = s.pres := rfl
@[simp] theorem setFlag_ucode (s : State) (a i : Nat) (b : Bool) : (s.setFlag a i b).ucode = s.ucode := rfl
@[simp] theorem setFlag_engines (s : State) (a i : Nat) (b : Bool) : (s.setFlag a i b).engines = s.engines := rfl
@[simp] theorem setFlag_plots (s : State) (a i : Nat) (b : Bool) : (s.setFlag a i b).plots = s.plots := rfl
@[simp] theorem setFlag_queues (s : State) (a i : Nat) (b : Bool) : (s.setFlag a i b).queues = s.queues := rfl
@[simp] theorem setFlag_routers (s : State) (a i : Nat) (b : Bool) : (s.setFlag a i b).routers = s.routers := rfl
@[simp] theorem setFlag_holds (s : State) (a i : Nat) (b : Bool) : (s.setFlag a i b).holds = s.holds := rfl
@[simp] theorem setFlag_flushing (s : State) (a i : Nat) (b : Bool) : (s.setFlag a i b).flushing = s.flushing := rfl
@[simp] theorem setFlag_dropping (s : State) (a i : Nat) (b : Bool) : (s.setFlag a i b).dropping = s.dropping := rfl
@[simp] theorem setFlag_wleft (s : State) (a i : Nat) (b : Bool) : (s.setFlag a i b).wleft = s.wleft := rfl
@[simp] theorem setFlag_appends (s : State) (a i : Nat) (b : Bool) : (s.setFlag a i b).appends = s.appends := rfl
@[simp] theorem setFlag_owed (s : State) (a i : Nat) (b : Bool) : (s.setFlag a i b).owed = s.owed := rfl
@[simp] theorem setFlag_reads (s : State) (a i : Nat) (b : Bool) : (s.setFlag a i b).reads = s.reads := rfl
@[simp] theorem setFlag_dests (s : State) (a i : Nat) (b : Bool) : (s.setFlag a i b).dests = s.dests := rfl
@[simp] theorem setFlag_arrivals (s : State) (a i : Nat) (b : Bool) : (s.setFlag a i b).arrivals = s.arrivals := rfl
@[simp] theorem setFlag_auditAt (s : State) (a i : Nat) (b : Bool) : (s.setFlag a i b).auditAt = s.auditAt := rfl
@[simp] theorem setFlag_rpath (s : State) (a i : Nat) (b : Bool) : (s.setFlag a i b).rpath = s.rpath := rfl
@[simp] theorem setFlag_pathAt (s : State) (a i : Nat) (b : Bool) : (s.setFlag a i b).pathAt = s.pathAt := rfl
@[simp] theorem setFlag_quads (s : State) (a i : Nat) (b : Bool) : (s.setFlag a i b).quads = s.quads := rfl
@[simp] theorem setFlag_banks (s : State) (a i : Nat) (b : Bool) : (s.setFlag a i b).banks = s.banks := rfl
@[simp] theorem setFlag_bankQ (s : State) (a i : Nat) (b : Bool) : (s.setFlag a i b).bankQ = s.bankQ := rfl
@[simp] theorem setFlag_bankWait (s : State) (a i : Nat) (b : Bool) : (s.setFlag a i b).bankWait = s.bankWait := rfl
@[simp] theorem setFlag_port0 (s : State) (a i : Nat) (b : Bool) : (s.setFlag a i b).port0 = s.port0 := rfl
@[simp] theorem setFlag_port1 (s : State) (a i : Nat) (b : Bool) : (s.setFlag a i b).port1 = s.port1 := rfl
@[simp] theorem setFlag_pop (s : State) (a i : Nat) (b : Bool) : (s.setFlag a i b).pop = s.pop := rfl
@[simp] theorem setFlag_dib (s : State) (a i : Nat) (b : Bool) : (s.setFlag a i b).dib = s.dib := rfl
@[simp] theorem setFlag_lck (s : State) (a i : Nat) (b : Bool) : (s.setFlag a i b).lck = s.lck := rfl
@[simp] theorem setFlag_evio (s : State) (a i : Nat) (b : Bool) : (s.setFlag a i b).evio = s.evio := rfl
@[simp] theorem setFlag_sieve (s : State) (a i : Nat) (b : Bool) : (s.setFlag a i b).sieve = s.sieve := rfl
@[simp] theorem setFlag_tx (s : State) (a i : Nat) (b : Bool) : (s.setFlag a i b).tx = s.tx := rfl
@[simp] theorem setFlag_host (s : State) (a i : Nat) (b : Bool) : (s.setFlag a i b).host = s.host := rfl
@[simp] theorem setFlag_cmd (s : State) (a i : Nat) (b : Bool) : (s.setFlag a i b).cmd = s.cmd := rfl
@[simp] theorem setFlag_fabric (s : State) (a i : Nat) (b : Bool) : (s.setFlag a i b).fabric = s.fabric := rfl
@[simp] theorem setFlag_power (s : State) (a i : Nat) (b : Bool) : (s.setFlag a i b).power = s.power := rfl
@[simp] theorem setFlag_upkeep (s : State) (a i : Nat) (b : Bool) : (s.setFlag a i b).upkeep = s.upkeep := rfl
@[simp] theorem setFlag_tap (s : State) (a i : Nat) (b : Bool) : (s.setFlag a i b).tap = s.tap := rfl
@[simp] theorem setFlag_smb (s : State) (a i : Nat) (b : Bool) : (s.setFlag a i b).smb = s.smb := rfl
@[simp] theorem setFlag_rootSel (s : State) (a i : Nat) (b : Bool) : (s.setFlag a i b).rootSel = s.rootSel := rfl
@[simp] theorem setFlag_testMode (s : State) (a i : Nat) (b : Bool) : (s.setFlag a i b).testMode = s.testMode := rfl
@[simp] theorem setFlag_faultN (s : State) (a i : Nat) (b : Bool) : (s.setFlag a i b).faultN = s.faultN := rfl
@[simp] theorem setFlag_pwrGood (s : State) (a i : Nat) (b : Bool) : (s.setFlag a i b).pwrGood = s.pwrGood := rfl
@[simp] theorem setFlag_image (s : State) (a i : Nat) (b : Bool) : (s.setFlag a i b).image = s.image := rfl
@[simp] theorem setFlag_mcVersion (s : State) (a i : Nat) (b : Bool) : (s.setFlag a i b).mcVersion = s.mcVersion := rfl
@[simp] theorem setFlag_free (s : State) (a i : Nat) (b : Bool) : (s.setFlag a i b).free = s.free := rfl
@[simp] theorem eng_setFlag (s : State) (a i : Nat) (b : Bool) (e' : Nat) : (s.setFlag a i b).eng e' = s.eng e' := rfl
@[simp] theorem plot_setFlag (s : State) (a i : Nat) (b : Bool) (p' : Nat) : (s.setFlag a i b).plot p' = s.plot p' := rfl
@[simp] theorem q_setFlag (s : State) (a i : Nat) (b : Bool) (k' : Nat) : (s.setFlag a i b).q k' = s.q k' := rfl
@[simp] theorem desc_setFlag (s : State) (a i : Nat) (b : Bool) (d' : Nat) : (s.setFlag a i b).desc d' = s.desc d' := rfl
@[simp] theorem lock_setFlag (s : State) (a i : Nat) (b : Bool) (n' : Nat) : (s.setFlag a i b).lock n' = s.lock n' := rfl
@[simp] theorem byte_setFlag (s : State) (a i : Nat) (b : Bool) (a' : Nat) : (s.setFlag a i b).byte a' = s.byte a' := rfl
@[simp] theorem mark_setFlag (s : State) (a i : Nat) (b : Bool) (a' : Nat) : (s.setFlag a i b).mark a' = s.mark a' := rfl

@[simp] theorem satAdd_pending (s : State) (a l n v : Nat) : (s.satAdd a l n v).pending = s.pending := rfl
@[simp] theorem satAdd_opState (s : State) (a l n v : Nat) : (s.satAdd a l n v).opState = s.opState := rfl
@[simp] theorem satAdd_prevState (s : State) (a l n v : Nat) : (s.satAdd a l n v).prevState = s.prevState := rfl
@[simp] theorem satAdd_profile (s : State) (a l n v : Nat) : (s.satAdd a l n v).profile = s.profile := rfl
@[simp] theorem satAdd_time (s : State) (a l n v : Nat) : (s.satAdd a l n v).time = s.time := rfl
@[simp] theorem satAdd_latches (s : State) (a l n v : Nat) : (s.satAdd a l n v).latches = s.latches := rfl
@[simp] theorem satAdd_stages (s : State) (a l n v : Nat) : (s.satAdd a l n v).stages = s.stages := rfl
@[simp] theorem satAdd_rdata (s : State) (a l n v : Nat) : (s.satAdd a l n v).rdata = s.rdata := rfl
@[simp] theorem satAdd_mem (s : State) (a l n v : Nat) : (s.satAdd a l n v).mem = s.mem := rfl
@[simp] theorem satAdd_marks (s : State) (a l n v : Nat) : (s.satAdd a l n v).marks = s.marks := rfl
@[simp] theorem satAdd_pres (s : State) (a l n v : Nat) : (s.satAdd a l n v).pres = s.pres := rfl
@[simp] theorem satAdd_ucode (s : State) (a l n v : Nat) : (s.satAdd a l n v).ucode = s.ucode := rfl
@[simp] theorem satAdd_engines (s : State) (a l n v : Nat) : (s.satAdd a l n v).engines = s.engines := rfl
@[simp] theorem satAdd_plots (s : State) (a l n v : Nat) : (s.satAdd a l n v).plots = s.plots := rfl
@[simp] theorem satAdd_queues (s : State) (a l n v : Nat) : (s.satAdd a l n v).queues = s.queues := rfl
@[simp] theorem satAdd_routers (s : State) (a l n v : Nat) : (s.satAdd a l n v).routers = s.routers := rfl
@[simp] theorem satAdd_holds (s : State) (a l n v : Nat) : (s.satAdd a l n v).holds = s.holds := rfl
@[simp] theorem satAdd_flushing (s : State) (a l n v : Nat) : (s.satAdd a l n v).flushing = s.flushing := rfl
@[simp] theorem satAdd_dropping (s : State) (a l n v : Nat) : (s.satAdd a l n v).dropping = s.dropping := rfl
@[simp] theorem satAdd_wleft (s : State) (a l n v : Nat) : (s.satAdd a l n v).wleft = s.wleft := rfl
@[simp] theorem satAdd_appends (s : State) (a l n v : Nat) : (s.satAdd a l n v).appends = s.appends := rfl
@[simp] theorem satAdd_owed (s : State) (a l n v : Nat) : (s.satAdd a l n v).owed = s.owed := rfl
@[simp] theorem satAdd_reads (s : State) (a l n v : Nat) : (s.satAdd a l n v).reads = s.reads := rfl
@[simp] theorem satAdd_dests (s : State) (a l n v : Nat) : (s.satAdd a l n v).dests = s.dests := rfl
@[simp] theorem satAdd_arrivals (s : State) (a l n v : Nat) : (s.satAdd a l n v).arrivals = s.arrivals := rfl
@[simp] theorem satAdd_auditAt (s : State) (a l n v : Nat) : (s.satAdd a l n v).auditAt = s.auditAt := rfl
@[simp] theorem satAdd_rpath (s : State) (a l n v : Nat) : (s.satAdd a l n v).rpath = s.rpath := rfl
@[simp] theorem satAdd_pathAt (s : State) (a l n v : Nat) : (s.satAdd a l n v).pathAt = s.pathAt := rfl
@[simp] theorem satAdd_quads (s : State) (a l n v : Nat) : (s.satAdd a l n v).quads = s.quads := rfl
@[simp] theorem satAdd_banks (s : State) (a l n v : Nat) : (s.satAdd a l n v).banks = s.banks := rfl
@[simp] theorem satAdd_bankQ (s : State) (a l n v : Nat) : (s.satAdd a l n v).bankQ = s.bankQ := rfl
@[simp] theorem satAdd_bankWait (s : State) (a l n v : Nat) : (s.satAdd a l n v).bankWait = s.bankWait := rfl
@[simp] theorem satAdd_port0 (s : State) (a l n v : Nat) : (s.satAdd a l n v).port0 = s.port0 := rfl
@[simp] theorem satAdd_port1 (s : State) (a l n v : Nat) : (s.satAdd a l n v).port1 = s.port1 := rfl
@[simp] theorem satAdd_pop (s : State) (a l n v : Nat) : (s.satAdd a l n v).pop = s.pop := rfl
@[simp] theorem satAdd_dib (s : State) (a l n v : Nat) : (s.satAdd a l n v).dib = s.dib := rfl
@[simp] theorem satAdd_lck (s : State) (a l n v : Nat) : (s.satAdd a l n v).lck = s.lck := rfl
@[simp] theorem satAdd_evio (s : State) (a l n v : Nat) : (s.satAdd a l n v).evio = s.evio := rfl
@[simp] theorem satAdd_sieve (s : State) (a l n v : Nat) : (s.satAdd a l n v).sieve = s.sieve := rfl
@[simp] theorem satAdd_tx (s : State) (a l n v : Nat) : (s.satAdd a l n v).tx = s.tx := rfl
@[simp] theorem satAdd_host (s : State) (a l n v : Nat) : (s.satAdd a l n v).host = s.host := rfl
@[simp] theorem satAdd_cmd (s : State) (a l n v : Nat) : (s.satAdd a l n v).cmd = s.cmd := rfl
@[simp] theorem satAdd_fabric (s : State) (a l n v : Nat) : (s.satAdd a l n v).fabric = s.fabric := rfl
@[simp] theorem satAdd_power (s : State) (a l n v : Nat) : (s.satAdd a l n v).power = s.power := rfl
@[simp] theorem satAdd_upkeep (s : State) (a l n v : Nat) : (s.satAdd a l n v).upkeep = s.upkeep := rfl
@[simp] theorem satAdd_tap (s : State) (a l n v : Nat) : (s.satAdd a l n v).tap = s.tap := rfl
@[simp] theorem satAdd_smb (s : State) (a l n v : Nat) : (s.satAdd a l n v).smb = s.smb := rfl
@[simp] theorem satAdd_rootSel (s : State) (a l n v : Nat) : (s.satAdd a l n v).rootSel = s.rootSel := rfl
@[simp] theorem satAdd_testMode (s : State) (a l n v : Nat) : (s.satAdd a l n v).testMode = s.testMode := rfl
@[simp] theorem satAdd_faultN (s : State) (a l n v : Nat) : (s.satAdd a l n v).faultN = s.faultN := rfl
@[simp] theorem satAdd_pwrGood (s : State) (a l n v : Nat) : (s.satAdd a l n v).pwrGood = s.pwrGood := rfl
@[simp] theorem satAdd_image (s : State) (a l n v : Nat) : (s.satAdd a l n v).image = s.image := rfl
@[simp] theorem satAdd_mcVersion (s : State) (a l n v : Nat) : (s.satAdd a l n v).mcVersion = s.mcVersion := rfl
@[simp] theorem satAdd_free (s : State) (a l n v : Nat) : (s.satAdd a l n v).free = s.free := rfl
@[simp] theorem eng_satAdd (s : State) (a l n v : Nat) (e' : Nat) : (s.satAdd a l n v).eng e' = s.eng e' := rfl
@[simp] theorem plot_satAdd (s : State) (a l n v : Nat) (p' : Nat) : (s.satAdd a l n v).plot p' = s.plot p' := rfl
@[simp] theorem q_satAdd (s : State) (a l n v : Nat) (k' : Nat) : (s.satAdd a l n v).q k' = s.q k' := rfl
@[simp] theorem desc_satAdd (s : State) (a l n v : Nat) (d' : Nat) : (s.satAdd a l n v).desc d' = s.desc d' := rfl
@[simp] theorem lock_satAdd (s : State) (a l n v : Nat) (n' : Nat) : (s.satAdd a l n v).lock n' = s.lock n' := rfl
@[simp] theorem byte_satAdd (s : State) (a l n v : Nat) (a' : Nat) : (s.satAdd a l n v).byte a' = s.byte a' := rfl
@[simp] theorem mark_satAdd (s : State) (a l n v : Nat) (a' : Nat) : (s.satAdd a l n v).mark a' = s.mark a' := rfl

@[simp] theorem satInc_pending (s : State) (a l n : Nat) : (s.satInc a l n).pending = s.pending := rfl
@[simp] theorem satInc_opState (s : State) (a l n : Nat) : (s.satInc a l n).opState = s.opState := rfl
@[simp] theorem satInc_prevState (s : State) (a l n : Nat) : (s.satInc a l n).prevState = s.prevState := rfl
@[simp] theorem satInc_profile (s : State) (a l n : Nat) : (s.satInc a l n).profile = s.profile := rfl
@[simp] theorem satInc_time (s : State) (a l n : Nat) : (s.satInc a l n).time = s.time := rfl
@[simp] theorem satInc_latches (s : State) (a l n : Nat) : (s.satInc a l n).latches = s.latches := rfl
@[simp] theorem satInc_stages (s : State) (a l n : Nat) : (s.satInc a l n).stages = s.stages := rfl
@[simp] theorem satInc_rdata (s : State) (a l n : Nat) : (s.satInc a l n).rdata = s.rdata := rfl
@[simp] theorem satInc_mem (s : State) (a l n : Nat) : (s.satInc a l n).mem = s.mem := rfl
@[simp] theorem satInc_marks (s : State) (a l n : Nat) : (s.satInc a l n).marks = s.marks := rfl
@[simp] theorem satInc_pres (s : State) (a l n : Nat) : (s.satInc a l n).pres = s.pres := rfl
@[simp] theorem satInc_ucode (s : State) (a l n : Nat) : (s.satInc a l n).ucode = s.ucode := rfl
@[simp] theorem satInc_engines (s : State) (a l n : Nat) : (s.satInc a l n).engines = s.engines := rfl
@[simp] theorem satInc_plots (s : State) (a l n : Nat) : (s.satInc a l n).plots = s.plots := rfl
@[simp] theorem satInc_queues (s : State) (a l n : Nat) : (s.satInc a l n).queues = s.queues := rfl
@[simp] theorem satInc_routers (s : State) (a l n : Nat) : (s.satInc a l n).routers = s.routers := rfl
@[simp] theorem satInc_holds (s : State) (a l n : Nat) : (s.satInc a l n).holds = s.holds := rfl
@[simp] theorem satInc_flushing (s : State) (a l n : Nat) : (s.satInc a l n).flushing = s.flushing := rfl
@[simp] theorem satInc_dropping (s : State) (a l n : Nat) : (s.satInc a l n).dropping = s.dropping := rfl
@[simp] theorem satInc_wleft (s : State) (a l n : Nat) : (s.satInc a l n).wleft = s.wleft := rfl
@[simp] theorem satInc_appends (s : State) (a l n : Nat) : (s.satInc a l n).appends = s.appends := rfl
@[simp] theorem satInc_owed (s : State) (a l n : Nat) : (s.satInc a l n).owed = s.owed := rfl
@[simp] theorem satInc_reads (s : State) (a l n : Nat) : (s.satInc a l n).reads = s.reads := rfl
@[simp] theorem satInc_dests (s : State) (a l n : Nat) : (s.satInc a l n).dests = s.dests := rfl
@[simp] theorem satInc_arrivals (s : State) (a l n : Nat) : (s.satInc a l n).arrivals = s.arrivals := rfl
@[simp] theorem satInc_auditAt (s : State) (a l n : Nat) : (s.satInc a l n).auditAt = s.auditAt := rfl
@[simp] theorem satInc_rpath (s : State) (a l n : Nat) : (s.satInc a l n).rpath = s.rpath := rfl
@[simp] theorem satInc_pathAt (s : State) (a l n : Nat) : (s.satInc a l n).pathAt = s.pathAt := rfl
@[simp] theorem satInc_quads (s : State) (a l n : Nat) : (s.satInc a l n).quads = s.quads := rfl
@[simp] theorem satInc_banks (s : State) (a l n : Nat) : (s.satInc a l n).banks = s.banks := rfl
@[simp] theorem satInc_bankQ (s : State) (a l n : Nat) : (s.satInc a l n).bankQ = s.bankQ := rfl
@[simp] theorem satInc_bankWait (s : State) (a l n : Nat) : (s.satInc a l n).bankWait = s.bankWait := rfl
@[simp] theorem satInc_port0 (s : State) (a l n : Nat) : (s.satInc a l n).port0 = s.port0 := rfl
@[simp] theorem satInc_port1 (s : State) (a l n : Nat) : (s.satInc a l n).port1 = s.port1 := rfl
@[simp] theorem satInc_pop (s : State) (a l n : Nat) : (s.satInc a l n).pop = s.pop := rfl
@[simp] theorem satInc_dib (s : State) (a l n : Nat) : (s.satInc a l n).dib = s.dib := rfl
@[simp] theorem satInc_lck (s : State) (a l n : Nat) : (s.satInc a l n).lck = s.lck := rfl
@[simp] theorem satInc_evio (s : State) (a l n : Nat) : (s.satInc a l n).evio = s.evio := rfl
@[simp] theorem satInc_sieve (s : State) (a l n : Nat) : (s.satInc a l n).sieve = s.sieve := rfl
@[simp] theorem satInc_tx (s : State) (a l n : Nat) : (s.satInc a l n).tx = s.tx := rfl
@[simp] theorem satInc_host (s : State) (a l n : Nat) : (s.satInc a l n).host = s.host := rfl
@[simp] theorem satInc_cmd (s : State) (a l n : Nat) : (s.satInc a l n).cmd = s.cmd := rfl
@[simp] theorem satInc_fabric (s : State) (a l n : Nat) : (s.satInc a l n).fabric = s.fabric := rfl
@[simp] theorem satInc_power (s : State) (a l n : Nat) : (s.satInc a l n).power = s.power := rfl
@[simp] theorem satInc_upkeep (s : State) (a l n : Nat) : (s.satInc a l n).upkeep = s.upkeep := rfl
@[simp] theorem satInc_tap (s : State) (a l n : Nat) : (s.satInc a l n).tap = s.tap := rfl
@[simp] theorem satInc_smb (s : State) (a l n : Nat) : (s.satInc a l n).smb = s.smb := rfl
@[simp] theorem satInc_rootSel (s : State) (a l n : Nat) : (s.satInc a l n).rootSel = s.rootSel := rfl
@[simp] theorem satInc_testMode (s : State) (a l n : Nat) : (s.satInc a l n).testMode = s.testMode := rfl
@[simp] theorem satInc_faultN (s : State) (a l n : Nat) : (s.satInc a l n).faultN = s.faultN := rfl
@[simp] theorem satInc_pwrGood (s : State) (a l n : Nat) : (s.satInc a l n).pwrGood = s.pwrGood := rfl
@[simp] theorem satInc_image (s : State) (a l n : Nat) : (s.satInc a l n).image = s.image := rfl
@[simp] theorem satInc_mcVersion (s : State) (a l n : Nat) : (s.satInc a l n).mcVersion = s.mcVersion := rfl
@[simp] theorem satInc_free (s : State) (a l n : Nat) : (s.satInc a l n).free = s.free := rfl
@[simp] theorem eng_satInc (s : State) (a l n : Nat) (e' : Nat) : (s.satInc a l n).eng e' = s.eng e' := rfl
@[simp] theorem plot_satInc (s : State) (a l n : Nat) (p' : Nat) : (s.satInc a l n).plot p' = s.plot p' := rfl
@[simp] theorem q_satInc (s : State) (a l n : Nat) (k' : Nat) : (s.satInc a l n).q k' = s.q k' := rfl
@[simp] theorem desc_satInc (s : State) (a l n : Nat) (d' : Nat) : (s.satInc a l n).desc d' = s.desc d' := rfl
@[simp] theorem lock_satInc (s : State) (a l n : Nat) (n' : Nat) : (s.satInc a l n).lock n' = s.lock n' := rfl
@[simp] theorem byte_satInc (s : State) (a l n : Nat) (a' : Nat) : (s.satInc a l n).byte a' = s.byte a' := rfl
@[simp] theorem mark_satInc (s : State) (a l n : Nat) (a' : Nat) : (s.satInc a l n).mark a' = s.mark a' := rfl

@[simp] theorem wr64_pending (s : State) (a : Nat) (v : Word) : (s.wr64 a v).pending = s.pending := rfl
@[simp] theorem wr64_opState (s : State) (a : Nat) (v : Word) : (s.wr64 a v).opState = s.opState := rfl
@[simp] theorem wr64_prevState (s : State) (a : Nat) (v : Word) : (s.wr64 a v).prevState = s.prevState := rfl
@[simp] theorem wr64_profile (s : State) (a : Nat) (v : Word) : (s.wr64 a v).profile = s.profile := rfl
@[simp] theorem wr64_time (s : State) (a : Nat) (v : Word) : (s.wr64 a v).time = s.time := rfl
@[simp] theorem wr64_latches (s : State) (a : Nat) (v : Word) : (s.wr64 a v).latches = s.latches := rfl
@[simp] theorem wr64_stages (s : State) (a : Nat) (v : Word) : (s.wr64 a v).stages = s.stages := rfl
@[simp] theorem wr64_rdata (s : State) (a : Nat) (v : Word) : (s.wr64 a v).rdata = s.rdata := rfl
@[simp] theorem wr64_mem (s : State) (a : Nat) (v : Word) : (s.wr64 a v).mem = s.mem := rfl
@[simp] theorem wr64_marks (s : State) (a : Nat) (v : Word) : (s.wr64 a v).marks = s.marks := rfl
@[simp] theorem wr64_pres (s : State) (a : Nat) (v : Word) : (s.wr64 a v).pres = s.pres := rfl
@[simp] theorem wr64_ucode (s : State) (a : Nat) (v : Word) : (s.wr64 a v).ucode = s.ucode := rfl
@[simp] theorem wr64_engines (s : State) (a : Nat) (v : Word) : (s.wr64 a v).engines = s.engines := rfl
@[simp] theorem wr64_plots (s : State) (a : Nat) (v : Word) : (s.wr64 a v).plots = s.plots := rfl
@[simp] theorem wr64_queues (s : State) (a : Nat) (v : Word) : (s.wr64 a v).queues = s.queues := rfl
@[simp] theorem wr64_routers (s : State) (a : Nat) (v : Word) : (s.wr64 a v).routers = s.routers := rfl
@[simp] theorem wr64_holds (s : State) (a : Nat) (v : Word) : (s.wr64 a v).holds = s.holds := rfl
@[simp] theorem wr64_flushing (s : State) (a : Nat) (v : Word) : (s.wr64 a v).flushing = s.flushing := rfl
@[simp] theorem wr64_dropping (s : State) (a : Nat) (v : Word) : (s.wr64 a v).dropping = s.dropping := rfl
@[simp] theorem wr64_wleft (s : State) (a : Nat) (v : Word) : (s.wr64 a v).wleft = s.wleft := rfl
@[simp] theorem wr64_appends (s : State) (a : Nat) (v : Word) : (s.wr64 a v).appends = s.appends := rfl
@[simp] theorem wr64_owed (s : State) (a : Nat) (v : Word) : (s.wr64 a v).owed = s.owed := rfl
@[simp] theorem wr64_reads (s : State) (a : Nat) (v : Word) : (s.wr64 a v).reads = s.reads := rfl
@[simp] theorem wr64_dests (s : State) (a : Nat) (v : Word) : (s.wr64 a v).dests = s.dests := rfl
@[simp] theorem wr64_arrivals (s : State) (a : Nat) (v : Word) : (s.wr64 a v).arrivals = s.arrivals := rfl
@[simp] theorem wr64_auditAt (s : State) (a : Nat) (v : Word) : (s.wr64 a v).auditAt = s.auditAt := rfl
@[simp] theorem wr64_rpath (s : State) (a : Nat) (v : Word) : (s.wr64 a v).rpath = s.rpath := rfl
@[simp] theorem wr64_pathAt (s : State) (a : Nat) (v : Word) : (s.wr64 a v).pathAt = s.pathAt := rfl
@[simp] theorem wr64_quads (s : State) (a : Nat) (v : Word) : (s.wr64 a v).quads = s.quads := rfl
@[simp] theorem wr64_banks (s : State) (a : Nat) (v : Word) : (s.wr64 a v).banks = s.banks := rfl
@[simp] theorem wr64_bankQ (s : State) (a : Nat) (v : Word) : (s.wr64 a v).bankQ = s.bankQ := rfl
@[simp] theorem wr64_bankWait (s : State) (a : Nat) (v : Word) : (s.wr64 a v).bankWait = s.bankWait := rfl
@[simp] theorem wr64_port0 (s : State) (a : Nat) (v : Word) : (s.wr64 a v).port0 = s.port0 := rfl
@[simp] theorem wr64_port1 (s : State) (a : Nat) (v : Word) : (s.wr64 a v).port1 = s.port1 := rfl
@[simp] theorem wr64_pop (s : State) (a : Nat) (v : Word) : (s.wr64 a v).pop = s.pop := rfl
@[simp] theorem wr64_dib (s : State) (a : Nat) (v : Word) : (s.wr64 a v).dib = s.dib := rfl
@[simp] theorem wr64_lck (s : State) (a : Nat) (v : Word) : (s.wr64 a v).lck = s.lck := rfl
@[simp] theorem wr64_evio (s : State) (a : Nat) (v : Word) : (s.wr64 a v).evio = s.evio := rfl
@[simp] theorem wr64_sieve (s : State) (a : Nat) (v : Word) : (s.wr64 a v).sieve = s.sieve := rfl
@[simp] theorem wr64_tx (s : State) (a : Nat) (v : Word) : (s.wr64 a v).tx = s.tx := rfl
@[simp] theorem wr64_host (s : State) (a : Nat) (v : Word) : (s.wr64 a v).host = s.host := rfl
@[simp] theorem wr64_cmd (s : State) (a : Nat) (v : Word) : (s.wr64 a v).cmd = s.cmd := rfl
@[simp] theorem wr64_fabric (s : State) (a : Nat) (v : Word) : (s.wr64 a v).fabric = s.fabric := rfl
@[simp] theorem wr64_power (s : State) (a : Nat) (v : Word) : (s.wr64 a v).power = s.power := rfl
@[simp] theorem wr64_upkeep (s : State) (a : Nat) (v : Word) : (s.wr64 a v).upkeep = s.upkeep := rfl
@[simp] theorem wr64_tap (s : State) (a : Nat) (v : Word) : (s.wr64 a v).tap = s.tap := rfl
@[simp] theorem wr64_smb (s : State) (a : Nat) (v : Word) : (s.wr64 a v).smb = s.smb := rfl
@[simp] theorem wr64_rootSel (s : State) (a : Nat) (v : Word) : (s.wr64 a v).rootSel = s.rootSel := rfl
@[simp] theorem wr64_testMode (s : State) (a : Nat) (v : Word) : (s.wr64 a v).testMode = s.testMode := rfl
@[simp] theorem wr64_faultN (s : State) (a : Nat) (v : Word) : (s.wr64 a v).faultN = s.faultN := rfl
@[simp] theorem wr64_pwrGood (s : State) (a : Nat) (v : Word) : (s.wr64 a v).pwrGood = s.pwrGood := rfl
@[simp] theorem wr64_image (s : State) (a : Nat) (v : Word) : (s.wr64 a v).image = s.image := rfl
@[simp] theorem wr64_mcVersion (s : State) (a : Nat) (v : Word) : (s.wr64 a v).mcVersion = s.mcVersion := rfl
@[simp] theorem wr64_free (s : State) (a : Nat) (v : Word) : (s.wr64 a v).free = s.free := rfl
@[simp] theorem eng_wr64 (s : State) (a : Nat) (v : Word) (e' : Nat) : (s.wr64 a v).eng e' = s.eng e' := rfl
@[simp] theorem plot_wr64 (s : State) (a : Nat) (v : Word) (p' : Nat) : (s.wr64 a v).plot p' = s.plot p' := rfl
@[simp] theorem q_wr64 (s : State) (a : Nat) (v : Word) (k' : Nat) : (s.wr64 a v).q k' = s.q k' := rfl
@[simp] theorem desc_wr64 (s : State) (a : Nat) (v : Word) (d' : Nat) : (s.wr64 a v).desc d' = s.desc d' := rfl
@[simp] theorem lock_wr64 (s : State) (a : Nat) (v : Word) (n' : Nat) : (s.wr64 a v).lock n' = s.lock n' := rfl
@[simp] theorem byte_wr64 (s : State) (a : Nat) (v : Word) (a' : Nat) : (s.wr64 a v).byte a' = s.byte a' := rfl
@[simp] theorem mark_wr64 (s : State) (a : Nat) (v : Word) (a' : Nat) : (s.wr64 a v).mark a' = s.mark a' := rfl

@[simp] theorem inc64_pending (s : State) (a : Nat) : (s.inc64 a).pending = s.pending := rfl
@[simp] theorem inc64_opState (s : State) (a : Nat) : (s.inc64 a).opState = s.opState := rfl
@[simp] theorem inc64_prevState (s : State) (a : Nat) : (s.inc64 a).prevState = s.prevState := rfl
@[simp] theorem inc64_profile (s : State) (a : Nat) : (s.inc64 a).profile = s.profile := rfl
@[simp] theorem inc64_time (s : State) (a : Nat) : (s.inc64 a).time = s.time := rfl
@[simp] theorem inc64_latches (s : State) (a : Nat) : (s.inc64 a).latches = s.latches := rfl
@[simp] theorem inc64_stages (s : State) (a : Nat) : (s.inc64 a).stages = s.stages := rfl
@[simp] theorem inc64_rdata (s : State) (a : Nat) : (s.inc64 a).rdata = s.rdata := rfl
@[simp] theorem inc64_mem (s : State) (a : Nat) : (s.inc64 a).mem = s.mem := rfl
@[simp] theorem inc64_marks (s : State) (a : Nat) : (s.inc64 a).marks = s.marks := rfl
@[simp] theorem inc64_pres (s : State) (a : Nat) : (s.inc64 a).pres = s.pres := rfl
@[simp] theorem inc64_ucode (s : State) (a : Nat) : (s.inc64 a).ucode = s.ucode := rfl
@[simp] theorem inc64_engines (s : State) (a : Nat) : (s.inc64 a).engines = s.engines := rfl
@[simp] theorem inc64_plots (s : State) (a : Nat) : (s.inc64 a).plots = s.plots := rfl
@[simp] theorem inc64_queues (s : State) (a : Nat) : (s.inc64 a).queues = s.queues := rfl
@[simp] theorem inc64_routers (s : State) (a : Nat) : (s.inc64 a).routers = s.routers := rfl
@[simp] theorem inc64_holds (s : State) (a : Nat) : (s.inc64 a).holds = s.holds := rfl
@[simp] theorem inc64_flushing (s : State) (a : Nat) : (s.inc64 a).flushing = s.flushing := rfl
@[simp] theorem inc64_dropping (s : State) (a : Nat) : (s.inc64 a).dropping = s.dropping := rfl
@[simp] theorem inc64_wleft (s : State) (a : Nat) : (s.inc64 a).wleft = s.wleft := rfl
@[simp] theorem inc64_appends (s : State) (a : Nat) : (s.inc64 a).appends = s.appends := rfl
@[simp] theorem inc64_owed (s : State) (a : Nat) : (s.inc64 a).owed = s.owed := rfl
@[simp] theorem inc64_reads (s : State) (a : Nat) : (s.inc64 a).reads = s.reads := rfl
@[simp] theorem inc64_dests (s : State) (a : Nat) : (s.inc64 a).dests = s.dests := rfl
@[simp] theorem inc64_arrivals (s : State) (a : Nat) : (s.inc64 a).arrivals = s.arrivals := rfl
@[simp] theorem inc64_auditAt (s : State) (a : Nat) : (s.inc64 a).auditAt = s.auditAt := rfl
@[simp] theorem inc64_rpath (s : State) (a : Nat) : (s.inc64 a).rpath = s.rpath := rfl
@[simp] theorem inc64_pathAt (s : State) (a : Nat) : (s.inc64 a).pathAt = s.pathAt := rfl
@[simp] theorem inc64_quads (s : State) (a : Nat) : (s.inc64 a).quads = s.quads := rfl
@[simp] theorem inc64_banks (s : State) (a : Nat) : (s.inc64 a).banks = s.banks := rfl
@[simp] theorem inc64_bankQ (s : State) (a : Nat) : (s.inc64 a).bankQ = s.bankQ := rfl
@[simp] theorem inc64_bankWait (s : State) (a : Nat) : (s.inc64 a).bankWait = s.bankWait := rfl
@[simp] theorem inc64_port0 (s : State) (a : Nat) : (s.inc64 a).port0 = s.port0 := rfl
@[simp] theorem inc64_port1 (s : State) (a : Nat) : (s.inc64 a).port1 = s.port1 := rfl
@[simp] theorem inc64_pop (s : State) (a : Nat) : (s.inc64 a).pop = s.pop := rfl
@[simp] theorem inc64_dib (s : State) (a : Nat) : (s.inc64 a).dib = s.dib := rfl
@[simp] theorem inc64_lck (s : State) (a : Nat) : (s.inc64 a).lck = s.lck := rfl
@[simp] theorem inc64_evio (s : State) (a : Nat) : (s.inc64 a).evio = s.evio := rfl
@[simp] theorem inc64_sieve (s : State) (a : Nat) : (s.inc64 a).sieve = s.sieve := rfl
@[simp] theorem inc64_tx (s : State) (a : Nat) : (s.inc64 a).tx = s.tx := rfl
@[simp] theorem inc64_host (s : State) (a : Nat) : (s.inc64 a).host = s.host := rfl
@[simp] theorem inc64_cmd (s : State) (a : Nat) : (s.inc64 a).cmd = s.cmd := rfl
@[simp] theorem inc64_fabric (s : State) (a : Nat) : (s.inc64 a).fabric = s.fabric := rfl
@[simp] theorem inc64_power (s : State) (a : Nat) : (s.inc64 a).power = s.power := rfl
@[simp] theorem inc64_upkeep (s : State) (a : Nat) : (s.inc64 a).upkeep = s.upkeep := rfl
@[simp] theorem inc64_tap (s : State) (a : Nat) : (s.inc64 a).tap = s.tap := rfl
@[simp] theorem inc64_smb (s : State) (a : Nat) : (s.inc64 a).smb = s.smb := rfl
@[simp] theorem inc64_rootSel (s : State) (a : Nat) : (s.inc64 a).rootSel = s.rootSel := rfl
@[simp] theorem inc64_testMode (s : State) (a : Nat) : (s.inc64 a).testMode = s.testMode := rfl
@[simp] theorem inc64_faultN (s : State) (a : Nat) : (s.inc64 a).faultN = s.faultN := rfl
@[simp] theorem inc64_pwrGood (s : State) (a : Nat) : (s.inc64 a).pwrGood = s.pwrGood := rfl
@[simp] theorem inc64_image (s : State) (a : Nat) : (s.inc64 a).image = s.image := rfl
@[simp] theorem inc64_mcVersion (s : State) (a : Nat) : (s.inc64 a).mcVersion = s.mcVersion := rfl
@[simp] theorem inc64_free (s : State) (a : Nat) : (s.inc64 a).free = s.free := rfl
@[simp] theorem eng_inc64 (s : State) (a : Nat) (e' : Nat) : (s.inc64 a).eng e' = s.eng e' := rfl
@[simp] theorem plot_inc64 (s : State) (a : Nat) (p' : Nat) : (s.inc64 a).plot p' = s.plot p' := rfl
@[simp] theorem q_inc64 (s : State) (a : Nat) (k' : Nat) : (s.inc64 a).q k' = s.q k' := rfl
@[simp] theorem desc_inc64 (s : State) (a : Nat) (d' : Nat) : (s.inc64 a).desc d' = s.desc d' := rfl
@[simp] theorem lock_inc64 (s : State) (a : Nat) (n' : Nat) : (s.inc64 a).lock n' = s.lock n' := rfl
@[simp] theorem byte_inc64 (s : State) (a : Nat) (a' : Nat) : (s.inc64 a).byte a' = s.byte a' := rfl
@[simp] theorem mark_inc64 (s : State) (a : Nat) (a' : Nat) : (s.inc64 a).mark a' = s.mark a' := rfl

@[simp] theorem rsvd_pending (s : State)  : (s.rsvd).pending = s.pending := rfl
@[simp] theorem rsvd_opState (s : State)  : (s.rsvd).opState = s.opState := rfl
@[simp] theorem rsvd_prevState (s : State)  : (s.rsvd).prevState = s.prevState := rfl
@[simp] theorem rsvd_profile (s : State)  : (s.rsvd).profile = s.profile := rfl
@[simp] theorem rsvd_time (s : State)  : (s.rsvd).time = s.time := rfl
@[simp] theorem rsvd_latches (s : State)  : (s.rsvd).latches = s.latches := rfl
@[simp] theorem rsvd_stages (s : State)  : (s.rsvd).stages = s.stages := rfl
@[simp] theorem rsvd_rdata (s : State)  : (s.rsvd).rdata = s.rdata := rfl
@[simp] theorem rsvd_mem (s : State)  : (s.rsvd).mem = s.mem := rfl
@[simp] theorem rsvd_marks (s : State)  : (s.rsvd).marks = s.marks := rfl
@[simp] theorem rsvd_pres (s : State)  : (s.rsvd).pres = s.pres := rfl
@[simp] theorem rsvd_ucode (s : State)  : (s.rsvd).ucode = s.ucode := rfl
@[simp] theorem rsvd_engines (s : State)  : (s.rsvd).engines = s.engines := rfl
@[simp] theorem rsvd_plots (s : State)  : (s.rsvd).plots = s.plots := rfl
@[simp] theorem rsvd_queues (s : State)  : (s.rsvd).queues = s.queues := rfl
@[simp] theorem rsvd_routers (s : State)  : (s.rsvd).routers = s.routers := rfl
@[simp] theorem rsvd_holds (s : State)  : (s.rsvd).holds = s.holds := rfl
@[simp] theorem rsvd_flushing (s : State)  : (s.rsvd).flushing = s.flushing := rfl
@[simp] theorem rsvd_dropping (s : State)  : (s.rsvd).dropping = s.dropping := rfl
@[simp] theorem rsvd_wleft (s : State)  : (s.rsvd).wleft = s.wleft := rfl
@[simp] theorem rsvd_appends (s : State)  : (s.rsvd).appends = s.appends := rfl
@[simp] theorem rsvd_owed (s : State)  : (s.rsvd).owed = s.owed := rfl
@[simp] theorem rsvd_reads (s : State)  : (s.rsvd).reads = s.reads := rfl
@[simp] theorem rsvd_dests (s : State)  : (s.rsvd).dests = s.dests := rfl
@[simp] theorem rsvd_arrivals (s : State)  : (s.rsvd).arrivals = s.arrivals := rfl
@[simp] theorem rsvd_auditAt (s : State)  : (s.rsvd).auditAt = s.auditAt := rfl
@[simp] theorem rsvd_rpath (s : State)  : (s.rsvd).rpath = s.rpath := rfl
@[simp] theorem rsvd_pathAt (s : State)  : (s.rsvd).pathAt = s.pathAt := rfl
@[simp] theorem rsvd_quads (s : State)  : (s.rsvd).quads = s.quads := rfl
@[simp] theorem rsvd_banks (s : State)  : (s.rsvd).banks = s.banks := rfl
@[simp] theorem rsvd_bankQ (s : State)  : (s.rsvd).bankQ = s.bankQ := rfl
@[simp] theorem rsvd_bankWait (s : State)  : (s.rsvd).bankWait = s.bankWait := rfl
@[simp] theorem rsvd_port0 (s : State)  : (s.rsvd).port0 = s.port0 := rfl
@[simp] theorem rsvd_port1 (s : State)  : (s.rsvd).port1 = s.port1 := rfl
@[simp] theorem rsvd_pop (s : State)  : (s.rsvd).pop = s.pop := rfl
@[simp] theorem rsvd_dib (s : State)  : (s.rsvd).dib = s.dib := rfl
@[simp] theorem rsvd_lck (s : State)  : (s.rsvd).lck = s.lck := rfl
@[simp] theorem rsvd_evio (s : State)  : (s.rsvd).evio = s.evio := rfl
@[simp] theorem rsvd_sieve (s : State)  : (s.rsvd).sieve = s.sieve := rfl
@[simp] theorem rsvd_tx (s : State)  : (s.rsvd).tx = s.tx := rfl
@[simp] theorem rsvd_host (s : State)  : (s.rsvd).host = s.host := rfl
@[simp] theorem rsvd_cmd (s : State)  : (s.rsvd).cmd = s.cmd := rfl
@[simp] theorem rsvd_fabric (s : State)  : (s.rsvd).fabric = s.fabric := rfl
@[simp] theorem rsvd_power (s : State)  : (s.rsvd).power = s.power := rfl
@[simp] theorem rsvd_upkeep (s : State)  : (s.rsvd).upkeep = s.upkeep := rfl
@[simp] theorem rsvd_tap (s : State)  : (s.rsvd).tap = s.tap := rfl
@[simp] theorem rsvd_smb (s : State)  : (s.rsvd).smb = s.smb := rfl
@[simp] theorem rsvd_rootSel (s : State)  : (s.rsvd).rootSel = s.rootSel := rfl
@[simp] theorem rsvd_testMode (s : State)  : (s.rsvd).testMode = s.testMode := rfl
@[simp] theorem rsvd_faultN (s : State)  : (s.rsvd).faultN = s.faultN := rfl
@[simp] theorem rsvd_pwrGood (s : State)  : (s.rsvd).pwrGood = s.pwrGood := rfl
@[simp] theorem rsvd_image (s : State)  : (s.rsvd).image = s.image := rfl
@[simp] theorem rsvd_mcVersion (s : State)  : (s.rsvd).mcVersion = s.mcVersion := rfl
@[simp] theorem rsvd_free (s : State)  : (s.rsvd).free = s.free := rfl
@[simp] theorem eng_rsvd (s : State)  (e' : Nat) : (s.rsvd).eng e' = s.eng e' := rfl
@[simp] theorem plot_rsvd (s : State)  (p' : Nat) : (s.rsvd).plot p' = s.plot p' := rfl
@[simp] theorem q_rsvd (s : State)  (k' : Nat) : (s.rsvd).q k' = s.q k' := rfl
@[simp] theorem desc_rsvd (s : State)  (d' : Nat) : (s.rsvd).desc d' = s.desc d' := rfl
@[simp] theorem lock_rsvd (s : State)  (n' : Nat) : (s.rsvd).lock n' = s.lock n' := rfl
@[simp] theorem byte_rsvd (s : State)  (a' : Nat) : (s.rsvd).byte a' = s.byte a' := rfl
@[simp] theorem mark_rsvd (s : State)  (a' : Nat) : (s.rsvd).mark a' = s.mark a' := rfl

@[simp] theorem setEng_pending (s : State) (e : Nat) (x : Engine) : (s.setEng e x).pending = s.pending := rfl
@[simp] theorem setEng_opState (s : State) (e : Nat) (x : Engine) : (s.setEng e x).opState = s.opState := rfl
@[simp] theorem setEng_prevState (s : State) (e : Nat) (x : Engine) : (s.setEng e x).prevState = s.prevState := rfl
@[simp] theorem setEng_profile (s : State) (e : Nat) (x : Engine) : (s.setEng e x).profile = s.profile := rfl
@[simp] theorem setEng_time (s : State) (e : Nat) (x : Engine) : (s.setEng e x).time = s.time := rfl
@[simp] theorem setEng_regs (s : State) (e : Nat) (x : Engine) : (s.setEng e x).regs = s.regs := rfl
@[simp] theorem setEng_latches (s : State) (e : Nat) (x : Engine) : (s.setEng e x).latches = s.latches := rfl
@[simp] theorem setEng_stages (s : State) (e : Nat) (x : Engine) : (s.setEng e x).stages = s.stages := rfl
@[simp] theorem setEng_rdata (s : State) (e : Nat) (x : Engine) : (s.setEng e x).rdata = s.rdata := rfl
@[simp] theorem setEng_mem (s : State) (e : Nat) (x : Engine) : (s.setEng e x).mem = s.mem := rfl
@[simp] theorem setEng_marks (s : State) (e : Nat) (x : Engine) : (s.setEng e x).marks = s.marks := rfl
@[simp] theorem setEng_pres (s : State) (e : Nat) (x : Engine) : (s.setEng e x).pres = s.pres := rfl
@[simp] theorem setEng_ucode (s : State) (e : Nat) (x : Engine) : (s.setEng e x).ucode = s.ucode := rfl
@[simp] theorem setEng_plots (s : State) (e : Nat) (x : Engine) : (s.setEng e x).plots = s.plots := rfl
@[simp] theorem setEng_queues (s : State) (e : Nat) (x : Engine) : (s.setEng e x).queues = s.queues := rfl
@[simp] theorem setEng_routers (s : State) (e : Nat) (x : Engine) : (s.setEng e x).routers = s.routers := rfl
@[simp] theorem setEng_holds (s : State) (e : Nat) (x : Engine) : (s.setEng e x).holds = s.holds := rfl
@[simp] theorem setEng_flushing (s : State) (e : Nat) (x : Engine) : (s.setEng e x).flushing = s.flushing := rfl
@[simp] theorem setEng_dropping (s : State) (e : Nat) (x : Engine) : (s.setEng e x).dropping = s.dropping := rfl
@[simp] theorem setEng_wleft (s : State) (e : Nat) (x : Engine) : (s.setEng e x).wleft = s.wleft := rfl
@[simp] theorem setEng_appends (s : State) (e : Nat) (x : Engine) : (s.setEng e x).appends = s.appends := rfl
@[simp] theorem setEng_owed (s : State) (e : Nat) (x : Engine) : (s.setEng e x).owed = s.owed := rfl
@[simp] theorem setEng_reads (s : State) (e : Nat) (x : Engine) : (s.setEng e x).reads = s.reads := rfl
@[simp] theorem setEng_dests (s : State) (e : Nat) (x : Engine) : (s.setEng e x).dests = s.dests := rfl
@[simp] theorem setEng_arrivals (s : State) (e : Nat) (x : Engine) : (s.setEng e x).arrivals = s.arrivals := rfl
@[simp] theorem setEng_auditAt (s : State) (e : Nat) (x : Engine) : (s.setEng e x).auditAt = s.auditAt := rfl
@[simp] theorem setEng_rpath (s : State) (e : Nat) (x : Engine) : (s.setEng e x).rpath = s.rpath := rfl
@[simp] theorem setEng_pathAt (s : State) (e : Nat) (x : Engine) : (s.setEng e x).pathAt = s.pathAt := rfl
@[simp] theorem setEng_quads (s : State) (e : Nat) (x : Engine) : (s.setEng e x).quads = s.quads := rfl
@[simp] theorem setEng_banks (s : State) (e : Nat) (x : Engine) : (s.setEng e x).banks = s.banks := rfl
@[simp] theorem setEng_bankQ (s : State) (e : Nat) (x : Engine) : (s.setEng e x).bankQ = s.bankQ := rfl
@[simp] theorem setEng_bankWait (s : State) (e : Nat) (x : Engine) : (s.setEng e x).bankWait = s.bankWait := rfl
@[simp] theorem setEng_port0 (s : State) (e : Nat) (x : Engine) : (s.setEng e x).port0 = s.port0 := rfl
@[simp] theorem setEng_port1 (s : State) (e : Nat) (x : Engine) : (s.setEng e x).port1 = s.port1 := rfl
@[simp] theorem setEng_pop (s : State) (e : Nat) (x : Engine) : (s.setEng e x).pop = s.pop := rfl
@[simp] theorem setEng_dib (s : State) (e : Nat) (x : Engine) : (s.setEng e x).dib = s.dib := rfl
@[simp] theorem setEng_lck (s : State) (e : Nat) (x : Engine) : (s.setEng e x).lck = s.lck := rfl
@[simp] theorem setEng_evio (s : State) (e : Nat) (x : Engine) : (s.setEng e x).evio = s.evio := rfl
@[simp] theorem setEng_sieve (s : State) (e : Nat) (x : Engine) : (s.setEng e x).sieve = s.sieve := rfl
@[simp] theorem setEng_tx (s : State) (e : Nat) (x : Engine) : (s.setEng e x).tx = s.tx := rfl
@[simp] theorem setEng_host (s : State) (e : Nat) (x : Engine) : (s.setEng e x).host = s.host := rfl
@[simp] theorem setEng_cmd (s : State) (e : Nat) (x : Engine) : (s.setEng e x).cmd = s.cmd := rfl
@[simp] theorem setEng_fabric (s : State) (e : Nat) (x : Engine) : (s.setEng e x).fabric = s.fabric := rfl
@[simp] theorem setEng_power (s : State) (e : Nat) (x : Engine) : (s.setEng e x).power = s.power := rfl
@[simp] theorem setEng_upkeep (s : State) (e : Nat) (x : Engine) : (s.setEng e x).upkeep = s.upkeep := rfl
@[simp] theorem setEng_tap (s : State) (e : Nat) (x : Engine) : (s.setEng e x).tap = s.tap := rfl
@[simp] theorem setEng_smb (s : State) (e : Nat) (x : Engine) : (s.setEng e x).smb = s.smb := rfl
@[simp] theorem setEng_rootSel (s : State) (e : Nat) (x : Engine) : (s.setEng e x).rootSel = s.rootSel := rfl
@[simp] theorem setEng_testMode (s : State) (e : Nat) (x : Engine) : (s.setEng e x).testMode = s.testMode := rfl
@[simp] theorem setEng_faultN (s : State) (e : Nat) (x : Engine) : (s.setEng e x).faultN = s.faultN := rfl
@[simp] theorem setEng_pwrGood (s : State) (e : Nat) (x : Engine) : (s.setEng e x).pwrGood = s.pwrGood := rfl
@[simp] theorem setEng_image (s : State) (e : Nat) (x : Engine) : (s.setEng e x).image = s.image := rfl
@[simp] theorem setEng_mcVersion (s : State) (e : Nat) (x : Engine) : (s.setEng e x).mcVersion = s.mcVersion := rfl
@[simp] theorem setEng_free (s : State) (e : Nat) (x : Engine) : (s.setEng e x).free = s.free := rfl
@[simp] theorem rd_setEng (s : State) (e : Nat) (x : Engine) (a' : Nat) : (s.setEng e x).rd a' = s.rd a' := rfl
@[simp] theorem plot_setEng (s : State) (e : Nat) (x : Engine) (p' : Nat) : (s.setEng e x).plot p' = s.plot p' := rfl
@[simp] theorem q_setEng (s : State) (e : Nat) (x : Engine) (k' : Nat) : (s.setEng e x).q k' = s.q k' := rfl
@[simp] theorem desc_setEng (s : State) (e : Nat) (x : Engine) (d' : Nat) : (s.setEng e x).desc d' = s.desc d' := rfl
@[simp] theorem lock_setEng (s : State) (e : Nat) (x : Engine) (n' : Nat) : (s.setEng e x).lock n' = s.lock n' := rfl
@[simp] theorem byte_setEng (s : State) (e : Nat) (x : Engine) (a' : Nat) : (s.setEng e x).byte a' = s.byte a' := rfl
@[simp] theorem mark_setEng (s : State) (e : Nat) (x : Engine) (a' : Nat) : (s.setEng e x).mark a' = s.mark a' := rfl

@[simp] theorem modEng_pending (s : State) (e : Nat) (g : Engine → Engine) : (s.modEng e g).pending = s.pending := rfl
@[simp] theorem modEng_opState (s : State) (e : Nat) (g : Engine → Engine) : (s.modEng e g).opState = s.opState := rfl
@[simp] theorem modEng_prevState (s : State) (e : Nat) (g : Engine → Engine) : (s.modEng e g).prevState = s.prevState := rfl
@[simp] theorem modEng_profile (s : State) (e : Nat) (g : Engine → Engine) : (s.modEng e g).profile = s.profile := rfl
@[simp] theorem modEng_time (s : State) (e : Nat) (g : Engine → Engine) : (s.modEng e g).time = s.time := rfl
@[simp] theorem modEng_regs (s : State) (e : Nat) (g : Engine → Engine) : (s.modEng e g).regs = s.regs := rfl
@[simp] theorem modEng_latches (s : State) (e : Nat) (g : Engine → Engine) : (s.modEng e g).latches = s.latches := rfl
@[simp] theorem modEng_stages (s : State) (e : Nat) (g : Engine → Engine) : (s.modEng e g).stages = s.stages := rfl
@[simp] theorem modEng_rdata (s : State) (e : Nat) (g : Engine → Engine) : (s.modEng e g).rdata = s.rdata := rfl
@[simp] theorem modEng_mem (s : State) (e : Nat) (g : Engine → Engine) : (s.modEng e g).mem = s.mem := rfl
@[simp] theorem modEng_marks (s : State) (e : Nat) (g : Engine → Engine) : (s.modEng e g).marks = s.marks := rfl
@[simp] theorem modEng_pres (s : State) (e : Nat) (g : Engine → Engine) : (s.modEng e g).pres = s.pres := rfl
@[simp] theorem modEng_ucode (s : State) (e : Nat) (g : Engine → Engine) : (s.modEng e g).ucode = s.ucode := rfl
@[simp] theorem modEng_plots (s : State) (e : Nat) (g : Engine → Engine) : (s.modEng e g).plots = s.plots := rfl
@[simp] theorem modEng_queues (s : State) (e : Nat) (g : Engine → Engine) : (s.modEng e g).queues = s.queues := rfl
@[simp] theorem modEng_routers (s : State) (e : Nat) (g : Engine → Engine) : (s.modEng e g).routers = s.routers := rfl
@[simp] theorem modEng_holds (s : State) (e : Nat) (g : Engine → Engine) : (s.modEng e g).holds = s.holds := rfl
@[simp] theorem modEng_flushing (s : State) (e : Nat) (g : Engine → Engine) : (s.modEng e g).flushing = s.flushing := rfl
@[simp] theorem modEng_dropping (s : State) (e : Nat) (g : Engine → Engine) : (s.modEng e g).dropping = s.dropping := rfl
@[simp] theorem modEng_wleft (s : State) (e : Nat) (g : Engine → Engine) : (s.modEng e g).wleft = s.wleft := rfl
@[simp] theorem modEng_appends (s : State) (e : Nat) (g : Engine → Engine) : (s.modEng e g).appends = s.appends := rfl
@[simp] theorem modEng_owed (s : State) (e : Nat) (g : Engine → Engine) : (s.modEng e g).owed = s.owed := rfl
@[simp] theorem modEng_reads (s : State) (e : Nat) (g : Engine → Engine) : (s.modEng e g).reads = s.reads := rfl
@[simp] theorem modEng_dests (s : State) (e : Nat) (g : Engine → Engine) : (s.modEng e g).dests = s.dests := rfl
@[simp] theorem modEng_arrivals (s : State) (e : Nat) (g : Engine → Engine) : (s.modEng e g).arrivals = s.arrivals := rfl
@[simp] theorem modEng_auditAt (s : State) (e : Nat) (g : Engine → Engine) : (s.modEng e g).auditAt = s.auditAt := rfl
@[simp] theorem modEng_rpath (s : State) (e : Nat) (g : Engine → Engine) : (s.modEng e g).rpath = s.rpath := rfl
@[simp] theorem modEng_pathAt (s : State) (e : Nat) (g : Engine → Engine) : (s.modEng e g).pathAt = s.pathAt := rfl
@[simp] theorem modEng_quads (s : State) (e : Nat) (g : Engine → Engine) : (s.modEng e g).quads = s.quads := rfl
@[simp] theorem modEng_banks (s : State) (e : Nat) (g : Engine → Engine) : (s.modEng e g).banks = s.banks := rfl
@[simp] theorem modEng_bankQ (s : State) (e : Nat) (g : Engine → Engine) : (s.modEng e g).bankQ = s.bankQ := rfl
@[simp] theorem modEng_bankWait (s : State) (e : Nat) (g : Engine → Engine) : (s.modEng e g).bankWait = s.bankWait := rfl
@[simp] theorem modEng_port0 (s : State) (e : Nat) (g : Engine → Engine) : (s.modEng e g).port0 = s.port0 := rfl
@[simp] theorem modEng_port1 (s : State) (e : Nat) (g : Engine → Engine) : (s.modEng e g).port1 = s.port1 := rfl
@[simp] theorem modEng_pop (s : State) (e : Nat) (g : Engine → Engine) : (s.modEng e g).pop = s.pop := rfl
@[simp] theorem modEng_dib (s : State) (e : Nat) (g : Engine → Engine) : (s.modEng e g).dib = s.dib := rfl
@[simp] theorem modEng_lck (s : State) (e : Nat) (g : Engine → Engine) : (s.modEng e g).lck = s.lck := rfl
@[simp] theorem modEng_evio (s : State) (e : Nat) (g : Engine → Engine) : (s.modEng e g).evio = s.evio := rfl
@[simp] theorem modEng_sieve (s : State) (e : Nat) (g : Engine → Engine) : (s.modEng e g).sieve = s.sieve := rfl
@[simp] theorem modEng_tx (s : State) (e : Nat) (g : Engine → Engine) : (s.modEng e g).tx = s.tx := rfl
@[simp] theorem modEng_host (s : State) (e : Nat) (g : Engine → Engine) : (s.modEng e g).host = s.host := rfl
@[simp] theorem modEng_cmd (s : State) (e : Nat) (g : Engine → Engine) : (s.modEng e g).cmd = s.cmd := rfl
@[simp] theorem modEng_fabric (s : State) (e : Nat) (g : Engine → Engine) : (s.modEng e g).fabric = s.fabric := rfl
@[simp] theorem modEng_power (s : State) (e : Nat) (g : Engine → Engine) : (s.modEng e g).power = s.power := rfl
@[simp] theorem modEng_upkeep (s : State) (e : Nat) (g : Engine → Engine) : (s.modEng e g).upkeep = s.upkeep := rfl
@[simp] theorem modEng_tap (s : State) (e : Nat) (g : Engine → Engine) : (s.modEng e g).tap = s.tap := rfl
@[simp] theorem modEng_smb (s : State) (e : Nat) (g : Engine → Engine) : (s.modEng e g).smb = s.smb := rfl
@[simp] theorem modEng_rootSel (s : State) (e : Nat) (g : Engine → Engine) : (s.modEng e g).rootSel = s.rootSel := rfl
@[simp] theorem modEng_testMode (s : State) (e : Nat) (g : Engine → Engine) : (s.modEng e g).testMode = s.testMode := rfl
@[simp] theorem modEng_faultN (s : State) (e : Nat) (g : Engine → Engine) : (s.modEng e g).faultN = s.faultN := rfl
@[simp] theorem modEng_pwrGood (s : State) (e : Nat) (g : Engine → Engine) : (s.modEng e g).pwrGood = s.pwrGood := rfl
@[simp] theorem modEng_image (s : State) (e : Nat) (g : Engine → Engine) : (s.modEng e g).image = s.image := rfl
@[simp] theorem modEng_mcVersion (s : State) (e : Nat) (g : Engine → Engine) : (s.modEng e g).mcVersion = s.mcVersion := rfl
@[simp] theorem modEng_free (s : State) (e : Nat) (g : Engine → Engine) : (s.modEng e g).free = s.free := rfl
@[simp] theorem rd_modEng (s : State) (e : Nat) (g : Engine → Engine) (a' : Nat) : (s.modEng e g).rd a' = s.rd a' := rfl
@[simp] theorem plot_modEng (s : State) (e : Nat) (g : Engine → Engine) (p' : Nat) : (s.modEng e g).plot p' = s.plot p' := rfl
@[simp] theorem q_modEng (s : State) (e : Nat) (g : Engine → Engine) (k' : Nat) : (s.modEng e g).q k' = s.q k' := rfl
@[simp] theorem desc_modEng (s : State) (e : Nat) (g : Engine → Engine) (d' : Nat) : (s.modEng e g).desc d' = s.desc d' := rfl
@[simp] theorem lock_modEng (s : State) (e : Nat) (g : Engine → Engine) (n' : Nat) : (s.modEng e g).lock n' = s.lock n' := rfl
@[simp] theorem byte_modEng (s : State) (e : Nat) (g : Engine → Engine) (a' : Nat) : (s.modEng e g).byte a' = s.byte a' := rfl
@[simp] theorem mark_modEng (s : State) (e : Nat) (g : Engine → Engine) (a' : Nat) : (s.modEng e g).mark a' = s.mark a' := rfl

@[simp] theorem setPlot_pending (s : State) (p : Nat) (x : Plot) : (s.setPlot p x).pending = s.pending := rfl
@[simp] theorem setPlot_opState (s : State) (p : Nat) (x : Plot) : (s.setPlot p x).opState = s.opState := rfl
@[simp] theorem setPlot_prevState (s : State) (p : Nat) (x : Plot) : (s.setPlot p x).prevState = s.prevState := rfl
@[simp] theorem setPlot_profile (s : State) (p : Nat) (x : Plot) : (s.setPlot p x).profile = s.profile := rfl
@[simp] theorem setPlot_time (s : State) (p : Nat) (x : Plot) : (s.setPlot p x).time = s.time := rfl
@[simp] theorem setPlot_regs (s : State) (p : Nat) (x : Plot) : (s.setPlot p x).regs = s.regs := rfl
@[simp] theorem setPlot_latches (s : State) (p : Nat) (x : Plot) : (s.setPlot p x).latches = s.latches := rfl
@[simp] theorem setPlot_stages (s : State) (p : Nat) (x : Plot) : (s.setPlot p x).stages = s.stages := rfl
@[simp] theorem setPlot_rdata (s : State) (p : Nat) (x : Plot) : (s.setPlot p x).rdata = s.rdata := rfl
@[simp] theorem setPlot_mem (s : State) (p : Nat) (x : Plot) : (s.setPlot p x).mem = s.mem := rfl
@[simp] theorem setPlot_marks (s : State) (p : Nat) (x : Plot) : (s.setPlot p x).marks = s.marks := rfl
@[simp] theorem setPlot_pres (s : State) (p : Nat) (x : Plot) : (s.setPlot p x).pres = s.pres := rfl
@[simp] theorem setPlot_ucode (s : State) (p : Nat) (x : Plot) : (s.setPlot p x).ucode = s.ucode := rfl
@[simp] theorem setPlot_engines (s : State) (p : Nat) (x : Plot) : (s.setPlot p x).engines = s.engines := rfl
@[simp] theorem setPlot_queues (s : State) (p : Nat) (x : Plot) : (s.setPlot p x).queues = s.queues := rfl
@[simp] theorem setPlot_routers (s : State) (p : Nat) (x : Plot) : (s.setPlot p x).routers = s.routers := rfl
@[simp] theorem setPlot_holds (s : State) (p : Nat) (x : Plot) : (s.setPlot p x).holds = s.holds := rfl
@[simp] theorem setPlot_flushing (s : State) (p : Nat) (x : Plot) : (s.setPlot p x).flushing = s.flushing := rfl
@[simp] theorem setPlot_dropping (s : State) (p : Nat) (x : Plot) : (s.setPlot p x).dropping = s.dropping := rfl
@[simp] theorem setPlot_wleft (s : State) (p : Nat) (x : Plot) : (s.setPlot p x).wleft = s.wleft := rfl
@[simp] theorem setPlot_appends (s : State) (p : Nat) (x : Plot) : (s.setPlot p x).appends = s.appends := rfl
@[simp] theorem setPlot_owed (s : State) (p : Nat) (x : Plot) : (s.setPlot p x).owed = s.owed := rfl
@[simp] theorem setPlot_reads (s : State) (p : Nat) (x : Plot) : (s.setPlot p x).reads = s.reads := rfl
@[simp] theorem setPlot_dests (s : State) (p : Nat) (x : Plot) : (s.setPlot p x).dests = s.dests := rfl
@[simp] theorem setPlot_arrivals (s : State) (p : Nat) (x : Plot) : (s.setPlot p x).arrivals = s.arrivals := rfl
@[simp] theorem setPlot_auditAt (s : State) (p : Nat) (x : Plot) : (s.setPlot p x).auditAt = s.auditAt := rfl
@[simp] theorem setPlot_rpath (s : State) (p : Nat) (x : Plot) : (s.setPlot p x).rpath = s.rpath := rfl
@[simp] theorem setPlot_pathAt (s : State) (p : Nat) (x : Plot) : (s.setPlot p x).pathAt = s.pathAt := rfl
@[simp] theorem setPlot_quads (s : State) (p : Nat) (x : Plot) : (s.setPlot p x).quads = s.quads := rfl
@[simp] theorem setPlot_banks (s : State) (p : Nat) (x : Plot) : (s.setPlot p x).banks = s.banks := rfl
@[simp] theorem setPlot_bankQ (s : State) (p : Nat) (x : Plot) : (s.setPlot p x).bankQ = s.bankQ := rfl
@[simp] theorem setPlot_bankWait (s : State) (p : Nat) (x : Plot) : (s.setPlot p x).bankWait = s.bankWait := rfl
@[simp] theorem setPlot_port0 (s : State) (p : Nat) (x : Plot) : (s.setPlot p x).port0 = s.port0 := rfl
@[simp] theorem setPlot_port1 (s : State) (p : Nat) (x : Plot) : (s.setPlot p x).port1 = s.port1 := rfl
@[simp] theorem setPlot_pop (s : State) (p : Nat) (x : Plot) : (s.setPlot p x).pop = s.pop := rfl
@[simp] theorem setPlot_dib (s : State) (p : Nat) (x : Plot) : (s.setPlot p x).dib = s.dib := rfl
@[simp] theorem setPlot_lck (s : State) (p : Nat) (x : Plot) : (s.setPlot p x).lck = s.lck := rfl
@[simp] theorem setPlot_evio (s : State) (p : Nat) (x : Plot) : (s.setPlot p x).evio = s.evio := rfl
@[simp] theorem setPlot_sieve (s : State) (p : Nat) (x : Plot) : (s.setPlot p x).sieve = s.sieve := rfl
@[simp] theorem setPlot_tx (s : State) (p : Nat) (x : Plot) : (s.setPlot p x).tx = s.tx := rfl
@[simp] theorem setPlot_host (s : State) (p : Nat) (x : Plot) : (s.setPlot p x).host = s.host := rfl
@[simp] theorem setPlot_cmd (s : State) (p : Nat) (x : Plot) : (s.setPlot p x).cmd = s.cmd := rfl
@[simp] theorem setPlot_fabric (s : State) (p : Nat) (x : Plot) : (s.setPlot p x).fabric = s.fabric := rfl
@[simp] theorem setPlot_power (s : State) (p : Nat) (x : Plot) : (s.setPlot p x).power = s.power := rfl
@[simp] theorem setPlot_upkeep (s : State) (p : Nat) (x : Plot) : (s.setPlot p x).upkeep = s.upkeep := rfl
@[simp] theorem setPlot_tap (s : State) (p : Nat) (x : Plot) : (s.setPlot p x).tap = s.tap := rfl
@[simp] theorem setPlot_smb (s : State) (p : Nat) (x : Plot) : (s.setPlot p x).smb = s.smb := rfl
@[simp] theorem setPlot_rootSel (s : State) (p : Nat) (x : Plot) : (s.setPlot p x).rootSel = s.rootSel := rfl
@[simp] theorem setPlot_testMode (s : State) (p : Nat) (x : Plot) : (s.setPlot p x).testMode = s.testMode := rfl
@[simp] theorem setPlot_faultN (s : State) (p : Nat) (x : Plot) : (s.setPlot p x).faultN = s.faultN := rfl
@[simp] theorem setPlot_pwrGood (s : State) (p : Nat) (x : Plot) : (s.setPlot p x).pwrGood = s.pwrGood := rfl
@[simp] theorem setPlot_image (s : State) (p : Nat) (x : Plot) : (s.setPlot p x).image = s.image := rfl
@[simp] theorem setPlot_mcVersion (s : State) (p : Nat) (x : Plot) : (s.setPlot p x).mcVersion = s.mcVersion := rfl
@[simp] theorem setPlot_free (s : State) (p : Nat) (x : Plot) : (s.setPlot p x).free = s.free := rfl
@[simp] theorem rd_setPlot (s : State) (p : Nat) (x : Plot) (a' : Nat) : (s.setPlot p x).rd a' = s.rd a' := rfl
@[simp] theorem eng_setPlot (s : State) (p : Nat) (x : Plot) (e' : Nat) : (s.setPlot p x).eng e' = s.eng e' := rfl
@[simp] theorem q_setPlot (s : State) (p : Nat) (x : Plot) (k' : Nat) : (s.setPlot p x).q k' = s.q k' := rfl
@[simp] theorem desc_setPlot (s : State) (p : Nat) (x : Plot) (d' : Nat) : (s.setPlot p x).desc d' = s.desc d' := rfl
@[simp] theorem lock_setPlot (s : State) (p : Nat) (x : Plot) (n' : Nat) : (s.setPlot p x).lock n' = s.lock n' := rfl
@[simp] theorem byte_setPlot (s : State) (p : Nat) (x : Plot) (a' : Nat) : (s.setPlot p x).byte a' = s.byte a' := rfl
@[simp] theorem mark_setPlot (s : State) (p : Nat) (x : Plot) (a' : Nat) : (s.setPlot p x).mark a' = s.mark a' := rfl

@[simp] theorem modPlot_pending (s : State) (p : Nat) (g : Plot → Plot) : (s.modPlot p g).pending = s.pending := rfl
@[simp] theorem modPlot_opState (s : State) (p : Nat) (g : Plot → Plot) : (s.modPlot p g).opState = s.opState := rfl
@[simp] theorem modPlot_prevState (s : State) (p : Nat) (g : Plot → Plot) : (s.modPlot p g).prevState = s.prevState := rfl
@[simp] theorem modPlot_profile (s : State) (p : Nat) (g : Plot → Plot) : (s.modPlot p g).profile = s.profile := rfl
@[simp] theorem modPlot_time (s : State) (p : Nat) (g : Plot → Plot) : (s.modPlot p g).time = s.time := rfl
@[simp] theorem modPlot_regs (s : State) (p : Nat) (g : Plot → Plot) : (s.modPlot p g).regs = s.regs := rfl
@[simp] theorem modPlot_latches (s : State) (p : Nat) (g : Plot → Plot) : (s.modPlot p g).latches = s.latches := rfl
@[simp] theorem modPlot_stages (s : State) (p : Nat) (g : Plot → Plot) : (s.modPlot p g).stages = s.stages := rfl
@[simp] theorem modPlot_rdata (s : State) (p : Nat) (g : Plot → Plot) : (s.modPlot p g).rdata = s.rdata := rfl
@[simp] theorem modPlot_mem (s : State) (p : Nat) (g : Plot → Plot) : (s.modPlot p g).mem = s.mem := rfl
@[simp] theorem modPlot_marks (s : State) (p : Nat) (g : Plot → Plot) : (s.modPlot p g).marks = s.marks := rfl
@[simp] theorem modPlot_pres (s : State) (p : Nat) (g : Plot → Plot) : (s.modPlot p g).pres = s.pres := rfl
@[simp] theorem modPlot_ucode (s : State) (p : Nat) (g : Plot → Plot) : (s.modPlot p g).ucode = s.ucode := rfl
@[simp] theorem modPlot_engines (s : State) (p : Nat) (g : Plot → Plot) : (s.modPlot p g).engines = s.engines := rfl
@[simp] theorem modPlot_queues (s : State) (p : Nat) (g : Plot → Plot) : (s.modPlot p g).queues = s.queues := rfl
@[simp] theorem modPlot_routers (s : State) (p : Nat) (g : Plot → Plot) : (s.modPlot p g).routers = s.routers := rfl
@[simp] theorem modPlot_holds (s : State) (p : Nat) (g : Plot → Plot) : (s.modPlot p g).holds = s.holds := rfl
@[simp] theorem modPlot_flushing (s : State) (p : Nat) (g : Plot → Plot) : (s.modPlot p g).flushing = s.flushing := rfl
@[simp] theorem modPlot_dropping (s : State) (p : Nat) (g : Plot → Plot) : (s.modPlot p g).dropping = s.dropping := rfl
@[simp] theorem modPlot_wleft (s : State) (p : Nat) (g : Plot → Plot) : (s.modPlot p g).wleft = s.wleft := rfl
@[simp] theorem modPlot_appends (s : State) (p : Nat) (g : Plot → Plot) : (s.modPlot p g).appends = s.appends := rfl
@[simp] theorem modPlot_owed (s : State) (p : Nat) (g : Plot → Plot) : (s.modPlot p g).owed = s.owed := rfl
@[simp] theorem modPlot_reads (s : State) (p : Nat) (g : Plot → Plot) : (s.modPlot p g).reads = s.reads := rfl
@[simp] theorem modPlot_dests (s : State) (p : Nat) (g : Plot → Plot) : (s.modPlot p g).dests = s.dests := rfl
@[simp] theorem modPlot_arrivals (s : State) (p : Nat) (g : Plot → Plot) : (s.modPlot p g).arrivals = s.arrivals := rfl
@[simp] theorem modPlot_auditAt (s : State) (p : Nat) (g : Plot → Plot) : (s.modPlot p g).auditAt = s.auditAt := rfl
@[simp] theorem modPlot_rpath (s : State) (p : Nat) (g : Plot → Plot) : (s.modPlot p g).rpath = s.rpath := rfl
@[simp] theorem modPlot_pathAt (s : State) (p : Nat) (g : Plot → Plot) : (s.modPlot p g).pathAt = s.pathAt := rfl
@[simp] theorem modPlot_quads (s : State) (p : Nat) (g : Plot → Plot) : (s.modPlot p g).quads = s.quads := rfl
@[simp] theorem modPlot_banks (s : State) (p : Nat) (g : Plot → Plot) : (s.modPlot p g).banks = s.banks := rfl
@[simp] theorem modPlot_bankQ (s : State) (p : Nat) (g : Plot → Plot) : (s.modPlot p g).bankQ = s.bankQ := rfl
@[simp] theorem modPlot_bankWait (s : State) (p : Nat) (g : Plot → Plot) : (s.modPlot p g).bankWait = s.bankWait := rfl
@[simp] theorem modPlot_port0 (s : State) (p : Nat) (g : Plot → Plot) : (s.modPlot p g).port0 = s.port0 := rfl
@[simp] theorem modPlot_port1 (s : State) (p : Nat) (g : Plot → Plot) : (s.modPlot p g).port1 = s.port1 := rfl
@[simp] theorem modPlot_pop (s : State) (p : Nat) (g : Plot → Plot) : (s.modPlot p g).pop = s.pop := rfl
@[simp] theorem modPlot_dib (s : State) (p : Nat) (g : Plot → Plot) : (s.modPlot p g).dib = s.dib := rfl
@[simp] theorem modPlot_lck (s : State) (p : Nat) (g : Plot → Plot) : (s.modPlot p g).lck = s.lck := rfl
@[simp] theorem modPlot_evio (s : State) (p : Nat) (g : Plot → Plot) : (s.modPlot p g).evio = s.evio := rfl
@[simp] theorem modPlot_sieve (s : State) (p : Nat) (g : Plot → Plot) : (s.modPlot p g).sieve = s.sieve := rfl
@[simp] theorem modPlot_tx (s : State) (p : Nat) (g : Plot → Plot) : (s.modPlot p g).tx = s.tx := rfl
@[simp] theorem modPlot_host (s : State) (p : Nat) (g : Plot → Plot) : (s.modPlot p g).host = s.host := rfl
@[simp] theorem modPlot_cmd (s : State) (p : Nat) (g : Plot → Plot) : (s.modPlot p g).cmd = s.cmd := rfl
@[simp] theorem modPlot_fabric (s : State) (p : Nat) (g : Plot → Plot) : (s.modPlot p g).fabric = s.fabric := rfl
@[simp] theorem modPlot_power (s : State) (p : Nat) (g : Plot → Plot) : (s.modPlot p g).power = s.power := rfl
@[simp] theorem modPlot_upkeep (s : State) (p : Nat) (g : Plot → Plot) : (s.modPlot p g).upkeep = s.upkeep := rfl
@[simp] theorem modPlot_tap (s : State) (p : Nat) (g : Plot → Plot) : (s.modPlot p g).tap = s.tap := rfl
@[simp] theorem modPlot_smb (s : State) (p : Nat) (g : Plot → Plot) : (s.modPlot p g).smb = s.smb := rfl
@[simp] theorem modPlot_rootSel (s : State) (p : Nat) (g : Plot → Plot) : (s.modPlot p g).rootSel = s.rootSel := rfl
@[simp] theorem modPlot_testMode (s : State) (p : Nat) (g : Plot → Plot) : (s.modPlot p g).testMode = s.testMode := rfl
@[simp] theorem modPlot_faultN (s : State) (p : Nat) (g : Plot → Plot) : (s.modPlot p g).faultN = s.faultN := rfl
@[simp] theorem modPlot_pwrGood (s : State) (p : Nat) (g : Plot → Plot) : (s.modPlot p g).pwrGood = s.pwrGood := rfl
@[simp] theorem modPlot_image (s : State) (p : Nat) (g : Plot → Plot) : (s.modPlot p g).image = s.image := rfl
@[simp] theorem modPlot_mcVersion (s : State) (p : Nat) (g : Plot → Plot) : (s.modPlot p g).mcVersion = s.mcVersion := rfl
@[simp] theorem modPlot_free (s : State) (p : Nat) (g : Plot → Plot) : (s.modPlot p g).free = s.free := rfl
@[simp] theorem rd_modPlot (s : State) (p : Nat) (g : Plot → Plot) (a' : Nat) : (s.modPlot p g).rd a' = s.rd a' := rfl
@[simp] theorem eng_modPlot (s : State) (p : Nat) (g : Plot → Plot) (e' : Nat) : (s.modPlot p g).eng e' = s.eng e' := rfl
@[simp] theorem q_modPlot (s : State) (p : Nat) (g : Plot → Plot) (k' : Nat) : (s.modPlot p g).q k' = s.q k' := rfl
@[simp] theorem desc_modPlot (s : State) (p : Nat) (g : Plot → Plot) (d' : Nat) : (s.modPlot p g).desc d' = s.desc d' := rfl
@[simp] theorem lock_modPlot (s : State) (p : Nat) (g : Plot → Plot) (n' : Nat) : (s.modPlot p g).lock n' = s.lock n' := rfl
@[simp] theorem byte_modPlot (s : State) (p : Nat) (g : Plot → Plot) (a' : Nat) : (s.modPlot p g).byte a' = s.byte a' := rfl
@[simp] theorem mark_modPlot (s : State) (p : Nat) (g : Plot → Plot) (a' : Nat) : (s.modPlot p g).mark a' = s.mark a' := rfl

@[simp] theorem setQ_pending (s : State) (k : Nat) (x : List Flit) : (s.setQ k x).pending = s.pending := rfl
@[simp] theorem setQ_opState (s : State) (k : Nat) (x : List Flit) : (s.setQ k x).opState = s.opState := rfl
@[simp] theorem setQ_prevState (s : State) (k : Nat) (x : List Flit) : (s.setQ k x).prevState = s.prevState := rfl
@[simp] theorem setQ_profile (s : State) (k : Nat) (x : List Flit) : (s.setQ k x).profile = s.profile := rfl
@[simp] theorem setQ_time (s : State) (k : Nat) (x : List Flit) : (s.setQ k x).time = s.time := rfl
@[simp] theorem setQ_regs (s : State) (k : Nat) (x : List Flit) : (s.setQ k x).regs = s.regs := rfl
@[simp] theorem setQ_latches (s : State) (k : Nat) (x : List Flit) : (s.setQ k x).latches = s.latches := rfl
@[simp] theorem setQ_stages (s : State) (k : Nat) (x : List Flit) : (s.setQ k x).stages = s.stages := rfl
@[simp] theorem setQ_rdata (s : State) (k : Nat) (x : List Flit) : (s.setQ k x).rdata = s.rdata := rfl
@[simp] theorem setQ_mem (s : State) (k : Nat) (x : List Flit) : (s.setQ k x).mem = s.mem := rfl
@[simp] theorem setQ_marks (s : State) (k : Nat) (x : List Flit) : (s.setQ k x).marks = s.marks := rfl
@[simp] theorem setQ_pres (s : State) (k : Nat) (x : List Flit) : (s.setQ k x).pres = s.pres := rfl
@[simp] theorem setQ_ucode (s : State) (k : Nat) (x : List Flit) : (s.setQ k x).ucode = s.ucode := rfl
@[simp] theorem setQ_engines (s : State) (k : Nat) (x : List Flit) : (s.setQ k x).engines = s.engines := rfl
@[simp] theorem setQ_plots (s : State) (k : Nat) (x : List Flit) : (s.setQ k x).plots = s.plots := rfl
@[simp] theorem setQ_routers (s : State) (k : Nat) (x : List Flit) : (s.setQ k x).routers = s.routers := rfl
@[simp] theorem setQ_holds (s : State) (k : Nat) (x : List Flit) : (s.setQ k x).holds = s.holds := rfl
@[simp] theorem setQ_flushing (s : State) (k : Nat) (x : List Flit) : (s.setQ k x).flushing = s.flushing := rfl
@[simp] theorem setQ_dropping (s : State) (k : Nat) (x : List Flit) : (s.setQ k x).dropping = s.dropping := rfl
@[simp] theorem setQ_wleft (s : State) (k : Nat) (x : List Flit) : (s.setQ k x).wleft = s.wleft := rfl
@[simp] theorem setQ_appends (s : State) (k : Nat) (x : List Flit) : (s.setQ k x).appends = s.appends := rfl
@[simp] theorem setQ_owed (s : State) (k : Nat) (x : List Flit) : (s.setQ k x).owed = s.owed := rfl
@[simp] theorem setQ_reads (s : State) (k : Nat) (x : List Flit) : (s.setQ k x).reads = s.reads := rfl
@[simp] theorem setQ_dests (s : State) (k : Nat) (x : List Flit) : (s.setQ k x).dests = s.dests := rfl
@[simp] theorem setQ_arrivals (s : State) (k : Nat) (x : List Flit) : (s.setQ k x).arrivals = s.arrivals := rfl
@[simp] theorem setQ_auditAt (s : State) (k : Nat) (x : List Flit) : (s.setQ k x).auditAt = s.auditAt := rfl
@[simp] theorem setQ_rpath (s : State) (k : Nat) (x : List Flit) : (s.setQ k x).rpath = s.rpath := rfl
@[simp] theorem setQ_pathAt (s : State) (k : Nat) (x : List Flit) : (s.setQ k x).pathAt = s.pathAt := rfl
@[simp] theorem setQ_quads (s : State) (k : Nat) (x : List Flit) : (s.setQ k x).quads = s.quads := rfl
@[simp] theorem setQ_banks (s : State) (k : Nat) (x : List Flit) : (s.setQ k x).banks = s.banks := rfl
@[simp] theorem setQ_bankQ (s : State) (k : Nat) (x : List Flit) : (s.setQ k x).bankQ = s.bankQ := rfl
@[simp] theorem setQ_bankWait (s : State) (k : Nat) (x : List Flit) : (s.setQ k x).bankWait = s.bankWait := rfl
@[simp] theorem setQ_port0 (s : State) (k : Nat) (x : List Flit) : (s.setQ k x).port0 = s.port0 := rfl
@[simp] theorem setQ_port1 (s : State) (k : Nat) (x : List Flit) : (s.setQ k x).port1 = s.port1 := rfl
@[simp] theorem setQ_pop (s : State) (k : Nat) (x : List Flit) : (s.setQ k x).pop = s.pop := rfl
@[simp] theorem setQ_dib (s : State) (k : Nat) (x : List Flit) : (s.setQ k x).dib = s.dib := rfl
@[simp] theorem setQ_lck (s : State) (k : Nat) (x : List Flit) : (s.setQ k x).lck = s.lck := rfl
@[simp] theorem setQ_evio (s : State) (k : Nat) (x : List Flit) : (s.setQ k x).evio = s.evio := rfl
@[simp] theorem setQ_sieve (s : State) (k : Nat) (x : List Flit) : (s.setQ k x).sieve = s.sieve := rfl
@[simp] theorem setQ_tx (s : State) (k : Nat) (x : List Flit) : (s.setQ k x).tx = s.tx := rfl
@[simp] theorem setQ_host (s : State) (k : Nat) (x : List Flit) : (s.setQ k x).host = s.host := rfl
@[simp] theorem setQ_cmd (s : State) (k : Nat) (x : List Flit) : (s.setQ k x).cmd = s.cmd := rfl
@[simp] theorem setQ_fabric (s : State) (k : Nat) (x : List Flit) : (s.setQ k x).fabric = s.fabric := rfl
@[simp] theorem setQ_power (s : State) (k : Nat) (x : List Flit) : (s.setQ k x).power = s.power := rfl
@[simp] theorem setQ_upkeep (s : State) (k : Nat) (x : List Flit) : (s.setQ k x).upkeep = s.upkeep := rfl
@[simp] theorem setQ_tap (s : State) (k : Nat) (x : List Flit) : (s.setQ k x).tap = s.tap := rfl
@[simp] theorem setQ_smb (s : State) (k : Nat) (x : List Flit) : (s.setQ k x).smb = s.smb := rfl
@[simp] theorem setQ_rootSel (s : State) (k : Nat) (x : List Flit) : (s.setQ k x).rootSel = s.rootSel := rfl
@[simp] theorem setQ_testMode (s : State) (k : Nat) (x : List Flit) : (s.setQ k x).testMode = s.testMode := rfl
@[simp] theorem setQ_faultN (s : State) (k : Nat) (x : List Flit) : (s.setQ k x).faultN = s.faultN := rfl
@[simp] theorem setQ_pwrGood (s : State) (k : Nat) (x : List Flit) : (s.setQ k x).pwrGood = s.pwrGood := rfl
@[simp] theorem setQ_image (s : State) (k : Nat) (x : List Flit) : (s.setQ k x).image = s.image := rfl
@[simp] theorem setQ_mcVersion (s : State) (k : Nat) (x : List Flit) : (s.setQ k x).mcVersion = s.mcVersion := rfl
@[simp] theorem setQ_free (s : State) (k : Nat) (x : List Flit) : (s.setQ k x).free = s.free := rfl
@[simp] theorem rd_setQ (s : State) (k : Nat) (x : List Flit) (a' : Nat) : (s.setQ k x).rd a' = s.rd a' := rfl
@[simp] theorem eng_setQ (s : State) (k : Nat) (x : List Flit) (e' : Nat) : (s.setQ k x).eng e' = s.eng e' := rfl
@[simp] theorem plot_setQ (s : State) (k : Nat) (x : List Flit) (p' : Nat) : (s.setQ k x).plot p' = s.plot p' := rfl
@[simp] theorem desc_setQ (s : State) (k : Nat) (x : List Flit) (d' : Nat) : (s.setQ k x).desc d' = s.desc d' := rfl
@[simp] theorem lock_setQ (s : State) (k : Nat) (x : List Flit) (n' : Nat) : (s.setQ k x).lock n' = s.lock n' := rfl
@[simp] theorem byte_setQ (s : State) (k : Nat) (x : List Flit) (a' : Nat) : (s.setQ k x).byte a' = s.byte a' := rfl
@[simp] theorem mark_setQ (s : State) (k : Nat) (x : List Flit) (a' : Nat) : (s.setQ k x).mark a' = s.mark a' := rfl

@[simp] theorem setDesc_pending (s : State) (d : Nat) (x : Desc) : (s.setDesc d x).pending = s.pending := rfl
@[simp] theorem setDesc_opState (s : State) (d : Nat) (x : Desc) : (s.setDesc d x).opState = s.opState := rfl
@[simp] theorem setDesc_prevState (s : State) (d : Nat) (x : Desc) : (s.setDesc d x).prevState = s.prevState := rfl
@[simp] theorem setDesc_profile (s : State) (d : Nat) (x : Desc) : (s.setDesc d x).profile = s.profile := rfl
@[simp] theorem setDesc_time (s : State) (d : Nat) (x : Desc) : (s.setDesc d x).time = s.time := rfl
@[simp] theorem setDesc_regs (s : State) (d : Nat) (x : Desc) : (s.setDesc d x).regs = s.regs := rfl
@[simp] theorem setDesc_latches (s : State) (d : Nat) (x : Desc) : (s.setDesc d x).latches = s.latches := rfl
@[simp] theorem setDesc_stages (s : State) (d : Nat) (x : Desc) : (s.setDesc d x).stages = s.stages := rfl
@[simp] theorem setDesc_rdata (s : State) (d : Nat) (x : Desc) : (s.setDesc d x).rdata = s.rdata := rfl
@[simp] theorem setDesc_mem (s : State) (d : Nat) (x : Desc) : (s.setDesc d x).mem = s.mem := rfl
@[simp] theorem setDesc_marks (s : State) (d : Nat) (x : Desc) : (s.setDesc d x).marks = s.marks := rfl
@[simp] theorem setDesc_pres (s : State) (d : Nat) (x : Desc) : (s.setDesc d x).pres = s.pres := rfl
@[simp] theorem setDesc_ucode (s : State) (d : Nat) (x : Desc) : (s.setDesc d x).ucode = s.ucode := rfl
@[simp] theorem setDesc_engines (s : State) (d : Nat) (x : Desc) : (s.setDesc d x).engines = s.engines := rfl
@[simp] theorem setDesc_plots (s : State) (d : Nat) (x : Desc) : (s.setDesc d x).plots = s.plots := rfl
@[simp] theorem setDesc_queues (s : State) (d : Nat) (x : Desc) : (s.setDesc d x).queues = s.queues := rfl
@[simp] theorem setDesc_routers (s : State) (d : Nat) (x : Desc) : (s.setDesc d x).routers = s.routers := rfl
@[simp] theorem setDesc_holds (s : State) (d : Nat) (x : Desc) : (s.setDesc d x).holds = s.holds := rfl
@[simp] theorem setDesc_flushing (s : State) (d : Nat) (x : Desc) : (s.setDesc d x).flushing = s.flushing := rfl
@[simp] theorem setDesc_dropping (s : State) (d : Nat) (x : Desc) : (s.setDesc d x).dropping = s.dropping := rfl
@[simp] theorem setDesc_wleft (s : State) (d : Nat) (x : Desc) : (s.setDesc d x).wleft = s.wleft := rfl
@[simp] theorem setDesc_appends (s : State) (d : Nat) (x : Desc) : (s.setDesc d x).appends = s.appends := rfl
@[simp] theorem setDesc_owed (s : State) (d : Nat) (x : Desc) : (s.setDesc d x).owed = s.owed := rfl
@[simp] theorem setDesc_reads (s : State) (d : Nat) (x : Desc) : (s.setDesc d x).reads = s.reads := rfl
@[simp] theorem setDesc_dests (s : State) (d : Nat) (x : Desc) : (s.setDesc d x).dests = s.dests := rfl
@[simp] theorem setDesc_arrivals (s : State) (d : Nat) (x : Desc) : (s.setDesc d x).arrivals = s.arrivals := rfl
@[simp] theorem setDesc_auditAt (s : State) (d : Nat) (x : Desc) : (s.setDesc d x).auditAt = s.auditAt := rfl
@[simp] theorem setDesc_rpath (s : State) (d : Nat) (x : Desc) : (s.setDesc d x).rpath = s.rpath := rfl
@[simp] theorem setDesc_pathAt (s : State) (d : Nat) (x : Desc) : (s.setDesc d x).pathAt = s.pathAt := rfl
@[simp] theorem setDesc_quads (s : State) (d : Nat) (x : Desc) : (s.setDesc d x).quads = s.quads := rfl
@[simp] theorem setDesc_banks (s : State) (d : Nat) (x : Desc) : (s.setDesc d x).banks = s.banks := rfl
@[simp] theorem setDesc_bankQ (s : State) (d : Nat) (x : Desc) : (s.setDesc d x).bankQ = s.bankQ := rfl
@[simp] theorem setDesc_bankWait (s : State) (d : Nat) (x : Desc) : (s.setDesc d x).bankWait = s.bankWait := rfl
@[simp] theorem setDesc_port0 (s : State) (d : Nat) (x : Desc) : (s.setDesc d x).port0 = s.port0 := rfl
@[simp] theorem setDesc_port1 (s : State) (d : Nat) (x : Desc) : (s.setDesc d x).port1 = s.port1 := rfl
@[simp] theorem setDesc_pop (s : State) (d : Nat) (x : Desc) : (s.setDesc d x).pop = s.pop := rfl
@[simp] theorem setDesc_lck (s : State) (d : Nat) (x : Desc) : (s.setDesc d x).lck = s.lck := rfl
@[simp] theorem setDesc_evio (s : State) (d : Nat) (x : Desc) : (s.setDesc d x).evio = s.evio := rfl
@[simp] theorem setDesc_sieve (s : State) (d : Nat) (x : Desc) : (s.setDesc d x).sieve = s.sieve := rfl
@[simp] theorem setDesc_tx (s : State) (d : Nat) (x : Desc) : (s.setDesc d x).tx = s.tx := rfl
@[simp] theorem setDesc_host (s : State) (d : Nat) (x : Desc) : (s.setDesc d x).host = s.host := rfl
@[simp] theorem setDesc_cmd (s : State) (d : Nat) (x : Desc) : (s.setDesc d x).cmd = s.cmd := rfl
@[simp] theorem setDesc_fabric (s : State) (d : Nat) (x : Desc) : (s.setDesc d x).fabric = s.fabric := rfl
@[simp] theorem setDesc_power (s : State) (d : Nat) (x : Desc) : (s.setDesc d x).power = s.power := rfl
@[simp] theorem setDesc_upkeep (s : State) (d : Nat) (x : Desc) : (s.setDesc d x).upkeep = s.upkeep := rfl
@[simp] theorem setDesc_tap (s : State) (d : Nat) (x : Desc) : (s.setDesc d x).tap = s.tap := rfl
@[simp] theorem setDesc_smb (s : State) (d : Nat) (x : Desc) : (s.setDesc d x).smb = s.smb := rfl
@[simp] theorem setDesc_rootSel (s : State) (d : Nat) (x : Desc) : (s.setDesc d x).rootSel = s.rootSel := rfl
@[simp] theorem setDesc_testMode (s : State) (d : Nat) (x : Desc) : (s.setDesc d x).testMode = s.testMode := rfl
@[simp] theorem setDesc_faultN (s : State) (d : Nat) (x : Desc) : (s.setDesc d x).faultN = s.faultN := rfl
@[simp] theorem setDesc_pwrGood (s : State) (d : Nat) (x : Desc) : (s.setDesc d x).pwrGood = s.pwrGood := rfl
@[simp] theorem setDesc_image (s : State) (d : Nat) (x : Desc) : (s.setDesc d x).image = s.image := rfl
@[simp] theorem setDesc_mcVersion (s : State) (d : Nat) (x : Desc) : (s.setDesc d x).mcVersion = s.mcVersion := rfl
@[simp] theorem setDesc_free (s : State) (d : Nat) (x : Desc) : (s.setDesc d x).free = s.free := rfl
@[simp] theorem rd_setDesc (s : State) (d : Nat) (x : Desc) (a' : Nat) : (s.setDesc d x).rd a' = s.rd a' := rfl
@[simp] theorem eng_setDesc (s : State) (d : Nat) (x : Desc) (e' : Nat) : (s.setDesc d x).eng e' = s.eng e' := rfl
@[simp] theorem plot_setDesc (s : State) (d : Nat) (x : Desc) (p' : Nat) : (s.setDesc d x).plot p' = s.plot p' := rfl
@[simp] theorem q_setDesc (s : State) (d : Nat) (x : Desc) (k' : Nat) : (s.setDesc d x).q k' = s.q k' := rfl
@[simp] theorem lock_setDesc (s : State) (d : Nat) (x : Desc) (n' : Nat) : (s.setDesc d x).lock n' = s.lock n' := rfl
@[simp] theorem byte_setDesc (s : State) (d : Nat) (x : Desc) (a' : Nat) : (s.setDesc d x).byte a' = s.byte a' := rfl
@[simp] theorem mark_setDesc (s : State) (d : Nat) (x : Desc) (a' : Nat) : (s.setDesc d x).mark a' = s.mark a' := rfl

@[simp] theorem setLock_pending (s : State) (n : Nat) (x : Lock) : (s.setLock n x).pending = s.pending := rfl
@[simp] theorem setLock_opState (s : State) (n : Nat) (x : Lock) : (s.setLock n x).opState = s.opState := rfl
@[simp] theorem setLock_prevState (s : State) (n : Nat) (x : Lock) : (s.setLock n x).prevState = s.prevState := rfl
@[simp] theorem setLock_profile (s : State) (n : Nat) (x : Lock) : (s.setLock n x).profile = s.profile := rfl
@[simp] theorem setLock_time (s : State) (n : Nat) (x : Lock) : (s.setLock n x).time = s.time := rfl
@[simp] theorem setLock_regs (s : State) (n : Nat) (x : Lock) : (s.setLock n x).regs = s.regs := rfl
@[simp] theorem setLock_latches (s : State) (n : Nat) (x : Lock) : (s.setLock n x).latches = s.latches := rfl
@[simp] theorem setLock_stages (s : State) (n : Nat) (x : Lock) : (s.setLock n x).stages = s.stages := rfl
@[simp] theorem setLock_rdata (s : State) (n : Nat) (x : Lock) : (s.setLock n x).rdata = s.rdata := rfl
@[simp] theorem setLock_mem (s : State) (n : Nat) (x : Lock) : (s.setLock n x).mem = s.mem := rfl
@[simp] theorem setLock_marks (s : State) (n : Nat) (x : Lock) : (s.setLock n x).marks = s.marks := rfl
@[simp] theorem setLock_pres (s : State) (n : Nat) (x : Lock) : (s.setLock n x).pres = s.pres := rfl
@[simp] theorem setLock_ucode (s : State) (n : Nat) (x : Lock) : (s.setLock n x).ucode = s.ucode := rfl
@[simp] theorem setLock_engines (s : State) (n : Nat) (x : Lock) : (s.setLock n x).engines = s.engines := rfl
@[simp] theorem setLock_plots (s : State) (n : Nat) (x : Lock) : (s.setLock n x).plots = s.plots := rfl
@[simp] theorem setLock_queues (s : State) (n : Nat) (x : Lock) : (s.setLock n x).queues = s.queues := rfl
@[simp] theorem setLock_routers (s : State) (n : Nat) (x : Lock) : (s.setLock n x).routers = s.routers := rfl
@[simp] theorem setLock_holds (s : State) (n : Nat) (x : Lock) : (s.setLock n x).holds = s.holds := rfl
@[simp] theorem setLock_flushing (s : State) (n : Nat) (x : Lock) : (s.setLock n x).flushing = s.flushing := rfl
@[simp] theorem setLock_dropping (s : State) (n : Nat) (x : Lock) : (s.setLock n x).dropping = s.dropping := rfl
@[simp] theorem setLock_wleft (s : State) (n : Nat) (x : Lock) : (s.setLock n x).wleft = s.wleft := rfl
@[simp] theorem setLock_appends (s : State) (n : Nat) (x : Lock) : (s.setLock n x).appends = s.appends := rfl
@[simp] theorem setLock_owed (s : State) (n : Nat) (x : Lock) : (s.setLock n x).owed = s.owed := rfl
@[simp] theorem setLock_reads (s : State) (n : Nat) (x : Lock) : (s.setLock n x).reads = s.reads := rfl
@[simp] theorem setLock_dests (s : State) (n : Nat) (x : Lock) : (s.setLock n x).dests = s.dests := rfl
@[simp] theorem setLock_arrivals (s : State) (n : Nat) (x : Lock) : (s.setLock n x).arrivals = s.arrivals := rfl
@[simp] theorem setLock_auditAt (s : State) (n : Nat) (x : Lock) : (s.setLock n x).auditAt = s.auditAt := rfl
@[simp] theorem setLock_rpath (s : State) (n : Nat) (x : Lock) : (s.setLock n x).rpath = s.rpath := rfl
@[simp] theorem setLock_pathAt (s : State) (n : Nat) (x : Lock) : (s.setLock n x).pathAt = s.pathAt := rfl
@[simp] theorem setLock_quads (s : State) (n : Nat) (x : Lock) : (s.setLock n x).quads = s.quads := rfl
@[simp] theorem setLock_banks (s : State) (n : Nat) (x : Lock) : (s.setLock n x).banks = s.banks := rfl
@[simp] theorem setLock_bankQ (s : State) (n : Nat) (x : Lock) : (s.setLock n x).bankQ = s.bankQ := rfl
@[simp] theorem setLock_bankWait (s : State) (n : Nat) (x : Lock) : (s.setLock n x).bankWait = s.bankWait := rfl
@[simp] theorem setLock_port0 (s : State) (n : Nat) (x : Lock) : (s.setLock n x).port0 = s.port0 := rfl
@[simp] theorem setLock_port1 (s : State) (n : Nat) (x : Lock) : (s.setLock n x).port1 = s.port1 := rfl
@[simp] theorem setLock_pop (s : State) (n : Nat) (x : Lock) : (s.setLock n x).pop = s.pop := rfl
@[simp] theorem setLock_dib (s : State) (n : Nat) (x : Lock) : (s.setLock n x).dib = s.dib := rfl
@[simp] theorem setLock_evio (s : State) (n : Nat) (x : Lock) : (s.setLock n x).evio = s.evio := rfl
@[simp] theorem setLock_sieve (s : State) (n : Nat) (x : Lock) : (s.setLock n x).sieve = s.sieve := rfl
@[simp] theorem setLock_tx (s : State) (n : Nat) (x : Lock) : (s.setLock n x).tx = s.tx := rfl
@[simp] theorem setLock_host (s : State) (n : Nat) (x : Lock) : (s.setLock n x).host = s.host := rfl
@[simp] theorem setLock_cmd (s : State) (n : Nat) (x : Lock) : (s.setLock n x).cmd = s.cmd := rfl
@[simp] theorem setLock_fabric (s : State) (n : Nat) (x : Lock) : (s.setLock n x).fabric = s.fabric := rfl
@[simp] theorem setLock_power (s : State) (n : Nat) (x : Lock) : (s.setLock n x).power = s.power := rfl
@[simp] theorem setLock_upkeep (s : State) (n : Nat) (x : Lock) : (s.setLock n x).upkeep = s.upkeep := rfl
@[simp] theorem setLock_tap (s : State) (n : Nat) (x : Lock) : (s.setLock n x).tap = s.tap := rfl
@[simp] theorem setLock_smb (s : State) (n : Nat) (x : Lock) : (s.setLock n x).smb = s.smb := rfl
@[simp] theorem setLock_rootSel (s : State) (n : Nat) (x : Lock) : (s.setLock n x).rootSel = s.rootSel := rfl
@[simp] theorem setLock_testMode (s : State) (n : Nat) (x : Lock) : (s.setLock n x).testMode = s.testMode := rfl
@[simp] theorem setLock_faultN (s : State) (n : Nat) (x : Lock) : (s.setLock n x).faultN = s.faultN := rfl
@[simp] theorem setLock_pwrGood (s : State) (n : Nat) (x : Lock) : (s.setLock n x).pwrGood = s.pwrGood := rfl
@[simp] theorem setLock_image (s : State) (n : Nat) (x : Lock) : (s.setLock n x).image = s.image := rfl
@[simp] theorem setLock_mcVersion (s : State) (n : Nat) (x : Lock) : (s.setLock n x).mcVersion = s.mcVersion := rfl
@[simp] theorem setLock_free (s : State) (n : Nat) (x : Lock) : (s.setLock n x).free = s.free := rfl
@[simp] theorem rd_setLock (s : State) (n : Nat) (x : Lock) (a' : Nat) : (s.setLock n x).rd a' = s.rd a' := rfl
@[simp] theorem eng_setLock (s : State) (n : Nat) (x : Lock) (e' : Nat) : (s.setLock n x).eng e' = s.eng e' := rfl
@[simp] theorem plot_setLock (s : State) (n : Nat) (x : Lock) (p' : Nat) : (s.setLock n x).plot p' = s.plot p' := rfl
@[simp] theorem q_setLock (s : State) (n : Nat) (x : Lock) (k' : Nat) : (s.setLock n x).q k' = s.q k' := rfl
@[simp] theorem desc_setLock (s : State) (n : Nat) (x : Lock) (d' : Nat) : (s.setLock n x).desc d' = s.desc d' := rfl
@[simp] theorem byte_setLock (s : State) (n : Nat) (x : Lock) (a' : Nat) : (s.setLock n x).byte a' = s.byte a' := rfl
@[simp] theorem mark_setLock (s : State) (n : Nat) (x : Lock) (a' : Nat) : (s.setLock n x).mark a' = s.mark a' := rfl

@[simp] theorem setMark_pending (s : State) (a : Nat) (m : Mark) : (s.setMark a m).pending = s.pending := rfl
@[simp] theorem setMark_opState (s : State) (a : Nat) (m : Mark) : (s.setMark a m).opState = s.opState := rfl
@[simp] theorem setMark_prevState (s : State) (a : Nat) (m : Mark) : (s.setMark a m).prevState = s.prevState := rfl
@[simp] theorem setMark_profile (s : State) (a : Nat) (m : Mark) : (s.setMark a m).profile = s.profile := rfl
@[simp] theorem setMark_time (s : State) (a : Nat) (m : Mark) : (s.setMark a m).time = s.time := rfl
@[simp] theorem setMark_regs (s : State) (a : Nat) (m : Mark) : (s.setMark a m).regs = s.regs := rfl
@[simp] theorem setMark_latches (s : State) (a : Nat) (m : Mark) : (s.setMark a m).latches = s.latches := rfl
@[simp] theorem setMark_stages (s : State) (a : Nat) (m : Mark) : (s.setMark a m).stages = s.stages := rfl
@[simp] theorem setMark_rdata (s : State) (a : Nat) (m : Mark) : (s.setMark a m).rdata = s.rdata := rfl
@[simp] theorem setMark_mem (s : State) (a : Nat) (m : Mark) : (s.setMark a m).mem = s.mem := rfl
@[simp] theorem setMark_pres (s : State) (a : Nat) (m : Mark) : (s.setMark a m).pres = s.pres := rfl
@[simp] theorem setMark_ucode (s : State) (a : Nat) (m : Mark) : (s.setMark a m).ucode = s.ucode := rfl
@[simp] theorem setMark_engines (s : State) (a : Nat) (m : Mark) : (s.setMark a m).engines = s.engines := rfl
@[simp] theorem setMark_plots (s : State) (a : Nat) (m : Mark) : (s.setMark a m).plots = s.plots := rfl
@[simp] theorem setMark_queues (s : State) (a : Nat) (m : Mark) : (s.setMark a m).queues = s.queues := rfl
@[simp] theorem setMark_routers (s : State) (a : Nat) (m : Mark) : (s.setMark a m).routers = s.routers := rfl
@[simp] theorem setMark_holds (s : State) (a : Nat) (m : Mark) : (s.setMark a m).holds = s.holds := rfl
@[simp] theorem setMark_flushing (s : State) (a : Nat) (m : Mark) : (s.setMark a m).flushing = s.flushing := rfl
@[simp] theorem setMark_dropping (s : State) (a : Nat) (m : Mark) : (s.setMark a m).dropping = s.dropping := rfl
@[simp] theorem setMark_wleft (s : State) (a : Nat) (m : Mark) : (s.setMark a m).wleft = s.wleft := rfl
@[simp] theorem setMark_appends (s : State) (a : Nat) (m : Mark) : (s.setMark a m).appends = s.appends := rfl
@[simp] theorem setMark_owed (s : State) (a : Nat) (m : Mark) : (s.setMark a m).owed = s.owed := rfl
@[simp] theorem setMark_reads (s : State) (a : Nat) (m : Mark) : (s.setMark a m).reads = s.reads := rfl
@[simp] theorem setMark_dests (s : State) (a : Nat) (m : Mark) : (s.setMark a m).dests = s.dests := rfl
@[simp] theorem setMark_arrivals (s : State) (a : Nat) (m : Mark) : (s.setMark a m).arrivals = s.arrivals := rfl
@[simp] theorem setMark_auditAt (s : State) (a : Nat) (m : Mark) : (s.setMark a m).auditAt = s.auditAt := rfl
@[simp] theorem setMark_rpath (s : State) (a : Nat) (m : Mark) : (s.setMark a m).rpath = s.rpath := rfl
@[simp] theorem setMark_pathAt (s : State) (a : Nat) (m : Mark) : (s.setMark a m).pathAt = s.pathAt := rfl
@[simp] theorem setMark_quads (s : State) (a : Nat) (m : Mark) : (s.setMark a m).quads = s.quads := rfl
@[simp] theorem setMark_banks (s : State) (a : Nat) (m : Mark) : (s.setMark a m).banks = s.banks := rfl
@[simp] theorem setMark_bankQ (s : State) (a : Nat) (m : Mark) : (s.setMark a m).bankQ = s.bankQ := rfl
@[simp] theorem setMark_bankWait (s : State) (a : Nat) (m : Mark) : (s.setMark a m).bankWait = s.bankWait := rfl
@[simp] theorem setMark_port0 (s : State) (a : Nat) (m : Mark) : (s.setMark a m).port0 = s.port0 := rfl
@[simp] theorem setMark_port1 (s : State) (a : Nat) (m : Mark) : (s.setMark a m).port1 = s.port1 := rfl
@[simp] theorem setMark_pop (s : State) (a : Nat) (m : Mark) : (s.setMark a m).pop = s.pop := rfl
@[simp] theorem setMark_dib (s : State) (a : Nat) (m : Mark) : (s.setMark a m).dib = s.dib := rfl
@[simp] theorem setMark_lck (s : State) (a : Nat) (m : Mark) : (s.setMark a m).lck = s.lck := rfl
@[simp] theorem setMark_evio (s : State) (a : Nat) (m : Mark) : (s.setMark a m).evio = s.evio := rfl
@[simp] theorem setMark_sieve (s : State) (a : Nat) (m : Mark) : (s.setMark a m).sieve = s.sieve := rfl
@[simp] theorem setMark_tx (s : State) (a : Nat) (m : Mark) : (s.setMark a m).tx = s.tx := rfl
@[simp] theorem setMark_host (s : State) (a : Nat) (m : Mark) : (s.setMark a m).host = s.host := rfl
@[simp] theorem setMark_cmd (s : State) (a : Nat) (m : Mark) : (s.setMark a m).cmd = s.cmd := rfl
@[simp] theorem setMark_fabric (s : State) (a : Nat) (m : Mark) : (s.setMark a m).fabric = s.fabric := rfl
@[simp] theorem setMark_power (s : State) (a : Nat) (m : Mark) : (s.setMark a m).power = s.power := rfl
@[simp] theorem setMark_upkeep (s : State) (a : Nat) (m : Mark) : (s.setMark a m).upkeep = s.upkeep := rfl
@[simp] theorem setMark_tap (s : State) (a : Nat) (m : Mark) : (s.setMark a m).tap = s.tap := rfl
@[simp] theorem setMark_smb (s : State) (a : Nat) (m : Mark) : (s.setMark a m).smb = s.smb := rfl
@[simp] theorem setMark_rootSel (s : State) (a : Nat) (m : Mark) : (s.setMark a m).rootSel = s.rootSel := rfl
@[simp] theorem setMark_testMode (s : State) (a : Nat) (m : Mark) : (s.setMark a m).testMode = s.testMode := rfl
@[simp] theorem setMark_faultN (s : State) (a : Nat) (m : Mark) : (s.setMark a m).faultN = s.faultN := rfl
@[simp] theorem setMark_pwrGood (s : State) (a : Nat) (m : Mark) : (s.setMark a m).pwrGood = s.pwrGood := rfl
@[simp] theorem setMark_image (s : State) (a : Nat) (m : Mark) : (s.setMark a m).image = s.image := rfl
@[simp] theorem setMark_mcVersion (s : State) (a : Nat) (m : Mark) : (s.setMark a m).mcVersion = s.mcVersion := rfl
@[simp] theorem setMark_free (s : State) (a : Nat) (m : Mark) : (s.setMark a m).free = s.free := rfl
@[simp] theorem rd_setMark (s : State) (a : Nat) (m : Mark) (a' : Nat) : (s.setMark a m).rd a' = s.rd a' := rfl
@[simp] theorem eng_setMark (s : State) (a : Nat) (m : Mark) (e' : Nat) : (s.setMark a m).eng e' = s.eng e' := rfl
@[simp] theorem plot_setMark (s : State) (a : Nat) (m : Mark) (p' : Nat) : (s.setMark a m).plot p' = s.plot p' := rfl
@[simp] theorem q_setMark (s : State) (a : Nat) (m : Mark) (k' : Nat) : (s.setMark a m).q k' = s.q k' := rfl
@[simp] theorem desc_setMark (s : State) (a : Nat) (m : Mark) (d' : Nat) : (s.setMark a m).desc d' = s.desc d' := rfl
@[simp] theorem lock_setMark (s : State) (a : Nat) (m : Mark) (n' : Nat) : (s.setMark a m).lock n' = s.lock n' := rfl
@[simp] theorem byte_setMark (s : State) (a : Nat) (m : Mark) (a' : Nat) : (s.setMark a m).byte a' = s.byte a' := rfl

@[simp] theorem setByte_pending (s : State) (a : Nat) (v : Byte) : (s.setByte a v).pending = s.pending := rfl
@[simp] theorem setByte_opState (s : State) (a : Nat) (v : Byte) : (s.setByte a v).opState = s.opState := rfl
@[simp] theorem setByte_prevState (s : State) (a : Nat) (v : Byte) : (s.setByte a v).prevState = s.prevState := rfl
@[simp] theorem setByte_profile (s : State) (a : Nat) (v : Byte) : (s.setByte a v).profile = s.profile := rfl
@[simp] theorem setByte_time (s : State) (a : Nat) (v : Byte) : (s.setByte a v).time = s.time := rfl
@[simp] theorem setByte_regs (s : State) (a : Nat) (v : Byte) : (s.setByte a v).regs = s.regs := rfl
@[simp] theorem setByte_latches (s : State) (a : Nat) (v : Byte) : (s.setByte a v).latches = s.latches := rfl
@[simp] theorem setByte_stages (s : State) (a : Nat) (v : Byte) : (s.setByte a v).stages = s.stages := rfl
@[simp] theorem setByte_rdata (s : State) (a : Nat) (v : Byte) : (s.setByte a v).rdata = s.rdata := rfl
@[simp] theorem setByte_marks (s : State) (a : Nat) (v : Byte) : (s.setByte a v).marks = s.marks := rfl
@[simp] theorem setByte_pres (s : State) (a : Nat) (v : Byte) : (s.setByte a v).pres = s.pres := rfl
@[simp] theorem setByte_ucode (s : State) (a : Nat) (v : Byte) : (s.setByte a v).ucode = s.ucode := rfl
@[simp] theorem setByte_engines (s : State) (a : Nat) (v : Byte) : (s.setByte a v).engines = s.engines := rfl
@[simp] theorem setByte_plots (s : State) (a : Nat) (v : Byte) : (s.setByte a v).plots = s.plots := rfl
@[simp] theorem setByte_queues (s : State) (a : Nat) (v : Byte) : (s.setByte a v).queues = s.queues := rfl
@[simp] theorem setByte_routers (s : State) (a : Nat) (v : Byte) : (s.setByte a v).routers = s.routers := rfl
@[simp] theorem setByte_holds (s : State) (a : Nat) (v : Byte) : (s.setByte a v).holds = s.holds := rfl
@[simp] theorem setByte_flushing (s : State) (a : Nat) (v : Byte) : (s.setByte a v).flushing = s.flushing := rfl
@[simp] theorem setByte_dropping (s : State) (a : Nat) (v : Byte) : (s.setByte a v).dropping = s.dropping := rfl
@[simp] theorem setByte_wleft (s : State) (a : Nat) (v : Byte) : (s.setByte a v).wleft = s.wleft := rfl
@[simp] theorem setByte_appends (s : State) (a : Nat) (v : Byte) : (s.setByte a v).appends = s.appends := rfl
@[simp] theorem setByte_owed (s : State) (a : Nat) (v : Byte) : (s.setByte a v).owed = s.owed := rfl
@[simp] theorem setByte_reads (s : State) (a : Nat) (v : Byte) : (s.setByte a v).reads = s.reads := rfl
@[simp] theorem setByte_dests (s : State) (a : Nat) (v : Byte) : (s.setByte a v).dests = s.dests := rfl
@[simp] theorem setByte_arrivals (s : State) (a : Nat) (v : Byte) : (s.setByte a v).arrivals = s.arrivals := rfl
@[simp] theorem setByte_auditAt (s : State) (a : Nat) (v : Byte) : (s.setByte a v).auditAt = s.auditAt := rfl
@[simp] theorem setByte_rpath (s : State) (a : Nat) (v : Byte) : (s.setByte a v).rpath = s.rpath := rfl
@[simp] theorem setByte_pathAt (s : State) (a : Nat) (v : Byte) : (s.setByte a v).pathAt = s.pathAt := rfl
@[simp] theorem setByte_quads (s : State) (a : Nat) (v : Byte) : (s.setByte a v).quads = s.quads := rfl
@[simp] theorem setByte_banks (s : State) (a : Nat) (v : Byte) : (s.setByte a v).banks = s.banks := rfl
@[simp] theorem setByte_bankQ (s : State) (a : Nat) (v : Byte) : (s.setByte a v).bankQ = s.bankQ := rfl
@[simp] theorem setByte_bankWait (s : State) (a : Nat) (v : Byte) : (s.setByte a v).bankWait = s.bankWait := rfl
@[simp] theorem setByte_port0 (s : State) (a : Nat) (v : Byte) : (s.setByte a v).port0 = s.port0 := rfl
@[simp] theorem setByte_port1 (s : State) (a : Nat) (v : Byte) : (s.setByte a v).port1 = s.port1 := rfl
@[simp] theorem setByte_pop (s : State) (a : Nat) (v : Byte) : (s.setByte a v).pop = s.pop := rfl
@[simp] theorem setByte_dib (s : State) (a : Nat) (v : Byte) : (s.setByte a v).dib = s.dib := rfl
@[simp] theorem setByte_lck (s : State) (a : Nat) (v : Byte) : (s.setByte a v).lck = s.lck := rfl
@[simp] theorem setByte_evio (s : State) (a : Nat) (v : Byte) : (s.setByte a v).evio = s.evio := rfl
@[simp] theorem setByte_sieve (s : State) (a : Nat) (v : Byte) : (s.setByte a v).sieve = s.sieve := rfl
@[simp] theorem setByte_tx (s : State) (a : Nat) (v : Byte) : (s.setByte a v).tx = s.tx := rfl
@[simp] theorem setByte_host (s : State) (a : Nat) (v : Byte) : (s.setByte a v).host = s.host := rfl
@[simp] theorem setByte_cmd (s : State) (a : Nat) (v : Byte) : (s.setByte a v).cmd = s.cmd := rfl
@[simp] theorem setByte_fabric (s : State) (a : Nat) (v : Byte) : (s.setByte a v).fabric = s.fabric := rfl
@[simp] theorem setByte_power (s : State) (a : Nat) (v : Byte) : (s.setByte a v).power = s.power := rfl
@[simp] theorem setByte_upkeep (s : State) (a : Nat) (v : Byte) : (s.setByte a v).upkeep = s.upkeep := rfl
@[simp] theorem setByte_tap (s : State) (a : Nat) (v : Byte) : (s.setByte a v).tap = s.tap := rfl
@[simp] theorem setByte_smb (s : State) (a : Nat) (v : Byte) : (s.setByte a v).smb = s.smb := rfl
@[simp] theorem setByte_rootSel (s : State) (a : Nat) (v : Byte) : (s.setByte a v).rootSel = s.rootSel := rfl
@[simp] theorem setByte_testMode (s : State) (a : Nat) (v : Byte) : (s.setByte a v).testMode = s.testMode := rfl
@[simp] theorem setByte_faultN (s : State) (a : Nat) (v : Byte) : (s.setByte a v).faultN = s.faultN := rfl
@[simp] theorem setByte_pwrGood (s : State) (a : Nat) (v : Byte) : (s.setByte a v).pwrGood = s.pwrGood := rfl
@[simp] theorem setByte_image (s : State) (a : Nat) (v : Byte) : (s.setByte a v).image = s.image := rfl
@[simp] theorem setByte_mcVersion (s : State) (a : Nat) (v : Byte) : (s.setByte a v).mcVersion = s.mcVersion := rfl
@[simp] theorem setByte_free (s : State) (a : Nat) (v : Byte) : (s.setByte a v).free = s.free := rfl
@[simp] theorem rd_setByte (s : State) (a : Nat) (v : Byte) (a' : Nat) : (s.setByte a v).rd a' = s.rd a' := rfl
@[simp] theorem eng_setByte (s : State) (a : Nat) (v : Byte) (e' : Nat) : (s.setByte a v).eng e' = s.eng e' := rfl
@[simp] theorem plot_setByte (s : State) (a : Nat) (v : Byte) (p' : Nat) : (s.setByte a v).plot p' = s.plot p' := rfl
@[simp] theorem q_setByte (s : State) (a : Nat) (v : Byte) (k' : Nat) : (s.setByte a v).q k' = s.q k' := rfl
@[simp] theorem desc_setByte (s : State) (a : Nat) (v : Byte) (d' : Nat) : (s.setByte a v).desc d' = s.desc d' := rfl
@[simp] theorem lock_setByte (s : State) (a : Nat) (v : Byte) (n' : Nat) : (s.setByte a v).lock n' = s.lock n' := rfl
@[simp] theorem mark_setByte (s : State) (a : Nat) (v : Byte) (a' : Nat) : (s.setByte a v).mark a' = s.mark a' := rfl

/-! Reading back. -/

@[simp] theorem rd_wr_same (s : State) (a : Nat) (v : Reg32) : (s.wr a v).rd a = v := by simp [rd, wr]
theorem rd_wr_ne (s : State) {a b : Nat} (h : b ≠ a) (v : Reg32) : (s.wr a v).rd b = s.rd b := by simp [rd, wr, h]
@[simp] theorem eng_setEng_same (s : State) (e : Nat) (x : Engine) : (s.setEng e x).eng e = x := by simp [eng, setEng]
theorem eng_setEng_ne (s : State) {e k : Nat} (h : k ≠ e) (x : Engine) : (s.setEng e x).eng k = s.eng k := by
  simp [eng, setEng, h]
@[simp] theorem eng_modEng_same (s : State) (e : Nat) (g : Engine → Engine) : (s.modEng e g).eng e = g (s.eng e) := by
  simp [modEng]
theorem eng_modEng_ne (s : State) {e k : Nat} (h : k ≠ e) (g : Engine → Engine) : (s.modEng e g).eng k = s.eng k :=
  eng_setEng_ne s h _
@[simp] theorem plot_setPlot_same (s : State) (p : Nat) (x : Plot) : (s.setPlot p x).plot p = x := by simp [plot, setPlot]
theorem plot_setPlot_ne (s : State) {p k : Nat} (h : k ≠ p) (x : Plot) : (s.setPlot p x).plot k = s.plot k := by
  simp [plot, setPlot, h]
@[simp] theorem plot_modPlot_same (s : State) (p : Nat) (g : Plot → Plot) : (s.modPlot p g).plot p = g (s.plot p) := by
  simp [modPlot]
theorem plot_modPlot_ne (s : State) {p k : Nat} (h : k ≠ p) (g : Plot → Plot) : (s.modPlot p g).plot k = s.plot k :=
  plot_setPlot_ne s h _
@[simp] theorem q_setQ_same (s : State) (k : Nat) (x : List Flit) : (s.setQ k x).q k = x := by simp [q, setQ]
theorem q_setQ_ne (s : State) {k j : Nat} (h : j ≠ k) (x : List Flit) : (s.setQ k x).q j = s.q j := by simp [q, setQ, h]
@[simp] theorem desc_setDesc_same (s : State) (d : Nat) (x : Desc) : (s.setDesc d x).desc d = x := by simp [desc, setDesc]
theorem desc_setDesc_ne (s : State) {d k : Nat} (h : k ≠ d) (x : Desc) : (s.setDesc d x).desc k = s.desc k := by
  simp [desc, setDesc, h]
@[simp] theorem lock_setLock_same (s : State) (n : Nat) (x : Lock) : (s.setLock n x).lock n = x := by simp [lock, setLock]
theorem lock_setLock_ne (s : State) {n k : Nat} (h : k ≠ n) (x : Lock) : (s.setLock n x).lock k = s.lock k := by
  simp [lock, setLock, h]
@[simp] theorem mark_setMark_same (s : State) (a : Nat) (m : Mark) : (s.setMark a m).mark a = m := by simp [mark, setMark]
theorem mark_setMark_ne (s : State) {a b : Nat} (h : b ≠ a) (m : Mark) : (s.setMark a m).mark b = s.mark b := by
  simp [mark, setMark, h]
@[simp] theorem byte_setByte_same (s : State) (a : Nat) (v : Byte) : (s.setByte a v).byte a = v := by simp [byte, setByte]
theorem byte_setByte_ne (s : State) {a b : Nat} (h : b ≠ a) (v : Byte) : (s.setByte a v).byte b = s.byte b := by
  simp [byte, setByte, h]
theorem rd_setFld_ne (s : State) {a b : Nat} (h : b ≠ a) (l n v : Nat) : (s.setFld a l n v).rd b = s.rd b := rd_wr_ne s h _
theorem rd_setFlag_ne (s : State) {a b : Nat} (h : b ≠ a) (i : Nat) (v : Bool) : (s.setFlag a i v).rd b = s.rd b :=
  rd_wr_ne s h _
theorem rd_satInc_ne (s : State) {a b : Nat} (h : b ≠ a) (l n : Nat) : (s.satInc a l n).rd b = s.rd b := rd_wr_ne s h _

end Sys2Proof.Machine.State
end

