-- ==== Sys2Proof/Laws/Memory.lean ====
section
/-! SUPPORT. The byte memory, the presence map and the register store keep their canonical form under every operation on
them, and a byte read after a write of several bytes. -/

namespace Sys2Proof.Machine

/-- No byte is listed in an empty memory. -/
@[simp] theorem Memory.wf_nil : Memory.wf [] = true := rfl

/-- A filter keeps the canonical form. -/
theorem Memory.wf_filter {m : List Host.Cell} (h : Memory.wf m = true) (q : Host.Cell → Bool) :
    Memory.wf (m.filter q) = true := SMap.wf_filter h

/-- A byte write keeps the canonical form. -/
theorem State.wf_setByte {s : State} (h : Memory.wf s.mem = true) (a : Nat) (v : Byte) :
    Memory.wf (s.setByte a v).mem = true := SMap.wf_set h a v

/-- A write of several bytes keeps the canonical form. -/
theorem State.wf_storeNat (n : Nat) : ∀ {s : State} (_ : Memory.wf s.mem = true) (a v : Nat),
    Memory.wf (s.storeNat a n v).mem = true := by
  induction n with
  | zero => intro s h a v; exact h
  | succ n ih => intro s h a v; exact ih (State.wf_setByte h a _) _ _

/-- A write of a word keeps the canonical form. -/
theorem State.wf_store {s : State} (h : Memory.wf s.mem = true) (a n : Nat) (v : Word) :
    Memory.wf (s.store a n v).mem = true := State.wf_storeNat n h a v.toNat

/-- A write of several bytes changes the byte memory alone. -/
theorem State.storeNat_frame (n : Nat) : ∀ (s : State) (a v : Nat),
    s.storeNat a n v = { s with mem := (s.storeNat a n v).mem } := by
  induction n with
  | zero => intro s a v; rfl
  | succ n ih => intro s a v; simp only [storeNat]; rw [ih]; rfl

/-- A byte outside the bytes written reads as before. -/
theorem State.byte_storeNat_ne (n : Nat) : ∀ (s : State) (a v b : Nat) (_ : b < a ∨ a + n ≤ b),
    (s.storeNat a n v).byte b = s.byte b := by
  induction n with
  | zero => intro s a v b _; rfl
  | succ n ih =>
    intro s a v b h
    simp only [storeNat]
    rw [ih _ _ _ _ (by omega), byte_setByte_ne _ (by omega)]

/-- Byte `i` of the bytes written reads as byte `i` of the number. -/
theorem State.byte_storeNat (n : Nat) : ∀ (s : State) (a v i : Nat) (_ : i < n),
    (s.storeNat a n v).byte (a + i) = BitVec.ofNat 8 (v / 256 ^ i) := by
  induction n with
  | zero => intro s a v i h; omega
  | succ n ih =>
    intro s a v i h
    simp only [storeNat]
    cases i with
    | zero => rw [byte_storeNat_ne _ _ _ _ _ (by omega)]; simp
    | succ i =>
      have := ih (s.setByte a (BitVec.ofNat 8 v)) (a + 1) (v / 256) i (by omega)
      rw [show a + (i + 1) = a + 1 + i by omega, this, Nat.div_div_eq_div_mul, Nat.pow_succ, Nat.mul_comm]

/-- A presence write keeps the canonical form of the presence map. -/
theorem SMap.wf_presence {m : SMap (BitVec 2)} (h : SMap.wf (fun _ => (0 : BitVec 2)) m = true) (w : Nat) (v : BitVec 2) :
    SMap.wf (fun _ => (0 : BitVec 2)) (SMap.set m w v 0) = true := SMap.wf_set h w v

/-- A register write keeps the canonical form of the register store. -/
theorem State.wf_wr {s : State} (h : SMap.wf regReset s.regs = true) (a : Nat) (v : Reg32) :
    SMap.wf regReset (s.wr a v).regs = true := SMap.wf_set h a v

/-- Reset lists nothing. -/
theorem Memory.wf_reset : Memory.wf State.reset.mem = true := rfl

end Sys2Proof.Machine
end

