-- ==== Sys2Proof/Tests/Slice0.lean ====
section
/-! SUPPORT. The witnesses: for every statement with hypotheses, states and commands that meet them, clause by clause, with
what the command then does; and the smoke test of well-formedness. -/

open Sys2Proof Sys2Proof.Machine

namespace Sys2Proof.Tests

set_option Elab.async false

/-- Whether an outcome is a next state with a property. -/
def nextIs (o : Host.Outcome State Fault Refusal) (P : State → Bool) : Bool :=
  match o with
  | .next t => P t
  | _ => false

/-- A device in SERVICE whose host command port is free. -/
def up : State :=
  ((setStep 15 { State.reset with
    opState := .service, prevState := .service, pwrGood := true, faultN := false,
    time := { now := 0, frac := 0, started := true, unlockAt := 0, row1 := true } }).setFlag portReg 31 false).wr (breg .run 0) 0xFFF

/-- A device that waits for an image. -/
def waiting : State := (setStep 4 { up with opState := .boot, prevState := .boot })

/-- A record of a code in a collector. -/
def anyRec : Rec :=
  { open_ := true, cls := 1, target := 1, react := 1, esc := false, inj := false, state := 4, code := 9, recno := 1, phys := 0,
    locus := 0, merge := 0, conseq := 0, b := 0, worst := 9, worstCls := 1, last := 0, a := 0, c := 0, tDet := 0, tClose := 0,
    tplot := some 0, hist := none, phase := .none, tDone := none, latched := false, due := 0 }

/-- A device whose stores are not empty. -/
def full : State := { up with
  mem := [(8, 1), (9, 2)]
  pres := [(1, 3)]
  dib := { Dib.reset with
    events := [(3, { pend := true, count := 1, stamp := 2 })]
    descs := [(16383, { Desc.free with state := .idle })] }
  lck := { Lck.reset with locks := [(4095, { Lock.free with state := .held, owner := .host })] } }

theorem witness_StoresStayCanonical : full.stored ∧ nextIs (step { full with pending := [.vinLowChange 7500] }) (fun t => t.mem == full.mem) := by
  unfold State.stored; decide +kernel

theorem witness_QueueIsOnlyPopped : nextIs (exec (.vinLowChange 6999) { up with pending := [.wake] })
  (fun t => t.pending == [.wake] && t.power.vinLow) := by decide +kernel

theorem witness_StepRunsTheFrontCommand : up.pending = [] ∧ nextIs (step up) (fun t => t.time.now == 1) := by decide +kernel

theorem witness_PowerAndVin_1 : State.reset.opState = .off ∧ 4200 ≤ (4200 : BitVec 16).toNat ∧
  nextIs (exec (.vinRise 4200) State.reset) (fun t => !t.pwrGood && nextIs (exec (.vinRise 4500) t) (fun u => u.pwrGood &&
    nextIs (exec (.powerGood true false) u) (fun v => v.opState == .boot && v.rd (breg .run 0) == 0x80000000))) := by decide +kernel

theorem witness_PowerAndVin_2 : (3999 : BitVec 16).toNat < 4000 ∧ nextIs (exec (.powerStop 3999) up) (fun t => t.opState == .off) ∧
  nextIs (exec (.powerStop 4000) up) (fun t => t.opState == .service) ∧
  ¬ nextIs (exec (.overVoltageStop 19000) up) (fun t => t.opState == .off) ∧
  nextIs (exec (.overVoltageStop 19001) up) (fun t => t.opState == .off) := by decide +kernel

theorem witness_PowerAndVin_3 : ∃ t, { up with power := { up.power with vinLossAt := some 0 } , time := { now := 200000, frac := 0, started := true, unlockAt := 0, row1 := true } }.power.vinLossAt = some t ∧ t.toNat + 200000 ≤ 200000 ∧
  nextIs (exec (.powerStop 4200) { up with power := { up.power with vinLossAt := some 0 } , time := { now := 200000, frac := 0, started := true, unlockAt := 0, row1 := true } }) (fun t => t.opState == .off) :=
  ⟨0, by decide +kernel⟩

theorem witness_PowerAndVin_4 : up.opState ≠ .off ∧ (4299 : BitVec 16).toNat < 4300 ∧ up.power.vinLossAt = none ∧
  CollectorFree { Detection.bare 0x60 with a := 4300, b := 4299 } up ∧
  nextIs (exec (.vinLoss 4299) up) (fun t => (recOf t 64).any (fun r => r.code == 0x60 && r.b == 4299 && r.react == reSafe)) := by
  unfold CollectorFree; decide +kernel

theorem witness_DeviceResetLeaves : (full.opState ≠ .off ∧ hostReady full = true ∧ hostBusy full = false ∧ ∀ k, k < 4 → full.rd (argReg k) = 0) ∧
  nextIs (exec (.resetN true false) full) (fun t => t.opState == .boot && t.mem == full.mem && t.dib == Dib.reset && t.rd (breg .pwr 0x2C) == 2) ∧
  nextIs (exec (.deviceReset true true) full) (fun t => t.fld portReg 0 8 == 7 && t.testMode && t.rd (breg .pwr 0x2C) == 4 && t.flag portReg 31) := by
  decide +kernel

/-- A device in a boot step. -/
def booting (n : Nat) : State := (setStep n { full with opState := .boot, prevState := .boot }).setFlag portReg 31 true

def fine : BootResult := { fails := false, failedSlots := [], voteCe := 255, lands := 1 }

theorem witness_BootSteps : (∀ n, n < 4 → stepRuns (booting n) = true ∧ bootStep (booting n) = n) ∧ (booting 0).tap.instr.drives = false ∧ (booting 3).fld portReg 0 8 ≠ 7 ∧
  (booting 1).sieve.diverged = [] ∧
  nextIs (exec (.bootStepComplete fine) (booting 0)) (fun t => bootStep t == 1 && t.time == (booting 0).time && !t.faultN && t.flag (breg .clk 0) 1 && (filterOf t 0).level && !(filterOf t 1).level) ∧
  nextIs (exec (.bootStepComplete { fine with fails := true }) (booting 0)) (fun t => !t.flag (breg .clk 0) 1 && bits (t.rd (breg .pwr 0x24)) 0 15 == 0 && !(t.plot 63).powered) ∧
  nextIs (exec (.bootStepComplete fine) (booting 1)) (fun t => bootStep t == 2 && t.fld (breg .dev 0x18) 0 8 == 255) ∧
  nextIs (exec (.bootStepComplete fine) (booting 2)) (fun t => bootStep t == 3 && t.mem == [] && t.pres == []) ∧
  nextIs (exec (.bootStepComplete fine) (booting 3)) (fun t => bootStep t == 4 && !t.flag portReg 31) ∧
  (∀ n, n < 3 → nextIs (exec (.bootStepComplete { fine with fails := true }) (booting n)) (fun t => bootStep t == n &&
    bootFail t == [2, 1, 3][n]!)) ∧
  nextIs (exec .bootStepTimeout (booting 1)) (fun t => bootFail t == 0x3F && t.fld bootReg 8 8 == 1) := by decide +kernel

theorem witness_ImageStart : waiting.opState = .boot ∧ bootStep waiting = 4 ∧ hostBusy waiting = false ∧ hostReady waiting = true ∧
  waiting.tap.instr.drives = false ∧ (∀ k, k < 4 → waiting.rd (argReg k) = 0) ∧
  nextIs (exec (.verifyAndStart { timeout := none, crcBadSlots := [], badEntries := [] }) waiting) (fun t => bootStep t == 4 && bootFail t == 0x10) ∧
  nextIs (exec (.verifyAndStart { timeout := some 5, crcBadSlots := [], badEntries := [] }) waiting) (fun t => bootStep t == 4 && bootFail t == 0x3F && t.fld bootReg 8 8 == 5) := by
  decide +kernel

/-- The same with the magic word and a whole header staged. -/
def staged : State := (waiting.storeNat 0 4 0x41545045).wr (breg .run 0x10) 8

theorem witness_ImageStart_fabric : (let h := readImage 0 16 { staged with fabric := { staged.fabric with imgSeen := 8 } }
    field h.1 0 4 = 0x41545045 ∧ field h.1 8 4 / 8 ≤ (8 : Reg32).toNat ∧ h.1 = (List.range 16).map staged.byte ∧ h.2.fabric.imgSeen = 8) ∧
  staged.tap.instr.drives = false ∧ staged.flag (breg .host 0) 31 = false ∧ staged.rd (breg .run 0x10) ≠ staged.fabric.imgSeen ∧
  (∀ i : Fin 2, let w := BitVec.ofNat 23 i.val
    permitted staged .mc false w = true ∧ bankDark staged w = false ∧ wordHeld staged w = false ∧ wordBad staged w = false ∧ staged.mark (8 * w.toNat) = .clean) ∧
  nextIs (exec (.fabricBootStart { timeout := none, crcBadSlots := [], badEntries := [] }) (waiting.wr (breg .run 0x10) 8)) (fun t => t.fabric.imgSeen == 8 && !t.flag portReg 30) ∧
  nextIs (exec (.fabricBootStart { timeout := none, crcBadSlots := [], badEntries := [] }) { staged with fabric := { staged.fabric with imgSeen := 8 } }) (fun t => !t.flag portReg 30) ∧
  nextIs (exec (.fabricBootStart { timeout := none, crcBadSlots := [], badEntries := [] }) staged) (fun t => t.fld portReg 0 8 == 2 && t.flag portReg 30 && t.fld portReg 16 8 == 8) := by
  decide +kernel

/-- A device with arguments of a host command. -/
def withArgs (s : State) (a0 a1 a2 a3 : Reg32) : State := (((s.wr (argReg 0) a0).wr (argReg 1) a1).wr (argReg 2) a2).wr (argReg 3) a3

def cmdOf (opc : BitVec 8) (s : State) : HostCmd :=
      { opc := opc, a0 := s.rd (argReg 0), a1 := s.rd (argReg 1), a2 := s.rd (argReg 2), a3 := s.rd (argReg 3)
        abort := false, dirty := false, lost := false }

def loadArgs : State := withArgs waiting 8 0 64 0

def plotArgs : State := withArgs up 63 0 0 0

def clearArgs : State := withArgs up 1023 1 0 0

def testArgs : State := withArgs up 1 5 0 0

theorem witness_CommandsStart :
  (hostReady loadArgs = true ∧ hostBusy loadArgs = false ∧ accepts loadArgs (cmdOf 1 loadArgs) = true ∧ goodArgs loadArgs (cmdOf 1 loadArgs) = true ∧
    nextIs (exec .loadImage loadArgs) (fun t => t.flag portReg 31 && t.cmd == some (cmdOf 1 loadArgs))) ∧
  (hostReady plotArgs = true ∧ hostBusy plotArgs = false ∧ accepts plotArgs (cmdOf 3 plotArgs) = true ∧ goodArgs plotArgs (cmdOf 3 plotArgs) = true ∧
    nextIs (exec .plotReset plotArgs) (fun t => t.flag portReg 31 && (t.plot 63).resetting.isSome)) ∧
  (accepts clearArgs (cmdOf 4 clearArgs) = true ∧ goodArgs clearArgs (cmdOf 4 clearArgs) = true ∧
    nextIs (exec .granaryClear clearArgs) (fun t => t.flag portReg 31)) ∧
  (accepts testArgs (cmdOf 5 testArgs) = true ∧ goodArgs testArgs (cmdOf 5 testArgs) = true ∧
    nextIs (exec .selfTest testArgs) (fun t => t.flag portReg 31 && t.opState == .test)) := by decide +kernel

def recovering : State := { up with opState := .recovery }

def dumpArgs : State := withArgs up 0 0x10000 0 0

def busy (opc : BitVec 8) (s : State) : State := { s.setFlag portReg 31 true with cmd := some (cmdOf opc s) }

theorem witness_ServiceAndDump : (hostReady recovering = true ∧ hostBusy recovering = false ∧ recovering.opState = .recovery ∧
    (∀ k, k < 4 → recovering.rd (argReg k) = 0) ∧ reacting recovering = false ∧
    nextIs (exec .setService recovering) (fun t => t.opState == .service) ∧
    nextIs (exec .setService { recovering with sieve := { recovering.sieve with running := some 0 } }) (fun t => t.opState == .recovery && t.fld portReg 16 8 == 4)) ∧
  (up.profile = .p0210 ∧ (dumpArgs.rd (argReg 0)).toNat < 64 ∧ (dumpArgs.rd (argReg 1)).toNat % 0x10000 = 0 ∧ hostBusy dumpArgs = false ∧ hostReady dumpArgs = true) ∧
  (hostBusy (busy 4 clearArgs) = true ∧ (busy 4 clearArgs).cmd = some (cmdOf 4 clearArgs) ∧ (cmdOf 4 clearArgs).opc = 4 ∧ hostReady (busy 4 clearArgs) = true ∧
    nextIs (exec (.hostCmdAbort 1) (busy 4 clearArgs)) (fun t => t.cmd.any (·.abort)) ∧
    nextIs (exec .setService (busy 4 clearArgs)) (fun t => t.flag portReg 29 && t.fld portReg 8 8 == 1)) := by decide +kernel

theorem witness_LongCommandsEnd :
  ((busy 1 { loadArgs with pres := [(1, 3)] }).cmd = some (cmdOf 1 loadArgs) ∧ (cmdOf 1 loadArgs).opc = 1 ∧ (List.replicate 64 (1 : Byte)).length = (cmdOf 1 loadArgs).a2.toNat ∧
    nextIs (exec (.loadImageComplete .done (List.replicate 64 1)) (busy 1 loadArgs)) (fun t => t.byte 63 == 1 && t.byte 64 == 0 && !t.flag portReg 31 && t.fld portReg 16 8 == 0) ∧
    nextIs (exec (.loadImageComplete .error (List.replicate 64 1)) (busy 1 loadArgs)) (fun t => t.fld portReg 16 8 == 6)) ∧
  (let s := busy 4 { clearArgs with mem := [(0x3FEFFFF, 1), (0x3FF0000, 2), (0x3FFFFFF, 3)], pres := [(0x7FDFFF, 2), (0x7FE000, 2), (0x7FFFFF, 1)] }
   s.cmd = some (cmdOf 4 clearArgs) ∧ (cmdOf 4 clearArgs).abort = false ∧ (cmdOf 4 clearArgs).lost = false ∧ s.banks = [] ∧
    (cmdOf 4 clearArgs).a0.toNat + (cmdOf 4 clearArgs).a1.toNat ≤ 1024 ∧ s.port0 = [] ∧ s.marks = [] ∧
    nextIs (exec (.granaryClearComplete 7) s) (fun t => t.mem == [(0x3FEFFFF, 1)] && t.pres == [(0x7FDFFF, 2), (0x7FE000, 2)] && t.rd (breg .bar4 0x1C) == 0 && t.fld portReg 16 8 == 0)) ∧
  (let s := { busy 5 { testArgs with mem := [(1, 1)] } with prevState := .recovery, opState := .test, cmd := some { cmdOf 5 testArgs with a0 := 0 } }
   s.cmd = some { cmdOf 5 testArgs with a0 := 0 } ∧ nextIs (exec (.selfTestComplete 64 [] []) s) (fun t => t.opState == .recovery && t.mem == s.mem && t.fld portReg 16 8 == 0)) := by decide +kernel

/-- A device with a plot in a reset that the host asked for. -/
def plotResetting : State := { busy 3 plotArgs with plots := [(63, { Plot.reset with resetting := some { origin := .command, service := true } })], engines := [(1070, { Engine.reset with cycle := 5 }), (1087, { Engine.reset with cycle := 5 })] }

theorem witness_LongCommandsEnd_plot : (plotResetting.plot 63).resetting = some { origin := .command, service := true } ∧
  (runningAs plotResetting reQuarantine).any (fun k => k.2.2 == 63) = false ∧
  nextIs (exec (.plotResetComplete 63) plotResetting) (fun t => t.plot 63 == { Plot.reset with epoch := curEpoch plotResetting, pages0 := plotResetting.rd64 (breg .upk (0x1000 + 8 * 63)), pages1 := plotResetting.rd64 (breg .upk (0x1200 + 8 * 63)) } && t.engines == [(1070, { Engine.reset with cycle := 5 })] && t.fld portReg 16 8 == 0) := by decide +kernel

theorem witness_RegisterAccesses_plain :
  (findRow up.profile .mesh 0x24).any (fun x => x.1.pair == .none) = true ∧
  nextIs (exec (.registerWrite .mc (BitVec.ofNat 40 (breg .mesh 0x24)) 4 0x1234) up) (fun t => t.rd (breg .mesh 0x24) == 0x1234) := by decide +kernel

theorem witness_RegisterAccesses_reserved : findRow up.profile .dev 0xFFFC = none ∧ findRow up.profile .host 0xFFFC = none ∧
  nextIs (exec (.registerWrite .mc (BitVec.ofNat 40 (breg .dev 0xFFFC)) 4 1) up) (fun t => t.rd (breg .dev 0x10) == 1) ∧
  nextIs (exec (.registerPathAccess .mc (BitVec.ofNat 40 (breg .host 0xFFFC)) 4 none) up) (fun t => t.rd (breg .dev 0x10) == 1) := by decide +kernel

/-- A row with a field of reserved values and a read-only field, which meet at bit 8. -/
def sampleRow : RRow :=
  { name := "SAMPLE", off := 0, stride := 4, cnt := 1, prof := .all, pair := .none
    fields := [{ name := "A", hi := 7, lo := 0, acc := .rw, reset := 0, ok := .below 9 }, { name := "B", hi := 31, lo := 8, acc := .ro, reset := 0, ok := .any }] }

theorem witness_RegisterAccesses_values : (∀ f, f ∈ sampleRow.fields → f.lo + f.len ≤ 32 ∧ 0 < f.len) ∧
  sampleRow.fields.Pairwise (fun f g => f.lo + f.len ≤ g.lo ∨ g.lo + g.len ≤ f.lo) ∧
  (plainWrite (breg .evio 0) sampleRow 0xFFFFFF08 up).rd (breg .evio 0) = put (up.rd (breg .evio 0)) 0 (8 : BitVec 8) ∧
  (plainWrite (breg .evio 0) sampleRow 9 up).rd (breg .dev 0x10) = 1 := by decide +kernel

/-- A device whose MC has waited for a reply of the register access path since time 0. -/
def waited : State := { up with time := { now := 65535000, frac := 0, started := true, unlockAt := 0, row1 := true } }

/-- A device whose SMBus port has waited as long for a reply of the register at its pointer. -/
def smbWaited : State := { waited with smb := { waited.smb with ptr := BitVec.ofNat 40 (breg .dev 0) } }

theorem witness_RegisterAccesses_timeout : waited.fld (breg .mesh 0x24) 0 16 ≠ 0 ∧
  readOutstanding waited .mc (BitVec.ofNat 40 (preg 63 0)) (1000 * waited.fld (breg .mesh 0x24) 0 16) = true ∧
  smbAnswers smbWaited = true ∧ readOutstanding smbWaited .smbus smbWaited.smb.ptr (1000 * smbWaited.fld (breg .mesh 0x24) 0 16) = true ∧
  nextIs (exec (.rpathTimeout .smbus smbWaited.smb.ptr) smbWaited) (fun t => t.smb.timeout && t.smb.ptr == BitVec.ofNat 40 (breg .dev 4) && SMap.get t.rdata (reqKey .smbus) 0 == 0xFFFFFFFF) ∧
  readOutstanding up .mc (BitVec.ofNat 40 (preg 63 0)) (1000 * up.fld (breg .mesh 0x24) 0 16) = false ∧
  nextIs (exec (.rpathTimeout .mc (BitVec.ofNat 40 (preg 63 0))) waited) (fun t => SMap.get t.rdata (reqKey .mc) 0 == BitVec.allOnes 64 &&
    (recOf t 64).any (fun r => r.code == 0x47 && r.locus == 63)) := by decide +kernel

/-- A device whose event n has a route to a message and to a strand. -/
def routed (n : Nat) (v : Reg32) (s : State) : State := s.wr (breg .dib (0x1000 + 4 * n)) v

theorem witness_HostEventsAndDoorbells_doorbell : hostReady (routed 1663 0x20000005 up) = true ∧
  nextIs (exec (.hostDb 255 7) (routed 1663 0x20000005 up)) (fun t => t.rd (breg .host 0x13FC) == 7 &&
    SMap.get t.dib.events 1663 Event.none == { pend := true, count := 1, stamp := 0 }) ∧
  nextIs (exec (.hostDb 0 7) up) (fun t => t.dib.events == []) := by decide +kernel

/-- A device with two pending vectors, whose endpoint may send both. -/
def vectors : State :=
  (({ up with host := { up.host with pba := [63, 0] } }.wr (breg .bar4 0x10000) 5).wr (breg .bar4 (0x800C + 16 * 63)) 0).wr (breg .bar4 0x800C) 0

theorem witness_HostEventsAndDoorbells_messages : vectors.opState ≠ .off ∧ vectors.host.pba.Nodup ∧ (∀ v, v ∈ vectors.host.pba → vectorOpen vectors v = true) ∧
  nextIs (exec .msixPendingSend vectors) (fun t => t.host.pba == [] && t.host.msgs.length == 2) ∧
  (let s : State := { vectors with host := { vectors.host with d3 := true } }
   (∀ v, v ∈ s.host.pba → vectorOpen s v = false) ∧ nextIs (exec .msixPendingSend s) (fun t => t == s)) := by decide +kernel

theorem witness_HostEventsAndDoorbells_link : scanDrives up = false ∧ bootStep up ≠ 0 ∧
  nextIs (exec (.hostLinkUp 8 4) up) (fun t => t.flag (breg .host 0) 31 && t.fld (breg .host 0) 16 4 == 8 && t.fld (breg .host 0) 8 4 == 4) ∧
  (busy 4 clearArgs).cmd = some (cmdOf 4 clearArgs) ∧ (busy 1 loadArgs).cmd = some (cmdOf 1 loadArgs) ∧
  nextIs (exec (.hostLinkReset false) (busy 4 clearArgs)) (fun t => t.cmd.any (·.lost) && t.flag portReg 31) ∧
  nextIs (exec (.hostLinkReset false) (busy 1 loadArgs)) (fun t => t.cmd == none && !t.flag portReg 31 && t.fld portReg 16 8 == 5) := by decide +kernel

/-- A response that waits for the MC. -/
def sampleResponse : MgmtRec := { mop := 9, timeout := true, tag := 7, status := 3, off := 0xFFFF, data := 0x123456789ABCDEF0 }

/-- A device with an ID and the words of a request in the mailbox: PROBE along port 5. -/
def posting (op : Reg32) : State :=
  ((((up.setFlag (breg .run 0) 31 true).wr (breg .mc 0x10) (op ||| 0x00010100)).wr (breg .mc 0x14) 5).wr (breg .mc 0x18) 0)

theorem witness_MailboxRequests : hostReady up = true ∧ mbxBusy up = false ∧ up.fabric.responses = [] ∧ up.flag (breg .run 0) 31 = false ∧ forceWaits up = false ∧
  nextIs (exec .version { up with mcVersion := 0x89 }) (fun t => t.fld (breg .mc 0) 0 8 == 1 && t.rd (breg .mc 0x30) == 0x89 && t.flag (breg .mc 0) 30) ∧
  nextIs (exec .mgmtGet up) (fun t => t.fld (breg .mc 0) 16 8 == 5) ∧ nextIs (exec .mgmtPost up) (fun t => t.fld (breg .mc 0) 16 8 == 3) ∧
  nextIs (exec .mgmtGet { up with fabric := { up.fabric with responses := [sampleResponse] } })
    (fun t => t.fabric.responses == [] && t.rd (breg .mc 0x30) == 0x03070019 && t.rd (breg .mc 0x34) == 0xFFFF &&
      t.rd (breg .mc 0x38) == 0x9ABCDEF0) ∧
  nextIs (exec .lockForce up) (fun t => t.fld (breg .mc 0) 16 8 == 0 && t.rd (breg .mc 0x30) == 15) := by decide +kernel

/-- A device whose mailbox names lock 4095, which is held or stuck. -/
def forcing (st : LState) : State := { up.wr (breg .mc 0x10) 4095 with lck := { Lck.reset with locks := [(4095, { Lock.free with state := st, owner := .host })] } }

theorem witness_MailboxRequests_force : (bits (mbxArg (forcing .held) 0) 0 12).toNat = 4095 ∧ forceWaits (forcing .held) = false ∧ (forcing .held).lck.notices = [] ∧
  hostReady (forcing .held) = true ∧ mbxBusy (forcing .held) = false ∧
  nextIs (exec .lockForce (forcing .held)) (fun t => t.rd (breg .mc 0x30) == 6 && t.lock 4095 == { Lock.free with abn := true } && t.fld (breg .lck 0x10) 16 16 == 1) ∧
  nextIs (exec .lockForce (forcing .stuck)) (fun t => t.rd (breg .mc 0x30) == 6 && t.lock 4095 == { Lock.free with abn := true }) ∧
  nextIs (exec .lockForce (up.wr (breg .mc 0x10) 4095)) (fun t => t.rd (breg .mc 0x30) == 0x0F && t.lck.locks == []) := by decide +kernel

/-- A device whose mailbox waits for the lock unit, whose collector holds a finished record. -/
def mbxHolds : State := { (up.setFlag (breg .mc 0) 31 true).setFld (breg .mc 0) 0 8 0x20 with
  lck := { Lck.reset with notices := [{ who := .host, dev := none, service := true }] } }

theorem witness_MailboxRequests_waits : hostReady mbxHolds = true ∧ mbxBusy mbxHolds = true ∧ mbxHolds.fld (breg .mc 0) 0 8 ≠ 0x01 ∧
  nextIs (exec .version mbxHolds) (fun t => t.flag (breg .mc 0) 29) := by decide +kernel

/-- A device with a free mailbox whose lock unit cannot take a FORCE, since a reply of its own waits. -/
def forceLate : State := { up with tx := [(siteLck, [0])] }

theorem witness_MailboxRequests_late : hostReady forceLate = true ∧ mbxBusy forceLate = false ∧ forceWaits forceLate = true ∧
  nextIs (exec .lockForce forceLate) (fun t => t.flag (breg .mc 0) 31 && t.fld (breg .mc 0) 0 8 == 0x20) := by decide +kernel

/-- The same with link 5 ACTIVE. -/
def posts (op : Reg32) : State := (posting op).setFld (rlink 5 4) 0 4 5

theorem witness_MailboxRequests_post : (let p := postPayload (posts 2)
    hostReady (posts 2) = true ∧ (posts 2).flag (breg .run 0) 31 = true ∧ mgBad p = false ∧ mgRequest p = true ∧ mgOp p ≠ 4 ∧
    (posts 2).fabric.out.any (fun o => o.tag == mgTag p) = false ∧ (posts 2).fabric.out.length < 16 ∧ linkState (posts 2) (mgPath p 0).toNat = lsActive) ∧
  mgBad (postPayload (posts 5)) = true ∧ mgRequest (postPayload (posts 9)) = false ∧
  nextIs (exec .mgmtPost (posts 2)) (fun t => t.fld (breg .mc 0) 16 8 == 0 && t.fabric.out == [{ tag := 1, mop := 2, at_ := 0 }]) ∧
  nextIs (exec .mgmtPost (posts 5)) (fun t => t.fld (breg .mc 0) 16 8 == 2) ∧
  nextIs (exec .mgmtPost (posts 9)) (fun t => t.fld (breg .mc 0) 16 8 == 2) := by decide +kernel

theorem witness_Bar2Reaches : (let w : BitVec 23 := 0x7FFFFF
    portQueued full w = false ∧ wordHeld full w = false ∧ permitted full .host true w = true ∧ permitted full .host false w = true ∧ bankDark full w = false ∧
    wordBad full w = false ∧ full.mark (8 * w.toNat) = .clean) ∧
  nextIs (exec (.bar2Access 0x3FFFFF8 0 (some (wordBytes 0x0102030405060708 8))) full)
    (fun t => t.load 0x3FFFFF8 8 == 0x0102030405060708 && t.byte 8 == 1 && nextIs (exec (.bar2Access 0x3FFFFF8 8 none) t) (fun u => u.host.reply == [8, 7, 6, 5, 4, 3, 2, 1] && !u.host.poisoned)) := by
  decide +kernel

theorem witness_WhereCommandsStop : place 0x4000000 = .unmapped ∧ place 0xFFFFFFFF = .unmapped ∧ place 0x02000D0000 = .test ∧ place 0x02000DFFFF = .test := by decide +kernel

theorem witness_WhereCommandsStop_stops : exec (.registerWrite .mc 0x4000000 8 0) up = .fault (.unmappedAddress 0x4000000) := rfl

theorem witness_WhereCommandsStop_answers : nextIs (exec (.registerPathAccess .mc 0x02000D0000 1 none) { up with testMode := true }) (fun t => t.free == up.free + 1) ∧
  nextIs (exec (.registerWrite .mc 0x02000DFFFF 1 0) { up with testMode := true }) (fun t => t.free == up.free) := by decide +kernel

/-- A device at WAIT_IMAGE whose links are DISABLED. -/
def parked : State := (List.range 8).foldl (fun s n => s.setFld (rlink n 4) 0 4 0) waiting

theorem witness_SmbusAndTap : smbAnswers up = true ∧ reachesPlace .smbus (place 0) = false ∧
  reachesPlace .smbus (place (breg .dev 0)) = true ∧
  nextIs (exec .smbRead up) (fun t => t.smb.refused && t.smb.ptr == 0 && nextIs (exec .smbStatus t) (fun u => SMap.get u.rdata (reqKey .smbus) 0 == 1 && !u.smb.refused)) ∧
  nextIs (exec (.smbAddr (BitVec.ofNat 40 (breg .dev 0)) true) up) (fun t => nextIs (exec .smbRead t) (fun u => u.smb.ptr == BitVec.ofNat 40 (breg .dev 4))) := by decide +kernel

theorem witness_SmbusAndTap_scans : scanDrives up = false ∧ scanAllowed up = false ∧ scanDrives parked = false ∧ scanAllowed parked = true ∧
  nextIs (exec (.extest ⟨some 1, 1⟩) up) (fun t => t.tap == { up.tap with instr := .bypass, irOut := 1, tdo := 2 }) ∧
  nextIs (exec .highz up) (fun t => t.tap == { up.tap with instr := .bypass, irOut := 1 }) ∧
  nextIs (exec (.extest ⟨none, 1⟩) parked) (fun t => t.tap == { parked.tap with instr := .extest, irOut := 1 }) ∧
  nextIs (exec .highz parked) (fun t => t.tap.instr == .highz) ∧
  nextIs (exec (.extestPulse ⟨some (2 ^ 246), 8⟩) parked) (fun t => t.tap.instr == .extestPulse && bit t.tap.cells 3) := by decide +kernel

/-- A device in EXTEST whose cells drive FAULT_N low, EVOUT_31 high and SMB_DAT low. -/
def scanned : State := { parked with tap := { parked.tap with instr := .extest, cells := 2 ^ 3 ||| 2 ^ 162 ||| 2 ^ 163 ||| 2 ^ 167 } }

theorem test_scan_cells : faultLow scanned = true ∧ evoutLand scanned 31 = .high ∧ evoutLand scanned 0 = .z ∧ smbLow scanned 1 = true ∧ smbLow scanned 0 = false ∧
  runDrive scanned 7 3 = .level false ∧
  nextIs (exec (.extest ⟨some 0, 1⟩) scanned) (fun t => bit t.tap.captured 164 && bit t.tap.captured 0 && bit t.tap.tdo 249 && t.tap.cells == 0) := by decide +kernel

/-- A node word. -/
def nodeW (opc : BitVec 8) (fmt : BitVec 3) (flags : BitVec 3) (pri : BitVec 2) (d1 d2 : BitVec 24) : Word := opc ++ fmt ++ flags ++ pri ++ d1 ++ d2

/-- A device whose engine `e` takes tokens and holds a node word, with a companion, at a node. -/
def withNode (e : Nat) (n : BitVec 12) (w comp : Word) (s : State) : State :=
  (((s.wr (ereg e 4) 0).store (imemBase e + 8 * n.toNat) 8 w).store (imemBase e + 8 * ((n.toNat + 1) % 4096)) 8 comp)

/-- An operand token for iteration 0xFFF. -/
def operand (eng : BitVec 10) (node : BitVec 12) (port : BitVec 2) (ctx : BitVec 16) (data : Word) (poison : Bool := false) : Flit :=
  mkToken kOperand 1 false 3 (operandTag 0xFFF eng node port ctx 0xFFF) data poison

/-- A node ADD whose results go to node 5, port 1, of engine 2 and to nothing. -/
def addWord : Word := nodeW 0x01 0 0 2 0x008015 0x000003

/-- A device whose last engine has a token for its last node in its P3 lane. -/
def tokenState (f : Flit) : State := { withNode 1086 0xFFF addWord 7 up with engines := [(1086, { Engine.reset with inP3 := [f] })] }

def tok0 : Flit := operand 1023 0xFFF 0 0 5

theorem witness_SetIndexOfTokens : TokenAccepted (tokenState tok0) 1086 tok0 [] .lr ∧
  nextIs (exec (.tokenIn 1086 .clean) (tokenState tok0)) (fun t => (t.eng 1086).hash.any (fun h => h.set == 0x3FF ^^^ 0x3FF ^^^ 0xF) && (t.eng 1086).inP3 == []) ∧
  TokenAccepted { tokenState tok0 with profile := .p0100 } 1086 tok0 [] .lr ∧
  nextIs (exec (.tokenIn 1086 .clean) { tokenState tok0 with profile := .p0100 }) (fun t => (t.eng 1086).hash.any (fun h => h.set == 0x3FF ^^^ 0x3FF)) := by
  unfold TokenAccepted TokenWaits; decide +kernel

def poisoned : Flit := operand 1023 0xFFF 0 0 5 true

def wrongPort : Flit := operand 1023 0xFFF 3 0 5

def noContext : Flit := operand 1023 0xFFF 0 1 5

/-- A token has been discarded with a record. -/
def discards (code : BitVec 8) (t : State) : Bool :=
  (t.eng 1086).inP3 == [] && (t.eng 1086).hash == none && (recOf t 63).any (fun r => r.code == code && r.phys == 1086)

theorem witness_TokenIntake : TokenWaits (tokenState poisoned) 1086 poisoned [] ∧ TokenWaits (tokenState wrongPort) 1086 wrongPort [] ∧
  TokenWaits (tokenState noContext) 1086 noContext [] ∧ poisoned.poison = true ∧
  wrongPort.poison = false ∧ tagPort wrongPort.tag = 3 ∧ noContext.poison = false ∧ tagPort noContext.tag ≠ 3 ∧ tagCtx noContext.tag ≠ 0xFFFF ∧
  ctxAllocated (tokenState noContext) (1086 / 17) (tagCtx noContext.tag) = false ∧
  CollectorFree (tokenDetect 0x14 1086 poisoned 0) (tokenState poisoned) ∧
  nextIs (exec (.tokenIn 1086 .clean) (tokenState poisoned)) (discards 0x14) ∧
  nextIs (exec (.tokenIn 1086 .clean) (tokenState wrongPort)) (discards 0x12) ∧
  nextIs (exec (.tokenIn 1086 .clean) (tokenState noContext)) (discards 0x13) := by
  unfold TokenWaits CollectorFree; decide +kernel

/-- A token in HASH of engine 0. -/
def inHash (word : Word) (f : Flit) : HashTok := { tok := { flit := f, refill := none }, word := word, comp := 77, set := 1023 }

def hashState (word : Word) (f : Flit) (ms : SMap Entry) : State := { up with engines := [(0, { Engine.reset with hash := some (inHash word f), ms := ms })] }

/-- NEG and an ADD with a constant, both of which need no second token. -/
def negWord : Word := nodeW 0x03 0 0 2 0x008015 0x000003

def addConst : Word := nodeW 0x01 0 4 2 0x008015 0x000003

def freeWaysOf (s : State) (h : HashTok) : Bool := ways.all (fun w => enV (wayAt (s.eng 0) h.set.toNat w) == false)

theorem witness_MatchMissAndBypass : nodeShape (hashState negWord tok0 []) 0 (nwOpc negWord).toNat = some .l ∧
  nodeShape (hashState addConst tok0 []) 0 (nwOpc addConst).toNat = some .lr ∧
  (∀ k, k < 4 → enV (wayAt ((hashState addWord tok0 []).eng 0) 1023 k) = false) ∧ isBypass .l negWord = true ∧ isBypass .lr addConst = true ∧ isBypass .lr addWord = false ∧
  portBit (tagPort tok0.tag) ≠ matchPorts .lr addWord ∧
  nextIs (exec (.matchToken 0 .clean) (hashState addConst tok0 [])) (fun t => (t.eng 0).fire.any (fun g => g.l == 5 && g.r == 77) && (t.eng 0).hash == none) ∧
  nextIs (exec (.matchToken 0 .clean) (hashState addWord tok0 [])) (fun t => (t.eng 0).fire == none &&
    (t.eng 0).ms == [(4092, mkEntry 0 4 1 false false (keyOf addWord 0xFFF 0 0xFFF) 5)]) := by decide +kernel

/-- The entry of a right operand. -/
def rightEntry : Entry := mkEntry 0 2 2 false true (keyOf addWord 0xFFF 0 0xFFF) 9

theorem witness_MatchHits : findKey ((hashState addWord tok0 [(4095, rightEntry)]).eng 0) 1023 (keyOf addWord 0xFFF 0 0xFFF) [] =
    some { primary := rightEntry, companion := none, way := some 3, inOvf := false, returned := false } ∧ enPorts rightEntry = 2 ∧ enDport rightEntry = true ∧
  (∀ k, k < 4 → wayMark (hashState addWord tok0 [(4095, rightEntry)]) 0 1023 k = .clean) ∧
  nextIs (exec (.matchToken 0 .clean) (hashState addWord tok0 [(4095, rightEntry)])) (fun t => (t.eng 0).fire.any (fun g => g.l == 5 && g.r == 9 && g.pri == 2)) := by
  decide +kernel

def tok1 : Flit := operand 1023 0xFFF 1 0 6

theorem witness_MatchDuplicates : (findKey ((hashState addWord tok1 [(4095, rightEntry)]).eng 0) 1023 (keyOf addWord 0xFFF 0 0xFFF) []).any (fun r => !r.returned) = true ∧
  enPorts rightEntry &&& portBit (tagPort tok1.tag) ≠ 0 ∧ isBypass .lr addWord = false ∧
  CollectorFree (tokenDetect 0x09 0 tok1 (msLocus 1023 3)) (hashState addWord tok1 [(4095, rightEntry)]) ∧
  nextIs (exec (.matchToken 0 .clean) (hashState addWord tok1 [(4095, rightEntry)])) (fun t => (t.eng 0).hash == none && t.fld (ereg 0 0x40) 16 8 == 1 &&
    (recOf t 0).any (fun r => r.code == 9 && r.locus == 0x33FF)) := by unfold CollectorFree; decide +kernel

/-- A fire of a node word with its operands. -/
def fireOf (w l r : Word) : Fire :=
  { word := w, comp := 0x0123456789ABCDEF, node := 5, ctx := 0x0102, iter := 0xFFF, l := l, r := r, pri := 1, mset := false, rm := 0, ftz := false, hdr := 0, tag := 0, data := 0,
    closed := false, issued := 9 }

def firing (w l r : Word) : State := { up with engines := [(1086, { Engine.reset with fire := some (fireOf w l r) })] }

/-- An engine whose MATCH holds a token while a fire waits, or whose entry and token hold tokens of both epochs. -/
def matchWaits : State := { up with engines := [(0, { Engine.reset with hash := some (inHash addWord tok0), fire := some (fireOf addWord 1 2) })] }

def mixedEntry : State := { hashState addWord tok0 [(4095, rightEntry)] with
  engines := [(0, { (hashState addWord tok0 [(4095, rightEntry)]).eng 0 with mixed := [keyOf addWord 0xFFF 0 0xFFF] })]
  plots := [(0, { Plot.reset with epoch := true })] }

theorem witness_MatchWaits : (matchWaits.eng 0).fire.isSome = true ∧
  nextIs (exec (.matchToken 0 .clean) matchWaits) (fun t => t.eng 0 == matchWaits.eng 0) ∧
  (mixedEntry.eng 0).mixed.contains (keyOf addWord 0xFFF 0 0xFFF) = true ∧
  nextIs (exec (.matchToken 0 .clean) mixedEntry) (fun t => (t.eng 0).fire.any (fun g => g.mset)) := by decide +kernel

theorem witness_FireAndEmit_fire : inService (firing addWord 1 2) 1086 = true ∧ ((firing addWord 1 2).eng 1086).strand = none ∧
  ((firing addWord 1 2).eng 1086).standby = none ∧ ((firing addWord 1 2).eng 1086).seqr = none ∧ ((firing addWord 1 2).eng 1086).raises = [] ∧
  fireReady ((firing addWord 1 2).modEng 1086 (fun x => { x with cycle := x.cycle + 1, dueAt := none })) 1086 1 (fireOf addWord 1 2) = true ∧
  nextIs (exec (.execIssue 1086) (firing addWord 1 2)) (fun t => (t.eng 1086).exec == some { fireOf addWord 1 2 with issued := 1 } && (t.eng 1086).fire == none &&
    t.rd64 (ereg 1086 0x30) == 1) := by decide +kernel

/-- The same for a division of the B64 unit that the section has granted, and for one of the integer divider. -/
def b64Fire : Fire := fireOf (nodeW 0x44 0 0 2 0x008015 0x000003) 0x3FF0000000000000 0x4000000000000000

def granted : State := { up with engines := [(1086, { Engine.reset with fire := some b64Fire, b64grant := some { fire := true, iter := true, cycle := 6 } })] }

theorem witness_FireAndEmit_units :
  fireReady (granted.modEng 1086 (fun x => { x with cycle := x.cycle + 1, dueAt := none })) 1086 1 b64Fire = true ∧
  unitOfOpc 0x44 = .b64iter ∧ unitOfOpc 7 = .div ∧ unitOfOpc 0x34 = .micro ∧
  nextIs (exec (.execIssue 1086) granted) (fun t => (t.plot 63).b64iter == 33 && (t.eng 1086).b64grant == none) ∧
  nextIs (exec (.execIssue 1086) (firing (nodeW 7 0 0 2 0x008015 0x000003) 7 0)) (fun t => (t.eng 1086).divFree == 4) ∧
  nextIs (exec (.execIssue 1086) (firing (nodeW 0x34 0 0 2 0x008015 0x000003) 0x3F800000 0)) (fun t => (t.eng 1086).fmaFree == 15 && (t.eng 1086).seqFree == 15) ∧
  unitOfOpc 4 = .mul ∧ nextIs (exec (.execIssue 1086) (firing (nodeW 4 0 0 2 0x008015 0x000003) 3 5)) (fun t => (t.eng 1086).mulAt == some 1) := by
  decide +kernel

/-- An operation in flight that will raise the flags of bits 0 and 1 at the end of cycle 0. -/
def raising (en : BitVec 32) : State := { up.wr (ereg 1086 0x80) en with engines := [(1086, { Engine.reset with
  raises := [{ due := 0, issued := 0, origin := .node 1 2 3 4, flags := 3, pend := true }] })] }

theorem witness_FireAndEmit_raise : inService (raising 0x20100) 1086 = true ∧ ((raising 0x20100).eng 1086).strand = none ∧
  nextIs (exec (.execIssue 1086) (raising 0x20100)) (fun t => (t.eng 1086).raises == [] && t.rd (ereg 1086 0x80) == 0x40020103 && t.flag (ereg 1086 0x84) 31) ∧
  nextIs (exec (.execIssue 1086) (raising 0x400)) (fun t => t.rd (ereg 1086 0x80) == 0x403 && t.rd (ereg 1086 0x84) == 0) := by decide +kernel

def resultOf (k : Proto) : Result := { due := 0, issued := 0, origin := .node 1 2 3 4, toks := [k] }

def emitting (k : Proto) : State := { up.setFlag (ereg 1086 4) 2 true with engines := [(1086, { Engine.reset with results := [resultOf k], seq := 15 })] }

def blockProto : Proto := proto1 kBlock 0 (blockTag 0xFFF 1 1 0x3FFF 0 0) 8

def operandProto : Proto := proto1 kOperand 2 (operandTag 0xFFF 1023 0xFFF 2 0xFFFE 0xFFF) 8

theorem witness_FireAndEmit_emit : (emitting blockProto).flag (ereg 1086 4) 2 = true ∧ malformed (emitting blockProto) blockProto = false ∧
  malformed (emitting operandProto) operandProto = false ∧
  nextIs (exec (.emitResult 1086) (emitting blockProto)) (fun t => (t.eng 1086).outP3.length == 1 && (t.eng 1086).outMain == [] && (t.eng 1086).seq == 0) ∧
  nextIs (exec (.emitResult 1086) (emitting operandProto)) (fun t => (t.eng 1086).outMain.length == 1 && (t.eng 1086).results == []) := by decide +kernel

def crossing : State := { up with engines := [(1071, { Engine.reset with outMain := [(0, operand 1023 0xFFF 0 0 5)] })] }

theorem witness_CrossbarMovesOneHead : crossing.sieve.diverged = [] ∧ (crossing.plot 63).windows = [] ∧ (crossing.plot 63).holdIn = [] ∧
  xheads crossing 63 = [{ inp := 0, main := true, at_ := 0, flit := tok0, out := 15, chan := 0 }] ∧ tok0.kind = kOperand ∧ tok0.last = true ∧
  holdAt crossing (holdXbar 63 15 0) = none ∧
  nextIs (exec (.crossbarTransfer 63) crossing) (fun t => (t.eng 1071).outMain == [] && (t.eng 1086).inP1 == [tok0]) := by decide +kernel

def ackFlit (p : Bool) : Flit := mkToken kGrnAck 1 false 0 0 0 p

def acking (p : Bool) : State := { up with engines := [(0, { Engine.reset with acks := [ackFlit p], acnt := 0xFFFF })] }

theorem witness_EngineIntakes_acks : (ackFlit false).poison = false ∧ (ackFlit true).poison = true ∧ ((acking false).eng 0).fences = [] ∧
  CollectorFree (tokenDetect 0x14 0 (ackFlit true) 0) (acking true) ∧
  nextIs (exec (.grnAckIntake 0) (acking false)) (fun t => (t.eng 0).acks == [] && (t.eng 0).acnt == 0) ∧
  nextIs (exec (.grnAckIntake 0) (acking true)) (fun t => (t.eng 0).acks == [] && (t.eng 0).acnt == 0xFFFF && (recOf t 0).any (fun r => r.code == 0x14)) := by
  unfold CollectorFree; decide +kernel

/-- A sheaf of one flit for the last 16 bytes of a frame store. -/
def sheaf : List Flit := mkSheaf kSheafRsp 1 false 0 (addrTag 0xFFF 0 (0xFFE) 1 0 0 0) 0 [(0x0807060504030201FFEEDDCCBBAA9988, false)]

def sheafState : State := { up with engines := [(0, { Engine.reset with sheafIn := sheaf })] }

/-- Whether two flits are a sheaf that the engine takes into its frame store. -/
def goodSheaf (s : State) : List Flit → Bool
  | [f, g] => takePacket [f, g] == ([f, g], []) && !f.poison && !g.poison && !sheafBroken [f, g] && !badSheafRsp s f [g] &&
    tagSpace f.tag == 1 && decide (8 * (tagAddr f.tag).toNat + 16 ≤ 0x8000)
  | _ => false

theorem witness_EngineIntakes_sheaf : goodSheaf sheafState sheaf = true ∧
  nextIs (exec (.sheafRspWrite 0) sheafState) (fun t => t.load (frameBase 0 + 0x7FF0) 8 == 0xFFEEDDCCBBAA9988 && t.load (frameBase 0 + 0x7FF8) 8 == 0x0807060504030201) := by
  decide +kernel

/-- An engine with a fire in EXEC. -/
def running (w l r : Word) : State := { up with engines := [(1086, { Engine.reset with exec := some (fireOf w l r), cycle := 9 })] }

def opWord (o : Nat) : Word := nodeW (BitVec.ofNat 8 o) 0 0 2 0x008015 0x000003

/-- A node command gives one result. -/
def gives1 (c : EngNo → Instr) (o : Nat) (l r v : Word) (lam : Nat) (fl : FFlags := 0) : Bool :=
  let s := running (opWord o) l r
  nextIs (exec (c 1086) s) (fun t => (t.eng 1086).exec == none &&
    (t.eng 1086).results == [nodeRes (fireOf (opWord o) l r) (bothDests s 1086 (fireOf (opWord o) l r) v) lam] &&
    (t.eng 1086).raises == nodeRaises (s.eng 1086) (fireOf (opWord o) l r) fl lam)

/-- A quiet engine that holds an entry. -/
def errEntry : State := { up with engines := [(1086, { Engine.reset with ms := [(4095, rightEntry)] })] }

theorem witness_EngineRegisterWrites : reaches up .host 1086 = true ∧ reaches up .mc 1087 = true ∧ reaches up .host 1087 = false ∧ quiet up 1086 = true ∧ quiet (up.wr (ereg 1086 4) 0) 1086 = false ∧
  msTotal (up.eng 1086) = 0 ∧ (up.eng 1086).p3ovf = [] ∧ (up.eng 1086).spillCnt = [] ∧ up.sieve.diverged = [] ∧
  nextIs (exec (.engCtrlWrite .host 1086 0xFFFFFFFC) up) (fun t => t.rd (ereg 1086 4) == 4 && (t.plot 63).notices == [.halt 1023 false]) ∧
  nextIs (exec (.engArbWrite .host 1086 0xFFFFFF01) up) (fun t => t.rd (ereg 1086 0x10) == 0x1F01) ∧
  nextIs (exec (.engArbWrite .host 1086 0x1F00) up) (fun t => t.fld (ereg 1086 0x10) 8 5 == 31 && t.rd (breg .dev 0x10) == 1) ∧
  nextIs (exec (.engMatchCfgWrite .host 1086 0xFFFFFFFF) up) (fun t => t.rd (ereg 1086 0x14) == 0x3FF) ∧
  nextIs (exec (.engMatchCfgWrite .host 1086 1) (up.wr (ereg 1086 4) 0)) (fun t => t.flag (ereg 1086 8) 11) ∧
  msTotal (errEntry.eng 1086) ≠ 0 ∧ quiet errEntry 1086 = true ∧ unserved .host up = false ∧ unserved .mc up = false ∧
  nextIs (exec (.engMatchCfgWrite .host 1086 1) errEntry) (fun t => t.flag (ereg 1086 8) 11 && t.rd (ereg 1086 0x14) == 0) ∧
  nextIs (exec (.engMatchCfgWrite .host 1086 1) { up with engines := [(1086, { Engine.reset with p3ovf := [rightEntry] })] }) (fun t => t.flag (ereg 1086 8) 11) ∧
  nextIs (exec (.engMatchCfgWrite .host 1086 1) { up with engines := [(1086, { Engine.reset with spillCnt := [(1, 1)] })] }) (fun t => t.flag (ereg 1086 8) 11) ∧
  nextIs (exec (.engCtrlWrite .mc 1086 4) waiting) (fun t => t.rd (ereg 1086 4) == 7 && (t.plot 63).notices == []) := by decide +kernel

theorem witness_EngineRegisterWrites_window : wayMark up 1086 (0xFFF4 / 64) (0xFFF4 / 16 % 4) ≠ .single ∧ enType (wayAt (up.eng 1086) (0xFFF4 / 64) (0xFFF4 / 16 % 4)) ≠ 3 ∧
  nextIs (exec (.msDebugWrite .host 1086 0xFFF4 0x12345678) up) (fun t => (t.eng 1086).ms == [(4095, 0x1234567800000000)] &&
    nextIs (exec (.msDebugRead .host 1086 0xFFF4) t) (fun u => SMap.get u.rdata (reqKey .host) 0 == 0x12345678)) := by decide +kernel

/-- A window read of an entry whose check bits show an error. -/
def errWay (m : Mark) : State := { up with engines := [(1086, { Engine.reset with ms := [(4095, rightEntry)] })] }.setMark (msBase 1086 + 16 * 4095) m

theorem witness_EngineRegisterWrites_error : enV (wayAt ((errWay .single).eng 1086) 1023 3) = true ∧ wayMark (errWay .single) 1086 1023 3 = .single ∧
  wayMark (errWay .double) 1086 1023 3 = .double ∧ CollectorFree (msDetect 0x02 1086 1023 3 0 (errWay .double)) (errWay .double) ∧
  nextIs (exec (.msDebugRead .host 1086 0xFFF0) (errWay .double)) (fun t => (recOf t 63).any (fun r => r.code == 2)) ∧
  nextIs (exec (.msDebugRead .host 1086 0xFFF0) (errWay .single)) (fun t => (recOf t 63).any (fun r => r.code == 1) &&
    SMap.get t.rdata (reqKey .host) 0 == (bits rightEntry 0 32).setWidth 64) := by unfold CollectorFree; decide +kernel

/-- An engine that a spill-down order holds, with a unit in its spill queue and a lookup answered. -/
def spilling : State := { up with
  engines := [(1086, { Engine.reset with
    order := some { visited := 0, spilled := false }
    spillQ := [{ set := 1, entries := [rightEntry] }]
    mpb := [{ slot := 3, tok := inHash addWord tok0, asked := true, stale := false }]
    refillIn := mkSheaf kSheafRsp 1 false 0 (addrTag 0xFFF 1023 0 3 0 0 3) 0 [(putBit ((2 : BitVec 128) <<< 112) 127 true, false)]
    sweeps := [{ ctx := 0, visit := 1023 }]
    ms := [(4092, rightEntry)] })] }

theorem witness_SpillRefillSweep : msTotal (spilling.eng 1086) ≤ 1 ∧ (spilling.plot 63).spillIn = [] ∧ bucketBits spilling 63 = 0 ∧
  (localEngines spilling 63).find? (fun r => !(spilling.eng r.2).spillQ.isEmpty) = some (15, 1086) ∧
  ctxAllocated spilling (1086 / 17) (tagCtx tok0.tag) = true ∧
  nextIs (exec (.spillDrain 63) spilling) (fun t => (t.eng 1086).spillQ == [] && (t.plot 63).spillIn == [(15, { set := 1, entries := [rightEntry] })]) ∧
  nextIs (exec (.refillAnswer 1086) spilling) (fun t => (t.eng 1086).mpb == [] && spillCount (t.eng 1086) 1023 == 2 && (t.eng 1086).reentry.any (fun r => r.flit == tok0)) ∧
  nextIs (exec (.contextSweepVisit 1086) spilling) (fun t => !enV (wayAt (t.eng 1086) 1023 0) && (t.eng 1086).sweeps == [{ ctx := 0, visit := 1024 }]) := by decide +kernel

def lowWater : State := { spilling.wr (preg 63 0x108) 0x00020001 with engines := [(1086, { spilling.eng 1086 with sweeps := [{ ctx := 0, visit := 1025 }] })] }

theorem witness_SpillRefillSweep_ends : msTotal (lowWater.eng 1086) ≤ min (lowWater.fld (preg (1086 / 17) 0x108) 0 13) (msHi lowWater 1086 - 1) ∧
  nextIs (exec (.spillDownSpill 1086) lowWater) (fun t => (t.eng 1086).order == none) ∧
  nextIs (exec (.contextSweepVisit 1086) lowWater) (fun t => (t.eng 1086).sweeps == []) ∧
  msHi (spilling.wr (preg 63 0x108) 0x00000001) 1086 = 0 ∧
  nextIs (exec (.spillDownSpill 1086) (spilling.wr (preg 63 0x108) 0x00000001)) (fun t => (t.eng 1086).order == none) := by decide +kernel

/-- The same whose lookup met a sweep of its context. -/
def staleLookup : State := { spilling with engines := [(1086, { spilling.eng 1086 with
  mpb := [{ slot := 3, tok := inHash addWord tok0, asked := true, stale := true }] })] }

theorem witness_SpillRefillSweep_stale : CollectorFree (tokenDetect 0x13 1086 tok0 0) staleLookup ∧
  nextIs (exec (.refillAnswer 1086) staleLookup) (fun t => (t.eng 1086).mpb == [] && (t.eng 1086).reentry == none &&
    (recOf t 63).any (fun r => r.code == 0x13)) ∧
  nextIs (exec (.contextSweepVisit 1086) lowWater) (fun t => (t.eng 1086).mpb.map (·.stale) == [true]) := by
  unfold CollectorFree; decide +kernel

def returning : State := { up with plots := [(63, { Plot.reset with ctxs := [(0xFFFE, 2)] })] }

theorem witness_SpillRefillSweep_contexts : ctxStatus returning 63 0xFFFE = 2 ∧ (returning.plot 63).purges.contains 0xFFFE = false ∧
  (∀ i, i < 17 → (returning.eng (17 * 63 + i)).sweeps = []) ∧
  nextIs (exec (.contextReturn 63 0xFFFE) returning) (fun t => ctxStatus t 63 0xFFFE == 0) ∧
  nextIs (exec (.overflowPurge 63) { up with plots := [(63, { Plot.reset with purges := [0xFFFE] })] }) (fun t => (t.plot 63).purges == []) := by decide +kernel

theorem witness_MultiplierNodes : ((running (opWord 4) 3 5).eng 1086).exec = some (fireOf (opWord 4) 3 5) ∧ (fireOf (opWord 4) 3 5).closed = false ∧
  (nwOpc (fireOf (opWord 4) 3 5).word).toNat = 4 ∧ gives1 .mul 4 3 0xFFFFFFFFFFFFFFFF 0xFFFFFFFFFFFFFFFD 3 = true ∧
  gives1 .mulhs 5 0xFFFFFFFFFFFFFFFF 0xFFFFFFFFFFFFFFFF 0 3 = true ∧ gives1 .mulhu 6 0xFFFFFFFFFFFFFFFF 0xFFFFFFFFFFFFFFFF 0xFFFFFFFFFFFFFFFE 3 = true := by decide +kernel

theorem witness_IntegerNodes : (nwOpc (fireOf (opWord 1) 3 5).word).toNat = 1 ∧ (fireOf (opWord 1) 3 5).closed = false ∧
  gives1 .add 1 0xFFFFFFFFFFFFFFFF 2 1 1 = true ∧ gives1 .adds 0x18 0x7FFFFFFFFFFFFFFF 1 0x7FFFFFFFFFFFFFFF 1 = true ∧
  gives1 .abs 0x0B 0x8000000000000000 0 0x8000000000000000 1 = true ∧ gives1 .shl 0x14 1 64 1 1 = true ∧ gives1 .sar 0x16 0x8000000000000000 63 0xFFFFFFFFFFFFFFFF 1 = true ∧
  gives1 .clz 0x1A 0 0 64 1 = true ∧ gives1 .sext 0x1C 0x80 7 0xFFFFFFFFFFFFFF80 1 = true ∧ gives1 .lts 0x22 0x8000000000000000 0 1 1 = true := by decide +kernel

theorem witness_IntegerNodes_division : gives1 .divs 7 0x8000000000000000 0xFFFFFFFFFFFFFFFF 0x8000000000000000 38 = true ∧
  gives1 .divu 8 5 0 0xFFFFFFFFFFFFFFFF 3 0x20 = true ∧ gives1 .rems 9 0xFFFFFFFFFFFFFFF9 2 0xFFFFFFFFFFFFFFFF 7 = true ∧ gives1 .remu 0x0A 5 0 5 3 0x20 = true := by decide +kernel

theorem witness_FloatNodes : gives1 .fadd 0x30 0x3F800000 0x40000000 0x40400000 4 = true ∧ gives1 .dmul 0x42 0x4000000000000000 0x4008000000000000 0x4018000000000000 8 = true ∧
  gives1 .fdiv 0x34 0x3F800000 0 0x7F800000 14 8 = true ∧ gives1 .fmin 0x36 0x7F800001 0 0x7FC00000 1 0x10 = true ∧
  (let x : Word := 0x7F800001
   x.toNat % 2 ^ 31 / 2 ^ 22 = 0x1FE ∧ x.toNat % 2 ^ 22 ≠ 0) ∧ (0x7FC00000 : Word).toNat % 2 ^ 31 / 2 ^ 22 = 0x1FF ∧
  (let x : Word := 0x00800000
   x.toNat % 2 ^ 31 / 2 ^ 23 < 0xFF ∧ 0 < x.toNat % 2 ^ 31 / 2 ^ 23) ∧
  (let x : Word := 0x7FF0000000000001
   x.toNat % 2 ^ 63 / 2 ^ 52 = 0x7FF ∧ x.toNat % 2 ^ 52 ≠ 0) := by decide +kernel

def blockWord : Word := nodeW 0x53 4 0 1 0xA87FFF 0xFFFFFC

theorem witness_DestinationTokens : nwD2 addWord = destNull ∧ nwD1 addWord ≠ destNull ∧ fmtBlock addWord = false ∧ fmtBlock blockWord = true ∧ nwD1 blockWord ≠ destNull ∧
  (destProto up 1086 addWord 0 false 1 2 9).map (fun k => (tagEng k.tag, tagNode k.tag, tagPort k.tag)) = [(2, 5, 1)] ∧ destProto up 1086 addWord 0 true 1 2 9 = [] ∧
  (destProto up 1086 blockWord 0 false 1 2 9).map (fun k => (k.kind, tagBlk k.tag, tagFn k.tag, tagUnit k.tag)) = [(kBlock, 10, 0x21, 0x3FFF)] := by decide +kernel

/-- What the tokens of a node's one result name: the port, the iteration and the data word. -/
def sends1 (c : EngNo → Instr) (s : State) (l : List (BitVec 4 × BitVec 64 × Word)) : Bool :=
  nextIs (exec (c 1086) s) (fun t => (t.eng 1086).exec == none && (t.eng 1086).results.map (fun r => (r.due, r.toks.map (fun k => (k.kind, k.tag, k.data)))) == [(10, l)])

/-- A node word with both destinations in engine 2. -/
def twoDests (o : Nat) : Word := nodeW (BitVec.ofNat 8 o) 0 0 2 0x008010 0x008014

def tagTo (node : BitVec 12) (iter : BitVec 12) : BitVec 64 := operandTag 0xFFF 2 node 0 0x0102 iter

def closing (w l r : Word) : State := { up with engines := [(1086, { Engine.reset with exec := some { fireOf w l r with closed := true }, cycle := 9 })] }

theorem witness_FlowNodes : sends1 .steer (running (twoDests 0x50) 7 0) [(kOperand, tagTo 5 0xFFF, 7)] = true ∧
  sends1 .steer (running (twoDests 0x50) 7 1) [(kOperand, tagTo 4 0xFFF, 7)] = true ∧ sends1 .gate (running (twoDests 0x51) 7 0) [] = true ∧
  sends1 .ctxGet (running (twoDests 0x62) 7 0) [(kOperand, tagTo 4 0xFFF, 0x0102), (kOperand, tagTo 5 0xFFF, 0x0102)] = true ∧
  sends1 .iterReset (running (twoDests 0x65) 7 0) [(kOperand, tagTo 4 0, 7), (kOperand, tagTo 5 0, 7)] = true ∧
  sends1 .tagsend (running (twoDests 0x67) 7 0x1234) [(kOperand, 0x1234, 7)] = true ∧
  sends1 .sink (closing (twoDests 0x54) 7 0) [] = true ∧ sends1 .fan (closing (twoDests 0x53) 7 0) [] = true ∧ sends1 .gst (closing (twoDests 0x74) 7 1) [] = true := by decide +kernel

def fireIn (w l r : Word) (ctx : BitVec 16) (pri : BitVec 2) : Fire := { fireOf w l r with ctx := ctx, pri := pri }

def plotState (f : Fire) (p : Plot) : State := { up with engines := [(1086, { Engine.reset with exec := some f, cycle := 9 })], plots := [(63, p)] }

def allocating : State := plotState (fireOf (twoDests 0x60) 7 0) { Plot.reset with ctxs := [(1, 1), (2, 2)] }

def barring : State := plotState (fireOf (twoDests 0x60) 7 0) { Plot.reset with depositMode := true }

def freeing (l : Word) : State := plotState (fireOf (twoDests 0x61) l 0) { Plot.reset with ctxs := [(0xFFFE, 1)] }

theorem witness_ContextNodes : refuses allocating 63 1 = false ∧ freeCtx allocating 63 = some 3 ∧ refuses barring 63 1 = true ∧
  (freeing 0xFFFE).flag (ereg 1086 0x80) 30 = false ∧ ctxStatus (freeing 0xFFFE) 63 0xFFFE = 1 ∧ ctxStatus (freeing 2) 63 2 ≠ 1 ∧
  nextIs (exec (.ctxNew 1086) allocating) (fun t => ctxStatus t 63 3 == 1 && (t.eng 1086).results.map (fun r => (r.due, r.toks.map (fun k => (k.tag, k.data)))) ==
    [(11, [(operandTag 0xFFF 2 4 0 3 0, 7), (tagTo 5 0xFFF, 3)])]) ∧
  nextIs (exec (.ctxNew 1086) barring) (fun t => t.fld (preg 63 0x120) 10 10 == 1 && (t.eng 1086).results.map (fun r => r.toks.map (fun k => k.data)) == [[BitVec.allOnes 64]]) ∧
  nextIs (exec (.ctxFree 1086) (freeing 0xFFFE)) (fun t => ctxStatus t 63 0xFFFE == 2 && (t.plot 63).purges == [0xFFFE]) ∧
  nextIs (exec (.ctxFree 1086) (freeing 0x10000)) (fun t => (recOf t 63).any (fun r => r.code == 0x0E && r.locus == 5) && (t.plot 63).purges == []) := by decide +kernel

def window (b h : BitVec 12) : Window := { ctx := 0x0102, b := b, h := h, w := 3, chain := [] }

def windowed (o : Nat) (b h : BitVec 12) : State := plotState (fireOf (twoDests o) 7 0) { Plot.reset with windows := [window b h] }

theorem witness_IterNodes : windowOf ((windowed 0x64 0xFFE 0xFFF).plot 63) 0x0102 = some (window 0xFFE 0xFFF) ∧ ((0xFFF : BitVec 12) + 1 - 0xFFE).toNat < 3 ∧
  windowOf ((windowed 0x66 5 5).plot 63) 0x0102 = some (window 5 5) ∧ (∀ v, v ∈ ((windowed 0x66 5 6).plot 63).windows → v.chain = []) ∧
  nextIs (exec (.iterNext 1086) (windowed 0x64 0xFFE 0xFFF)) (fun t => (t.plot 63).windows == [window 0xFFE 1] &&
    (t.eng 1086).results.map (fun r => r.toks.map (fun k => k.tag)) == [[tagTo 4 0, tagTo 5 0]]) ∧
  nextIs (exec (.iterDone 1086) (windowed 0x66 5 5)) (fun t => (t.plot 63).windows == [window 5 5] && t.fld (preg 63 0x128) 8 8 == 1) ∧
  nextIs (exec (.iterDone 1086) (windowed 0x66 5 6)) (fun t => (t.plot 63).windows == [window 6 6]) := by decide +kernel

theorem witness_GranaryNodes : (let a : Word := 0x3FFFFF0 + 8
    a.toNat % 8 = 0 ∧ a.toNat < 0x4000000) ∧ ¬ (let a : Word := 0x4000000
    a.toNat % 8 = 0 ∧ a.toNat < 0x4000000) ∧ ¬ ((4 : Word).toNat % 8 = 0) ∧
  nextIs (exec (.gld 1086) (running (opWord 0x70) 0x3FFFFF0 8)) (fun t => (t.eng 1086).results.map (fun r => r.toks.map (fun k => (k.kind, k.data))) ==
    [[(kGrnRead, readDesc 0 0 0x7FFFFF)]]) ∧
  nextIs (exec (.gst 1086) (running (opWord 0x74) 7 0x3FFFFF8)) (fun t => (t.eng 1086).wcnt == 1 && (t.eng 1086).results.map (fun r => r.toks.length) == [2]) ∧
  nextIs (exec (.gclr 1086) (running (opWord 0x76) 7 4)) (fun t => (t.eng 1086).wcnt == 0 && (recOf t 63).any (fun r => r.code == 0x0D && r.a == 4)) := by decide +kernel

def fencing (acnt wcnt : BitVec 16) : State := { up with engines := [(1086, { Engine.reset with exec := some (fireOf (opWord 0x7C) 7 0), cycle := 9, acnt := acnt, wcnt := wcnt })] }

theorem witness_BlockNodes : ((fencing 3 3).eng 1086).fences = [] ∧ ((0xFFFF : BitVec 16) - 0).getLsbD 15 = true ∧ (fencing 3 3).flag (ereg 1086 0x80) 30 = false ∧
  nextIs (exec (.send 1086) (running (opWord 0x78) 7 16383)) (fun t => (t.eng 1086).results.map (fun r => r.toks.map (fun k => k.kind)) == [[kBlock, kOperand]]) ∧
  nextIs (exec (.send 1086) (running (opWord 0x78) 7 16384)) (fun t => (t.eng 1086).results.map (fun r => r.toks.map (fun k => k.kind)) == [[kOperand]] &&
    (recOf t 63).any (fun r => r.code == 0x12)) ∧
  nextIs (exec (.blk 1086) (running (opWord 0x79) 7 (blockTag 0 2 5 0xFFF 0 0))) (fun t => (t.eng 1086).results.map (fun r => r.toks.map (fun k => (tagBlk k.tag, tagFn k.tag))) == [[(2, 5), (0, 0x2)]]) ∧
  nextIs (exec (.fence 1086) (fencing 3 3)) (fun t => (t.eng 1086).results.length == 1) ∧
  nextIs (exec (.fence 1086) (fencing 0xFFFF 0)) (fun t => (t.eng 1086).results == [] && (t.eng 1086).fences.map (fun k => k.target) == [0]) := by decide +kernel

/-- A strand instruction of the R form, and of the M form. -/
def siW (op : BitVec 6) (d a b : BitVec 4) (sub : BitVec 8) : BitVec 32 := op ++ d ++ a ++ b ++ sub ++ (0 : BitVec 6)

def siM (op : BitVec 6) (d a : BitVec 4) (sz : BitVec 2) (pi sp : Bool) (disp : BitVec 14) : BitVec 32 :=
  op ++ d ++ a ++ sz ++ BitVec.ofBool pi ++ BitVec.ofBool sp ++ disp

def issued (w : BitVec 32) (a b d : Word) : SIssue :=
  { pc := 0x100, word := w, a := a, b := b, d := d, flags := 0x200, cnt := 3, cntS := 3, rm := 0, ftz := false, issued := 9, rep := false, waited := false, grow := 0,
    stalled := false }

def aStrand : Strand :=
  { desc := 5, k := false, epri := 0, ctx := { Ctx.zero with pc := 0x100 }, npc := 0x104, fetchAt := 0, fetch := none, dec := none, read := none, writes := [], issueAt := 0,
    block := .none, quantum := false, startAt := 0, since := 0, fullWait := false, leave := none }

/-- An engine with a strand's instruction in EXEC. -/
def strandState (i : SIssue) (k : Strand := aStrand) (x : Engine := Engine.reset) : State :=
  { up with engines := [(1086, { x with cycle := 9, sx := some i, strand := some k })] }

/-- The register writes that an instruction leaves in progress: their cycle, register and value. -/
def writesOf (c : Instr) (s : State) (l : List (Nat × BitVec 5 × Word)) : Bool :=
  nextIs (exec c s) (fun t => (t.eng 1086).sx == none && (t.eng 1086).strand.any (fun k => k.writes.map (fun w => (w.due, w.target, w.value)) == l))

/-- An acknowledgement whose fields R56 does not allow. -/
def badAckFlit (space : BitVec 3) (op : BitVec 3) : Flit := mkToken kGrnAck 1 false 0 (addrTag 0xFFF 1023 0 space 0 op 0) 0

def badAcking (k : Flit) : State := { up with engines := [(0, { Engine.reset with acks := [k], acnt := 0xFFFF })] }

/-- A data flit that waits for its write port beside a load in EXEC, after so many cycles. -/
def flitWaits (imem : Bool) (waited : Nat) (begun : Bool) : State :=
  strandState (issued (siM 0x10 3 4 0 true true 0) 0x7FFF 0 0) aStrand { Engine.reset with
    sheafWr := [{ imem := imem, off := 0x7FF0, payload := 0x0807060504030201FFEEDDCCBBAA9988 }], sheafWait := waited, resv := some 511
    portFrom := if begun then 9 else 0, portUntil := if begun then 10 else 0 }

/-- A data flit is written, or waits one more cycle. -/
def flitGoes (s : State) (waits : Bool) : Bool :=
  nextIs (exec (.sheafRspWrite 1086) s) (fun t => let x := t.eng 1086
    if waits then x.sheafWr == (s.eng 1086).sheafWr && x.sheafWait == (s.eng 1086).sheafWait + 1 && x.sheafTurn == some (9, false) && t.mem == []
    else x.sheafWr == [] && x.sheafWait == 0 && t.mem.length == 16)

theorem witness_EngineIntakes_writer : badAck (badAckFlit 0 2).tag = false ∧ tagSpace (badAckFlit 1 0).tag ≠ 0 ∧ 2 < (tagOp (badAckFlit 0 3).tag).toNat ∧
  CollectorFree (tokenDetect 0x12 0 (badAckFlit 0 3) 0) (badAcking (badAckFlit 0 3)) ∧
  nextIs (exec (.grnAckIntake 0) (badAcking (badAckFlit 0 3))) (fun t => (t.eng 0).acks == [] && (t.eng 0).acnt == 0xFFFF && (recOf t 0).any (fun r => r.code == 0x12)) ∧
  strandWants (flitWaits false 0 false) 1086 false = true ∧ strandWants (flitWaits true 9 true) 1086 true = false ∧ portBegun ((flitWaits false 9 true).eng 1086) = true ∧
  flitGoes (flitWaits false 3 false) true = true ∧ flitGoes (flitWaits false 4 true) true = true ∧ flitGoes (flitWaits false 4 false) false = true ∧ flitGoes (flitWaits true 0 true) false = true ∧
  nextIs (exec (.sheafRspWrite 1086) (flitWaits false 4 false)) (fun t => (t.eng 1086).resv == none && (t.eng 1086).sheafTurn == some (9, true)) ∧
  nextIs (exec (.sheafRspWrite 1086) (flitWaits true 0 true)) (fun t => (t.eng 1086).resv == some 511 && (t.eng 1086).sheafTurn == some (9, false)) := by
  unfold CollectorFree; decide +kernel

theorem witness_StrandOperations : ((strandState (issued (siW 1 15 1 2 1) 5 7 0)).eng 1086).sx = some (issued (siW 1 15 1 2 1) 5 7 0) ∧
  siOp (siW 1 15 1 2 1) = 1 ∧ siSub (siW 1 15 1 2 0xDF) = 0xDF ∧ (vendorOp 1 0 false 5 7 0).2 = 0 ∧ up.flag (ereg 1086 0x80) 31 = false ∧
  writesOf (.opr 1086) (strandState (issued (siW 1 15 1 2 1) 5 7 0)) [(10, 15, 12)] = true ∧
  writesOf (.opr 1086) (strandState (issued (siW 1 15 1 2 0x30) 0x3F800000 0x40000000 0)) [(13, 15, 0x40400000)] = true ∧
  writesOf (.addi 1086) (strandState (issued (0x08C3FFFF ||| 0) 5 0 0)) [(10, 3, 4)] = true ∧
  writesOf (.movw 1086) (strandState (issued (0x1CC3ABCD) 5 0 0x1111111111111111)) [(10, 3, 0xABCD111111111111)] = true ∧
  writesOf (.shi 1086) (strandState (issued (0x18C000BF) 0x8000000000000000 0 0)) [(10, 3, 0xFFFFFFFFFFFFFFFF)] = true ∧
  writesOf (.cmp 1086) (strandState (issued (siW 1 0 1 2 0x26) 5 7 0)) [(10, tFlags, 6)] = true ∧
  writesOf (.cmpi 1086) (strandState (issued (0x2000003F) 0x8000000000000000 0 0)) [(10, tFlags, 8)] = true ∧
  writesOf (.mff 1086) (strandState (issued (siW 0x30 7 0 0 7) 0 0 0)) [(10, 7, 0x200)] = true ∧
  writesOf (.mtc 1086) (strandState (issued (siW 0x30 0 7 0 0xA) 6 0 0)) [(10, tCnt, 6)] = true := by decide +kernel

/-- A kernel strand whose FADD of a signaling NaN is invalid, in precise mode with NV enabled. -/
def preciseState : State := (strandState (issued (siW 1 15 1 2 0x30) 0x7F800001 0 0) { aStrand with k := true }).wr (ereg 1086 0x80) 0x80001000

theorem witness_StrandOperations_precise : (preciseState.eng 1086).sx = some (issued (siW 1 15 1 2 0x30) 0x7F800001 0 0) ∧
  (vendorOp 0x30 0 false 0x7F800001 0 0).2 = 0x10 ∧ preciseState.flag (ereg 1086 0x80) 31 = true ∧
  nextIs (exec (.opr 1086) preciseState) (fun t => (t.eng 1086).strand.any (fun k => (match k.block with
    | .precise pc rep due fl ws => pc == 0x100 && !rep && due == 13 && fl == 0x10 && ws.map (·.target) == [15]
    | _ => false) && k.writes == []) && (t.eng 1086).raises.map (·.flags) == [0x10]) := by decide +kernel

/-- A strand goes to a byte address, from which FETCH may take it so many cycles after the issue. -/
def goesTo (c : Instr) (s : State) (pc : BitVec 15) (extra : Nat) : Bool :=
  nextIs (exec c s) (fun t => (t.eng 1086).sx == none && (t.eng 1086).strand.any (fun k => k.npc == pc && k.fetchAt == 10 + extra))

/-- A strand traps with a cause. -/
def traps (c : Instr) (s : State) (cause : Nat) : Bool :=
  nextIs (exec c s) (fun t => (t.eng 1086).sx == none && t.fld (ereg 1086 0x110) 16 8 == cause && t.flag (ereg 1086 0x110) 31 && (t.eng 1086).strand.any (fun k => k.leave == some (.trap, 0) && k.ctx.trapWord == BitVec.ofNat 64 (256 + cause)))

def deepStrand (n : BitVec 4) : Strand := { aStrand with ctx := { aStrand.ctx with rsd := n } }

theorem witness_StrandBranches : condHolds 0 0x201 = true ∧ condHolds 0 0x200 = false ∧ (deepStrand 8).ctx.rsd = 8 ∧ (0x200 : Word).getLsbD 9 = true ∧
  (0x7FFC : Word).toNat < 0x8000 ∧ (0x7FFC : Word).toNat % 4 = 0 ∧ ¬ (0x8000 : Word).toNat < 0x8000 ∧
  goesTo (.bc 1086) (strandState { issued 0x80001FFF 0 0 0 with flags := 1 }) 0xFC 0 = true ∧
  goesTo (.jmp 1086) { strandState (issued 0x84000002 0 0 0) with profile := .p0100 } 0x108 1 = true ∧
  goesTo (.call 1086) (strandState (issued 0x88000001 0 0 0) (deepStrand 7)) 0x104 0 = true ∧
  traps (.call 1086) (strandState (issued 0x88000001 0 0 0) (deepStrand 8)) 6 = true ∧
  goesTo (.jr 1086) (strandState (issued 0x8C000000 0x7FFC 0 0)) 0x7FFC 0 = true ∧ traps (.jr 1086) (strandState (issued 0x8C000000 0x7FFE 0 0)) 4 = true ∧
  goesTo (.callr 1086) (strandState (issued 0x90000000 0x200 0 0)) 0x200 0 = true ∧ traps (.callr 1086) (strandState (issued 0x90000000 0x8000 0 0)) 4 = true ∧
  goesTo (.ret 1086) (strandState (issued 0x94000000 0 0 0) (deepStrand 1)) 0 0 = true ∧ traps (.ret 1086) (strandState (issued 0x94000000 0 0 0) (deepStrand 0)) 6 = true ∧
  goesTo (.syncI 1086) (strandState (issued (siW 0x30 0 0 0 6) 0 0 0)) 0x104 0 = true ∧ traps (.trap 1086) (strandState (issued (siW 0x30 15 0 0 0xB) 0 0 0)) 8 = true ∧
  nextIs (exec (.await 1086) (strandState (issued (siW 0x30 0 1 0 1) 77 0 0))) (fun t => (t.eng 1086).strand.any (fun k => k.leave == some (.await, 77) && k.ctx.waitWord == 0x100)) ∧
  nextIs (exec (.yield 1086) (strandState (issued (siW 0x30 0 1 0 0xC) 77 0 0))) (fun t => (t.eng 1086).strand.any (fun k => k.leave == some (.yield, 0))) ∧
  nextIs (exec (.exit 1086) (strandState (issued (siW 0x30 0 1 0 0xD) 77 0 0))) (fun t => (t.eng 1086).strand.any (fun k => k.leave == some (.exit, 0)) && t.mem == []) := by decide +kernel

/-- A strand whose READ holds a REP, with a repeatable instruction after it. -/
def repStrand (cnt : Word) : Strand :=
  { aStrand with read := some { pc := 0x100, word := 0xC4000000, bad := false, cntS := cnt }, dec := some { pc := 0x104, word := siW 1 3 4 5 1, bad := false, cntS := cnt } }

/-- A REP with a count of zero, and a call that is misaligned on a full stack. -/
def repZero : State := { up.wr (ereg 1086 4) 0 with engines := [(1086, { Engine.reset with strand := some (repStrand 0) })] }

theorem witness_StrandBranches_edges : isRep (repStrand 0) { pc := 0x100, word := 0xC4000000, bad := false, cntS := 0 } = true ∧
  (nextWord repZero 1086 (repStrand 0) 0x100).all (repeatable repZero 1086) = true ∧
  nextIs (exec (.rep 1086) repZero) (fun t => (t.eng 1086).strand.any (fun k => k.ctx.pc == 0x108 && k.read == none)) ∧
  traps (.callr 1086) (strandState (issued 0x90000000 0x8001 0 0) (deepStrand 8)) 6 = true ∧
  traps (.callr 1086) (strandState (issued 0x90000000 0x8001 0 0) (deepStrand 7)) 4 = true := by decide +kernel

def repState : State := { up.wr (ereg 1086 4) 0 with engines := [(1086, { Engine.reset with strand := some (repStrand 0xFFFFFFFFFFFFFFFF) })] }

theorem witness_StrandBranches_rep : strandHas repState 1086 0 = some (repStrand 0xFFFFFFFFFFFFFFFF, { pc := 0x100, word := 0xC4000000, bad := false, cntS := 0xFFFFFFFFFFFFFFFF }) ∧
  isRep (repStrand 0xFFFFFFFFFFFFFFFF) { pc := 0x100, word := 0xC4000000, bad := false, cntS := 0xFFFFFFFFFFFFFFFF } = true ∧
  (nextWord repState 1086 (repStrand 0xFFFFFFFFFFFFFFFF) 0x100).all (repeatable repState 1086) = true ∧
  nextIs (exec (.rep 1086) repState) (fun t => (t.eng 1086).strand.any (fun k => k.ctx.rpc == 0xFFFFFFFFFFFFFFFF && k.read == none && k.ctx.flags == 0x1000)) := by decide +kernel

/-- A load or store at the end of the frame store. -/
def framed (op : BitVec 6) (sz : BitVec 2) (pi : Bool) (a d : Word) : State :=
  (strandState (issued (siM op 3 4 sz pi true 0) a 0 d)).store (frameBase 1086 + 0x7FF8) 8 0x9192939495969798

theorem framed_clean (op : BitVec 6) (sz : BitVec 2) (pi : Bool) (a d : Word) : FrameClean (framed op sz pi a d) 1086 := ⟨rfl, fun _ _ _ => rfl⟩

theorem witness_StrandMemory : memRegion (framed 0x10 0 true 0x7FFF 0) 1086 (issued (siM 0x10 3 4 0 true true 0) 0x7FFF 0 0) 1 = .frame 0x7FFF ∧
  siSize (siM 0x10 3 4 0 true true 0) = 1 ∧ 0x7FFF + 1 ≤ 0x8000 ∧
  writesOf (.ld 1086 .clean) (framed 0x10 0 true 0x7FFF 0) [(10, 4, 0x8000), (11, 3, 0x91)] = true ∧
  writesOf (.lds 1086 .clean) (framed 0x11 0 false 0x7FFF 0) [(11, 3, 0xFFFFFFFFFFFFFF91)] = true ∧
  writesOf (.ladd 1086 .clean) (framed 0x13 2 false 0x7FFC 1) [(12, 3, 0xFFFFFFFF91929395)] = true ∧
  nextIs (exec (.st 1086) (framed 0x12 3 false 0x7FF8 5)) (fun t => (t.eng 1086).stores.map (fun q => (q.addr, q.size, q.data)) == [(0x7FF8, 8, 5)]) ∧
  nextIs (exec (.lr 1086 .clean) (framed 0x15 3 false 0x7FF8 5)) (fun t => (t.eng 1086).resv == some 511) ∧
  nextIs (exec (.sc 1086) (framed 0x16 3 false 0x7FF8 5)) (fun t => t.load (frameBase 1086 + 0x7FF8) 8 == 0x9192939495969798 && (t.eng 1086).strand.any (fun k => k.writes.map (fun w => (w.target, w.value)) == [(tLrv, 0), (3, 1)])) ∧
  nextIs (exec (.tas 1086 .clean) (framed 0x17 3 false 0x7FF8 5)) (fun t => t.load (frameBase 1086 + 0x7FF8) 8 == 1) ∧
  (vendorOp 0x30 0 false 0x3F800000 0 0).2 = 0 ∧
  writesOf (.lfadd 1086 .clean) (strandState (issued (siM 0x14 3 4 2 false true 0) 0x7FFC 0 0x3F800000)) [(15, 3, 0x3F800000)] = true := by decide +kernel

/-- An access to the last word of the granary. -/
def granaryState (op : BitVec 6) (sz : BitVec 2) (a : Word) : State := strandState (issued (siM op 3 4 sz false false 0) a 0 5)

def gIssue (op : BitVec 6) (sz : BitVec 2) (a : Word) : SIssue := issued (siM op 3 4 sz false false 0) a 0 5

/-- An access waits for its reply, with the request formed. -/
def asked (c : Instr) (s : State) (op : BitVec 3) : Bool :=
  nextIs (exec c s) (fun t => (t.eng 1086).sx == none && (t.eng 1086).accNo == 1 && (t.eng 1086).results.map (fun r => r.toks.map (fun k => (k.kind, k.data))) == [[(kGrnRead, readDesc op 0 0x7FFFFF)]])

theorem witness_StrandMemory_granary : memRegion (granaryState 0x10 3 0x3FFFFF8) 1086 (gIssue 0x10 3 0x3FFFFF8) 8 = .granary 0x3FFFFF8 ∧
  siSize (gIssue 0x10 3 0).word = 8 ∧ (0x3FFFFF8 : BitVec 26).toNat % 8 + 8 ≤ 8 ∧ ((granaryState 0x10 3 0x3FFFFF8).eng 1086).stores = [] ∧
  asked (.ld 1086 .clean) (granaryState 0x10 3 0x3FFFFF8) 0 = true ∧ asked (.lds 1086 .clean) (granaryState 0x11 0 0x3FFFFFF) 0 = true ∧
  asked (.tas 1086 .clean) (granaryState 0x17 3 0x3FFFFF8) 3 = true ∧ asked (.gmemTake 1086) (granaryState 0x18 0 0x3FFFFF8) 1 = true ∧
  asked (.gmemQuery 1086) (granaryState 0x18 1 0x3FFFFF8) 2 = true ∧
  nextIs (exec (.gmemStore 1086) (granaryState 0x18 2 0x3FFFFF8)) (fun t => (t.eng 1086).stores.map (·.kind) == [.granary 1]) ∧
  nextIs (exec (.gmemClear 1086) (granaryState 0x18 3 0x3FFFFF8)) (fun t => (t.eng 1086).stores.map (·.kind) == [.granary 2]) := by decide +kernel

def aStore (k : StoreKind) (a : BitVec 40) (n : Nat) : StoreEntry :=
  { kind := k, addr := a, size := n, data := 0x1122334455667788, mp := 1, at_ := 3, half := false }

def draining (q : StoreEntry) : State := { up with engines := [(1086, { Engine.reset with strand := some aStrand, stores := [q], cycle := 4 })] }

theorem witness_StrandMemory_drain : ((draining (aStore .frame 0x7FFC 4)).eng 1086).sx = none ∧ (aStore .frame 0x7FFC 4).at_ < ((draining (aStore .frame 0x7FFC 4)).eng 1086).cycle ∧ (aStore .frame 0x7FFC 4).addr.toNat + 4 ≤ 0x8000 ∧
  nextIs (exec (.storeDrain 1086) (draining (aStore .frame 0x7FFC 4))) (fun t => t.load (frameBase 1086 + 0x7FF8) 8 == 0x5566778800000000 && (t.eng 1086).stores == []) ∧
  nextIs (exec (.storeDrain 1086) (draining (aStore (.granary 0) 0x3FFFFFE 2))) (fun t => (t.eng 1086).wcnt == 1 &&
    (t.eng 1086).results.map (fun r => r.toks.map (fun k => (tagAddr k.tag, tagMask k.tag, k.data))) == [[(0x7FFFFF, 0xC0, 0x7788000000000000)]]) := by decide +kernel

/-- The last store before the end of the frame store that crosses an 8-byte boundary, before and after its first word. -/
def crossing_ (half : Bool) : State := draining { aStore .frame 0x7FF4 8 with half := half }

theorem witness_StrandMemory_halves : 8 - 0x7FF4 % 8 < 8 ∧ ((crossing_ false).eng 1086).sheafWr = [] ∧
  nextIs (exec (.storeDrain 1086) (crossing_ false)) (fun t => t.load (frameBase 1086 + 0x7FF0) 8 == 0x5566778800000000 && t.load (frameBase 1086 + 0x7FF8) 8 == 0 &&
    (t.eng 1086).stores.map (·.half) == [true] && (t.eng 1086).drainFree == 5 && (t.eng 1086).portUntil == 5) ∧
  nextIs (exec (.storeDrain 1086) (crossing_ true)) (fun t => t.load (frameBase 1086 + 0x7FF0) 8 == 0 && t.load (frameBase 1086 + 0x7FF8) 8 == 0x11223344 &&
    (t.eng 1086).stores == []) := by decide +kernel

/-- The drain of a store to a register of another block, whose way has room or has not. -/
def pathStore : State := draining (aStore .path (BitVec.ofNat 40 (breg .mesh 0x24)) 4)

theorem witness_StrandMemory_path : pathRoom pathStore 63 (BitVec.ofNat 40 (breg .mesh 0x24)) = true ∧ (pathStore.eng 1086).drainFree ≤ 4 ∧ (pathStore.eng 1086).portUntil < 4 ∧
  nextIs (exec (.storeDrain 1086) pathStore) (fun t => (t.eng 1086).stores == [] && t.rpath.map (fun r => (r.req, r.addr, r.size, r.lost)) ==
    [(.plot 63, BitVec.ofNat 40 (breg .mesh 0x24), 4, false)]) ∧
  writesOf (.ld 1086 .clean) (strandState { issued (siM 0x10 3 4 3 false true 0) 0x7FF8 0 0 with issued := 5, waited := true, grow := 1 }) [(12, 3, 0)] = true := by decide +kernel

def opTag : Word := operandTag 0xFFF 3 4 1 5 6

def shfHead : Word := addrTag 0xFFF 0 0x1000 0 0 1 0

theorem witness_StrandTokens_send : malformed up (proto1 kOperand 0 opTag 7) = false ∧ malformed up (proto1 kOperand 0 (operandTag 0xFFF 3 4 3 5 6) 7) = true ∧
  malformed up (proto1 kBlock 3 (blockTag 0xFFF 3 0 0 0 0) 7) = true ∧
  nextIs (exec (.strandSend 1086) (strandState (issued (siW 0x30 0 1 2 2) opTag 7 0))) (fun t => (t.eng 1086).results.map (fun r => r.toks.map (fun k => (k.tag, k.data))) == [[(opTag, 7)]]) ∧
  traps (.strandSend 1086) (strandState (issued (siW 0x30 0 1 2 2) (operandTag 0xFFF 3 4 3 5 6) 7 0)) 5 = true ∧
  nextIs (exec (.bsend 1086) (strandState (issued (siW 0x30 0 1 2 3) (blockTag 0xFFF 1 1 1 0 0) 7 0))) (fun t => (t.eng 1086).results.map (fun r => r.toks.map (fun k => (k.kind, k.data))) == [[(kBlock, 7)]]) := by
  decide +kernel

theorem witness_StrandTokens_sheaf : malformed up (proto1 kSheafReq 0 shfHead ((0xFFF : BitVec 12) ++ (1023 : BitVec 10) ++ (0 : BitVec 42))) = false ∧ tagSpace shfHead = 0 ∧ (0x7FE0 : Word).toNat % 16 = 0 ∧ 0x7FE0 + 16 * 2 ≤ 0x8000 ∧
  nextIs (exec (.shf 1086) ((strandState (issued (siW 0x30 1 1 2 4) shfHead 0x7FE0 0)).store (frameBase 1086 + 0x7FF8) 8 9)) (fun t => (t.eng 1086).wcnt == 1 &&
    (t.eng 1086).results.map (fun r => r.toks.map (fun k => k.payloads)) == [[[0, 0x00000000000000090000000000000000]]]) ∧
  traps (.shf 1086) (strandState (issued (siW 0x30 1 1 2 4) shfHead 0x7FE8 0)) 4 = true := by decide +kernel

def fenceCounts (acnt wcnt : BitVec 16) : State := strandState (issued (siW 0x30 0 0 0 5) 0 0 0) aStrand { Engine.reset with acnt := acnt, wcnt := wcnt }

theorem witness_StrandTokens_fence : ((fenceCounts 5 5).eng 1086).stores = [] ∧ ((fenceCounts 5 5).eng 1086).fences = [] ∧ (fenceCounts 5 5).flag (ereg 1086 0x80) 30 = false ∧
  ((4 : BitVec 16) - 5).getLsbD 15 = true ∧
  nextIs (exec (.strandFence 1086) (fenceCounts 5 5)) (fun t => (t.eng 1086).fences == [] && (t.eng 1086).strand.any (fun k => k.block == .none)) ∧
  nextIs (exec (.strandFence 1086) (fenceCounts 4 5)) (fun t => (t.eng 1086).fences.map (·.target) == [5] && (t.eng 1086).strand.any (fun k => k.block == .fence 0x100)) := by decide +kernel

def ctxState (sub : BitVec 8) (a : Word) (p : Plot) : State := { strandState (issued (siW 0x30 3 1 0 sub) a 0 0) with plots := [(63, p)] }

theorem witness_StrandTokens_contexts : refuses (ctxState 0xE 0 Plot.reset) 63 0 = false ∧ freeCtx (ctxState 0xE 0 Plot.reset) 63 = some 1 ∧
  refuses (ctxState 0xE 0 { Plot.reset with depositMode := true }) 63 0 = true ∧
  writesOf (.ctxn 1086) (ctxState 0xE 0 Plot.reset) [(11, 3, 1)] = true ∧ writesOf (.ctxn 1086) (ctxState 0xE 0 { Plot.reset with depositMode := true }) [(11, 3, 0xFFFFFFFFFFFFFFFF)] = true ∧
  nextIs (exec (.ctxf 1086) (ctxState 0xF 7 { Plot.reset with ctxs := [(7, 1)] })) (fun t => ctxStatus t 63 7 == 2 && (t.plot 63).purges == [7]) ∧
  writesOf (.ctxf 1086) (ctxState 0xF 0x10000 Plot.reset) [(11, 3, 0xFFFFFFFFFFFFFFFF)] = true := by decide +kernel

def replyTok (n : BitVec 12) : Flit := mkToken kGrnReply 1 false 0 (operandTag 0xFFF 1023 0xFFF 2 0 n) 0x8182838485868788

def anAccess (n : BitVec 12) : Access := { d := 6, addr := 3, size := 2, signed := true, accNo := some n, pc := 0x100, undo := none, arrives := none }

def awaiting (b : Block) : State := { up with engines := [(1086, { Engine.reset with cycle := 9, strandIn := [replyTok 0xFFF], strand := some { aStrand with block := b } })] }

theorem witness_StrandTokens_reply : (anAccess 0xFFF).accNo = some (tagIter (replyTok 0xFFF).tag) ∧ (replyTok 0xFFF).poison = false ∧ ((awaiting .none).eng 1086).pend = [] ∧
  nextIs (exec (.strandReply 1086) (awaiting (.access (anAccess 0xFFF)))) (fun t => (t.eng 1086).strand.any (fun k => k.block == .none && k.issueAt == 13 &&
    k.writes.map (fun w => (w.due, w.target, w.value)) == [(11, 6, 0xFFFFFFFFFFFF8485)])) ∧
  nextIs (exec (.strandReply 1086) (awaiting .none)) (fun t => (t.eng 1086).strandIn == [] && t.fld (ereg 1086 0x130) 0 16 == 1) := by decide +kernel

/-- A routine of a node fire at a micro-PC. -/
def routine (upc : BitVec 11) : Routine :=
  { owner := .node (fireOf (opWord 0xE0) 0x8000000000000001 3) 5, upc := upc, t := Vector.replicate 8 0x1111222233334444, xl := 0x8000000000000001, xr := 3, xd := 0, res := 7, z := false,
    n := false, c := false, v := false, stack := [0x611], fma := true, div := true, since := 0, readyAt := 9, fireSince := none, strandSince := none }

/-- An engine whose sequencer is to run one microword at 0x610. -/
def microState (w : BitVec 32) (r : Routine := routine 0x610) : State :=
  { up with ucode := [(0x610, w)], engines := [(1086, { Engine.reset with cycle := 9, seqr := some r })] }

theorem due (w : BitVec 32) : MicroDue (microState w) 1086 (routine 0x610) := by
  refine ⟨rfl, Nat.le_refl 9, rfl, ?_, ?_, ?_⟩ <;> decide +kernel

def sys (op : BitVec 5) (dst sa sb : BitVec 5) (arg : BitVec 10) : BitVec 32 := (3 : BitVec 2) ++ op ++ dst ++ sa ++ sb ++ arg

def alu (op : BitVec 5) (dst sa sb : BitVec 5) : BitVec 32 := (0 : BitVec 2) ++ op ++ dst ++ sa ++ sb ++ (0 : BitVec 10)

/-- A microword writes T1, and the routine goes on after so many cycles. -/
def micro1 (c : EngNo → Upset → Instr) (s : State) (v : Word) (cost : Nat) : Bool :=
  nextIs (exec (c 1086 .clean) s) (fun t => (t.eng 1086).seqr.any (fun r => r.t[1] == v && r.upc == 0x611 && r.since == cost && r.readyAt == 9 + cost))

/-- The same with a third operand of zero. -/
def zeroDivisor : Routine := { routine 0x610 with xd := 0 }

def litWord (z : BitVec 1) : BitVec 32 := (1 : BitVec 2) ++ (1 : BitVec 5) ++ (3 : BitVec 2) ++ z ++ (0 : BitVec 6) ++ (0xABCD : BitVec 16)

theorem witness_LiteralMicrowords : (litWord 0).extractLsb' 30 2 = 1 ∧ (litWord 0).extractLsb' 16 6 = 0 ∧ microWritable ((litWord 0).extractLsb' 25 5) = true ∧
  microRead (microState (litWord 0)) 1086 (routine 0x610) ((litWord 0).extractLsb' 25 5) = some 0x1111222233334444 ∧
  micro1 .lit (microState (litWord 0)) 0xABCD222233334444 1 = true ∧ micro1 .lit (microState (litWord 1)) 0xABCD000000000000 1 = true := by decide +kernel

theorem witness_Microwords_alu : microRead (microState 0) 1086 (routine 0x610) 8 = some 0x8000000000000001 ∧ microRead (microState 0) 1086 (routine 0x610) 9 = some 3 ∧
  uwFmt (alu 1 1 8 9) = 0 ∧ (alu 1 1 8 9).extractLsb' 0 9 = 0 ∧ (alu 1 1 8 9).getLsbD 9 = false ∧ uwOp (alu 0x13 1 8 9) = 0x13 ∧ microWritable (uwDst (alu 1 1 8 9)) = true ∧
  micro1 .oper (microState (alu 1 1 8 9)) 0x8000000000000004 1 = true ∧ micro1 .oper (microState (alu 6 1 8 9)) 0x8000000000000000 1 = true ∧
  micro1 .oper (microState (alu 9 1 8 9)) 0xF000000000000000 1 = true ∧ micro1 .oper (microState (alu 0xA 1 8 9)) 0xC 1 = true ∧
  micro1 .oper (microState (alu 0x11 1 8 9)) 0 1 = true ∧ micro1 .oper (microState (alu 0x12 1 8 9)) 1 1 = true ∧ micro1 .oper (microState (alu 0x13 1 9 9)) 1 1 = true := by decide +kernel

/-- A microword writes T1 and sets the condition flags Z, N, C and V. -/
def setsC (op sa sb : BitVec 5) (v : Word) (z n c o : Bool) : Bool :=
  nextIs (exec (.oper 1086 .clean) (microState (alu op 1 sa sb ||| 0x200))) (fun t => (t.eng 1086).seqr.any (fun r =>
    r.t[1] == v && r.z == z && r.n == n && r.c == c && r.v == o))

/-- A division microword writes T1, holds the divider for its cost, and raises DZ or no flag. -/
def divides (arg : BitVec 10) (sb : BitVec 5) (v : Word) (cost : Nat) (dz : Bool) : Bool :=
  micro1 .microDiv (microState (sys 3 1 8 sb arg)) v cost && nextIs (exec (.microDiv 1086 .clean) (microState (sys 3 1 8 sb arg))) (fun t =>
    (t.eng 1086).divFree == 9 + cost && (t.eng 1086).raises.map (fun r => (r.due, r.flags)) == if dz then [(12, 0x20)] else [])

theorem witness_Microwords_flags : (alu 1 1 8 9 ||| 0x200).getLsbD 9 = true ∧ (alu 1 1 8 9 ||| 0x200).extractLsb' 0 9 = 0 ∧ uwSb (alu 0xF 1 8 0) = 0 ∧
  microRead (microState 0) 1086 (routine 0x610) 0 = some 0 ∧
  setsC 1 8 8 2 false false true true = true ∧ setsC 2 9 8 0x8000000000000002 false true true true = true ∧ setsC 2 9 9 0 true false false false = true ∧
  setsC 0x12 9 8 0 true false false false = true ∧
  micro1 .oper (microState (alu 0xB 1 8 9)) 3 1 = true ∧ micro1 .oper (microState (alu 0xC 1 8 9)) 0x8000000000000001 1 = true ∧
  micro1 .oper (microState (alu 0xD 1 8 9)) 0x8000000000000001 1 = true ∧ micro1 .oper (microState (alu 0xE 1 8 9)) 3 1 = true ∧
  micro1 .oper (microState (alu 0xF 1 9 0)) 62 1 = true ∧ micro1 .oper (microState (alu 0x10 1 8 0)) 2 1 = true := by decide +kernel

theorem witness_Microwords_division :
  (microState 0).eng 1086 = { (microState 0).eng 1086 with divFree := 0, raises := [] } ∧
  divides 0 9 0x2AAAAAAAAAAAAAAB 38 false = true ∧ divides 1 9 0xD555555555555556 37 false = true ∧ divides 7 9 1 6 false = true ∧ divides 4 9 0 6 false = true ∧
  microRead (microState 0 zeroDivisor) 1086 zeroDivisor 10 = some 0 ∧
  nextIs (exec (.microDiv 1086 .clean) (microState (sys 3 1 8 10 0) zeroDivisor)) (fun t => (t.eng 1086).seqr.any (fun r => r.t[1] == BitVec.allOnes 64 && r.since == 3) &&
    (t.eng 1086).divFree == 12 && (t.eng 1086).raises.map (fun r => (r.due, r.issued, r.flags)) == [(12, 5, 0x20)]) ∧
  nextIs (exec (.microDiv 1086 .clean) (microState (sys 3 1 8 10 7) zeroDivisor)) (fun t => (t.eng 1086).seqr.any (fun r => r.t[1] == 1)) := by decide +kernel

theorem witness_Microwords_units : uwFmt (sys 1 1 8 9 0) = 3 ∧ uwOp (sys 3 1 8 9 3) = 3 ∧ uwArg (sys 3 1 8 9 3) = 3 ∧ (routineMode (routine 0x610)).1 = 0 ∧ mulInExec ((microState 0).eng 1086) = false ∧
  (vendorOp 0x30 0 false 0x8000000000000001 3 0x1111222233334444).2 = 0 ∧
  micro1 .microFma (microState (sys 1 1 8 9 0)) 4 4 = true ∧ micro1 .microMul (microState (sys 2 1 8 9 0)) 0x8000000000000003 3 = true ∧
  micro1 .microMul (microState (sys 2 1 8 9 2)) 1 3 = true ∧ micro1 .microDiv (microState (sys 3 1 8 9 2)) 0 38 = true ∧
  nextIs (exec (.microFma 1086 .clean) (microState (sys 1 1 8 9 0) { routine 0x610 with fma := false })) (fun t => (t.eng 1086).seqr == none && t.fld (ereg 1086 0x208) 24 4 == 5) := by decide +kernel

def jump (kind : BitVec 2) (csel : BitVec 3) (n : BitVec 2) (target : BitVec 11) : BitVec 32 := (2 : BitVec 2) ++ kind ++ csel ++ n ++ (0 : BitVec 12) ++ target

/-- A routine goes on at a microword, with its stack, after two cycles. -/
def goesOn (c : EngNo → Upset → Instr) (s : State) (upc : BitVec 11) (stack : List (BitVec 11)) : Bool :=
  nextIs (exec (c 1086 .clean) s) (fun t => (t.eng 1086).seqr.any (fun r => r.upc == upc && r.stack == stack && r.since == 2))

theorem witness_Microwords_branches : uwFmt (jump 0 0 0 0x7FF) = 2 ∧ brKind (jump 1 0 0 0x610) = 1 ∧ brKind (jump 2 0 0 0) = 2 ∧ (jump 2 0 0 0).extractLsb' 0 28 = 0 ∧
  branchTarget (microState (jump 0 0 0 0x7FF)) 1086 (routine 0x610) (jump 0 0 0 0x7FF) = some 0x7FF ∧
  branchTarget (microState (jump 0 3 2 0x610)) 1086 { routine 0x610 with xl := 0, xr := 0 } (jump 0 3 2 0x610) = some 0x613 ∧
  goesOn .microJmp (microState (jump 0 0 0 0x7FF)) 0x7FF [0x611] = true ∧ goesOn .microCall (microState (jump 1 0 0 0x610)) 0x610 [0x611, 0x611] = true ∧
  goesOn .microRet (microState (jump 2 0 0 0)) 0x611 [] = true := by decide +kernel

def frameRoutine : Routine := { routine 0x610 with xl := 0x7FF0 }

theorem witness_Microwords_frame : ((0x7FF0 : Word) + BitVec.ofNat 64 (8 * 1)).toNat % 8 = 0 ∧ ((0x7FF0 : Word) + BitVec.ofNat 64 (8 * 1)).toNat < 0x8000 ∧
  uwSb (sys 4 1 8 0 1) = 0 ∧ uwDst (sys 5 0 8 9 1) = 0 ∧ ((microState 0 frameRoutine).eng 1086).sx = none ∧
  micro1 .ldf ((microState (sys 4 1 8 0 1) frameRoutine).store (frameBase 1086 + 0x7FF8) 8 0x1234) 0x1234 2 = true ∧
  nextIs (exec (.stf 1086 .clean) (microState (sys 5 0 8 9 1) frameRoutine)) (fun t => t.load (frameBase 1086 + 0x7FF8) 8 == 3) := by decide +kernel

def p3Waits (s : State) : State := s.modEng 1086 (fun x => { x with fire := some { fireOf (opWord 7) 1 1 with pri := 3 } })

theorem witness_Microwords_poll : uwOp (sys 6 0 0 0 0) = 6 ∧ (sys 6 0 0 0 0).extractLsb' 0 25 = 0 ∧ eventPending (microState (sys 6 0 0 0 0)) 1086 (routine 0x610) false = false ∧
  eventPending (p3Waits (microState (sys 6 0 0 0 0))) 1086 (routine 0x610) false = true ∧ (sys 7 0 0 0 1).extractLsb' 1 24 = 0 ∧ (routine 0x610).fireSince = none ∧ (routine 0x610).strandSince = none ∧
  nextIs (exec (.poll 1086 .clean) (microState (sys 6 0 0 0 0))) (fun t => (t.eng 1086).seqr.any (fun r => r.upc == 0x611 && r.since == 1)) ∧
  nextIs (exec (.poll 1086 .clean) (p3Waits (microState (sys 6 0 0 0 0)))) (fun t => (t.eng 1086).seqr == none && (t.eng 1086).susp.any (fun r => r.upc == 0x611)) ∧
  nextIs (exec (.microEnd 1086 .clean) (microState (sys 7 0 0 0 1))) (fun t => (t.eng 1086).seqr == none && (t.eng 1086).results.map (fun r => (r.due, r.issued, r.toks.map (·.data))) == [(10, 5, [7])]) ∧
  nextIs (exec (.microEnd 1086 .clean) (microState (sys 7 0 0 0 0))) (fun t => (t.eng 1086).results.map (fun r => r.toks.map (·.data)) == [[]]) := by decide +kernel

def suspended : State := { up with engines := [(1086, { Engine.reset with susp := some (routine 0x610) })] }

/-- Entry words of the first and the last customer operation. -/
def entries (s : State) : State := (s.wr (ereg 1086 0x240) 0xE0000610).wr (ereg 1086 0x27C) 0xE00007FF

theorem witness_Microwords_start : (suspended.eng 1086).seqr = none ∧ (suspended.eng 1086).seqFree ≤ 0 ∧ eventPending suspended 1086 (routine 0x610) true = false ∧
  (nwOpc (opWord 0xE0)).toNat = 0xE0 ∧ (siSub (siW 1 3 1 2 0xEF)).toNat = 0xEF ∧ reaches up .host 1086 = true ∧ up.mark (uaddr 1086 (0x1FFC / 4)) = .clean ∧
  nextIs (exec (.routineResume 1086) suspended) (fun t => (t.eng 1086).susp == none && (t.eng 1086).seqr.any (fun r => r.readyAt == 2)) ∧
  nextIs (exec (.customerNode 1086) (entries (running (opWord 0xE0) 5 6))) (fun t => (t.eng 1086).exec == none && (t.eng 1086).seqr.any (fun r => r.upc == 0x610 && r.xl == 5 && r.xr == 6)) ∧
  nextIs (exec (.customerInstr 1086) (entries (strandState (issued (siW 1 3 1 2 0xEF) 5 6 7)))) (fun t => (t.eng 1086).sx == none && (t.eng 1086).seqr.any (fun r => r.upc == 0x7FF)) ∧
  nextIs (exec (.ucodeWindowRead .host 1086 0x1FFC .clean) { up with ucode := [(0x7FF, 0x89ABCDEF)] }) (fun t => SMap.get t.rdata (reqKey .host) 0 == 0x89ABCDEF) := by decide +kernel

def missing : Pending := { slot := 1, tok := inHash addWord tok0, asked := false, stale := false }

def lookingUp : State := { up with engines := [(1086, { Engine.reset with mpb := [missing] })] }

theorem witness_PrunerAgent_lookup : (lookingUp.eng 1086).mpb.find? (fun q => !q.asked) = some missing ∧ logicalOf lookingUp 1086 = some 1023 ∧
  bucketBits lookingUp 63 = 0 ∧
  nextIs (exec (.refillLookup 1086 .clean) lookingUp) (fun t => (t.plot 63).xfill.length == 2 && (t.eng 1086).mpb.all (·.asked)) := by decide +kernel

/-- A waiting operand with a key; a key, and another one of the same set. -/
def spilled (key : BitVec 40) : Entry := mkEntry 0 4 2 false false key 9

def ownKey : BitVec 40 := flitKey up 1086 tok0

def peerKey : BitVec 40 := ownKey ^^^ 0x20001

def seeking : Pending := { missing with tok := { missing.tok with set := slotSet up 1086 (spilled ownKey) } }

/-- A bucket array of the least size whose first probe bucket of the missing token's set holds these entries of slot 15. -/
def bucketed (ns : List Entry) : State :=
  let s : State := { up.wr (preg 63 0x104) 0x000A0000 with engines := [(1086, { Engine.reset with mpb := [seeking] })] }
  let k := 4 * (probes s 63 15 seeking.tok.set).headD 0
  let s : State := { s with plots := [(63, { Plot.reset with buckets := (List.range ns.length).map (fun j => (k + j, true)) })] }
  (List.range ns.length).foldl (fun t j =>
    let n := (ns.getD j 0) ||| ((15 : Entry) <<< 112)
    (t.store (bucketAddr s 63 (k + j)) 8 (n.extractLsb' 0 64)).store (bucketAddr s 63 (k + j) + 8) 8 (n.extractLsb' 64 64)) s

/-- The probe slots of the missing token's set that are in use. -/
def probed (s : State) : List Nat := usedProbes s 63 15 seeking.tok.set

/-- What the lookup answers: the payloads of the sheaf, and the slots in use after it. -/
def looksUp (s : State) (vs : List Entry) (used : Nat) : Bool :=
  nextIs (exec (.refillLookup 1086 .clean) s) (fun t =>
    (t.plot 63).xfill.length == 1 + vs.length && (t.plot 63).xfill.any (fun g => vs.any (fun v => g.2.payload == v)) &&
      ((t.plot 63).buckets.filter (·.2)).length == used && (t.eng 1086).mpb.all (·.asked))

theorem witness_PrunerAgent_buckets : 10 ≤ bucketBits (bucketed []) 63 ∧ ownKey ≠ peerKey ∧
  (logicalOf (bucketed [spilled ownKey, spilled peerKey]) 1086) = some 1023 ∧
  (probed (bucketed [spilled ownKey, spilled peerKey])).length = 2 ∧
  slotSet (bucketed []) 1086 (spilled peerKey) = seeking.tok.set ∧ ((bucketed []).eng 1086).mpb.find? (fun q => !q.asked) = some seeking ∧
  (probed (bucketed [spilled ownKey, spilled peerKey])).all (fun k => !slotBad (bucketed [spilled ownKey, spilled peerKey]) (bucketAddr (bucketed []) 63 k) 2) = true ∧
  bucketsHeld (bucketed [spilled ownKey, spilled peerKey]) 63 (probed (bucketed [spilled ownKey, spilled peerKey])) = [] ∧
  looksUp (bucketed [spilled ownKey, spilled peerKey]) [((spilled ownKey).extractLsb' 119 9) ++ (0 : BitVec 3) ++ (1 : BitVec 4) ++ (0 : BitVec 8) ++ (spilled ownKey).extractLsb' 0 104] 1 = true ∧
  looksUp (bucketed [spilled peerKey]) [(0 : BitVec 12) ++ (1 : BitVec 4) ++ (0 : BitVec 112)] 1 = true := by decide +kernel

/-- A plot whose inbound request queue holds 16 flits. -/
def stuffed : State := { up with queues := [(qkey 63 false 0, List.replicate 16 tok0)] }

/-- A plot in deposit mode with token-pool slots, a token at the crossbar and a deposit chain. -/
def depositing (ks : List Nat) : State :=
  { up.wr (preg 63 0x104) 0x00100000 with
    plots := [(63, { Plot.reset with depositMode := true, xreq := [(0, tok0)], deposit := ks })]
    engines := [(1086, { Engine.reset with inP1 := List.replicate 8 tok0 })] }

def deposited : State :=
  let s : State := { up.wr (preg 63 0x104) 0x00100000 with plots := [(63, { Plot.reset with depositMode := true, deposit := [1] })] }
  s.storeNat (poolAddr s 63 1) 20 tok0.toNat

theorem witness_PrunerAgent_deposit : (stuffed.plot 63).depositMode = false ∧ inboundFull stuffed 63 chReq = true ∧
  freePool (depositing []) 63 = some 0 ∧ depositable tok0 = true ∧ laneHolds (depositing []) tok0 = true ∧
  lookupWaits (depositing []) 63 = false ∧ placementWaits (depositing []) 63 = false ∧ poolHeld (depositing []) 63 [0] = [] ∧
  (slotWords (poolAddr (depositing []) 63 0) 4).all (fun w => !bankDark (depositing []) w && !wordBad (depositing []) w) = true ∧
  nextIs (exec (.depositModeEnter 63) stuffed) (fun t => (t.plot 63).depositMode) ∧
  nextIs (exec (.depositMove 63) (depositing [])) (fun t => (t.plot 63).deposit == [0] && (t.plot 63).xreq == []) := by
  decide +kernel

theorem witness_PrunerAgent_reinject : lookupWaits deposited 63 = false ∧ placementWaits deposited 63 = false ∧ depositWaits deposited 63 = false ∧
  poolHeld deposited 63 [1] = [] ∧ slotBad deposited (poolAddr deposited 63 1) 4 = false ∧ poolFlit deposited 63 1 = tok0 ∧
  slotOf deposited (poolFlit deposited 63 1).engOf = some 1086 ∧ retiring deposited 1023 = false ∧ intakeRoom (deposited.eng 1086) tok0 = true ∧
  nextIs (exec (.reinject 63) deposited) (fun t => (t.plot 63).xinj == [(0, tok0)] && (t.plot 63).deposit == [] && (t.plot 63).depositMode) := by
  decide +kernel

def closedWindow : State := { up with plots := [(63, { Plot.reset with windows := [window 1 2] })] }

def holding : State := { up.wr (preg 63 0x114) 0x01000000 with plots := [(63, { Plot.reset with spillIn := [(15, { set := 0, entries := [] })] })] }

/-- A plot in deposit mode with nothing left to move. -/
def drainedOut : State := { up with plots := [(63, { Plot.reset with depositMode := true })] }

theorem witness_PrunerAgent_modeEnds : (drainedOut.plot 63).deposit = [] ∧ (drainedOut.plot 63).xinj = [] ∧ heldHeads drainedOut 63 = [] ∧
  nextIs (exec (.depositMove 63) drainedOut) (fun t => !(t.plot 63).depositMode) := by decide +kernel

theorem witness_PrunerAgent_ends : logHeld holding = [] ∧ (closedWindow.plot 63).windows.find? (fun v => !ctxAllocated closedWindow 63 v.ctx) = some (window 1 2) ∧
  up.flag (preg 63 0x118) 0 = false ∧ plotIdle up 63 = true ∧ holding.fld (preg 63 0x114) 24 8 ≠ 0 ∧ unplaced holding 63 = true ∧
  CollectorFree { Detection.bare 0x23 with plot := some 63, locus := 63, a := (prnFill holding 63).setWidth 64 } holding ∧
  nextIs (exec (.windowEntryFree 63) closedWindow) (fun t => (t.plot 63).windows == []) ∧
  nextIs (exec (.plotQuiescent 63) up) (fun t => t.flag (preg 63 0x118) 0) ∧
  nextIs (exec (.prunerExhausted 63) holding) (fun t => t.flag (preg 63 0x118) 6) := by unfold CollectorFree; decide +kernel

def quiet : State := (List.range 64).foldl (fun s p => s.setFlag (preg p 0x118) 0 true) up

def auditing : State := { up.wr (breg .mesh 0x4000) 1 with time := { now := 1000, frac := 0, started := true, unlockAt := 0, row1 := true } }

theorem witness_PrunerAgent_device : quiet.flag (breg .mesh 0x4008) 16 = false ∧ deviceIdle quiet = true ∧
  auditing.fld (breg .mesh 0x4000) 0 16 ≠ 0 ∧ logHeld auditing = [] ∧ auditing.auditAt.toNat + 1000 * auditing.fld (breg .mesh 0x4000) 0 16 ≤ now auditing ∧
  nextIs (exec .deviceQuiescent quiet) (fun t => t.flag (breg .mesh 0x4008) 16) := by decide +kernel

def b64State : State := { up with engines := [(1086, { Engine.reset with fire := some (fireOf (opWord 0x40) 1 2) })] }

theorem witness_PrunerAgent_b64 : (∀ k, k < 16 → b64Post up (17 * 63 + k) = none) ∧ slotOf b64State 1023 = some 1086 ∧ inService b64State 1086 = true ∧
  (b64Post b64State 1086).any (fun r => r.1 == 0x40 && unitOfOpc r.1 != .b64iter) = true ∧ (∀ k, k < 15 → b64Post b64State (17 * 63 + k) = none) ∧
  nextIs (exec (.b64Grant 63) up) (fun t => (t.plot 63).b64cycle == 1) ∧
  nextIs (exec (.b64Grant 63) b64State) (fun t => (t.eng 1086).b64grant == some { fire := true, iter := false, cycle := 1 } && (t.plot 63).b64ptr == 15) := by decide +kernel

def queued : State := { up with queues := [(qkey 63 false 0, [tok0])] }

def atPlot : QueueKey := { site := 63, toMesh := false, chan := 0, input := 0 }

def twoBits : Flit := 3

theorem witness_MeshMoves_transfer : queued.q (qkey 63 false 0) = [tok0] ∧ tok0.last = true ∧ holdAt queued (holdQueue (qkey 63 false 0)) = none ∧
  readerRoom queued 63 0 false = true ∧ SMap.get queued.owed (qkey 63 false 0) 0 = 0 ∧ SMap.get queued.appends (qkey 63 false 0) 0 = 0 ∧ checkFlit tok0 = .clean ∧ malformedFlit tok0 = false ∧ tok0.dev = ownId queued ∧
  (match checkFlit (tok0 ^^^ twoBits) with | .bad _ => true | _ => false) = true ∧
  nextIs (exec (.queueTransfer atPlot 0) queued) (fun t => (t.plot 63).xreq == [(0, tok0)] && t.q (qkey 63 false 0) == []) ∧
  nextIs (exec (.queueTransfer atPlot twoBits) queued) (fun t => (t.plot 63).xreq == [] && t.fld (breg .mesh 0x14) 0 16 == 1) := by decide +kernel

def atPort : QueueKey := { site := 0x5F, toMesh := true, chan := 1, input := 0 }

def atPortState : State := { up with queues := [(qkey 0x5F true 1, [tok0])] }

/-- No bit of a read pointer's copies upset, and one bit of one of them. -/
def evenPtr : PtrView := { write := false, local0 := 0, local1 := 0, sync0 := 0, sync1 := 0, before0 := 0, before1 := 0, cycles := 7 }

def oddPtr : PtrView := { evenPtr with local1 := 4 }

/-- A queue whose reader has taken the head of a sheaf of two flits, and one whose writer has begun a sheaf. -/
def halfRead : State := { atPortState with holds := [(holdQueue (qkey 0x5F true 1), some (0x2000, 1))] }

def halfWritten : State := { up with queues := [(qkey 63 true 0, [tok0])], wleft := [(qkey 63 true 0, 2)] }

def outward : QueueKey := { atPlot with toMesh := true }

theorem witness_MeshMoves_queues : legalChan atPlot = true ∧ legalChan atPort = true ∧ holdAt atPortState (holdQueue (qkey 0x5F true 1)) = none ∧
  ptrMismatch (ptrSeen evenPtr 8 0 1) false 8 = false ∧ ptrMismatch (ptrSeen oddPtr 8 0 1) false 8 = true ∧ oddPtr.local0 ≠ oddPtr.local1 ∧ leftOf queued (qkey 63 false 0) = 0 ∧
  CollectorFree { Detection.bare 0x45 with locus := 0x095F, a := 1 } atPortState ∧
  nextIs (exec (.queueFlush atPlot) queued) (fun t => SMap.get t.flushing (qkey 63 false 0) false && t.queues == queued.queues) ∧
  nextIs (exec (.queueFlush atPlot) up) (fun t => t.flushing == []) ∧
  nextIs (exec (.queueReset ⟨atPort, evenPtr⟩) atPortState) (fun t => t == atPortState) ∧
  nextIs (exec (.queueReset ⟨atPort, oddPtr⟩) atPortState) (fun t => t.queues == [] && t.rd (breg .mesh 0x10) == 1) := by unfold CollectorFree; decide +kernel

theorem witness_MeshMoves_begun : holdAt halfRead (holdQueue (qkey 0x5F true 1)) = some (0x2000, 1) ∧ SMap.get halfRead.owed (qkey 0x5F true 1) 0 = 0 ∧
  nextIs (exec (.queueReset ⟨atPort, oddPtr⟩) halfRead) (fun t => SMap.get t.owed (qkey 0x5F true 1) 0 == 1 && t.rd (breg .mesh 0x10) == 2) ∧
  leftOf halfWritten (qkey 63 true 0) = 2 ∧ writerInReset halfWritten 63 true = false ∧
  nextIs (exec (.queueFlush outward) halfWritten) (fun t => SMap.get t.flushing (qkey 63 true 0) false && t.queues == halfWritten.queues) ∧
  writerInReset (halfWritten.modPlot 63 (fun x => { x with resetting := some { origin := .command, service := true } })) 63 true = true ∧
  nextIs (exec (.queueFlush outward) (halfWritten.modPlot 63 (fun x => { x with resetting := some { origin := .command, service := true } })))
    (fun t => t.q (qkey 63 true 0) == [tok0] ++ brokenFlits 2 && SMap.get t.dropping (qkey 63 true 0) false && t.rd (breg .mesh 0x10) == 2) := by decide +kernel

def hopTo (d : Nat) : Hop := { dest := d, at_ := 0, wait := 0, flit := tok0 }

def routing (d : Nat) : State := { up with routers := [(rkey 0 0 0, [hopTo d])] }

theorem witness_MeshMoves_router : asks (routing 63) 0 (routeOut 0 63) = [{ inp := 0, chan := 0, hop := hopTo 63 }] ∧ 0 < routeOut 0 63 ∧ (attach 63).1 ≠ 0 ∧
  neighbour 0 (routeOut 0 63) ≠ 0 ∧ holdAt (routing 63) (holdRouter 0 (routeOut 0 63) 0) = none ∧
  nextIs (exec (.routerFlit 0 2) (routing 63)) (fun t => t.routers.length == 1 && (rq t (rkey 0 0 0)) == [] && t.arrivals == 1) ∧
  nextIs (exec (.meshLinkselWrite .mc 0xFFFFFFFF) (up.wr (breg .mesh 0x1C) 5)) (fun t => t.rd (breg .mesh 0x1C) == 0 && t.fld (breg .mesh 0x18) 8 6 == 63) := by decide +kernel

def atFifo : QueueKey := { site := 0x80, toMesh := false, chan := 0, input := 0 }

theorem witness_MeshMoves_fifo : legalChan atFifo = true ∧ ptrMismatch (ptrSeen oddPtr (rcap 0) 0 1) true (rcap 0) = true ∧ fifoHold (routing 63) 0 0 0 = none ∧
  nextIs (exec (.queueReset ⟨atFifo, oddPtr⟩) (routing 63)) (fun t => rq t (rkey 0 0 0) == [] && t.rd (breg .mesh 0x10) == 1) := by decide +kernel

/-- Requests in RQ of the first quadrant's last mesh port. -/
def asking (fs : List Flit) (s : State) : State := setQuadRq 0 3 fs s

def grnRd (op : BitVec 3) : Flit := mkToken kGrnRead 1 false 2 (operandTag 0xFFF 1023 5 0 0 0) (readDesc op 0 0x7FFFFF)

def grnWr (op : BitVec 3) (mask : BitVec 8) : Flit := mkToken kGrnWrite 1 false 2 (addrTag 0xFFF 1023 0x7FFFFF 0 mask op 0) 0x1112131415161718

def wordState (p : BitVec 2) : State := setPres 0x7FFFFF p (up.store 0x3FFFFF8 8 0x2122232425262728)

/-- A request of one flit for the last word stands whole in RQ of the last port, and nothing keeps it from its bank. -/
def dueHere (f : Flit) (s : State) : Bool :=
  !sheafBroken [f] && !(([f] : List Flit).any Flit.poison) && takePacket (quadRq s 0 3) == ([f], []) && (List.range 4).all (fun i => quadTx s 0 i == []) && f.dev == ownId s &&
    requestWords f == [0x7FFFFF] && bankState s (bankOf 0x7FFFFF) == .on && !borrowed s 0x7FFFFF && !wordBad s 0x7FFFFF &&
    s.mark (wbyte 0x7FFFFF) == .clean && permitted s (askerFlit s f) false 0x7FFFFF && permitted s (askerFlit s f) true 0x7FFFFF

theorem due_of_dueHere (f : Flit) (s : State) (h : dueHere f s = true) : GrnDue s 0 3 f [] [] := by
  simp only [dueHere, Bool.and_eq_true, beq_iff_eq, List.all_eq_true, List.mem_range, Bool.not_eq_true'] at h
  obtain ⟨⟨⟨⟨⟨⟨⟨⟨⟨⟨⟨hb, hp⟩, h1⟩, h3⟩, h4⟩, h5⟩, h6⟩, h7⟩, h8⟩, h9⟩, h10⟩, h11⟩ := h
  refine ⟨h1, h3, h4, hb, hp, ?_⟩
  rw [h5]
  intro w hw
  obtain rfl := List.mem_singleton.mp hw
  exact ⟨h6, h7, h8, h9, h10, h11⟩

/-- A request is answered by a reply or not at all, and the word is left with a presence and a content. -/
def served (c : Instr) (s : State) (p : BitVec 2) (v : Word) (replies : List Word) : Bool :=
  nextIs (exec c s) (fun t => presOf t 0x7FFFFF == p && grnWord t 0x7FFFFF == v && t.queues.flatMap (fun q => q.2.map (·.data)) == replies)

/-- A word that is DEFERRED with a reader parked. -/
def parkedState : State := setQuad 0 { Quad.reset with dir := [{ word := 0x7FFFFF, readers := [grnRd 0], ring := false, passes := 0 }] } (wordState pDeferred)

theorem witness_GranaryRequests_reads : dueHere (grnRd 0) (asking [grnRd 0] (wordState pFull)) = true ∧ dueHere (grnRd 1) (asking [grnRd 1] (wordState pEmpty)) = true ∧
  [0, 1, 2, 3].all (fun op => goodRead up (grnRd op) && rdOp (grnRd op).data == op) = true ∧
  served (.grnRead 0 3 .clean) (asking [grnRd 0] (wordState pFull)) pFull 0x2122232425262728 [0x2122232425262728] = true ∧
  served (.grnTake 0 3 .clean) (asking [grnRd 1] (wordState pFull)) pEmpty 0x2122232425262728 [0x2122232425262728] = true ∧
  served (.grnTas 0 3 .clean) (asking [grnRd 3] (wordState pFull)) pFull 1 [0x2122232425262728] = true ∧
  served (.pres 0 3 .clean) (asking [grnRd 2] (wordState pFull)) pFull 0x2122232425262728 [1] = true ∧
  served (.grnTake 0 3 .clean) (asking [grnRd 1] (wordState pEmpty)) pDeferred 0x2122232425262728 [] = true := by decide +kernel

theorem witness_GranaryRequests_writes : dueHere (grnWr 1 0x81) (asking [grnWr 1 0x81] (wordState pFull)) = true ∧ dueHere (grnWr 1 0xFF) (asking [grnWr 1 0xFF] parkedState) = true ∧
  [0, 1, 2].all (fun op => !badAddrTag kGrnWrite (grnWr op 0x81).tag) = true ∧
  served (.keep 0 3 .clean) (asking [grnWr 0 0x81] (wordState pEmpty)) pEmpty 0x1122232425262718 [0] = true ∧
  served (.fill 0 3 .clean) (asking [grnWr 1 0x81] (wordState pEmpty)) pFull 0x1122232425262718 [0] = true ∧
  served (.clear 0 3 .clean) (asking [grnWr 2 0x81] (wordState pFull)) pEmpty 0x2122232425262728 [0] = true ∧
  served (.fill 0 3 .clean) (asking [grnWr 1 0xFF] parkedState) pFull 0x1112131415161718 [0, 0x1112131415161718] = true := by decide +kernel

def blkRd : Flit := mkToken kBlkRead 1 false 2 (addrTag 0xFFF 1023 0 1 0 0 0) (readDesc 0 0 0x7FFFFE)

/-- A sheaf from a device of an ID, to which its acknowledgement goes. -/
def sheafFrom (dev : BitVec 12) : List Flit :=
  mkSheaf kSheafReq 1 false 2 (addrTag 0xFFF 0 0x7FFFFE 0 0 0 0) (dev ++ (0 : BitVec 52)) [(0x88112233445566771122334455667788, false)]

def wordSheaf : List Flit := sheafFrom 0

def sheafDue : List Flit → Bool
  | [f, g] => takePacket [f, g] == ([f, g], []) && !sheafBroken [f, g] && !badSheaf f [g] && !badAddrTag f.kind f.tag && !crossesBlock (requestWords f) && f.len == 0
  | _ => false

/-- A block read of the last two words stands whole in RQ, and nothing keeps it from its bank. -/
def blkDue (s : State) : Bool :=
  takePacket (quadRq s 0 3) == ([blkRd], []) && blkRd.last && blkRd.dev == ownId s && requestWords blkRd == [0x7FFFFE, 0x7FFFFF] &&
    bankState s (bankOf 0x7FFFFE) == .on && !borrowed s 0x7FFFFE && !wordBad s 0x7FFFFE && s.mark (wbyte 0x7FFFFE) == .clean &&
    permitted s (askerFlit s blkRd) false 0x7FFFFE && permitted s (askerFlit s blkRd) true 0x7FFFFE

/-- A read stands in the deferred ring, at its first entry. -/
def ringed (s : State) : State :=
  let t := setQuad 0 { Quad.reset with ring := [0], ringWr := 1, replay := true } s
  t.storeNat (ringAddr t 0 0) 20 (grnRd 0).toNat

def replaying : State := ringed (wordState pFull)

theorem witness_GranaryRequests_blocks : blkDue (asking [blkRd] (wordState pFull)) = true ∧ badReadDesc blkRd.kind blkRd.data = false ∧ badAddrTag blkRd.kind blkRd.tag = false ∧
  crossesBlock (requestWords blkRd) = false ∧ sheafDue wordSheaf = true ∧ (quad replaying 0).ring = [0] ∧ ringFlit replaying 0 0 = grnRd 0 ∧ checkFlit (grnRd 0) = .clean ∧ goodRead replaying (grnRd 0) = true ∧
  (rdAddr (grnRd 0).data :: slotWords (ringAddr replaying 0 0) 4).all (fun x => bankState replaying (bankOf x) == .on && !borrowed replaying x && !wordBad replaying x) = true ∧
  replaying.mark (wbyte 0x7FFFFF) = .clean ∧
  (∀ i, i < 4 → quadTx replaying 0 i = []) ∧
  nextIs (exec (.blkRead 0 3 .clean) (asking [blkRd] (wordState pFull))) (fun t => t.queues.flatMap (fun q => q.2.map (fun f => Flit.payload f)) == [blkRd.tag ++ (0 : Word), 0x21222324252627280000000000000000]) ∧
  nextIs (exec (.sheafReq 0 3 .clean) (asking wordSheaf up)) (fun t => t.queues.all (fun q => q.2.isEmpty) && (recOf t 64).any (fun r => r.code == 0x42)) ∧
  nextIs (exec (.sheafReq 0 3 .clean) (asking (sheafFrom 0xFFF) up)) (fun t => t.queues.map (fun q => q.2.map (·.kind)) == [[kGrnAck]]) ∧ sheafDue (sheafFrom 0xFFF) = true ∧
  nextIs (exec (.sheafReq 0 3 .clean) (asking wordSheaf up)) (fun t => grnWord t 0x7FFFFE == 0x1122334455667788 && grnWord t 0x7FFFFF == 0x8811223344556677) ∧
  nextIs (exec (.deferredReplayPass 0) replaying) (fun t => (quad t 0).ring == [] && t.queues.flatMap (fun q => q.2.map (·.data)) == [0x2122232425262728]) := by decide +kernel

def lastWord : BitVec 23 := 0x7FFFFF

/-- The last word is in a bank that is ON, free to an accessor, and correct. -/
def open_ (s : State) (req : Requester) : Bool :=
  bankState s (bankOf lastWord) == .on && !borrowed s lastWord && !wordBad s lastWord && s.mark (wbyte lastWord) == .clean &&
    permitted s (askerOf req) false lastWord && permitted s (askerOf req) true lastWord

def portState : State := (wordState pEmpty |>.wr (breg .grn 0x64) 0x7FFFFF).wr (breg .grn 0x68) 0xFFFFFFFF

theorem witness_GranaryBanks_access : open_ (wordState pEmpty) .host = true ∧ open_ portState .host = true ∧
  portState.fld (breg .grn 0x64) 0 23 = lastWord.toNat ∧ presOf portState lastWord ≠ pDeferred ∧
  nextIs (exec (.peek .host (lastWord ++ (0 : BitVec 3)) 8 .clean) (wordState pEmpty)) (fun t => SMap.get t.rdata (reqKey .host) 0 == 0x2122232425262728) ∧
  nextIs (exec (.peek .host (lastWord ++ (0 : BitVec 3)) 1 .clean) (wordState pEmpty)) (fun t => SMap.get t.rdata (reqKey .host) 0 == 0x28) ∧
  nextIs (exec (.presencePortGo .host 0x109 .clean) portState) (fun t => grnWord t lastWord == 0xFFFFFFFF && presOf t lastWord == pFull && t.fld (breg .grn 0x60) 28 2 == 0) := by decide +kernel

/-- One operation of the presence port on the last word: the word and its presence after it, and GRN_POP_DATA. -/
def pops (p : BitVec 2) (v : Reg32) (x : Word) (q : BitVec 2) (data : Word) : Bool :=
  let s := ((wordState p).wr (breg .grn 0x64) 0x7FFFFF).wr64 (breg .grn 0x68) 0xF0F1F2F3F4F5F6F7
  open_ s .mc && nextIs (exec (.presencePortGo .mc v .clean) s) (fun t => grnWord t lastWord == x && presOf t lastWord == q &&
    t.rd64 (breg .grn 0x68) == data && t.flag (breg .grn 0x60) 30 && t.fld (breg .grn 0x60) 28 2 == p.toNat)

theorem witness_GranaryBanks_port : outsider .mc = false ∧ portQueued (wordState pFull) lastWord = false ∧
  pops pFull 0x108 0xF0F1F2F3F4F5F6F7 pFull 0xF0F1F2F3F4F5F6F7 = true ∧ pops pDeferred 0x108 0xF0F1F2F3F4F5F6F7 pDeferred 0xF0F1F2F3F4F5F6F7 = true ∧
  pops pFull 0x109 0xF0F1F2F3F4F5F6F7 pFull 0xF0F1F2F3F4F5F6F7 = true ∧ pops pFull 0x10A 0x2122232425262728 pEmpty 0xF0F1F2F3F4F5F6F7 = true ∧
  pops pDeferred 0x10A 0x2122232425262728 pDeferred 0xF0F1F2F3F4F5F6F7 = true ∧ pops pDeferred 0x102 0x2122232425262728 pDeferred 2 = true ∧
  pops pEmpty 0x104 0x2122232425262728 pEmpty 0x2122232425262728 = true ∧ pops pFull 0x100 0x2122232425262728 pFull 0x2122232425262728 = true ∧
  pops pFull 0x101 0x2122232425262728 pEmpty 0x2122232425262728 = true ∧ pops pFull 0x103 1 pFull 0x2122232425262728 = true ∧
  pops pEmpty 0x101 0x2122232425262728 pEmpty 0xF0F1F2F3F4F5F6F7 = true ∧ pops pDeferred 0x103 0x2122232425262728 pDeferred 0xF0F1F2F3F4F5F6F7 = true := by decide +kernel

def marked : State := up.setMark (wbyte lastWord) .single

/-- The same while a request for another word of the bank stands at a mesh port. -/
def contested : State := asking [mkToken kGrnRead 1 false 2 (operandTag 0xFFF 1023 5 0 0 0) (readDesc 0 0 0x7FFF7F)] marked

def banksAt (s : BankState) : State := { wordState pFull with banks := [(127, s)] }

def asleep (v : Reg32) : State := { (wordState pEmpty).wr (breg .grn 0x10C) v with bankQ := [127] }

theorem witness_GranaryBanks_power : marked.mark (wbyte lastWord) = .single ∧ borrowed marked lastWord = false ∧ up.profile ≠ .p0100 ∧
  up.flag (breg .grn 0x200) 31 = false ∧ (up.setFlag (breg .grn 0x200) 31 true).flag (breg .grn 0x200) 31 = true ∧ bankShown up 127 ≠ 0 ∧
  bankState (banksAt (.waking true)) 127 = .waking true ∧ bankAsked (asleep 0x7FFFFFFF) 127 ≠ 3 ∧ (quad (asleep 0) 0).borrow = none ∧
  rivals marked (quadOf lastWord) 0 lastWord = [] ∧ bankOf 0x7FFF7F = bankOf lastWord ∧ rivals contested (quadOf lastWord) 0 lastWord = [3] ∧
  (headWords contested (quadOf lastWord) 3).head? = some 0x7FFF7F ∧
  nextIs (exec (.grnEccWriteback lastWord) marked) (fun t => t.marks == []) ∧
  nextIs (exec (.grnEccWriteback lastWord) contested) (fun t => t.mark (wbyte lastWord) == .single && t.rd (breg .grn (0x10 + 4 * quadOf lastWord)) == 1) ∧
  nextIs (exec (.bankRequest .host 3 0x7FFFFFFF) up) (fun t => t.bankQ == [127] && t.flag (breg .grn 0x200) 31 && t.rd (breg .grn 0x10C) == 0x7FFFFFFF) ∧
  nextIs (exec (.bankRequest .host 3 0x7FFFFFFF) (up.setFlag (breg .grn 0x200) 31 true)) (fun t => t.bankQ == [] && t.flag (breg .grn 4) 7) ∧
  nextIs (exec (.bankWakeComplete 127) (banksAt (.waking true))) (fun t => bankState t 127 == .on && t.mem == [] && t.pres == []) ∧
  nextIs (exec (.bankWakeComplete 127) (banksAt (.waking false))) (fun t => bankState t 127 == .on && grnWord t lastWord == 0x2122232425262728) := by decide +kernel

/-- The presence port is busy; it waits for a bank that wakes; and a reaction is in progress. -/
def popBusy : State := { portState with pop := some { req := .host, wr := true, op := 1, word := lastWord, data := 5 } }

def popWakes : State := { portState with banks := [(127, .waking true)] }

def queuedReaction (s : State) : State := { s with sieve := { s.sieve with queue := [63] } }

theorem witness_GranaryBanks_waits : popBusy.pop ≠ none ∧ bankWaking popWakes lastWord = true ∧ permitted popWakes (askerOf .host) true lastWord = true ∧
  reacting (queuedReaction up) = true ∧
  nextIs (exec (.presencePortGo .host 0x109 .clean) popBusy) (fun t => t.flag (breg .grn 4) 7 && t.pop == popBusy.pop) ∧
  nextIs (exec (.presencePortGo .host 0x109 .clean) popWakes) (fun t => t.pop == some { req := .host, wr := true, op := 1, word := lastWord, data := 0xFFFFFFFF }) ∧
  nextIs (exec (.bankRequest .host 3 0x7FFFFFFF) (queuedReaction up)) (fun t => t.bankWait && t.bankQ == [] && t.rd (breg .grn 0x10C) == 0x7FFFFFFF) := by decide +kernel

def sleepHolds : State := ringed (asleep 0x7FFFFFFF)

theorem witness_GranaryBanks_sleep : bankHolds sleepHolds 127 = true ∧ bankHolds (asleep 0x7FFFFFFF) 127 = false ∧
  nextIs (exec (.bankSleep 127) (asleep 0x7FFFFFFF)) (fun t => bankState t 127 == .off && t.bankQ == []) ∧
  nextIs (exec (.bankSleep 127) sleepHolds) (fun t => bankState t 127 == .on && t.flag (breg .grn 0x200) 30 && t.fld (breg .grn 0x200) 0 9 == 127) := by decide +kernel

/-- A device with a function of the last descriptor at the Dibber's command port. -/
def submitted (fn : BitVec 6) (v : Word) (x : Desc) : State :=
  (((up.wr (breg .dib 0x20) ((1 : BitVec 1) ++ (0 : BitVec 9) ++ fn ++ (0x3FFF : BitVec 16))).wr64 (breg .dib 0x24) v).setDesc 16383 x)

def inState (st : DState) : Desc := { Desc.free with state := st, base := 3, epri := 3 }

/-- The function is at the port, and after it the port is free, with the descriptor as given. -/
def applies (c : Instr) (fn : BitVec 6) (v : Word) (x y : Desc) (refused : Bool := false) : Bool :=
  let s := submitted fn v x
  s.flag (breg .dib 0x20) 31 && s.fld (breg .dib 0x20) 16 6 == fn.toNat && s.fld (breg .dib 0x20) 0 14 == 16383 &&
    s.rd64 (breg .dib 0x24) == v && blockTx s siteDib == [] &&
    nextIs (exec c s) (fun t => t.desc 16383 == y && !t.flag (breg .dib 0x20) 31 && t.flag (breg .dib 0x20) 30 && t.flag (breg .dib 0x20) 29 == refused)

theorem witness_DibberFunctions_states :
  applies .wake 1 7 (inState .idle) { inState .ready with deliver := some 7 } = true ∧
  applies .wake 1 7 (inState .running) { inState .running with wakeVal := 7, pw := true } = true ∧ applies .wake 1 7 Desc.free Desc.free = true ∧
  applies .cancel 2 0 (inState .waiting) { inState .cancelled with can := true } = true ∧
  applies .resume 3 0 (inState .trapped) (inState .ready) = true ∧
  applies .dibInit 4 0x011F8001 Desc.free { Desc.free with state := .idle, base := 31, epri := 31, k := true, aff := 0x8001 } = true ∧
  applies .release 5 0 (inState .cancelled) Desc.free = true ∧
  applies .setpri 6 31 (inState .idle) { inState .idle with base := 31, epri := 31 } = true ∧
  applies .setaff 7 0xFFFF (inState .idle) { inState .idle with aff := 0xFFFF } = true ∧
  applies .migrate 8 0 (inState .trapped) { Desc.free with fwdV := true } = true ∧
  applies .cancel 2 0 Desc.free Desc.free true = true ∧ applies .setpri 6 31 Desc.free Desc.free true = true ∧ applies .setaff 7 1 Desc.free Desc.free true = true ∧
  applies .query 0x10 0 (inState .idle) (inState .idle) = true := by decide +kernel

/-- A strand or a standby strand of the last descriptor on engine 1023, with its descriptor in a state. -/
def placed_ (x : Desc) : State :=
  let s := submitted 2 0 x
  { s with dib := { s.dib with sby := [(1023, some 16383)], ready := [(63, [16382, 16383])] }
           engines := [(1086, { Engine.reset with strand := some { aStrand with desc := 16383 } })] }

theorem witness_DibberFunctions_cancels : QueueTakes (placed_ (inState .standby)) (qkey siteDib true chCtl) (qcap siteDib chCtl) 1 ∧ engAt (placed_ Desc.free) 1023 = 1086 ∧
  applies .wake 1 7 { inState .trapped with pw := true, wakeVal := 5 } { inState .trapped with pw := true, wakeVal := 7, wovr := 1 } = true ∧
  applies .wake 1 7 { inState .standby with pw := true, wovr := 0xFFFF } { inState .standby with pw := true, wakeVal := 7, wovr := 0xFFFF } = true ∧
  applies .wake 1 7 (inState .cancelled) { inState .cancelled with mrc := true } = true ∧
  applies .cancel 2 0 { inState .ready with deliver := some 3, pw := true } { inState .cancelled with can := true } = true ∧
  applies .cancel 2 0 (inState .cancelled) { inState .cancelled with can := true } = true ∧
  applies .cancel 2 0 (inState .standby) { inState .cancelled with can := true, stopping := true } = true ∧
  applies .cancel 2 0 (inState .running) { inState .cancelled with can := true, stopping := true } = true ∧
  nextIs (exec .wake (submitted 1 7 { inState .ready with pw := true })) (fun t => t.fld (breg .dib 8) 0 16 == 1) ∧
  nextIs (exec .wake (submitted 1 7 (inState .cancelled))) (fun t => t.fld (breg .dib 8) 16 16 == 1) ∧
  nextIs (exec .cancel (placed_ { inState .standby with sent := some 1023 })) (fun t => t.dib.outst.map (fun o => (o.eng, o.desc, o.recalling)) == [(1023, 16383, true)] &&
    (t.q (qkey siteDib true chCtl)).map (·.kind) == [kDispatch] && readyOf t 63 == [16382]) ∧
  nextIs (exec .cancel (placed_ (inState .standby))) (fun t => t.dib.outst.isEmpty && t.queues.isEmpty) ∧
  nextIs (exec .cancel (placed_ { inState .running with lastEng := 1023 })) (fun t => (t.eng 1086).stop) ∧
  nextIs (exec .cancel (placed_ { inState .running with lastEng := 1022 })) (fun t => !(t.eng 1086).stop) := by unfold QueueTakes; decide +kernel

def raised : State := ((up.wr (breg .dib 0x20) 0x8018000F).wr (breg .dib (0x1000 + 4 * 2047)) 0xFFFFFFFF)

def finding : State := up.wr (breg .dib 0x20) 0x8011003F

theorem witness_DibberFunctions_plain : raised.fld (breg .dib 0x20) 0 14 = 15 ∧ finding.fld (breg .dib 0x20) 0 14 = 63 ∧
  ((routeOf raised 2047).str = true ∨ (routeOf raised 2047).msi = true) ∧
  nextIs (exec .raise raised) (fun t => (SMap.get t.dib.events 2047 Event.none).pend) ∧
  nextIs (exec .findfree finding) (fun t => t.rd64 (breg .dib 0x2C) == 16128) := by decide +kernel

def copying : State := (({ up with dib := { up.dib with migr := [(0, 16383)] } }).setDesc 16383 { inState .idle with moving := true }).store (ctxBase 0 + 184) 8 0x1122334455667788

def inheriting : State := { up.setDesc 16383 (inState .idle) with lck := { up.lck with direct := [.inh 16383 (some 31)] } }

theorem witness_DibberFunctions_moves : copying.dib.migr = [(0, 16383)] ∧ inheriting.lck.direct = [.inh 16383 (some 31)] ∧
  (inState .idle).base.toNat < (31 : BitVec 5).toNat ∧
  nextIs (exec .migrateCopyDone copying) (fun t => t.load (ctxBase 16383 + 184) 8 == 0x1122334455667788 && t.desc 16383 == inState .idle) ∧
  nextIs (exec .inheritanceUpdate inheriting) (fun t => t.desc 16383 == { inState .idle with inh := 31, inhV := true, epri := 31 }) := by decide +kernel

/-- The last plot has sent a notice about the last descriptor. -/
def noticed (n : Notice) (x : Desc) : State := { up.setDesc 16383 x with plots := [(63, { Plot.reset with notices := [n] })], dib := { (up.setDesc 16383 x).dib with halt := [(1023, false)] } }

/-- A notice leaves the last descriptor as given. -/
def leaves (c : PlotNo → Instr) (n : Notice) (x y : Desc) : Bool :=
  nextIs (exec (c 63) (noticed n x)) (fun t => t.desc 16383 == y && (t.plot 63).notices == [])

def standing : Desc := { inState .standby with aff := 0xFFFF, sent := some 1023 }

theorem witness_StrandScheduling_notices : haltedAt (noticed (.run 16383 1023) standing) 1023 = false ∧ admits standing 1023 = true ∧
  accessPending (noticed (.leave 16383 .exit 0) (inState .running)) 63 16383 = false ∧
  leaves .noticeRun (.run 16383 1023) { standing with deliver := some 7 } { standing with state := .running, lastEng := 1023, sent := none, wakes := 1 } = true ∧
  leaves .loaded (.loaded 16383 1023) standing standing = true ∧
  leaves .recalled (.recalled 16383 1023) standing { standing with state := .ready, sent := none } = true ∧
  leaves .leave (.leave 16383 .preempt 0) (inState .running) (inState .ready) = true ∧ leaves .leave (.leave 16383 .yield 0) (inState .running) (inState .ready) = true ∧
  leaves .leave (.leave 16383 .trap 0) (inState .running) (inState .trapped) = true ∧ leaves .leave (.leave 16383 .exit 0) (inState .running) (inState .idle) = true ∧
  leaves .leave (.leave 16383 .await 0) { inState .running with pw := true, wakeVal := 5 } { inState .ready with wakeVal := 5, deliver := some 5 } = true ∧
  leaves .leave (.leave 16383 .await 0) (inState .running) (inState .waiting) = true ∧
  leaves .leave (.leave 16383 .await 9) (inState .running) { inState .waiting with deadline := 9 } = true ∧
  leaves .accessDone (.accessDone 16383 false) { inState .running with accHold := true } (inState .running) = true ∧
  nextIs (exec (.halt 63) (noticed (.halt 1023 true) Desc.free)) (fun t => haltedAt t 1023) = true := by decide +kernel

def selecting : State :=
  { up.setDesc 16383 { inState .ready with aff := 0x8000 } with dib := { (up.setDesc 16383 { inState .ready with aff := 0x8000 }).dib with ready := [(63, [16383])], halt := [(1023, false)] } }

def dispatchFlit : Flit := mkToken kDispatch 3 false 0 ((0xFFF : BitVec 12) ++ (1023 : BitVec 10) ++ (16383 : BitVec 14) ++ (0 : BitVec 28)) 7

def dispatching : State := { up.setDesc 16383 (inState .standby) with engines := [(1086, { Engine.reset with dispIn := [dispatchFlit] })] }

def standbyOf (pri : BitVec 5) : Standby := { desc := 16383, ctx := { Ctx.zero with pc := 0x104, waitWord := 0x103 }, k := false, epri := pri, value := 7, timeout := true }

def switching : State := { up with engines := [(1086, { Engine.reset with standby := some (standbyOf 3), cycle := 9 })] }

def sharing : State :=
  { up.wr (breg .dib 0) 0x00010000 with engines := [(1086, { Engine.reset with standby := some (standbyOf 3), strand := some { aStrand with epri := 3 } })], time := { now := 1000, frac := 0, started := true, unlockAt := 0, row1 := true } }

theorem witness_StrandScheduling_engines : plotGone selecting 63 = false ∧ blockTx selecting siteDib = [] ∧
  selectFor selecting 63 (engineOrder selecting 63) = some (1023, 16383, none) ∧ dispatchFlit.poison = false ∧ tagDesc dispatchFlit.tag = 16383 ∧
  dispatchFlit.tag.extractLsb' 0 28 = 0 ∧ inService switching 1086 = true ∧ execOlder (switching.eng 1086) = false ∧ quantum sharing = 1 ∧ 0 + 1000 * quantum sharing ≤ now sharing ∧
  nextIs (exec (.selectDispatch 63) selecting) (fun t => t.desc 16383 == { inState .standby with aff := 0x8000, sent := some 1023 } && readyOf t 63 == [] && t.dib.outst.map (·.eng) == [1023]) ∧
  nextIs (exec (.dispatch 1086) dispatching) (fun t => (t.eng 1086).standby.map (fun b => (b.desc, b.value, b.epri)) == some (16383, 7, 3) && (t.plot 63).notices == [.loaded 16383 1023]) ∧
  nextIs (exec (.switchStart 1086) switching) (fun t => (t.eng 1086).standby == none &&
    (t.eng 1086).strand.map (fun y => (y.npc, y.issueAt, y.ctx.w[3], y.ctx.flags)) == some (0x104, 17, 7, 4) && (t.plot 63).notices == [.run 16383 1023]) ∧
  nextIs (exec (.quantumExpiry 1086) sharing) (fun t => (t.eng 1086).strand.any (·.quantum)) := by decide +kernel

/-- A strand that is to leave and has drained, and one that outranks the standby strand. -/
def leaver : State := { up with engines := [(1086, { Engine.reset with strand := some { aStrand with leave := some (.await, 77) }, cycle := 9 })] }

def outranked : State := { up with engines := [(1086, { Engine.reset with standby := some (standbyOf 3), strand := some { aStrand with epri := 5 }, cycle := 9 })] }

theorem witness_StrandScheduling_leaves : inService leaver 1086 = true ∧ execOlder (leaver.eng 1086) = false ∧
  strandDrained (leaver.eng 1086) { aStrand with leave := some (.await, 77) } = true ∧ (outranked.eng 1086).stop = false ∧
  nextIs (exec (.switchStart 1086) leaver) (fun t => (t.eng 1086).strand == none && (t.plot 63).notices == [.leave 5 .await 77] &&
    t.load (ctxBase 5) 8 == (ctxWords (drained 9 { aStrand with leave := some (.await, 77) })).headD 0) ∧
  nextIs (exec (.switchStart 1086) outranked) (fun t => t == outranked) := by decide +kernel

/-- A strand that leaves the engine to the standby strand: as it asked, stopped, preempted, or at the end of its quantum. -/
def switching2 (y : Strand) (pri : BitVec 5) (stop : Bool) : State :=
  { up with engines := [(1086, { Engine.reset with standby := some { standbyOf pri with desc := 9 }, strand := some y, stop := stop, cycle := 9 })] }

def switchesTo (c : EngNo → Instr) (s : State) (why : LeaveReason) (dl : Word) : Bool :=
  nextIs (exec (c 1086) s) (fun t => let x := t.eng 1086
    x.standby == none && !x.stop && x.strand.any (fun z => z.desc == 9 && z.issueAt == 17 && z.leave == none) &&
      (t.plot 63).notices == [.run 9 1023, .leave 5 why dl])

theorem witness_StrandScheduling_switches : inService (switching2 aStrand 3 true) 1086 = true ∧ execOlder ((switching2 aStrand 3 true).eng 1086) = false ∧
  strandDrained ((switching2 aStrand 3 true).eng 1086) aStrand = true ∧ aStrand.block = .none ∧
  switchesTo .switchStart (switching2 { aStrand with leave := some (.exit, 0) } 3 false) .exit 0 = true ∧ switchesTo .switchStart (switching2 aStrand 0 true) .stop 0 = true ∧
  switchesTo .switchStart (switching2 { aStrand with epri := 2 } 3 false) .preempt 0 = true ∧ switchesTo .switchStart (switching2 { aStrand with epri := 3, quantum := true } 3 false) .quantum 0 = true ∧
  nextIs (exec (.switchStart 1086) (switching2 { aStrand with leave := some (.exit, 0) } 3 false)) (fun t => t.mem == []) ∧
  nextIs (exec (.switchStart 1086) (switching2 { aStrand with epri := 2 } 3 false)) (fun t => t.load (ctxBase 5) 8 == (ctxWords (drained 9 aStrand)).headD 0) ∧
  nextIs (exec (.switchStart 1086) { up with engines := [(1086, { Engine.reset with strand := some aStrand, stop := true, cycle := 9 })] })
    (fun t => (t.eng 1086).strand == none && !(t.eng 1086).stop && (t.plot 63).notices == [.leave 5 .stop 0]) := by decide +kernel

def overdue : State :=
  { up.setDesc 16383 { inState .waiting with deadline := 9 } with dib := { (up.setDesc 16383 { inState .waiting with deadline := 9 }).dib with deadlines := [(9, 16383)] }, time := { now := 9, frac := 0, started := true, unlockAt := 0, row1 := true } }

theorem witness_StrandScheduling_deadline : overdue.dib.deadlines = [(9, 16383)] ∧ (9 : BitVec 64).toNat ≤ now overdue ∧
  nextIs (exec .deadlineExpiry overdue) (fun t => t.desc 16383 == { inState .ready with tmo := true } && readyOf t 63 == [16383] && t.dib.deadlines == []) := by decide +kernel

/-- The last event is pending, with a route to the last descriptor, which is idle, and to the last vector. -/
def pendingEvent (route : Reg32) : State :=
  let s := (routed 2047 route up).setDesc 16383 (inState .idle)
  { s with dib := { s.dib with events := [(2047, { pend := true, count := 3, stamp := 9 })] } }

theorem witness_EventsServed_serve : (pendingEvent 0x20003FFF).stored ∧ (pendingEvent 0x20003FFF).sieve.diverged.contains 0x45 = false ∧
  (routeOf (pendingEvent 0x20003FFF) 2047).desc = 16383 ∧ (routeOf (pendingEvent 0xC00FC000) 2047).urg = true ∧
  (pendingEvent 0x20003FFF).dib.evPtr.toNat ≤ 2047 ∧ vectorOpen (pendingEvent 0xC00FC000) 63 = false ∧
  vectorOpen ((((pendingEvent 0xC00FC000).wr (breg .bar4 0x10000) 5).wr (breg .bar4 (0x800C + 16 * 63)) 0)) 63 = true ∧
  nextIs (exec .eventServe (pendingEvent 0x20003FFF)) (fun t => t.dib.events == [] && t.desc 16383 == { inState .ready with deliver := some 0x00000009000307FF } && t.dib.evPtr == 0) ∧
  nextIs (exec .eventServe (pendingEvent 0xC00FC000)) (fun t => t.dib.events == [] && t.host.pba == [63] && t.desc 16383 == inState .idle) := by
  unfold State.stored; decide +kernel

theorem witness_EventsServed_writes : (up.setFlag (breg .dib 0x20) 31 true).flag (breg .dib 0x20) 31 = true ∧ up.flag (breg .dib 0x20) 31 = false ∧
  badCmdFn 1 0x3FFF 0 = false ∧ badCmdFn 0x3F 0 0 = true ∧ unserved .host up = false ∧ outsider .host = false ∧
  nextIs (exec (.dibSwevWrite .host 0x8000) (routed 2047 0x20003FFF up)) (fun t => t.dib.events == [(2047, { pend := true, count := 1, stamp := 0 })]) ∧
  nextIs (exec (.evpendClear .host 63 0x80000000) (pendingEvent 0)) (fun t => t.dib.events == []) ∧
  nextIs (exec (.dibCmdGo .host 0x10013FFF) (up.setFlag (breg .dib 0x20) 31 true)) (fun t => t.flag (breg .dib 4) 31) ∧
  nextIs (exec (.dibCmdGo .host 0x10013FFF) up) (fun t => t.flag (breg .dib 0x20) 31 && t.fld (breg .dib 0x20) 0 14 == 0x3FFF) ∧
  nextIs (exec (.dibCmdGo .host 0x103F0000) up) (fun t => t.flag (breg .dib 0x20) 29 && t.rd (breg .dib 0x2C) == 0xFFFFFFFF && t.fld (breg .dib 0xC) 0 16 == 1) := by decide +kernel

/-- A BLOCK token of a function for a unit. -/
def fnFlit (blk : BitVec 4) (fn : BitVec 6) (unit : BitVec 14) (v : Word) : Flit := mkToken kBlock 3 false 0 (blockTag 0xFFF blk fn unit 0x1234 0x567) v

/-- EVIO holds a function for a unit, at a time, with output 31 disabled or enabled. -/
def evioState (fn : BitVec 6) (unit : BitVec 14) (v : Word) (en : Bool) : State :=
  { up.setFlag (breg .upk 0x200) 31 en with evio := { up.evio with intake := [fnFlit 0xA fn unit v], intakeAt := 5 }, time := { now := 5, frac := 0, started := true, unlockAt := 0, row1 := true } }

def fullQueue : State :=
  { evioState 1 31 9 true with evio := { (evioState 1 31 9 true).evio with queues := [(31, List.replicate 8 (7, true))] } }

theorem witness_EvioFunctions_outputs : EvioHead (evioState 1 31 9 true) 1 (fnFlit 0xA 1 31 9) [] ∧ EvioHead (evioState 2 31 9 true) 2 (fnFlit 0xA 2 31 9) [] ∧
  EvioHead (evioState 3 31 0 true) 3 (fnFlit 0xA 3 31 0) [] ∧
  (tagUnit (fnFlit 0xA 1 31 9).tag).toNat = 31 ∧ (fnFlit 0xA 1 31 9).epoch = curEpoch (evioState 1 31 9 true) ∧ (evioState 1 31 9 true).flag (breg .upk 0x200) 31 = true ∧
  (evioState 1 31 9 false).flag (breg .upk 0x200) 31 = false ∧ CollectorFree { Detection.bare 0x4D with locus := 31, a := 9 } fullQueue ∧
  nextIs (exec .outHigh (evioState 1 31 9 true)) (fun t => t.evio.queues == [(31, [(9, true)])] && t.evio.intake == []) ∧
  nextIs (exec .outLow (evioState 2 31 5 true)) (fun t => t.evio.queues == [(31, [(5, false)])] && t.rd (breg .evio 8) == 1) ∧
  nextIs (exec .outHigh (evioState 1 31 9 false)) (fun t => t.evio.queues == [] && t.fld (breg .upk 0x6C) 0 16 == 1) ∧
  nextIs (exec .outHigh fullQueue) (fun t => (t.evio.queues.map (fun q => q.2.length)) == [8]) ∧
  nextIs (exec .outFlush { fullQueue with evio := { fullQueue.evio with intake := [fnFlit 0xA 3 31 0] } }) (fun t => t.evio.queues == []) := by
  unfold CollectorFree EvioHead; decide +kernel

def timerState (x : Timer) : State := { up with evio := { up.evio with timers := [(255, x)] }, time := { now := 5, frac := 0, started := true, unlockAt := 0, row1 := true } }

theorem witness_EvioFunctions_timers : EvioHead (evioState 8 0x1FF 9 true) 8 (fnFlit 0xA 8 0x1FF 9) [] ∧ EvioHead (evioState 0x10 0 0x4000000000000000 true) 0x10 (fnFlit 0xA 0x10 0 0x4000000000000000) [] ∧
  ((fnFlit 0xA 0x10 0 0x4000000000000000).data.extractLsb' 62 2 : BitVec 2) = 1 ∧
  nextIs (exec .tmrAt (evioState 8 0x1FF 9 true)) (fun t => t.evio.timers == [(255, { armed := true, expiry := 9, period := 0 })]) ∧
  nextIs (exec .tmrAt (routed 1343 0x20000000 (evioState 8 0x1FF 5 true))) (fun t => t.evio.timers == [] && t.dib.events.map (·.1) == [1343]) ∧
  nextIs (exec .tmrEvery (evioState 9 0x1FF 100 true)) (fun t => t.evio.timers == [(255, { armed := true, expiry := 105, period := 100 })]) ∧
  nextIs (exec .tmrStop (evioState 0xA 0x1FF 0 true)) (fun t => t.evio.timers == []) ∧
  nextIs (exec .time (evioState 0x10 0 0x4000000000000000 true)) (fun t => (t.q (qkey siteEvio true chCtl)).map (·.data) == [5]) ∧
  nextIs (exec .stamp (evioState 0x11 0x23F 0x4000000000000000 true)) (fun t => (t.q (qkey siteEvio true chCtl)).map (·.data) == [0]) ∧
  nextIs (exec (.timerExpiry 255) (timerState { armed := true, expiry := 5, period := 7 })) (fun t => t.evio.timers == [(255, { armed := true, expiry := 12, period := 7 })]) ∧
  nextIs (exec (.timerExpiry 255) (timerState { armed := true, expiry := 5, period := 0 })) (fun t => t.evio.timers == []) := by unfold EvioHead; decide +kernel

/-- A period that has ended before the function runs, and a stamp of an edge. -/
def latePeriod : State := { routed 1343 0x20000000 (evioState 9 0x1FF 1 true) with evio := { up.evio with intake := [fnFlit 0xA 9 0x1FF 1], intakeAt := 2 } }

def stamped : State := { (evioState 0x11 0x23F 0x4000000000000000 true).wr (breg .evio 0x1FC) 0x103 with
  evio := { up.evio with intake := [fnFlit 0xA 0x11 0x23F 0x4000000000000000], inputs := [(63, { level := true, since := 4, stamp := 3 })] } }

theorem witness_EvioFunctions_late : EvioHead latePeriod 9 (fnFlit 0xA 9 0x1FF 1) [] ∧ latePeriod.evio.intakeAt.toNat + 1 ≤ now latePeriod ∧
  EvioHead stamped 0x11 (fnFlit 0xA 0x11 0x23F 0x4000000000000000) [] ∧ stamped.fld (breg .evio 0x1FC) 8 2 ≠ 0 ∧
  QueueTakes stamped (qkey siteEvio true chCtl) (qcap siteEvio chCtl) 1 ∧
  nextIs (exec .tmrEvery latePeriod) (fun t => t.evio.timers == [(255, { armed := true, expiry := 4, period := 1 })] && t.dib.events.map (·.1) == [1343]) ∧
  nextIs (exec .stamp stamped) (fun t => (t.q (qkey siteEvio true chCtl)).map (·.data) == [3]) := by unfold EvioHead QueueTakes; decide +kernel

def scheduled : State := { up with evio := { up.evio with queues := [(31, [(3, true), (5, false), (6, true)])] }, time := { now := 5, frac := 0, started := true, unlockAt := 0, row1 := true } }

theorem witness_EvioFunctions_apply : schedules scheduled 31 = [(3, true)] ++ (5, false) :: [(6, true)] ∧ (5 : BitVec 64).toNat ≤ now scheduled ∧ now scheduled < (6 : BitVec 64).toNat ∧
  nextIs (exec (.scheduleApply 31) scheduled) (fun t => schedules t 31 == [(6, true)] && outLevel t 31 == .low) := by decide +kernel

def timedAt (t : Nat) (s : State) : State := { s with time := { now := BitVec.ofNat 64 t, frac := 0, started := true, unlockAt := 0, row1 := true } }

/-- EVIN_63 counts 3 samples, with its rising edge enabled, and PPS_IN counts 4. -/
def sampled : State := timedAt 100 ((routed 1407 0x20000000 up).wr (breg .evio 0x1FC) 0x103)

/-- A device whose time base has not started, or runs from REFCLK, or from PLL_M with a fraction and a rate. -/
def clocked (started lock : Bool) : State :=
  { (up.setFlag (breg .clk 0) 1 lock).wr (breg .run 0x30) 0xFFFFFFFB with time := { now := 7, frac := 2, started := started, unlockAt := 0, row1 := true } }

theorem witness_InputsAndTime_clock : (clocked false true).pending = [] ∧ (clocked true true).flag (breg .clk 0) 1 = true ∧
  nextIs (step (clocked false true)) (fun t => t.time.now == 7) ∧ nextIs (step (clocked true false)) (fun t => t.time.now == 17 && t.time.frac == 2) ∧
  nextIs (step (clocked true true)) (fun t => t.time.now == 7 && t.time.frac == 999999997) := by decide +kernel

theorem witness_InputsAndTime_inputs : counted sampled 63 = true ∧ sampled.flag (breg .evio 0x1FC) 8 = true ∧ sampled.flag (breg .evio 0x1FC) 9 = false ∧
  nextIs (exec (.evinEdge 63) sampled) (fun t => filterOf t 63 == { level := true, since := 101, stamp := 98 } && t.dib.events == [(1407, { pend := true, count := 1, stamp := 98 })]) ∧
  nextIs (exec (.evinGlitch 63) sampled) (fun t => (filterOf t 63).since == 101 && t.rd (breg .evio 0x1FC) == 0x10103) ∧
  nextIs (exec (.evinGlitch 64) sampled) (fun t => t.evio.pps.since == 101 && t.rd (breg .evio 0x20) == 0x10000) ∧
  nextIs (exec (.evinCfgWrite .host 63 0x201) sampled) (fun t => t.rd (breg .evio 0x1FC) == 0x201 && (filterOf t 63).since == 101) := by decide +kernel

/-- The same input sampled at REFCLK, where PLL_M lost its lock at a time. -/
def slowly (since : BitVec 64) : State :=
  let s := sampled.setFlag (breg .clk 0) 1 false
  { s with time := { s.time with unlockAt := since } }

theorem witness_InputsAndTime_rates : sampling sampled = true ∧ sampling { sampled with opState := .off } = false ∧ counted (slowly 50) 63 = true ∧ counted (slowly 90) 63 = true ∧
  unserved .host sampled = false ∧ outsider .host = false ∧
  nextIs (exec (.evinGlitch 63) { sampled with opState := .off }) (fun t => t == { sampled with opState := .off }) ∧
  nextIs (exec (.evinEdge 63) (slowly 50)) (fun t => filterOf t 63 == { level := true, since := 110, stamp := 80 }) ∧
  nextIs (exec (.evinEdge 63) (slowly 90)) (fun t => filterOf t 63 == { level := true, since := 110, stamp := 89 }) := by decide +kernel

/-- The time base follows PPS_IN, on its rising edge. -/
def disciplined : State := timedAt 999999990 ((up.setFld (breg .run 0x20) 12 2 1).setFlag (breg .run 0x34) 0 true)

def ppsGone : State := timedAt 1500000000 ((up.setFld (breg .run 0x20) 12 2 1).setFlag (breg .run 0x24) 30 true)

theorem witness_InputsAndTime_pps : counted disciplined 64 = true ∧ disciplined.flag (breg .run 0x34) 1 = disciplined.evio.pps.level ∧ disciplined.flag (breg .run 0x34) 0 = true ∧
  timeSource disciplined = 1 ∧ ppsGone.flag (breg .run 0x24) 30 = true ∧ ppsGone.evio.ppsAt.toNat + 1500000000 ≤ now ppsGone ∧
  nextIs (exec .ppsEdge disciplined) (fun t => t.evio.ppsAt == 999999987 && t.rd (breg .run 0x30) == 1 && t.flag (breg .run 0x24) 31 && t.flag (breg .run 0x24) 30) ∧
  nextIs (exec .ppsLoss ppsGone) (fun t => !t.flag (breg .run 0x24) 30) := by decide +kernel

/-- A device whose last link is ACTIVE. -/
def linked (st : Nat) (x : Link) : State := { up.setFld (rlink 7 4) 0 4 st with fabric := { up.fabric with links := [(7, x)] } }

def frame (t : BitVec 4) (seq : BitVec 12) (p : BitVec 160) : BitVec 256 := mkFrame t seq 0xFFF false 7 0 p

def tsync1 : BitVec 256 := frame 3 0 ((1 : BitVec 2) ++ (0 : BitVec 6) ++ (9 : BitVec 8) ++ (0 : BitVec 144))

/-- The answer of the parent: it received the request at 1,015 and sends at 1,045. -/
def tsync2 : BitVec 256 := frame 3 0 ((2 : BitVec 2) ++ (1 : BitVec 1) ++ (0 : BitVec 5) ++ (9 : BitVec 8) ++ (1015 : BitVec 48) ++ (1045 : BitVec 48) ++ (0 : BitVec 48))

/-- The parent's answer is awaited since time 1,000. -/
def exchanging : State :=
  let s := timedAt 1050 (((linked 5 Link.reset).setFld (breg .run 0x20) 12 2 2).setFld (breg .run 0x20) 16 3 7)
  { s with fabric := { s.fabric with tid := 9, t1 := 1000, waiting := true, good := 7 } }

/-- The same with the child 2,000 ns behind. -/
def stepping : State := { exchanging with time := { now := 1050 - 1995, frac := 0, started := true, unlockAt := 0, row1 := true }, fabric := { exchanging.fabric with t1 := 1000 - 1995 } }

def calling : State := timedAt 100000 { exchanging with fabric := { exchanging.fabric with waiting := false } }

theorem witness_InputsAndTime_frames : FrameIn exchanging 7 tsync1 3 ∧ FrameIn exchanging 7 tsync2 3 ∧ timeSource exchanging = 2 ∧ parentLink exchanging = 7 ∧
  nextIs (exec (.tsync 7 tsync1) exchanging) (fun t => (link t 7).tsyncTx == [{ tt := 2, tid := 9, t2 := 1050 }]) ∧
  nextIs (exec (.tsync 7 tsync2) exchanging) (fun t => !t.fabric.waiting && t.rd (breg .run 0x28) == 5 && t.rd (breg .run 0x2C) == 10 &&
    t.rd (breg .run 0x30) == 6250 && t.fabric.good == 8 && t.flag (breg .run 0x24) 31) ∧
  nextIs (exec (.tsync 7 tsync2) stepping) (fun t => t.time.now == 1055 && t.fabric.good == 0) ∧
  calling.fabric.exchAt.toNat + 1000 * syncPeriod calling ≤ now calling ∧ linkState calling 7 = 5 ∧
  nextIs (exec .tsyncExchange calling) (fun t => t.fabric.tid == 10 && t.fabric.waiting && (link t 7).tsyncTx == [{ tt := 1, tid := 10, t2 := 0 }]) := by unfold FrameIn; decide +kernel

/-- The lock word of engine 1023, of priority `p`, whose reply goes to its node 5, port 2; and of the last descriptor. -/
def engLw (p : BitVec 5) (q : Bool := false) : Word := (1 : BitVec 2) ++ (0 : BitVec 5) ++ p ++ (1023 : BitVec 10) ++ (5 : BitVec 12) ++ (2 : BitVec 2) ++ (0xFFF : BitVec 12) ++ BitVec.ofBool q ++ (0 : BitVec 15)

def descLw (d : BitVec 14) : Word := (2 : BitVec 2) ++ (0 : BitVec 34) ++ (0xFFF : BitVec 12) ++ (0 : BitVec 2) ++ d

/-- A function on lock 4095 waits at the lock unit, and the lock is as given; every plot is admitted to its group. -/
def lockState (fn : BitVec 6) (w : Word) (x : Lock) : State :=
  let s := ((up.wr64 (breg .lck 0x4F4) 0xFFFFFFFFFFFFFFFF).setLock 4095 x).setFlag (breg .lck 0) 0 false
  { s with lck := { s.lck with intake := [fnFlit 2 fn 4095 w] } }

def heldBy (o : Owner) (ws : List Waiter := []) : Lock := { state := .held, abn := false, owner := o, waiters := ws }

def me : Owner := .eng 0xFFF 1023

def waits (o : Owner) (w : Word) (watch : Bool) : Waiter := { who := o, word := w, ctxIter := 0x1234567, watch := watch }

/-- The function leaves the lock as given and sends its requester's engine the codes of these answers, in order. -/
def lockGives (c : Instr) (fn : BitVec 6) (x y : Lock) (codes : List Word) (w : Word := engLw 3) : Bool :=
  nextIs (exec c (lockState fn w x)) (fun t => t.lock 4095 == y && t.lck.intake == [] &&
    ((t.q (qkey siteLck true chCtl)).map (fun f => (f.tag.extractLsb' 0 28, f.data))) == codes.map (fun v => (0x1234567, 0x00000FFF00000000 ||| v)))

def asked4095 (fn : BitVec 6) (x : Lock) : Bool :=
  let s := lockState fn (engLw 3) x
  let f := fnFlit 2 fn 4095 (engLw 3)
  s.lck.intake == [f] && tagFn f.tag == fn && !(lckCmd s).1 && s.lck.direct.length < 64 && blockTx s siteLck == [] &&
    ((f.hops == 0) == (lwDev f.data == ownId s)) && groupAdmits s ((f.tag.extractLsb' 28 12 : BitVec 12).toNat / 64) (wordOwner f.data)

theorem witness_LockFunctions_asked : wordOwner (engLw 3) = me ∧ [1, 2, 3, 4, 5].all (fun fn => asked4095 fn Lock.free) = true ∧
  groupAdmits ((lockState 1 (engLw 3) Lock.free).wr64 (breg .lck 0x4F4) 0) 63 me = false ∧ lockPool (lockState 1 (engLw 3) Lock.free) < 2048 := by decide +kernel

theorem witness_LockFunctions_replies :
  lockGives .acquire 1 Lock.free (heldBy me) [1] = true ∧ lockGives .lockTry 2 { Lock.free with abn := true } (heldBy me) [2] = true ∧
  lockGives .acquire 1 (heldBy me) (heldBy me) [0xA] = true ∧ lockGives .acquire 1 (heldBy .host) (heldBy .host [waits me (engLw 3) false]) [] = true ∧
  lockGives .lockTry 2 (heldBy .host) (heldBy .host) [3] = true ∧ lockGives .lockTry 2 { heldBy .host with state := .stuck } { heldBy .host with state := .stuck } [0xB] = true ∧
  lockGives .lockWait 3 Lock.free Lock.free [4] = true ∧ lockGives .lockWait 3 (heldBy .host) (heldBy .host [waits me (engLw 3) true]) [] = true ∧
  lockGives .lockRelease 4 (heldBy me) Lock.free [6] = true ∧
  lockGives .lockRelease 4 (heldBy me [waits .host (engLw 1) true, waits .mc (engLw 1) false]) (heldBy .mc) [4, 1, 6] = true ∧
  lockGives .lockRelease 4 (heldBy .host) (heldBy .host) [9] = true ∧ lockGives .lockRelease 4 Lock.free Lock.free [0xF] = true ∧
  lockGives .withdraw 5 (heldBy .host [waits me (engLw 3) false]) (heldBy .host) [0xC] = true ∧ lockGives .withdraw 5 (heldBy me) (heldBy me) [0xA] = true ∧
  lockGives .withdraw 5 (heldBy me [waits me (engLw 3) true, waits .mc 0 false]) (heldBy me [waits .mc 0 false]) [0xA] = true ∧
  lockGives .withdraw 5 Lock.free Lock.free [0xD] = true ∧ lockGives (.force 0) 8 Lock.free Lock.free [0xE] = true ∧
  nextIs (exec .acquire (lockState 1 ((engLw 3) &&& 0xFFFFFFFFF000FFFF) Lock.free)) (fun t => t.lock 4095 == Lock.free && t.lck.intake == [] && t.queues == [] && t.lck.seq == 0 &&
    (recOf t 64).any (fun r => r.open_ && r.code == 0x42 && r.locus == 0x41)) = true := by decide +kernel

/-- A lock that a local descriptor holds, with inheritance enabled; and a pool of waiters that is full. -/
def inheritedLock : State := (lockState 1 (engLw 31) (heldBy (.desc 0xFFF 16383))).setFlag (breg .lck 0) 0 true

def fullPool : State := lockState 1 (engLw 3) (heldBy .host (List.replicate 2048 (waits .mc 0 false)))

def groupEvent : State := routed 1790 0x20000000 ((lockState 4 (engLw 3) (heldBy me)).setFlag (breg .lck 0x4F0) 7 true)

theorem witness_LockFunctions_more : inhOf inheritedLock 16383 = none ∧ inheritedLock.flag (breg .lck 0) 0 = true ∧ 2048 ≤ lockPool fullPool ∧
  groupEvent.flag (breg .lck (0x100 + 16 * (4095 / 64))) 7 = true ∧
  nextIs (exec .acquire inheritedLock) (fun t => t.lck.direct == [.inh 16383 (some 31)]) ∧
  nextIs (exec .acquire fullPool) (fun t => t.fld (breg .lck 8) 0 16 == 1 && lockPool t == 2048) ∧
  nextIs (exec .lockRelease groupEvent) (fun t => t.dib.events.map (·.1) == [1790]) ∧
  nextIs (exec .acquire ((lockState 1 (engLw 3) Lock.free).wr64 (breg .lck 0x4F4) 0)) (fun t => t.fld (breg .lck 8) 16 16 == 1 && t.lock 4095 == Lock.free) := by decide +kernel

/-- The lock unit's command port runs a function of the host on lock 4095. -/
def portRuns (fn : BitVec 6) (x : Lock) : State :=
  (((up.wr (breg .lck 0x4F0) 1).setLock 4095 x).wr (breg .lck 0x20) ((1 : BitVec 1) ++ (0 : BitVec 9) ++ fn ++ (0x0FFF : BitVec 16)))

/-- The port shows a code, and the lock is as given. -/
def shown (c : Instr) (s : State) (code : Nat) (y : Lock) : Bool :=
  nextIs (exec c s) (fun t => t.lock 4095 == y && !t.flag (breg .lck 0x20) 31 && t.flag (breg .lck 0x20) 30 && t.fld (breg .lck 0x24) 0 8 == code && t.fld (breg .lck 0x24) 16 12 == 4095)

theorem witness_LockPortAndResets_port : up.lck.direct.length < 64 ∧ blockTx up siteLck = [] ∧ up.profile ≠ .p0100 ∧ (lckCmd (portRuns 2 Lock.free)).1 = true ∧ (lckCmd up).1 = false ∧
  groupAdmits (portRuns 2 Lock.free) (4095 / 64) .host = true ∧
  nextIs (exec (.lckCmdGo .host 0x10080FFF) up) (fun t => t.flag (breg .lck 0x20) 31 && t.fld (breg .lck 0x20) 16 6 == 8 && t.fld (breg .lck 0x20) 0 12 == 4095) ∧
  nextIs (exec (.lckCmdGo .mc 0x10070FFF) up) (fun t => !t.flag (breg .lck 0x20) 31 && t.fld (breg .lck 0x24) 0 8 == 0xE && t.lck.cmdMc) ∧
  nextIs (exec (.lckCmdGo .smbus 0x10020FFF) up) (fun t => t.flag (breg .lck 4) 31 && !t.flag (breg .lck 0x20) 31) ∧
  shown .lockTry (portRuns 2 Lock.free) 1 (heldBy .host) = true ∧ shown .lockRelease (portRuns 4 (heldBy .host)) 6 Lock.free = true ∧
  shown .acquire (portRuns 1 Lock.free) 0xE Lock.free = true := by decide +kernel

def stuckLock : Lock := { heldBy me with state := .stuck }

/-- Reset notices of an engine, from a device in SERVICE and from one in RECOVERY. -/
def notifying (service : Bool) : State :=
  let s := (up.setLock 4095 (heldBy me [waits .host 0 false])).setLock 0 (heldBy .host [waits me 0 true])
  { s with lck := { s.lck with notices := [{ who := me, dev := none, service := service }] } }

/-- A reset notice of the owner stands at the lock unit before the owner's release. -/
def noticedFirst : State :=
  let s := lockState 4 (engLw 3) (heldBy me)
  { s with lck := { s.lck with notices := [{ who := me, dev := none, service := true }] } }

theorem witness_LockPortAndResets_order : noticedFirst.stored ∧ (lckCmd noticedFirst).1 = false ∧ groupAdmits noticedFirst (4095 / 64) me = true ∧
  nextIs (exec .lockRelease noticedFirst) (fun t => t.lock 4095 == stuckLock && t.lck.notices == [] && t.lck.intake == []) ∧
  nextIs (exec (.force 4095) (up.setLock 4095 stuckLock)) (fun t => t.fld (breg .lck 0x20) 16 6 == 8 && t.fld (breg .lck 0x20) 0 12 == 4095) := by
  unfold State.stored; decide +kernel

def inhGiven : State := { up with lck := { up.lck with inh := [(16383, some 31)] } }

theorem witness_LockPortAndResets_resets : (notifying true).stored ∧ inhGiven.lck.inh = [(16383, some 31)] ∧
  shown (.force 4095) (up.setLock 4095 stuckLock) 6 { Lock.free with abn := true } = true ∧ shown (.force 4095) up 0xF Lock.free = true ∧
  nextIs (exec .resetNotice (notifying true)) (fun t => t.lock 4095 == { heldBy me [waits .host 0 false] with state := .stuck } && t.lock 0 == heldBy .host) ∧
  nextIs (exec .resetNotice (notifying false)) (fun t => t.lock 4095 == heldBy .host && t.lock 0 == heldBy .host && t.lck.notices == []) ∧
  nextIs (exec (.inhDisable .host) inhGiven) (fun t => !t.flag (breg .lck 0) 0 && t.lck.inh == [] && t.lck.direct == [.inh 16383 none]) := by unfold State.stored; decide +kernel

/-- The last link is in a state since time 0, at time 25 ms or at 1 ms, with AUTO set. -/
def training (st : Nat) (x : Link := Link.reset) (t : Nat := 25000000) : State := timedAt t ((linked st x).setFld (rlink 7 0) 0 2 3)

def aPeer : Peer := { uid := 0x1122334455667788, id := 0xFFE, port := 7, root := true }

def enters (c : Instr) (s : State) (dst : Nat) : Bool := nextIs (exec c s) (fun t => linkState t 7 == dst && (link t 7).since == s.time.now)

def kept : Link := { Link.reset with replay := [(5, { ftype := 1, payload := 3 })] }

theorem witness_LinkTraining : linkWaited (training 1) 7 1000000 = true ∧ linkWaited (training 2) 7 20000000 = true ∧ phaseLimit 2 = some 20000000 ∧
  phaseLimit 6 = some 5000000 ∧ (training 7).flag (rlink 7 0) 1 = true ∧ linkWaited (training 7) 7 10000000 = true ∧
  linkPowered (training 0) 7 = true ∧ (training 0).tap.instr.drives = false ∧
  enters (.linkDetect 7) (training 1) 2 = true ∧ enters (.linkTrainStep 7 aPeer) (training 2 Link.reset 1000000) 3 = true ∧
  enters (.linkTrainStep 7 aPeer) (training 3 Link.reset 1000000) 4 = true ∧ linkWaited (training 2 Link.reset 1000000) 7 20000000 = false ∧
  nextIs (exec (.linkTrainStep 7 aPeer) (training 2)) (fun t => t == training 2) ∧
  nextIs (exec (.linkTrainStep 7 aPeer) (training 4 Link.reset 100000)) (fun t => linkState t 7 == 5 && t.fld (rlink 7 4) 16 12 == 0xFFE && t.rd64 (rlink 7 8) == 0x1122334455667788) ∧
  nextIs (exec (.linkTrainStep 7 aPeer) (training 6 kept 1000000)) (fun t => linkState t 7 == 5 && (link t 7).resend == kept.replay) ∧
  enters (.linkRetrain 7) (training 5) 6 = true ∧ enters (.runCtlWrite .mc 7 5) (training 5) 6 = true ∧
  nextIs (exec (.runCtlWrite .mc 7 1) (training 5)) (fun t => t.fld (rlink 7 0) 0 2 == 1 && linkState t 7 == 5) ∧
  nextIs (exec (.runCtlWrite .smbus 7 0) (training 5)) (fun t => linkState t 7 == 5 && t.rd (breg .dev 0x10) == 1) := by decide +kernel

/-- A boundary-scan instruction drives the lands of a device that waits for an image, whose last link is in a state. -/
def scanned_ (st : Nat) : State :=
  let s := setStep 4 { training st with opState := .boot, prevState := .boot }
  { s with tap := { s.tap with instr := .extest } }

theorem witness_LinkTraining_scan : scanDrives (scanned_ 1) = true ∧ scanDrives (training 1) = false ∧ unserved .mc (training 5) = false ∧
  nextIs (exec (.linkDetect 7) (scanned_ 1)) (fun t => t == scanned_ 1) ∧ nextIs (exec (.linkDownRestart 7) (scanned_ 7)) (fun t => t == scanned_ 7) ∧
  nextIs (exec (.linkTrainStep 7 aPeer) (scanned_ 2)) (fun t => t == scanned_ 2) := by decide +kernel

def nakFrame : BitVec 256 := frame 2 0 0

def idleF : BitVec 256 := frame 0 0 ((0x0102030405060FFE : BitVec 60) ++ (0 : BitVec 100))

/-- A link that has sent frame 5 and expects frame 4,095. -/
def busyLink : Link := { kept with expect := 0xFFF, seq := 6, got := true }

/-- A data flit of no sheaf. -/
def strayFlit : Flit := mkFlit kSheafData 0 false 0 0 0 true false

def sentOut (s : State) (n : Nat) (t : BitVec 4) : Bool := (link s n).tx.any (fun f => frType f == t && goodFrame f)

theorem witness_LinkFrames_in : FrameIn (linked 5 busyLink) 7 idleF 0 ∧ FrameIn (linked 5 busyLink) 7 nakFrame 2 ∧ FrameNext (linked 5 busyLink) 7 (frame 1 0xFFF tok0) 1 ∧
  rxQueue (frameAccepted (linked 5 busyLink) 7 (frame 1 0xFFF tok0)) tok0 = some 0 ∧ rxQueue (frameAccepted (linked 5 busyLink) 7 (frame 1 0xFFF strayFlit)) strayFlit = none ∧
  FrameIn (linked 5 busyLink) 7 (frame 1 0x07E tok0) 1 ∧ frSeq (frame 1 0x07E tok0) ≠ 0xFFF ∧ (frSeq (frame 1 0x07E tok0) - 0xFFF).toNat < 128 ∧
  busyLink.replays + 1 < (linked 5 busyLink).fld (rlink 7 0x10) 16 8 ∧ ((linked 5 busyLink).setFld (rlink 7 0x10) 16 8 1).fld (rlink 7 0x10) 16 8 ≤ busyLink.replays + 1 ∧
  nextIs (exec (.badFrame 7) (linked 5 busyLink)) (fun t => (link t 7).nak && (link t 7).nakDue && t.fld (rlink 7 0x14) 0 16 == 1) ∧
  nextIs (exec (.idleFrame 7 idleF) (linked 5 busyLink)) (fun t => t.fld (rlink 7 4) 16 12 == 0xFFE && SMap.get (link t 7).returned 5 0 == 0x60) ∧
  nextIs (exec (.flitFrame 7 (frame 1 0xFFF tok0)) (linked 5 busyLink)) (fun t => (link t 7).expect == 0 && t.q (qkey (siteRun 7) true 0) == [tok0]) ∧
  nextIs (exec (.flitFrame 7 (frame 1 0x07E tok0)) (linked 5 busyLink)) (fun t => (link t 7).expect == 0xFFF && (link t 7).nakDue && t.queues == []) ∧
  nextIs (exec (.nak 7 nakFrame) (linked 5 busyLink)) (fun t => (link t 7).resend == kept.replay && t.fld (rlink 7 0x14) 16 16 == 1) ∧
  nextIs (exec (.replayTimeout 7) ((linked 5 busyLink).setFld (rlink 7 0x10) 16 8 1)) (fun t => linkState t 7 == 6 && (link t 7).resend == kept.replay) := by
  unfold FrameIn FrameNext FrameIn; decide +kernel

def slotOut (c : LinkNo → Instr) (x : Link) (t : BitVec 4) : Bool := nextIs (exec (c 7) (linked 5 x)) (fun s => sentOut s 7 t)

/-- A token for another device waits at the last link. -/
def leaving (st : Nat) : State := { linked st busyLink with queues := [(qkey (siteRun 7) false 0, [mkToken kOperand 1 false 3 (operandTag 1 2 3 0 0 0) 5])] }

def idleLink : Link := { busyLink with replay := [] }

theorem witness_LinkFrames_out : (leaving 5).sieve.diverged.contains 0x43 = false ∧ mgmtReady busyLink = true ∧ txChoice (linked 5 busyLink) 7 = none ∧ txChoice (leaving 5) 7 = some 0 ∧
  slotOut .frameSlot { busyLink with resend := kept.replay } 1 = true ∧ slotOut .frameSlot { busyLink with nakDue := true } 2 = true ∧
  slotOut .frameSlot { busyLink with tsyncTx := [{ tt := 1, tid := 0, t2 := 0 }] } 3 = true ∧ slotOut .frameSlot { busyLink with noticeTx := [0] } 5 = true ∧
  slotOut .frameSlot { busyLink with mgmtTx := [0] } 4 = true ∧ rtBusy (leaving 5) = false ∧ discarding (leaving 5) 7 0 = false ∧
  SMap.get (leaving 5).owed (qkey (siteRun 7) false 0) 0 = 0 ∧ SMap.get (leaving 5).appends (qkey (siteRun 7) false 0) 0 = 0 ∧
  nextIs (exec (.flitFrame 7 (frame 1 0xFFF strayFlit)) (linked 5 busyLink)) (fun t => SMap.get (link t 7).left (Flit.vc strayFlit).toNat 0 == 1 && t.queues == []) ∧ slotOut .frameSlot busyLink 0 = true ∧
  nextIs (exec (.frameSlot 7) (leaving 5)) (fun t => sentOut t 7 1 && t.queues == [] && (link t 7).replay.map (·.1) == [5, 6] && t.rd (rlink 7 0x24) == 1) ∧
  nextIs (exec (.frameSlot 7) (leaving 7)) (fun t => t.queues == [] && t.fld (rlink 7 0x1C) 0 16 == 1) ∧
  nextIs (exec (.frameSlot 7) (leaving 6)) (fun t => t.queues == (leaving 6).queues) := by decide +kernel

def mgmt (op : BitVec 4) (hidx plen : BitVec 5) (path : BitVec 48) (off : BitVec 16) (data : Word) : BitVec 160 :=
  op ++ hidx ++ plen ++ (0x7F : BitVec 8) ++ path ++ off ++ data ++ (0 : BitVec 8) ++ (0 : BitVec 2)

/-- The last link expects frame 0 of an MGMT or NOTICE frame. -/
def managed : State := { linked 5 Link.reset with dib := { up.dib with events := [] } }

/-- A request for this device ends its one hop here and is answered with a status. -/
def answered (c : LinkNo → BitVec 256 → Instr) (p : BitVec 160) (s : State) (status : BitVec 8) : Bool :=
  goodFrame (frame 4 0 p) && mgTarget p && nextIs (exec (c 7 (frame 4 0 p)) s) (fun t => (link t 7).mgmtTx.map (fun q => (mgOp q, mgStatus q, mgHidx q)) == [(mgOp p ||| 8, status, 0)])

def imgState : State := { managed with opState := .boot }

theorem witness_FabricManagement_target : FrameNext managed 7 (frame 4 0 (mgmt 1 0 1 0 0 0)) 4 ∧
  goodFrame (frame 4 0 (mgmt 1 0 1 0 0 0)) = true ∧ mgTarget (mgmt 1 0 1 0 0 0) = true ∧ mgOp (mgmt 1 0 1 0 0 0) = 1 ∧ answered .rd (mgmt 2 0 1 0 0 0) managed 0 = true ∧ answered .rd (mgmt 2 0 1 0 0xFFFC 0) managed 3 = true ∧
  answered .wr (mgmt 3 0 1 0 0 0x80000FFE) (managed.setFlag (breg .run 4) 0 true) 2 = true ∧ answered .wr (mgmt 3 0 1 0 0xFFFC 0) managed 3 = true ∧
  (managed.setFlag (breg .run 4) 0 false).flag (breg .run 4) 0 = false ∧ (readRun .relay 0 managed).1.isSome = true ∧ (readRun .relay 0xFFFC managed).1 = none ∧
  nextIs (exec (.wr 7 (frame 4 0 (mgmt 3 0 1 0 0 0x80000FFE))) managed) (fun t => ownId t == 0xFFE) ∧
  nextIs (exec (.img 7 (frame 4 0 (mgmt 4 0 1 0 0xFFFF 0x1122334455667788))) imgState) (fun t => grnWord t 0x7FFFFF == 0x1122334455667788 && t.rd (breg .run 0x10) == 1) ∧
  nextIs (exec (.img 7 (frame 4 0 (mgmt 4 0 1 0 0xFFFF 0x1122334455667788))) managed) (fun t => t.mem == [] && t.fld (rlink 7 0x1C) 16 16 == 1) := by
  unfold FrameNext FrameIn; decide +kernel

def twoLinks : State := managed.setFld (rlink 0 4) 0 4 5

def rootState : State :=
  let s := managed.setFlag (breg .run 0) 31 true
  { s with fabric := { s.fabric with out := [{ tag := 0x7F, mop := 1, at_ := 0 }] } }

def noticeFrame : BitVec 256 := frame 5 0 ((5 : BitVec 12) ++ (3 : BitVec 4) ++ (0xFF : BitVec 8) ++ (0xF : BitVec 5) ++ (0 : BitVec 131))

theorem witness_FabricManagement_edges : mgBad (mgmt 1 15 15 0 0 0) = false ∧ mgRequest (mgmt 1 15 15 0 0 0) = true ∧ mgBad (mgmt 9 1 2 0 0 0x55) = false ∧
  runAbsent (managed.setFld (breg .pwr 0x24) 0 8 0xFE) 0x104 = true ∧ (readRun .relay 0x104 (managed.setFld (breg .pwr 0x24) 0 8 0xFE)).1 = none ∧
  rtBusy managed = false ∧ (0x8F8F8F8F : Reg32) &&& 0x70707070 = 0 ∧
  nextIs (exec (.img 7 (frame 4 0 (mgmt 4 0 1 0 0xFFFF 1))) (managed.setFlag (breg .run 4) 0 true)) (fun t => t.mem == [] && t.fld (rlink 7 0x1C) 16 16 == 1) ∧
  nextIs (exec (.img 7 (frame 4 0 (mgmt 4 0 1 0 0xFFFF 1))) (imgState.setFlag (breg .run 4) 0 true)) (fun t => t.mem == [] && t.fld (rlink 7 0x1C) 16 16 == 0) := by decide +kernel

theorem witness_FabricManagement_relay : mgBad (mgmt 1 0 0 0 0 0) = true ∧ mgTarget (mgmt 1 0 2 0 0 0) = false ∧ mgBad (mgmt 1 0 2 0 0 0) = false ∧ mgRequest (mgmt 9 0 1 0 0 0) = false ∧
  FrameNext managed 7 noticeFrame 5 ∧ (5 : BitVec 12) ≠ ownId managed ∧ (twoLinks.setFlag (breg .run 4) 2 true).flag (breg .run 4) 2 = true ∧
  nextIs (exec (.mgmtForward 7 (frame 4 0 (mgmt 1 0 0 0 0 0))) managed) (fun t => t.fld (rlink 7 0x1C) 16 16 == 1) ∧
  nextIs (exec (.mgmtForward 7 (frame 4 0 (mgmt 1 0 2 0 0 0))) twoLinks) (fun t => (link t 0).mgmtTx.map (fun q => (mgHidx q, mgPath q 0)) == [(1, 7)]) ∧
  nextIs (exec (.mgmtForward 7 (frame 4 0 (mgmt 1 0 2 0 0 0))) managed) (fun t => (link t 7).mgmtTx.map (fun q => (mgOp q, mgStatus q)) == [(9, 1)]) ∧
  nextIs (exec (.mgmtForward 7 (frame 4 0 (mgmt 9 0 1 0 0 0x55))) rootState) (fun t => t.fabric.out.isEmpty && t.fabric.responses.map (·.data) == [0x55]) ∧
  nextIs (exec (.notice 7 noticeFrame) (twoLinks.setFlag (breg .run 4) 2 true)) (fun t => t.fabric.seen == [(5, 0xFF)] && t.fld (breg .run 0xC) 0 12 == 5 && (link t 0).noticeTx.length == 1 && t.lck.notices.map (·.dev) == [some 5]) ∧
  nextIs (exec (.mgmtForward 7 (frame 4 0 (mgmt 1 15 15 0 0 0))) twoLinks) (fun t => t.fld (rlink 7 0x1C) 16 16 == 1) ∧
  nextIs (exec (.mgmtForward 7 (frame 4 0 (mgmt 9 1 2 0 0 0x55))) twoLinks) (fun t => (link t 0).mgmtTx.map (fun q => (mgHidx q, mgData q)) == [(0, 0x55)]) ∧
  nextIs (exec (.mgmtForward 7 (frame 4 0 (mgmt 9 0 1 0 0 0x55))) { rootState with fabric := { rootState.fabric with responses := List.replicate 16 sampleResponse } })
    (fun t => t.fabric.out.isEmpty && t.fabric.responses == List.replicate 16 sampleResponse) ∧
  nextIs (exec .mgmtTimeout (timedAt 100000 rootState)) (fun t => t.fabric.out.isEmpty && t.fabric.responses.map (·.timeout) == [true]) ∧
  nextIs (exec (.runRtWrite .relay 1023 0x8F8F8F8F) up) (fun t => t.rd (breg .run 0x4FFC) == 0x8F8F8F8F) := by unfold FrameNext FrameIn; decide +kernel

/-- A device whose last plot is to change its code: lower, higher, and with too low an output. -/
def asking_ (target : Nat) (s : State) : State := s.setFld (clkReq 63) 0 6 target

def ldoAt (mv : Nat) (s : State) : State := s.setFld (ldoReg 63) 0 10 mv

def reactingNow (s : State) : State := { s with sieve := { s.sieve with running := some 0 } }

/-- A step of the last plot leaves its code, its LDO, VCORE and SLEW as given. -/
def steps (c : PlotNo → Instr) (s : State) (cur ldo v : Nat) (slew : Bool) : Bool :=
  nextIs (exec (c 63) s) (fun t => curCode t 63 == cur && ldoOut t 63 == ldo && vcore t == v && t.flag (clkStat 63) 31 == slew)

theorem witness_PowerAndClocks_steps : plotOn up 63 = true ∧ up.power.frozen = false ∧ reacting up = false ∧ up.flag (ldoReg 63) 31 = true ∧
  vcore (asking_ 32 up) < vcoreNeed (asking_ 32 up) ∧ vcoreNeed (asking_ 8 (up.setFld (breg .pwr 0x30) 0 16 1000)) ≤ 1000 ∧ reacting (reactingNow up) = true ∧
  steps .dvfsStep (asking_ 8 up) 23 780 840 true = true ∧ steps .dvfsStep (ldoAt 950 (asking_ 32 up)) 25 950 840 true = true ∧
  steps .dvfsStep (asking_ 32 up) 24 780 1000 true = true ∧ steps .dvfsStep (asking_ 32 (up.setFld (breg .pwr 0x30) 0 16 1000)) 24 940 1000 true = true ∧
  steps .dvfsStep (up.setFld (breg .pwr 0x30) 0 16 1000) 24 780 840 false = true ∧ steps .dvfsStep up 24 780 840 false = true ∧
  nextIs (exec (.dvfsStep 63) (reactingNow (up.setFlag (clkStat 63) 31 true))) (fun t => !t.flag (clkStat 63) 31 && t.flag (clkStat 63) 29) ∧
  nextIs (exec (.ldoSettled 63) (reactingNow ((up.setFlag (clkStat 63) 31 true).setFlag (ldoReg 63) 31 false))) (fun t => !t.flag (clkStat 63) 31 && t.flag (clkStat 63) 29) ∧
  nextIs (exec (.ldoSettled 63) (up.setFlag (ldoReg 63) 31 false)) (fun t => t.flag (ldoReg 63) 31 && t.upkeep.moved == []) ∧
  nextIs (exec (.ldoSettled 63) ((up.setFlag (clkStat 63) 31 true).setFlag (ldoReg 63) 31 false)) (fun t => SMap.get t.upkeep.moved 63 false) ∧
  nextIs (exec (.ppllUnlock 63) up) (fun t => curCode t 63 == 8 && t.flag (clkStat 63) 30 && t.fld (clkStat 63) 16 8 == 1) ∧
  nextIs (exec (.ppllRelock 63) ((up.setFlag (clkStat 63) 30 true).setFld (clkStat 63) 0 6 8)) (fun t => !t.flag (clkStat 63) 30 && t.flag (clkStat 63) 31 && curCode t 63 == 8) ∧
  nextIs (exec (.clkPlotReqWrite .host 63 0x120) up) (fun t => effCode t 63 == 32 && t.flag (clkStat 63) 31) ∧
  nextIs (exec (.clkPlotReqWrite .smbus 63 0x120) up) (fun t => effCode t 63 == 24 && t.flag (breg .clk 0) 31) := by decide +kernel

def hotState : State := { up with power := { up.power with hot := true } }

def overState : State := { up.setFld (breg .pwr 0x14) 0 6 17 with power := { up.power with overs := 99 } }

/-- The ceiling after an evaluation. -/
def ceils (i : BitVec 16 → Instr) (s : State) (w : BitVec 16) (c : Nat) : Bool := nextIs (exec (i w) s) (fun t => ceilCode t == c && t.fld (breg .pwr 4) 0 16 == w.toNat)

theorem witness_PowerAndClocks_ceiling : capLimit up < (20000 : BitVec 16).toNat ∧ overState.power.overs = 99 ∧
  CollectorFree { Detection.bare 0x52 with a := 150, b := 200 } overState ∧
  ceils .ceilingEval up 0 32 = true ∧ ceils .ceilingEval up 20000 22 = true ∧ ceils .ceilingEval hotState 0 22 = true ∧ ceils .ceilingEval (up.setFld (breg .pwr 0x14) 0 6 8) 14900 10 = true ∧
  nextIs (exec (.ceilingEval 20000) overState) (fun t => ceilCode t == 16 && t.flag (breg .pwr 0) 2) ∧
  nextIs (exec (.thermalSample 460 0) { up with power := { up.power with crit := 1 } }) (fun t => t.flag (breg .pwr 0) 7 && t.power.hot) ∧
  nextIs (exec (.thermalSample 0xFFF 1) (hotState.setFlag (breg .pwr 0) 7 true)) (fun t => !t.flag (breg .pwr 0) 7 && !t.power.hot && t.rd (breg .pwr 8) == 0x0FFF0001) := by
  unfold CollectorFree; decide +kernel

def railFault (c : PowerDetector → Instr) (d : PowerDetector) (code : BitVec 8) : Bool :=
  nextIs (exec (c d) up) (fun t => t.sieve.recs.any (fun r => r.2.any (fun x => x.code == code)))

def linkOn : State := { (up.setFld (breg .pwr 0x24) 0 8 0x7F).setFld (rlink 7 0) 0 2 3 with power := { up.power with linkUp := [7] } }

theorem witness_PowerAndClocks_links : railSetting up 5 = some 1200 ∧ 5 * 1200 < 100 * apart 1200 (1139 : BitVec 16).toNat ∧ 100 * apart 1200 (1140 : BitVec 16).toNat ≤ 5 * 1200 ∧
  30 < apart (ldoOut up 63) (749 : BitVec 16).toNat ∧ railFault .powerDetectorFault (.rail 5 1139) 0x61 = true ∧ railFault .powerDetectorFault (.rail 5 1140) 0x61 = false ∧
  railFault .powerDetectorFault (.ldo 63 749) 0x27 = true ∧ railFault .powerDetectorFault .refLoss 0x63 = true ∧ railFault .powerDetectorFault .pllm 0x64 = true ∧
  (linked 5 busyLink).flag (breg .upk 0x50) 31 = true ∧
  nextIs (exec (.linkEyeCheck [(7, 0x6363632F)]) (timedAt 1000000 (linked 5 busyLink))) (fun t => (link t 7).eyeLow == 1 && t.rd (rlink 7 0x20) == 0x6363632F && t.upkeep.eyeAt == 1000000) ∧
  (List.range 7).all (fun n => linkState (linked 5 busyLink) n != 5) = true ∧ scanDrives linkOn = false ∧
  nextIs (exec (.linkEyeCheck [(7, 0x6363632F)]) (timedAt 100000000 (linked 5 { busyLink with eyeLow := 2 }))) (fun t => linkState t 7 == 6 && t.fld (breg .upk 0x54) 16 16 == 1) ∧
  nextIs (exec (.pdreqLinkWrite .host 0x7F) (linked 0 busyLink)) (fun t => !linkPowered t 7 && t.fld (breg .pwr 0x18) 0 8 == 0x7F) ∧
  nextIs (exec (.pdreqLinkWrite .mc 0x7F) (linked 5 busyLink)) (fun t => linkPowered t 7 && t.fld (breg .pwr 0x18) 0 8 == 0xFF && t.fld (breg .pwr 0x28) 24 8 == 1) ∧
  nextIs (exec (.pdreqLinkWrite .host 0x7F) (reactingNow (linked 0 busyLink))) (fun t => linkPowered t 7 && t.power.linkAsk == some 0x7F) ∧
  nextIs (exec (.pdreqLinkWrite .host 0x7F) { linked 0 busyLink with queues := [(qkey 0x4F true 0, [tok0])] }) (fun t => t.power.linkUp == []) ∧
  nextIs (exec (.pdLinkPowerOn 7) linkOn) (fun t => linkPowered t 7 && linkState t 7 == 1 && t.power.linkUp == []) := by decide +kernel

/-- The last plot's margin is sampled, with its trim and its count of samples above HIGH. -/
def calState (trim : BitVec 5) (n : Nat) : State :=
  { timedAt 100000 (up.wr (ldoReg 63) (put (up.rd (ldoReg 63)) 16 trim)) with upkeep := { up.upkeep with above := SMap.set up.upkeep.above 63 n 0 } }

def monitors (m : BitVec 6) : List Monitor := [{ plot := 63, slack := m, cycles := 1024 }, { plot := 63, slack := 0, cycles := 1023 }]

def trims (c : List Monitor → Instr) (s : State) (m : BitVec 6) (trim : Int) (n : Nat) : Bool :=
  nextIs (exec (c (monitors m)) s) (fun t => trimOf t 63 == trim && SMap.get t.upkeep.above 63 0 == n && t.fld (calReg 63) 24 6 == m.toNat)

theorem witness_Upkeep_calibration : plotGone up 63 = false ∧ up.flag (breg .upk 0x40) 31 = true ∧ reacting up = false ∧
  up.fld (breg .upk 0x40) 18 6 = 2 ∧ up.fld (breg .upk 0x40) 6 6 = 6 ∧ up.fld (breg .upk 0x40) 12 6 = 14 ∧ up.fld (breg .upk 0x40) 0 6 = 10 ∧
  trims .calEval (calState 0 3) 1 2 0 = true ∧ trims .calEval (calState 7 3) 0 8 0 = true ∧ trims .calEval (calState 8 3) 5 8 0 = true ∧ trims .calEval (calState 0 3) 5 1 0 = true ∧
  trims .calEval (calState 0 9) 15 (-1) 0 = true ∧ trims .calEval (calState 0 8) 15 0 9 = true ∧ trims .calEval (calState 0 8) 14 0 0 = true ∧
  nextIs (exec (.calEval (monitors 1)) up) (fun t => t == up) := by decide +kernel

/-- The scrub of the local memories is on, at the last tick of a pass, and a word of the last frame store is marked. -/
def ticking (m : Mark) : State :=
  let s := (up.setFlag (breg .upk 0x10) 1 true).setMark (frameBase 1086 + 8 * 4095) m
  timedAt 100000 { s with upkeep := { s.upkeep with tick := 4095 } }

def ungrouped (w : Mark) : State := (up.setFlag (breg .upk 0x10) 0 true).setMark (wbyte (rowWord 3 0 7)) w

theorem witness_Upkeep_scrub : (ticking .clean).marks = [] ∧ (ticking .single).marks = [(frameBase 1086 + 8 * 4095, .single)] ∧ plotOn (ticking .single) 63 = true ∧
  weederHeld (ungrouped .clean) = false ∧ SMap.get (ungrouped .clean).upkeep.gscrub 3 0 + 1 < 262144 ∧ bankState (ungrouped .clean) 384 = .on ∧
  rowWord 3 0 7 ∈ groupWords 3 0 0 ∧ (groupWords 3 0 0).all (fun w => !borrowed (ungrouped .single) w && !wordBad (ungrouped .single) w) = true ∧
  ((groupWords 3 0 0).filter (fun w => (ungrouped .single).mark (wbyte w) != .clean)) = [rowWord 3 0 7] ∧
  nextIs (exec (.scrubTick []) (ticking .clean)) (fun t => t.upkeep.tick == 0 && t.fld (breg .upk 0x18) 8 8 == 1) ∧
  nextIs (exec (.scrubTick []) (timedAt 0 (ticking .single))) (fun t => t == timedAt 0 (ticking .single)) ∧
  nextIs (exec (.scrubTick []) (ticking .single)) (fun t => t.marks == [] && t.upkeep.tickAt == 100000) ∧
  nextIs (exec (.scrubTick []) (ticking .double)) (fun t => t.marks.length == 1 && t.upkeep.tick == 0) ∧
  nextIs (exec (.scrubBurst 3 [] []) (ungrouped .single)) (fun t => t.marks == [] && t.fld (breg .upk 0x1C) 16 16 == 1 && SMap.get t.upkeep.gscrub 3 0 == 1) := by decide +kernel

def marching (b : Option Borrow) : State := setQuad 3 { Quad.reset with march := 4095, borrow := b } (timedAt 100000 (up.setFlag (breg .upk 0x10) 2 true))

def aBorrow (wanted : Bool) : Borrow := { bank := 127, stripe := 31, wanted := wanted, shadow := [], shadowPres := [] }

/-- Two reads of a march that differ, the second of the second background. -/
def firstRead : MarchRead := { checker := false, element := 4, row := 511 }

def lastRead : MarchRead := { checker := true, element := 0, row := 0 }

/-- A word of the last stripe of the last bank. -/
def stripeWord : BitVec 23 := rowWord 3 127 (512 * 31 + 7)

theorem witness_Upkeep_march : weederHeld (marching none) = false ∧ (marching none).flag (breg .upk 0x10) 2 = true ∧ (quad (marching none) 3).borrow = none ∧
  (quad (marching none) 3).borrowAt.toNat + 10000 * (marching none).fld (breg .upk 0x14) 24 8 ≤ now (marching none) ∧ nextStripe (marching none) 3 129 4095 = some 4095 ∧
  (marching none).marks = [] ∧ (marching none).pres = [] ∧ CollectorFree { Detection.bare 0x50 with locus := 511, a := 512 * 31 + 511 } (marching (some (aBorrow false))) ∧
  nextIs (exec (.borrowStart 3) (marching none)) (fun t => (quad t 3).borrow == some (aBorrow false) && (quad t 3).march == 0 && t.flag (wqReg 3) 31) ∧
  (aBorrow true) = { shadowOf 3 127 31 (marching (some (aBorrow true))) with wanted := true } ∧ marchTurn firstRead < marchTurn lastRead ∧
  (marching (some (aBorrow true))).pop = none ∧ (marching (some (aBorrow true))).stored ∧
  nextIs (exec (.borrowComplete 3 []) (marching (some (aBorrow false)))) (fun t => (quad t 3).borrow == none && !t.flag (breg .upk 0x30) 31) ∧
  nextIs (exec (.borrowComplete 3 [lastRead, firstRead]) (marching (some (aBorrow false)))) (fun t => (quad t 3).borrow == none && t.flag (breg .upk 0x30) 31 && t.fld (breg .upk 0x30) 0 9 == 511) ∧
  nextIs (exec (.borrowAbort 3 ⟨96, []⟩) (marching (some (aBorrow true)))) (fun t => (quad t 3).borrow == none && t.fld (wqReg 3) 16 8 == 96 && t.rd (breg .upk 0x34) == 1 && !t.flag (breg .upk 0x30) 31) ∧
  nextIs (exec (.borrowAbort 3 ⟨96, [lastRead, firstRead]⟩) (marching (some (aBorrow true)))) (fun t => t.flag (breg .upk 0x30) 31 && t.fld (breg .upk 0x30) 0 9 == 511) ∧
  nextIs (exec (.borrowComplete 3 []) (marching (some { aBorrow false with shadow := [(wbyte stripeWord, 9)] }))) (fun t => t.mem == [(wbyte stripeWord, 9)]) ∧ inStripe 3 127 31 (wbyte stripeWord) = true := by
  unfold State.stored
  unfold CollectorFree; decide +kernel

def switching_ (t : Nat) : State := timedAt t { up.setFlag (breg .upk 0x64) 31 true with upkeep := { up.upkeep with waiting := [(63, 0)] } }

def draining_ : State := timedAt 10000 { up.setFlag (breg .upk 0x64) 31 true with upkeep := { up.upkeep with drainAt := some 0 } }

theorem witness_Upkeep_epochs : epochBusy up = false ∧ up.flag (breg .upk 0x64) 1 = false ∧ epochHalted up = false ∧ up.upkeep.asked = false ∧ (orderedPlots up).length = 64 ∧
  epochBusy (switching_ 0) = true ∧ (switching_ 0).upkeep.waiting = [(63, 0)] ∧ (0 : BitVec 64).toNat + 100000 ≤ now (switching_ 100000) ∧
  (0 : BitVec 64).toNat + 1000 * draining_.fld (breg .upk 0x60) 0 16 ≤ now draining_ ∧
  nextIs (exec (.epochAdvance .smbus 0x80000005) up) (fun t => !epochBusy t && t.flag (breg .upk 0) 31) ∧
  nextIs (exec (.epochAdvance .host 0x80000005) (switching_ 0)) (fun t => !curEpoch t && t.flag (breg .upk 0) 31) ∧
  nextIs (exec (.epochAdvance .host 0x80000005) up) (fun t => curEpoch t && epochBusy t && t.fld (breg .upk 0x60) 0 16 == 5 && t.upkeep.waiting.length == 64) ∧
  nextIs (exec (.epochAdvance .host 0x80000005) (up.wr64 (breg .upk (0x1200 + 8 * 63)) 0x1122334455667788)) (fun t => (t.plot 63).pages1 == 0x1122334455667788 && (t.plot 63).pages0 == Plot.reset.pages0) ∧
  reacting (reactingNow up) = true ∧ nextIs (exec (.epochAdvance .host 0x80000005) (reactingNow up)) (fun t => t.upkeep.asked && !epochBusy t && t.fld (breg .upk 0x60) 0 16 == 5) ∧
  nextIs (exec (.epochSwitch 63) (switching_ 0)) (fun t => t.upkeep.waiting.isEmpty && t.upkeep.drainAt == some 0) ∧
  nextIs (exec (.epochTimeout 63) (switching_ 100000)) (fun t => t.upkeep.waiting.isEmpty && t.fld (breg .upk 0x64) 8 6 == 63 && (t.plot 63).epochLate) ∧
  nextIs (exec .epochRetire draining_) (fun t => !epochBusy t && t.upkeep.drainAt == none) := by decide +kernel

def dcdDetect : Detection := { Detection.bare 0x25 with plot := some 63, locus := 63 }

/-- The last plot's collector holds an open record, whose reaction is as given. -/
def aRec (react : BitVec 3) (phase : RPhase) : Rec := { anyRec with code := 0x25, worst := 0x25, react := react, phase := phase, tplot := some 63, hist := some 63 }

def collecting (r : Rec) : State := { up with sieve := { up.sieve with recs := [(63, some r)], recno := 9 } }

def travelling (r : Rec) (count : Nat) : State :=
  let s := (collecting r).setFld (breg .sieve 8) 8 7 count
  { s with sieve := { s.sieve with travel := [63] } }

theorem witness_SieveRecords_detect : listedCode 0x25 = true ∧ CollectorFree dcdDetect up ∧ recOf (collecting (aRec reEvent .none)) (collectorOf dcdDetect (collecting (aRec reEvent .none))) = some (aRec reEvent .none) ∧
  mergedReact (aRec reEvent .none) dcdDetect (reactOf up 0x25) = none ∧
  nextIs (exec (.faultDetect dcdDetect) up) (fun t => (recOf t 63).any (fun r => r.open_ && r.code == 0x25 && r.recno == 1) && t.sieve.travel == [63]) ∧
  nextIs (exec (.faultDetect dcdDetect) (collecting (aRec reEvent .none))) (fun t => (recOf t 63).any (fun r => r.merge == 1 && r.last == 0x25) && t.sieve.recno == 9) := by
  unfold CollectorFree; decide +kernel

theorem witness_SieveRecords_history :
  histCount (travelling (aRec reReset .none) 63) = 63 ∧ histCount (travelling (aRec reLog .none) 64) = 64 ∧ aboveEvent reReset = true ∧ aboveEvent reEvent = false ∧
  (anyRec.tDet.toNat + 1000 * (collecting anyRec).fld (breg .sieve 0) 8 8 ≤ now (timedAt 256000 (collecting anyRec))) ∧
  nextIs (exec .recordArrival (travelling (aRec reReset .none) 63)) (fun t => histCount t == 64 && t.sieve.queue == [63] && (recOf t 63).any (fun r => r.phase == .queued && r.hist == some 63)) ∧
  nextIs (exec .recordArrival (travelling (aRec reLog .none) 64)) (fun t => t.sieve.hist.isEmpty && t.flag (breg .sieve 8) 31 && t.fld (breg .sieve 8) 16 8 == 1) ∧
  nextIs (exec (.recordClose 63) (timedAt 256000 (collecting (aRec reEvent .none)))) (fun t => recOf t 63 == none && (histAt t 63).any (fun r => !r.open_ && r.tClose == 256000)) ∧
  nextIs (exec (.recordClose 63) (timedAt 256000 (collecting (aRec reReset .done)))) (fun t => recOf t 63 == none) ∧
  nextIs (exec (.recordClose 63) (timedAt 256000 (collecting (aRec reSafe .done)))) (fun t => (recOf t 63).isSome) := by decide +kernel

def popping (r : Rec) : State := setHist 63 (some r) ((up.setFld (breg .sieve 8) 0 6 63).setFld (breg .sieve 8) 8 7 1)

def upset (n : BitVec 3) : VoteUpset := { site := 0x46, addr := BitVec.ofNat 40 (breg .pwr 0xC), copies := n }

def loaded : State :=
  let s := setQuad 3 { Quad.reset with ring := [0] } up
  { s with dib := { s.dib with intake := [tok0], deadlines := [(9, 3)] }, lck := { s.lck with intake := [tok0], direct := [.wake 3 4] } }

/-- A device FIFO is emptied, and its entries are counted. -/
def empties (c : FifoSite → Instr) (site : FifoSite) (n : Nat) (P : State → Bool) : Bool :=
  nextIs (exec (c site) loaded) (fun t => P t && t.fld (breg .sieve 0x28) 0 32 == n && t.fld (breg .sieve 0x24) 8 8 == site.val)

theorem witness_SieveRecords_software : voteWord 0x46 (breg .pwr 0xC) = true ∧ voteWord 0x46 0 = false ∧ popcount (upset 1).copies = 1 ∧ popcount (upset 7).copies = 3 ∧ CollectorFree (Detection.bare 0x67) up ∧
  nextIs (exec (.sieveHistPop .host 1) (popping { anyRec with open_ := false })) (fun t => histHead t == 0 && histCount t == 0 && t.sieve.hist.isEmpty) ∧
  nextIs (exec (.sieveHistPop .mc 1) (popping anyRec)) (fun t => histHead t == 63 && t.flag (breg .sieve 4) 31) ∧
  nextIs (exec (.sieveHistPop .smbus 1) (popping anyRec)) (fun t => t.flag (breg .sieve 4) 31) ∧
  nextIs (exec (.swSafe .host 0x80000001) up) (fun t => t.flag (breg .sieve 0x38) 0 && (recOf t 64).any (fun r => r.code == 0x67)) ∧
  nextIs (exec .mcWdog up) (fun t => (recOf t 64).any (fun r => r.code == 0x66)) ∧
  nextIs (exec (.votePass (some { upset 7 with addr := 0 })) up) (fun t => t == up) ∧ unserved .host up = false ∧
  nextIs (exec (.fifoPtr 8) loaded) (fun t => t.sieve.travel == [64] && (recOf t 64).any (fun r => r.code == 0x46)) ∧
  nextIs (exec (.votePass (some (upset 1))) up) (fun t => t.sieve.diverged.isEmpty && t.fld (breg .sieve 0x20) 24 8 == 1) ∧
  nextIs (exec (.votePass (some { upset 7 with site := 0x41, addr := BitVec.ofNat 40 (breg .sieve 0x40) })) up)
    (fun t => t.sieve.diverged == [0x41] && t.free == up.free + 1 && outLevel t 31 == .z) ∧
  empties .fifoPtr 0 1 (fun t => t.dib.intake.isEmpty) = true ∧ empties .fifoPtr 1 1 (fun t => t.lck.intake.isEmpty) = true ∧
  empties .fifoPtr 2 1 (fun t => t.lck.direct.isEmpty) = true ∧ empties .fifoPtr 6 1 (fun t => (quad t 3).ring.isEmpty) = true ∧
  empties .fifoPtr 7 1 (fun t => t.dib.deadlines.isEmpty) = true ∧ empties .fifoPtr 8 0 (fun t => t.sieve.hist.isEmpty) = true := by
  unfold CollectorFree; decide +kernel

def reQ (r : Rec) : State := { collecting r with sieve := { (collecting r).sieve with queue := [63] } }

def reRun (react : BitVec 3) (phase : RPhase) : State :=
  let s := collecting (aRec react phase)
  { s with sieve := { s.sieve with running := some 63, runReact := react } }

def retireRec : Rec := { aRec reRetire .queued with phys := 1071 }

theorem witness_SieveReactions_start : transiting (reQ retireRec) = false ∧ transiting ((reQ retireRec).setFlag (breg .grn 0x200) 31 true) = true ∧
  recSlot retireRec ≠ outSlot (reQ retireRec) 63 ∧ (reQ retireRec).flag (preg 63 0) 30 = true ∧ ((reQ retireRec).plot 63).absent = false ∧
  nextIs (exec .reactionStart (reQ retireRec)) (fun t => t.sieve.running == some 63 && t.sieve.runReact == reRetire && t.sieve.queue == [] && t.sieve.masks.length == 1 && retiring t (logicalD (reQ retireRec) retireRec.phys.toNat) && !inService t retireRec.phys.toNat) ∧
  nextIs (exec .reactionStart (reQ (aRec reReset .queued))) (fun t => (t.plot 63).resetting == some { origin := .reaction, service := true }) ∧
  nextIs (exec .reactionStart (reQ (aRec reQuarantine .queued))) (fun t => (t.plot 63).resetting == some { origin := .quarantine, service := true }) ∧
  nextIs (exec .reactionStart (reQ (aRec reSafe .queued))) (fun t => t.sieve.runReact == reSafe) ∧
  nextIs (exec .reactionStart ((reQ (aRec reReset .queued)).setFlag (clkStat 0) 31 true)) (fun t => !t.flag (clkStat 0) 31 && t.flag (clkStat 0) 29) := by decide +kernel

def retireRun : State :=
  let s := collecting { retireRec with phase := .running }
  { s with sieve := { s.sieve with running := some 63, runReact := reRetire } }

def resetRun : State := { reRun reReset .running with plots := [(63, { Plot.reset with resetting := some { origin := .reaction, service := true } })] }

/-- The conditions of a running reaction on the last plot. -/
def runsHere (s : State) (react : BitVec 3) (r : Rec) : Bool :=
  s.sieve.running == some 63 && recOf s 63 == some r && r.tplot == some 63 && s.sieve.runReact == react && r.phase == .running

/-- A raised record beside the safe state, a record that asks for the safe state, and one on a plot that changes its code. -/
def dropped : State :=
  let s := reQ (aRec reReset .queued)
  { s with sieve := { s.sieve with safe := some 64, recs := [(63, some (aRec reReset .queued)), (64, some { aRec reSafe .done with worstCls := 3 })] } }

def moving : State := (reQ (aRec reReset .queued)).setFlag (clkStat 7) 31 true

theorem witness_SieveReactions_drops : transiting dropped = false ∧ dropped.sieve.safe = some 64 ∧ transiting moving = false ∧ moving.flag (ldoReg 7) 31 = true ∧ retireRec.phys ≠ 0x7FF ∧
  nextIs (exec .reactionStart dropped) (fun t => t.sieve.running == none && t.sieve.queue == [] && recOf t 63 == none && (recOf t 64).any (fun r => r.conseq == 1)) ∧
  nextIs (exec .reactionStart (reQ (aRec reSafe .queued))) (fun t => t.sieve.masks.map (·.mask) == [.device] && t.sieve.runReact == reSafe) ∧
  nextIs (exec .reactionStart moving) (fun t => !t.flag (clkStat 7) 31 && t.flag (clkStat 7) 29 && t.sieve.masks.map (·.mask) == [.plot 63] &&
    (t.plot 63).resetting == some { origin := .reaction, service := true }) ∧
  nextIs (exec .deviceSafe ((collecting { aRec reSafe .none with worstCls := 3 }).setFlag (clkStat 7) 31 true |>.setFlag (breg .sieve 0x38) 0 false)) (fun t => !t.flag (clkStat 7) 31 && t.flag (clkStat 7) 29) := by decide +kernel

theorem witness_SieveReactions_plots : runsHere retireRun reRetire { retireRec with phase := .running } = true ∧ recSlot retireRec < 16 ∧ outSlot retireRun 63 ≠ recSlot retireRec ∧
  resetRun.stored ∧ runsHere resetRun reReset (aRec reReset .running) = true ∧ runsHere (reRun reQuarantine .running) reQuarantine (aRec reQuarantine .running) = true ∧
  nextIs (exec .plotResetReaction resetRun) (fun t => (t.plot 63).resetting == none && (recOf t 63).any (fun r => r.phase == .acted)) := by
  unfold State.stored; decide +kernel

def fatalRec : Rec := { aRec reSafe .none with worstCls := 3 }

def unhalted (s : State) : State := s.setFlag (breg .sieve 0x38) 0 false

theorem witness_SieveReactions_safe : fatalRec.open_ = true ∧ (collecting fatalRec).sieve.travel = [] ∧ (collecting fatalRec).sieve.running = none ∧
  fatalSafe (reRun reSafe .running) = none ∧ severity reReset ≤ severity reReset ∧
  nextIs (exec .deviceSafe (unhalted (collecting fatalRec))) (fun t => t.sieve.safe == some 63 && t.faultN && t.power.frozen && (recOf t 63).any (fun r => r.phase == .done)) ∧
  nextIs (exec .deviceSafe (unhalted (reRun reSafe .running))) (fun t => t.sieve.safe == some 63 && t.faultN && !t.power.frozen && (recOf t 63).any (fun r => r.phase == .acted)) ∧
  nextIs (exec .reactionComplete (reRun reReset .acted)) (fun t => t.opState == .recovery && t.sieve.running == none && (recOf t 63).any (fun r => r.phase == .done)) ∧
  nextIs (exec .reactionComplete (reRun reSafe .acted)) (fun t => t.opState == .service) := by decide +kernel

/-- A reaction ends with another queued, and with an epoch advance that waits. -/
def endsQueued : State := { reRun reReset .acted with sieve := { (reRun reReset .acted).sieve with queue := [1], recs := (1, some (aRec reReset .queued)) :: (reRun reReset .acted).sieve.recs }, upkeep := { up.upkeep with asked := true } }

def endsAsked : State := { reRun reReset .acted with upkeep := { up.upkeep with asked := true } }

theorem witness_SieveReactions_ends : recOf endsQueued 63 = some (aRec reReset .acted) ∧ severity reReset ≤ severity endsQueued.sieve.runReact ∧
  endsAsked.flag (breg .upk 0x64) 30 = false ∧ endsAsked.bankWait = false ∧ (orderedPlots endsAsked).length = 64 ∧
  nextIs (exec .reactionComplete endsQueued) (fun t => t.upkeep.asked && !epochBusy t && t.sieve.running == none) ∧
  nextIs (exec .reactionComplete endsAsked) (fun t => !t.upkeep.asked && epochBusy t && curEpoch t) := by decide +kernel

/-- A reaction ends where plot 0 does not run at its code, and beside the safe state after a raise. -/
def endsSlow : State := (reRun reReset .acted).setFld (clkStat 0) 0 6 8

def endsSafe : State :=
  let s := reRun reReset .acted
  { s with sieve := { s.sieve with safe := some 64, recs := [(63, some (aRec reQuarantine .acted)), (64, some fatalRec)] } }

theorem witness_SieveReactions_resumes : plotOn endsSlow 0 = true ∧ endsSlow.power.frozen = false ∧ endsSlow.flag (clkStat 0) 30 = false ∧
  curCode endsSlow 0 ≠ effCode endsSlow 0 ∧ nextIs (exec .reactionComplete endsSlow) (fun t => t.flag (clkStat 0) 31 && curCode t 0 == 8) ∧
  recOf endsSafe 63 = some (aRec reQuarantine .acted) ∧ recOf endsSafe 64 = some fatalRec ∧ severity endsSafe.sieve.runReact < severity reQuarantine ∧
  nextIs (exec .reactionComplete endsSafe) (fun t => recOf t 63 == none && (recOf t 64).any (fun r => r.conseq == 1)) := by decide +kernel

/-- A record that opened before one that is queued runs first, and records of one cycle run in ascending order. -/
theorem witness_SieveRecords_order :
  let q (tDet : BitVec 64) : State := { travelling (aRec reReset .none) 5 with
    sieve := { (travelling (aRec reReset .none) 5).sieve with queue := [64], recs := [(63, some { aRec reReset .none with tDet := tDet }), (64, some { aRec reReset .queued with tDet := 7 })] } }
  nextIs (exec .recordArrival (q 6)) (fun t => t.sieve.queue == [63, 64]) ∧ nextIs (exec .recordArrival (q 7)) (fun t => t.sieve.queue == [63, 64]) ∧
  nextIs (exec .recordArrival (q 8)) (fun t => t.sieve.queue == [64, 63]) := by decide +kernel

/-- A GRANARY_CLEAR in progress over bytes that are not zero. -/
def clearing : State := busy 4 { clearArgs with mem := [(0x3FF0000, 2)], pres := [(0x7FE000, 2)] }

theorem witness_CommandsComplete :
  (full.opState ≠ .off ∧ hostReady full = true ∧ hostBusy full = false ∧ ∀ k, k < 4 → full.rd (argReg k) = 0) ∧
  (waiting.opState = .boot ∧ bootStep waiting = 4 ∧ hostBusy waiting = false ∧ hostReady waiting = true ∧
    waiting.tap.instr.drives = false ∧ ∀ k, k < 4 → waiting.rd (argReg k) = 0) ∧
  ((busy 1 loadArgs).cmd = some (cmdOf 1 loadArgs) ∧ hostBusy (busy 1 loadArgs) = true ∧ (cmdOf 1 loadArgs).opc = 1 ∧
    (cmdOf 1 loadArgs).a2 = 64) ∧
  (clearing.cmd = some (cmdOf 4 clearArgs) ∧ hostBusy clearing = true ∧ (cmdOf 4 clearArgs).abort = false ∧
    (cmdOf 4 clearArgs).lost = false ∧ clearing.banks = [] ∧ (cmdOf 4 clearArgs).a0.toNat + (cmdOf 4 clearArgs).a1.toNat ≤ 1024 ∧
    clearing.stored) ∧
  (scanDrives waiting = false ∧ scanDrives staged = false ∧ staged.flag (breg .host 0) 31 = false ∧ staged.rd (breg .run 0x10) ≠ staged.fabric.imgSeen) ∧
  ((runningAs plotResetting reQuarantine).any (fun k => k.2.2 == 63) = false ∧ (plotResetting.plot 63).resetting.isSome) ∧
  (hostReady up = true ∧ mbxBusy up = false ∧ forceWaits up = false) ∧
  (hostReady mbxHolds = true ∧ mbxBusy mbxHolds = true ∧ mbxHolds.fld (breg .mc 0) 0 8 = 0x20) := by
  unfold State.stored; decide +kernel

/-- One ill-formed term for each check of well-formedness. -/
theorem test_wf_refuses :
  (Instr.fabricBootStart { timeout := some 4, crcBadSlots := [], badEntries := [] }).wf = false ∧ (Instr.verifyAndStart { timeout := some 12, crcBadSlots := [], badEntries := [] }).wf = false ∧
  (Instr.loadImageComplete .done [0]).wf = false ∧ (Instr.granaryClearComplete 1025).wf = false ∧ (Instr.selfTestComplete 65 [] []).wf = false ∧
  (Instr.bar2Access 0 8 (some [])).wf = false ∧ (Instr.bar2Access 0 0 none).wf = false ∧ (Instr.registerWrite .host 0 0 0).wf = false ∧
  (Instr.registerPathAccess .host 0 0 none).wf = false ∧ (Instr.contextReturn 0 0).wf = false ∧ (Instr.queueTransfer { site := 0, toMesh := false, chan := 7, input := 0 } 0).wf = false ∧
  (Instr.queueFlush { site := 0x64, toMesh := false, chan := 0, input := 0 }).wf = false ∧ (Instr.queueReset ⟨{ site := 0xC0, toMesh := false, chan := 0, input := 0 }, evenPtr⟩).wf = false ∧
  (Instr.peek .host 4 5 .clean).wf = false ∧ (Instr.linkEyeCheck [(0, 0), (0, 1)]).wf = false ∧ (Instr.powerDetectorFault (.rail 7 0)).wf = false ∧
  (Instr.borrowAbort 0 ⟨97, []⟩).wf = false ∧ (Instr.votePass (some { site := 0, addr := 0, copies := 0 })).wf = false ∧
  (Instr.hostLinkUp 3 1).wf = false ∧ (Instr.hostLinkUp 1 5).wf = false := by decide +kernel

theorem test_wf_accepts : (Instr.calEval (monitors 0)).wf = true ∧ Instr.bypass.wf = true ∧ (Instr.borrowAbort 0 ⟨96, [firstRead]⟩).wf = true ∧ (Instr.peek .host 4 4 .clean).wf = true ∧
  (Instr.queueReset ⟨{ site := 0x48, toMesh := true, chan := 5, input := 0 }, evenPtr⟩).wf = true ∧ (Instr.hostLinkUp 8 4).wf = true := by decide +kernel

/-- No row of the opcode table has bits, so no word spells a command, and a state with such a word is unchanged. -/
theorem test_words_spell_nothing : decodeTableWord 32 0 = none ∧ (State.reset.withFetchWord 32 0).pending = [] := by decide +kernel

end Sys2Proof.Tests
end

section
/-! SUPPORT. The first state: its registers and its stores; O4. -/

namespace Sys2Proof.Machine

/-- Every store of the first state lists nothing, so each is in canonical form. -/
theorem State.stored_reset : State.reset.stored :=
  ⟨rfl, rfl, rfl, rfl, rfl, fun _ h => absurd h List.not_mem_nil, rfl, fun _ h => absurd h List.not_mem_nil⟩

/-- Settles O4. -/
theorem resetState : Obligations.ResetState := by
  have halted : bits (State.reset.rd (ereg 0 4)) 0 2 = 3 := by decide
  have reactions : reactOf State.reset 0x01 = reLog ∧ reactOf State.reset 0x15 = reRetire ∧
      reactOf State.reset 0x27 = reReset ∧ reactOf State.reset 0x60 = reSafe := by decide
  exact ⟨⟨rfl, rfl, rfl, fun _ => rfl, fun _ => rfl, rfl, fun _ => rfl, fun _ => rfl, fun _ => rfl, halted, reactions⟩,
    State.stored_reset⟩

end Sys2Proof.Machine
end

section
/-! SUPPORT. Fields of a value and of a register: what a field or a bit reads as once another is put. -/

namespace Sys2Proof.Machine

/-! ## Fields of a value -/

/-- The bits of a value with a field replaced. -/
theorem getLsbD_put {n len : Nat} (v : BitVec n) (lo : Nat) (x : BitVec len) (i : Nat) :
    (put v lo x).getLsbD i = if lo ≤ i ∧ i < lo + len ∧ i < n then x.getLsbD (i - lo) else v.getLsbD i := by
  by_cases hn : i < n
  · by_cases hlo : lo ≤ i
    · by_cases hhi : i < lo + len
      · have h : i - lo < len := by omega
        simp [put, hn, hlo, hhi, h, Nat.not_lt.mpr hlo]
      · have h : len ≤ i - lo := by omega
        simp [put, hn, hlo, hhi, h]
    · have : i < lo := by omega
      simp [put, hn, hlo, this]
  · simp [hn, BitVec.getLsbD_of_ge _ i (Nat.le_of_not_lt hn)]

theorem getLsbD_bits {n : Nat} (v : BitVec n) (lo len i : Nat) :
    (bits v lo len).getLsbD i = (decide (i < len) && v.getLsbD (lo + i)) := by
  simp [bits]

/-- A field reads back as it was put. -/
theorem bits_put_same {n len : Nat} (v : BitVec n) (lo : Nat) (x : BitVec len) (h : lo + len ≤ n) :
    bits (put v lo x) lo len = x := by
  ext i hi
  have hin : lo + i < n := by omega
  simp [← BitVec.getLsbD_eq_getElem, getLsbD_bits, getLsbD_put, hi, hin]

/-- A field reads as before where another one has been put. -/
theorem bits_put_disjoint {n len : Nat} (v : BitVec n) (lo : Nat) (x : BitVec len) (lo' len' : Nat)
    (h : lo + len ≤ lo' ∨ lo' + len' ≤ lo) : bits (put v lo x) lo' len' = bits v lo' len' := by
  ext i hi
  have hout : ¬ (lo ≤ lo' + i ∧ lo' + i < lo + len ∧ lo' + i < n) := by omega
  simp [← BitVec.getLsbD_eq_getElem, getLsbD_bits, getLsbD_put, hout]

theorem bit_put_out {n len : Nat} (v : BitVec n) (lo : Nat) (x : BitVec len) (i : Nat) (h : i < lo ∨ lo + len ≤ i) :
    bit (put v lo x) i = bit v i := by
  have hout : ¬ (lo ≤ i ∧ i < lo + len ∧ i < n) := by omega
  simp [bit, getLsbD_put, hout]

theorem bit_putBit_same {n : Nat} (v : BitVec n) (i : Nat) (b : Bool) (h : i < n) : bit (putBit v i b) i = b := by
  rw [bit, putBit, getLsbD_put]
  simp [h]

theorem bit_putBit_ne {n : Nat} (v : BitVec n) {i j : Nat} (b : Bool) (h : j ≠ i) : bit (putBit v i b) j = bit v j :=
  bit_put_out v i _ j (by omega)

theorem bits_putBit_out {n : Nat} (v : BitVec n) (i : Nat) (b : Bool) (lo len : Nat) (h : i < lo ∨ lo + len ≤ i) :
    bits (putBit v i b) lo len = bits v lo len :=
  bits_put_disjoint v i _ lo len (by omega)

theorem bits_whole {n : Nat} (v : BitVec n) : bits v 0 n = v := by simp [bits]

namespace State

/-! ## Fields of a register -/

theorem fld_setFld_same (s : State) (a lo len n : Nat) (h : lo + len ≤ 32) : (s.setFld a lo len n).fld a lo len = n % 2 ^ len := by
  simp [fld, setFld, bits_put_same _ _ _ h]

theorem fld_setFld_disjoint (s : State) (a lo len n lo' len' : Nat) (h : lo + len ≤ lo' ∨ lo' + len' ≤ lo) :
    (s.setFld a lo len n).fld a lo' len' = s.fld a lo' len' := by
  simp [fld, setFld, bits_put_disjoint _ _ _ _ _ h]

theorem fld_setFlag_out (s : State) (a i lo len : Nat) (b : Bool) (h : i < lo ∨ lo + len ≤ i) :
    (s.setFlag a i b).fld a lo len = s.fld a lo len := by
  simp [fld, setFlag, bits_putBit_out _ _ _ _ _ h]

theorem flag_setFlag_same (s : State) (a i : Nat) (b : Bool) (h : i < 32) : (s.setFlag a i b).flag a i = b := by
  simp [flag, setFlag, bit_putBit_same _ _ _ h]

theorem flag_setFlag_ne (s : State) (a : Nat) {i j : Nat} (b : Bool) (h : j ≠ i) :
    (s.setFlag a i b).flag a j = s.flag a j := by
  simp [flag, setFlag, bit_putBit_ne _ _ h]

/-- A field or a flag depends on its register alone. -/
theorem fld_congr {s t : State} {a : Nat} (h : t.rd a = s.rd a) (lo len : Nat) : t.fld a lo len = s.fld a lo len := by
  simp [fld, h]

theorem flag_congr {s t : State} {a : Nat} (h : t.rd a = s.rd a) (i : Nat) : t.flag a i = s.flag a i := by
  simp [flag, h]

/-- A counter that is raised stops at its maximum. -/
theorem fld_satAdd_same (s : State) (a lo len n : Nat) (h : lo + len ≤ 32) :
    (s.satAdd a lo len n).fld a lo len = min (2 ^ len - 1) (s.fld a lo len + n) := by
  have hpos : 0 < 2 ^ len := Nat.two_pow_pos len
  rw [satAdd, fld_setFld_same _ _ _ _ _ h, Nat.mod_eq_of_lt (by omega)]

theorem fld_satInc_same (s : State) (a lo len : Nat) (h : lo + len ≤ 32) :
    (s.satInc a lo len).fld a lo len = min (2 ^ len - 1) (s.fld a lo len + 1) := fld_satAdd_same s a lo len 1 h

/-- DEV_RSVD_ACCESS is one counter of the whole register. -/
theorem rd_rsvd (s : State) : (s.rsvd.rd (breg .dev 0x10)).toNat = min 0xFFFFFFFF ((s.rd (breg .dev 0x10)).toNat + 1) := by
  have h := fld_satInc_same s (breg .dev 0x10) 0 32 (by omega)
  simpa [fld, bits_whole, rsvd] using h

theorem rd_rsvd_ne (s : State) {a : Nat} (h : a ≠ breg .dev 0x10) : s.rsvd.rd a = s.rd a := rd_satInc_ne s h 0 32

end State
end Sys2Proof.Machine
end

section
/-! SUPPORT. Frames, and what events, records and detections change (R324, R453 to R457, R467). -/

namespace Sys2Proof.Machine

/-! ## Steps one after the other -/

section
variable {β : Type} {R : State → State → Prop} (refl : ∀ s, R s s) (trans : ∀ {s t u}, R s t → R t u → R s u)
  {f : State → β → State}
include refl trans

/-- Steps that all keep a relation between the state before and after keep it together. -/
theorem foldl_keeps : ∀ (l : List β) (s : State), (∀ b, b ∈ l → ∀ s, R s (f s b)) → R s (l.foldl f s)
  | [], s, _ => refl s
  | b :: l, s, h => trans (h b List.mem_cons_self s) (foldl_keeps l _ fun b hb => h b (List.mem_cons_of_mem _ hb))

/-- Among steps of which all but one keep a relation between the state before and after, that one has its turn: the
relation holds from the first state to the one that it meets, and from what it leaves to the last. -/
theorem foldl_turn {p : β} (h : ∀ q s, q ≠ p → R s (f s q)) : ∀ (l : List β) (s : State), l.Nodup → p ∈ l →
    ∃ u, R s u ∧ R (f u p) (l.foldl f s)
  | [], _, _, hp => absurd hp List.not_mem_nil
  | q :: l, s, hl, hp => by
    obtain ⟨hq, hl⟩ := List.nodup_cons.mp hl
    by_cases hqp : q = p
    · subst hqp
      exact ⟨s, refl s, foldl_keeps refl trans l _ fun b hb t => h b t fun he => hq (he ▸ hb)⟩
    · obtain ⟨u, hu, hu'⟩ := foldl_turn h l (f s q) hl ((List.mem_cons.mp hp).resolve_left (Ne.symm hqp))
      exact ⟨u, trans (h q s hqp) hu, hu'⟩

end

/-! ## What an operation leaves as it was -/

/-- The second state is the first but for what `blank` clears of a state and for the registers whose addresses `F` names. -/
structure Frame (blank : State → State) (F : Nat → Prop) (s t : State) : Prop where
  rest : blank t = blank s
  regs : ∀ a, ¬ F a → t.rd a = s.rd a

section
variable {blank : State → State} {F : Nat → Prop} {s t u : State}

theorem Frame.refl (blank : State → State) (F : Nat → Prop) (s : State) : Frame blank F s s := ⟨rfl, fun _ _ => rfl⟩

theorem Frame.trans (h : Frame blank F s t) (k : Frame blank F t u) : Frame blank F s u :=
  ⟨k.rest.trans h.rest, fun a ha => (k.regs a ha).trans (h.regs a ha)⟩

/-- Two steps one after the other, the later one first. -/
theorem Frame.after (k : Frame blank F t u) (h : Frame blank F s t) : Frame blank F s u := h.trans k

/-- What `blank` does not clear is the same in both states. -/
theorem Frame.get {α : Type} (h : Frame blank F s t) (g : State → α) (hg : ∀ s, g (blank s) = g s := by intro; rfl) :
    g t = g s := by rw [← hg t, h.rest, hg s]

theorem Frame.ite {c : Prop} [Decidable c] (h : Frame blank F s t) (k : Frame blank F s u) :
    Frame blank F s (if c then t else u) := by
  split
  · exact h
  · exact k

theorem Frame.foldl {β : Type} {f : State → β → State} (l : List β) (s : State)
    (h : ∀ b, b ∈ l → ∀ s, Frame blank F s (f s b)) : Frame blank F s (l.foldl f s) :=
  foldl_keeps (Frame.refl blank F) (fun h k => h.trans k) l s h

/-- Among steps of which only one writes outside `F`, that one has its turn. -/
theorem Frame.turn {β : Type} {f : State → β → State} {p : β} (l : List β) (s : State)
    (hl : l.Nodup) (hp : p ∈ l) (h : ∀ q s, q ≠ p → Frame blank F s (f s q)) :
    ∃ u, Frame blank F s u ∧ Frame blank F (f u p) (l.foldl f s) :=
  foldl_turn (Frame.refl blank F) (fun h k => h.trans k) h l s hl hp

/-- A frame that leaves less open is one that leaves more open. -/
theorem Frame.mono {blank' : State → State} {F' : Nat → Prop} (h : Frame blank F s t) (hF : ∀ a, F a → F' a)
    (hb : ∀ s, blank' (blank s) = blank' s := by intro; rfl) : Frame blank' F' s t :=
  ⟨by rw [← hb t, h.rest, hb s], fun a ha => h.regs a fun hf => ha (hF a hf)⟩

/-- A step that writes no register. -/
theorem Frame.of_regs (h : blank t = blank s) (hr : t.regs = s.regs) : Frame blank F s t :=
  ⟨h, fun a _ => by simp only [State.rd, hr]⟩

theorem Frame.wr (hb : ∀ (s : State) r, blank { s with regs := r } = blank s) (s : State) {a : Nat} (ha : F a) (v : Reg32) :
    Frame blank F s (s.wr a v) :=
  ⟨hb s _, fun b h => State.rd_wr_ne s (fun he : b = a => h (he ▸ ha)) v⟩

end

/-! ## Events -/

/-- The state without its pending events. -/
def blankEvents (s : State) : State := { s with dib := { s.dib with events := [] } }

/-- An event that is raised joins the Dibber's pending events and changes nothing else (R324). -/
theorem raiseEvent_frame (n : Nat) (F : Nat → Prop) (s : State) : Frame blankEvents F s (raiseEvent n s) := by
  unfold raiseEvent raiseEventAt
  exact .ite (.refl ..) (.of_regs rfl rfl)

/-! ## Records -/

/-- The registers that a detection can write: the counters of the SIEVE block and the collectors of the plots (R453,
R455). -/
def collectorReg (a : Nat) : Prop :=
  (breg .sieve 0x10 ≤ a ∧ a < breg .sieve 0x30) ∨ ∃ p, p < 64 ∧ preg p 0x200 ≤ a ∧ a < preg p 0x280

/-- The state without its registers, its records and its history queue. -/
def blankRecs (s : State) : State := { s with regs := [], sieve := { s.sieve with recs := [], hist := [] } }

/-- The state without its registers. -/
def blankRegs (s : State) : State := { s with regs := [] }

theorem latchRec_frame {p : Nat} (hp : p < 64) (r : Rec) (s : State) : Frame blankRegs collectorReg s (latchRec p r s) := by
  refine Frame.foldl _ s fun w hw s => Frame.wr (fun _ _ => rfl) s (.inr ⟨p, hp, ?_⟩) _
  have := List.mem_range.mp hw
  simp only [preg]
  omega

/-- A record that is replaced changes the records, its history entry and its latch copy (R455). -/
theorem setRec_frame (c : Nat) (r : Rec) (s : State) : Frame blankRecs collectorReg s (setRec c r s) := by
  have latched (t : State) (h : Frame blankRecs collectorReg s t) :
      Frame blankRecs collectorReg s (if c < 64 ∧ r.latched = true then latchRec c r t else t) := by
    split
    · next hc => exact h.trans ((latchRec_frame hc.1 r t).mono fun _ h => h)
    · exact h
  unfold setRec
  cases r.hist with
  | none => exact latched _ (.of_regs rfl rfl)
  | some i => exact latched _ (.of_regs rfl rfl)

theorem setRec_recs (c : Nat) (r : Rec) (s : State) : (setRec c r s).sieve.recs = SMap.set s.sieve.recs c (some r) none := by
  unfold setRec
  have latched (t : State) : (if c < 64 ∧ r.latched = true then latchRec c r t else t).sieve.recs = t.sieve.recs := by
    split
    · next hc => exact (latchRec_frame hc.1 r t).get (·.sieve.recs)
    · rfl
  cases r.hist <;> exact latched _

@[simp] theorem recOf_setRec_same (c : Nat) (r : Rec) (s : State) : recOf (setRec c r s) c = some r := by
  simp [recOf, setRec_recs]

theorem recOf_setRec_ne {c k : Nat} (h : k ≠ c) (r : Rec) (s : State) : recOf (setRec c r s) k = recOf s k := by
  simp [recOf, setRec_recs, h]

/-- No collector loses its record. -/
structure KeepsRecs (s t : State) : Prop where
  kept : ∀ c, (recOf s c).isSome = true → (recOf t c).isSome = true

theorem KeepsRecs.refl (s : State) : KeepsRecs s s := ⟨fun _ h => h⟩

theorem KeepsRecs.of_recs {s t : State} (h : t.sieve.recs = s.sieve.recs) : KeepsRecs s t := ⟨fun c hc => by
  simpa only [recOf, h] using hc⟩

theorem KeepsRecs.trans {s t u : State} (h : KeepsRecs s t) (k : KeepsRecs t u) : KeepsRecs s u :=
  ⟨fun c hc => k.kept c (h.kept c hc)⟩

theorem setRec_keepsRecs (c : Nat) (r : Rec) (s : State) : KeepsRecs s (setRec c r s) := by
  refine ⟨fun k hk => ?_⟩
  by_cases h : k = c
  · simp [h]
  · rwa [recOf_setRec_ne h]

theorem addConseq_frame (c : Nat) (s : State) : Frame blankRecs collectorReg s (addConseq c s) := by
  unfold addConseq
  split
  · exact setRec_frame ..
  · exact .refl ..

theorem addConseq_keepsRecs (c : Nat) (s : State) : KeepsRecs s (addConseq c s) := by
  unfold addConseq
  split
  · exact setRec_keepsRecs ..
  · exact .refl s

/-- A record takes one more consequential detection (R467). -/
theorem recOf_addConseq_same {c : Nat} {r : Rec} {s : State} (h : recOf s c = some r) :
    recOf (addConseq c s) c = some { r with conseq := satInc16 r.conseq } := by
  simp [addConseq, h]

theorem closeRec_frame (c : Nat) (s : State) : Frame blankRecs collectorReg s (closeRec c s) := by
  unfold closeRec
  split
  · exact .refl ..
  · exact (setRec_frame ..).trans (.of_regs rfl rfl)

/-- A record that closes frees its collector (R459). -/
theorem recOf_closeRec_same (c : Nat) (s : State) : recOf (closeRec c s) c = none := by
  unfold closeRec
  split
  · assumption
  · simp [recOf]

theorem recOf_closeRec_ne {c k : Nat} (h : k ≠ c) (s : State) : recOf (closeRec c s) k = recOf s k := by
  unfold closeRec
  split
  · rfl
  · next r _ => simpa [recOf, h] using recOf_setRec_ne h { r with open_ := false, tClose := s.time.now, phase := .done } s

/-- A reaction that is dropped changes the records alone (R460, R465). -/
theorem dropReaction_frame (k c : Nat) (s : State) : Frame blankRecs collectorReg s (dropReaction k c s) :=
  (addConseq_frame ..).trans (closeRec_frame ..)

theorem recOf_dropReaction_same (k c : Nat) (s : State) : recOf (dropReaction k c s) c = none := recOf_closeRec_same ..

/-- The record of the safe state counts a reaction that is dropped (R465). -/
theorem recOf_dropReaction_safe {k c : Nat} {x : Rec} {s : State} (h : k ≠ c) (hx : recOf s k = some x) :
    recOf (dropReaction k c s) k = some { x with conseq := satInc16 x.conseq } :=
  (recOf_closeRec_ne h _).trans (recOf_addConseq_same hx)

/-! ## Detections -/

/-- The state without what a detection can change: registers, events, the Sieve and the counter of free values. -/
def blankReports (s : State) : State := { blankEvents s with regs := [], sieve := Sieve.reset, free := 0 }

/-- A step that changes what a detection can, and takes no collector its record. -/
structure Records (s t : State) : Prop where
  frame : Frame blankReports collectorReg s t
  recs : KeepsRecs s t

theorem Records.refl (s : State) : Records s s := ⟨.refl .., .refl s⟩

theorem Records.trans {s t u : State} (h : Records s t) (k : Records t u) : Records s u :=
  ⟨h.frame.trans k.frame, h.recs.trans k.recs⟩

theorem Records.after {s t u : State} (k : Records t u) (h : Records s t) : Records s u := h.trans k

theorem Records.ite {c : Prop} [Decidable c] {s t u : State} (h : Records s t) (k : Records s u) :
    Records s (if c then t else u) := by
  split
  · exact h
  · exact k

theorem Frame.records {s t : State} (h : Frame blankRecs collectorReg s t) : Frame blankReports collectorReg s t :=
  h.mono fun _ h => h

theorem setRec_records (c : Nat) (r : Rec) (s : State) : Records s (setRec c r s) :=
  ⟨(setRec_frame ..).records, setRec_keepsRecs ..⟩

theorem addConseq_records (c : Nat) (s : State) : Records s (addConseq c s) :=
  ⟨(addConseq_frame ..).records, addConseq_keepsRecs ..⟩

theorem raiseEvent_records (n : Nat) (s : State) : Records s (raiseEvent n s) :=
  ⟨(raiseEvent_frame n _ s).mono fun _ h => h, .of_recs ((raiseEvent_frame n collectorReg s).get (·.sieve.recs))⟩

theorem Records.wr (s : State) {a : Nat} (ha : collectorReg a) (v : Reg32) : Records s (s.wr a v) :=
  ⟨.wr (fun _ _ => rfl) s ha v, .of_recs rfl⟩

theorem enqueue_records (c : Nat) (first : Bool) (s : State) : Records s (enqueue c first s) := by
  unfold enqueue
  exact .ite (.refl s) ⟨.of_regs rfl rfl, .of_recs rfl⟩

/-- A counter of the Sieve's classes is one of the registers that a detection can write. -/
theorem collectorReg_class (k : BitVec 2) : collectorReg (breg .sieve (0x10 + 4 * k.toNat)) := by
  have := k.isLt
  refine .inl ⟨?_, ?_⟩ <;> simp only [breg, Blk.base] <;> omega

theorem collectorReg_status {c : Nat} (h : c < 64) : collectorReg (preg c 0x200) := .inr ⟨c, h, by simp only [preg]; omega⟩

theorem openRecord_records (d : Detection) (c : Nat) (s : State) : Records s (openRecord d c s) := by
  unfold openRecord
  extract_lets code fr free u cls react no vld r src v w x
  have hu : Records s u := by
    show Records s (if free then _ else s)
    exact .ite ⟨.of_regs rfl rfl, .of_recs rfl⟩ (.refl s)
  have hv : Records u v := ⟨.of_regs rfl rfl, .of_recs rfl⟩
  have hw : Records v w := .wr _ (collectorReg_class cls) _
  have hx : Records w x := by
    show Records w (if c < 64 then _ else w)
    split
    · next hc =>
      have hr := collectorReg_status hc
      exact .ite ((Records.wr _ hr _).trans (.wr _ hr _)) (.wr _ hr _)
    · exact .refl w
  exact (((hu.trans hv).trans hw).trans hx).trans (setRec_records ..)

/-- Outside the safe state a raised reaction is queued and no record closes (R458, R460). -/
theorem requeue_records {s : State} (h : s.sieve.safe = none) (c : Nat) (fatal : Bool) : Records s (requeue c fatal s) := by
  unfold requeue
  rw [h]
  split
  · exact .ite ((setRec_records ..).trans (enqueue_records ..))
      (.ite (.after (enqueue_records ..) ⟨.of_regs rfl rfl, .of_recs rfl⟩) (.refl s))
  · exact .refl s

theorem mergeRecord_records {s : State} (h : s.sieve.safe = none) (d : Detection) (c : Nat) (r : Rec) :
    Records s (mergeRecord d c r s) := by
  unfold mergeRecord
  dsimp only
  split
  · exact setRec_records ..
  · refine ((setRec_records ..).trans (raiseEvent_records ..)).trans (requeue_records ?_ ..)
    rw [(raiseEvent_frame 1936 collectorReg _).get (·.sieve.safe), (setRec_frame ..).get (·.sieve.safe), h]

/-- A detection other than LCK_STUCK changes the collectors' registers, the events, the Sieve and the counter of free
values, and no collector loses its record (R453, R457, R467). -/
theorem detectAt_records (chan : BitVec 3) {d : Detection} (hd : d.code ≠ 0x4E) (s : State) : Records s (detectAt chan d s) := by
  unfold detectAt
  split
  · split
    · exact addConseq_records ..
    · exact .refl s
  · next hs =>
    have safe : s.sieve.safe = none := by simpa using fun h => hs ⟨hd, h⟩
    split
    · exact addConseq_records ..
    · refine .ite (.wr s (.inl (by simp [breg, Blk.base])) _) ?_
      dsimp only
      split
      · exact .ite (mergeRecord_records safe ..) (openRecord_records ..)
      · exact openRecord_records ..

theorem detect_records {d : Detection} (hd : d.code ≠ 0x4E) (s : State) : Records s (detect d s) := detectAt_records _ hd s

/-- A record that opens holds the words of R455 that R451 to R453 give it. -/
theorem openRecord_opens (d : Detection) (s : State) : RecordOpened d s (openRecord d (collectorOf d s) s) := by
  unfold openRecord
  extract_lets code fr free u cls react no vld r src v w x
  obtain ⟨n, hu⟩ : ∃ n, u = { s with free := n } := by
    show ∃ n, (if free then _ else s) = _
    split
    · exact ⟨s.free + 1, rfl⟩
    · exact ⟨s.free, rfl⟩
  have hreact : reactOf u code = reactOf s code := by rw [hu]; rfl
  have hb : memoryCode code = false → r.b = d.b := fun hm => if_neg fun hf => absurd hf.1 (Bool.eq_false_iff.mp hm)
  have hstate : u.opState = s.opState := by rw [hu]
  have htime : u.time.now = s.time.now := by rw [hu]
  have hrecno : u.sieve.recno + 1 = s.sieve.recno + 1 := by rw [hu]
  exact ⟨r, recOf_setRec_same .., rfl, rfl, rfl, rfl, hreact, rfl, rfl, rfl, hb, congrArg OpState.code hstate, htime, hrecno,
    rfl, rfl⟩

/-- A detection opens a record in a collector that is free (R453). -/
theorem detect_opens {d : Detection} {s : State} (h : CollectorFree d s) : RecordOpened d s (detect d s) := by
  obtain ⟨hsafe, hmasks, hcode, hfree⟩ := h
  have hd : detect d s = openRecord d (collectorOf d s) s := by
    have hm : maskFor (recordChan d) d s = none := by simp [maskFor, hmasks]
    unfold detect detectAt
    simp only [hsafe, hm, hcode, Option.isSome_none, and_false, false_and, if_false, ite_self, Bool.false_eq_true]
    cases hr : recOf s (collectorOf d s) with
    | none => rfl
    | some r => simp [hfree r hr]
  rw [hd]
  exact openRecord_opens d s

/-- Whether a collector is free and what its record holds depend on the Sieve, its registers, the operating state and the
time alone. -/
theorem RecordOpened.of_same {d : Detection} {s s' t t' : State} (h : RecordOpened d s' t') (hs : s'.sieve = s.sieve)
    (hreact : reactOf s' d.code.toNat = reactOf s d.code.toNat) (ho : s'.opState = s.opState)
    (ht : s'.time = s.time) (htt : t.sieve = t'.sieve) : RecordOpened d s t := by
  have hc : collectorOf d s' = collectorOf d s := by simp only [collectorOf, hs]
  unfold RecordOpened at h ⊢
  rwa [hc, hreact, ho, ht, hs, show recOf t' = recOf t from funext fun c => by simp only [recOf, htt]] at h

theorem CollectorFree.of_same {d : Detection} {s s' : State} (h : CollectorFree d s) (hs : s'.sieve = s.sieve) :
    CollectorFree d s' := by
  unfold CollectorFree collectorOf recOf at *
  rwa [hs]

end Sys2Proof.Machine
end

section
/-! SUPPORT. Accesses of one register of a device block, and writes by fields (R6 to R10, R22, R275). -/

namespace Sys2Proof.Machine

/-! ## Addresses of device blocks (R22) -/

/-- An offset of the device block that stands n-th in R22 names that block. -/
theorem place_breg {n off : Nat} {b : Blk} (hn : deviceBlks[n]? = some b) (hb : b.base = 0x0200000000 + n * 0x10000)
    (hoff : off < 0x10000) : place (breg b off) = .block b off := by
  have hlt : n < 13 := (List.getElem?_eq_some_iff.mp hn).1
  have ha : breg b off = 0x0200000000 + n * 0x10000 + off := by rw [breg, hb]
  have hdiv : (breg b off - 0x0200000000) / 0x10000 = n := by omega
  have hmod : breg b off % 0x10000 = off := by omega
  unfold place
  rw [if_neg (by omega), if_neg (by omega), if_pos (by omega)]
  simp only [hdiv, hn, hmod]

theorem place_dev {off : Nat} (h : off < 0x10000) : place (breg .dev off) = .block .dev off := place_breg (n := 0) rfl rfl h
theorem place_mesh {off : Nat} (h : off < 0x10000) : place (breg .mesh off) = .block .mesh off := place_breg (n := 8) rfl rfl h
theorem place_host {off : Nat} (h : off < 0x10000) : place (breg .host off) = .block .host off := place_breg (n := 11) rfl rfl h

/-! ## Accesses of one register (R6, R275) -/

/-- An access of the MC to a register of a device block but the mailbox is served there. -/
theorem access_mc_block {a off : Nat} {b : Blk} {s : State} (n : BitVec 4) (wr : Option Word) (ha : a < 2 ^ 40)
    (hp : place a = .block b off) (hs : s.opState ≠ .off) (hn : n.toNat ≠ 0) (h8 : n.toNat ≤ 8) :
    access .mc (BitVec.ofNat 40 a) n.toNat wr s = .next (serveAccess .mc a n.toNat wr s) := by
  have hto : (BitVec.ofNat 40 a).toNat = a := by rw [BitVec.toNat_ofNat, Nat.mod_eq_of_lt ha]
  have hhost : (Requester.mc == Requester.host) = false := rfl
  simp only [access, hto, hs, hn, hhost, hp, Bool.false_eq_true, false_or, false_and, if_false, Nat.not_lt.mpr h8]

theorem regsOf_four {a : Nat} (ha : a % 4 = 0) : regsOf a 4 = [a] := by
  have h : (a + 4 - 1) / 4 - a / 4 + 1 = 1 := by omega
  have h' : 4 * (a / 4 + 0) = a := by omega
  simp only [regsOf, h, List.range_one, List.map_cons, List.map_nil, h']

/-- A write of an aligned register's four bytes writes it once. -/
theorem writeBytes_four (wr : Nat → Reg32 → State → State) {a : Nat} (ha : a % 4 = 0) (v : Word) (s : State) :
    writeBytes wr a 4 v s = wr a (v.extractLsb' 0 32) s := by
  have h0 : a - a / 4 * 4 = 0 := by omega
  have hx : BitVec.ofNat 32 (v.toNat % 2 ^ (8 * 4) * 2 ^ (8 * (a % 4)) / 2 ^ (8 * (a - a / 4 * 4))) = v.extractLsb' 0 32 := by
    apply BitVec.eq_of_toNat_eq
    simp [h0, ha]
  simp only [writeBytes, regsOf_four ha, List.foldl_cons, List.foldl_nil, hx, Nat.le_refl, and_self, if_true]

/-- A read of an aligned register's four bytes reads it once. -/
theorem readBytes_four (rd : Nat → State → Reg32 × State) {a : Nat} (ha : a % 4 = 0) (s : State) :
    readBytes rd a 4 s = ((rd a s).1.setWidth 64, (rd a s).2) := by
  have hx : BitVec.ofNat 64 ((rd a s).1.toNat % 2 ^ 32) = (rd a s).1.setWidth 64 := by
    apply BitVec.eq_of_toNat_eq
    simp [Nat.mod_eq_of_lt (rd a s).1.isLt]
  simp [readBytes, regsOf_four ha, readRegs, ha, ← hx]

section
variable {a off : Nat} {b : Blk}

/-- The MC's read of a register of DEV, MESH or HOST is a read of the block. -/
theorem serveAccess_mc_read (hb : b = .dev ∨ b = .mesh ∨ b = .host) (ha : a % 4 = 0) (hp : place a = .block b off) (s : State) :
    serveAccess .mc a 4 none s =
      answer .mc ((readBlock .mc b off (noteAccess .mc s)).1.setWidth 64) (readBlock .mc b off (noteAccess .mc s)).2 := by
  have h32 (s : State) : read32 .mc a s = readBlock .mc b off s := by
    obtain rfl | rfl | rfl := hb <;> simp [read32, hp, absentFor]
  have hread (s : State) : readCore .mc a 4 s = readBytes (read32 .mc) a 4 s := by
    obtain rfl | rfl | rfl := hb <;> simp [readCore, hp, reachesPlace]
  have hserve : serveAccess .mc a 4 none s =
      answer .mc (readCore .mc a 4 (noteAccess .mc s)).1 (readCore .mc a 4 (noteAccess .mc s)).2 := by
    obtain rfl | rfl | rfl := hb <;> simp [serveAccess, hp]
  rw [hserve, hread, readBytes_four _ ha, h32]

/-- The MC's write of a register of DEV, MESH or HOST is a write of the block. -/
theorem serveAccess_mc_write (hb : b = .dev ∨ b = .mesh ∨ b = .host) (ha : a % 4 = 0) (hp : place a = .block b off) (v : Word)
    (s : State) :
    serveAccess .mc a 4 (some v) s = writeBlock .mc b off (v.extractLsb' 0 32) (noteAccess .mc s) := by
  have h32 (v : Reg32) (s : State) : write32 .mc a v s = writeBlock .mc b off v s := by
    obtain rfl | rfl | rfl := hb <;> simp [write32, hp, absentFor]
  have hwrite (s : State) : writeCore .mc a 4 v s = writeBytes (write32 .mc) a 4 v s := by
    obtain rfl | rfl | rfl := hb <;> simp [writeCore, hp, reachesPlace]
  have hserve : serveAccess .mc a 4 (some v) s = writeCore .mc a 4 v (noteAccess .mc s) := by
    obtain rfl | rfl | rfl := hb <;> simp [serveAccess, writeAny, hp]
  rw [hserve, hwrite, writeBytes_four _ ha, h32]

end

/-! ## Plain writes (R8, R10) -/

/-- Whether a write gives a field a value that is reserved (R10). -/
def writesReserved (v : Reg32) (f : RField) : Bool := f.acc == .rw && !f.ok.admits (bits v f.lo f.len).toNat

/-- A field of the register keeps its bits where a write of another one takes effect. -/
theorem bits_writeField_disjoint (old v : Reg32) (f : RField) (lo len : Nat) (h : f.lo + f.len ≤ lo ∨ lo + len ≤ f.lo) :
    bits (writeField old v f).1 lo len = bits old lo len := by
  unfold writeField
  cases f.acc with
  | ro => rfl
  | wo => rfl
  | rw =>
    dsimp only
    split
    · exact bits_put_disjoint _ _ _ _ _ h
    · rfl
  | w1c => exact bits_put_disjoint _ _ _ _ _ h
  | w1s => exact bits_put_disjoint _ _ _ _ _ h

theorem writeField_reserved (old v : Reg32) (f : RField) : (writeField old v f).2 = writesReserved v f := by
  unfold writeField writesReserved
  cases f.acc with
  | rw => dsimp only; split <;> simp_all
  | _ => rfl

/-- A writable field takes the written bits, unless they are reserved. -/
theorem bits_writeField_rw (old v : Reg32) (f : RField) (hacc : f.acc = .rw) (h : f.lo + f.len ≤ 32) :
    bits (writeField old v f).1 f.lo f.len = if writesReserved v f then bits old f.lo f.len else bits v f.lo f.len := by
  unfold writeField writesReserved
  rw [hacc]
  dsimp only
  split
  · next hok => simp [hok, bits_put_same _ _ _ h]
  · next hok => simp [hok]

theorem bits_writeField_ro (old v : Reg32) (f : RField) (hacc : f.acc = .ro) :
    bits (writeField old v f).1 f.lo f.len = bits old f.lo f.len := by
  unfold writeField
  rw [hacc]

/-- One step of a write by fields. -/
def writeStep (v : Reg32) (r : Reg32 × Bool) (f : RField) : Reg32 × Bool :=
  ((writeField r.1 v f).1, r.2 || (writeField r.1 v f).2)

theorem writeFields_eq (fs : List RField) (old v : Reg32) : writeFields fs old v = fs.foldl (writeStep v) (old, false) := rfl

theorem bits_writeSteps_disjoint (v : Reg32) (lo len : Nat) : ∀ (fs : List RField) (r : Reg32 × Bool),
    (∀ f, f ∈ fs → f.lo + f.len ≤ lo ∨ lo + len ≤ f.lo) → bits (fs.foldl (writeStep v) r).1 lo len = bits r.1 lo len
  | [], _, _ => rfl
  | f :: fs, _, h =>
    (bits_writeSteps_disjoint v lo len fs _ fun g hg => h g (List.mem_cons_of_mem _ hg)).trans
      (bits_writeField_disjoint _ _ _ _ _ (h f List.mem_cons_self))

/-- Each of a register's fields, which do not overlap, is written as it would be alone. -/
theorem bits_writeSteps (v : Reg32) : ∀ (fs : List RField) (r : Reg32 × Bool),
    fs.Pairwise (fun f g => f.lo + f.len ≤ g.lo ∨ g.lo + g.len ≤ f.lo) → ∀ f, f ∈ fs → f.lo + f.len ≤ 32 →
    ∃ old : Reg32, bits old f.lo f.len = bits r.1 f.lo f.len ∧
      bits (fs.foldl (writeStep v) r).1 f.lo f.len = bits (writeField old v f).1 f.lo f.len
  | [], _, _, _, hf, _ => absurd hf List.not_mem_nil
  | g :: fs, r, hp, f, hf, hlen => by
    obtain ⟨hg, hfs⟩ := List.pairwise_cons.mp hp
    obtain rfl | hf := List.mem_cons.mp hf
    · exact ⟨r.1, rfl, bits_writeSteps_disjoint v _ _ fs _ fun k hk => (hg k hk).symm⟩
    · obtain ⟨old, hold, hw⟩ := bits_writeSteps v fs (writeStep v r g) hfs f hf hlen
      exact ⟨old, hold.trans (bits_writeField_disjoint _ _ _ _ _ (hg f hf)), hw⟩

theorem writeSteps_reserved (v : Reg32) : ∀ (fs : List RField) (r : Reg32 × Bool),
    (fs.foldl (writeStep v) r).2 = (r.2 || fs.any (writesReserved v))
  | [], _ => by simp
  | f :: fs, r => by
    rw [List.foldl_cons, writeSteps_reserved v fs, List.any_cons, ← Bool.or_assoc, ← writeField_reserved r.1]
    rfl

/-- What a plain write leaves: the register by its fields, and the count of a write with a reserved value (R10). -/
theorem plainWrite_eq (a : Nat) (r : RRow) (v : Reg32) (s : State) :
    plainWrite a r v s = if r.fields.any (writesReserved v) then (s.wr a (writeFields r.fields (s.rd a) v).1).rsvd
      else s.wr a (writeFields r.fields (s.rd a) v).1 := by
  have h : (writeFields r.fields (s.rd a) v).2 = r.fields.any (writesReserved v) := by
    rw [writeFields_eq, writeSteps_reserved, Bool.false_or]
  simp only [plainWrite, h]

theorem rd_plainWrite_same {a : Nat} (ha : a ≠ breg .dev 0x10) (r : RRow) (v : Reg32) (s : State) :
    (plainWrite a r v s).rd a = (writeFields r.fields (s.rd a) v).1 := by
  rw [plainWrite_eq]
  split
  · rw [State.rd_rsvd_ne _ ha, State.rd_wr_same]
  · exact State.rd_wr_same ..

theorem rd_plainWrite_ne {a b : Nat} (hb : b ≠ a) (hcnt : b ≠ breg .dev 0x10) (r : RRow) (v : Reg32) (s : State) :
    (plainWrite a r v s).rd b = s.rd b := by
  rw [plainWrite_eq]
  split
  · rw [State.rd_rsvd_ne _ hcnt, State.rd_wr_ne _ hb]
  · exact State.rd_wr_ne _ hb _

/-- A write with reserved values counts once (R10). -/
theorem rd_plainWrite_count {a : Nat} (ha : a ≠ breg .dev 0x10) (r : RRow) (v : Reg32) (s : State) :
    ((plainWrite a r v s).rd (breg .dev 0x10)).toNat =
      if r.fields.any (writesReserved v) then min 0xFFFFFFFF ((s.rd (breg .dev 0x10)).toNat + 1)
      else (s.rd (breg .dev 0x10)).toNat := by
  rw [plainWrite_eq]
  split
  · rw [State.rd_rsvd, State.rd_wr_ne _ ha.symm]
  · rw [State.rd_wr_ne _ ha.symm]

theorem plainWrite_frame (a : Nat) (r : RRow) (v : Reg32) (s : State) :
    plainWrite a r v s = { s with regs := (plainWrite a r v s).regs } := by
  rw [plainWrite_eq]
  split <;> rfl

end Sys2Proof.Machine
end

section
/-! PROOFS. The register accesses: O12. -/

namespace Sys2Proof.Machine

/-! ## The register accesses of R6 to R10 and R275 -/

@[simp] theorem noteAccess_profile (req : Requester) (s : State) : (noteAccess req s).profile = s.profile := rfl

/-- What an access answered is what its requester reads. -/
@[simp] theorem get_rdata_answer (req : Requester) (v : Word) (s : State) :
    SMap.get (answer req v s).rdata (reqKey req) 0 = v := by
  cases req <;> exact SMap.get_set_same ..

theorem breg_lt {b : Blk} {off : Nat} (hb : b = .dev ∨ b = .mesh ∨ b = .host) (h : off < 0x10000) : breg b off < 2 ^ 40 := by
  obtain rfl | rfl | rfl := hb <;> simp only [breg, Blk.base] <;> omega

theorem breg_aligned {b : Blk} {off : Nat} (hb : b = .dev ∨ b = .mesh ∨ b = .host) (h : off % 4 = 0) : breg b off % 4 = 0 := by
  obtain rfl | rfl | rfl := hb <;> simp only [breg, Blk.base] <;> omega

theorem place_of_dev_mesh_host {b : Blk} {off : Nat} (hb : b = .dev ∨ b = .mesh ∨ b = .host) (h : off < 0x10000) :
    place (breg b off) = .block b off := by
  obtain rfl | rfl | rfl := hb
  · exact place_dev h
  · exact place_mesh h
  · exact place_host h

section
variable {s : State} {b : Blk} {off : Nat} (hb : b = .dev ∨ b = .mesh ∨ b = .host) (hoff : off < 0x10000) (hal : off % 4 = 0)
  (hs : s.opState ≠ .off)
include hb hoff hal hs

/-- The MC's 32-bit write of DEV, MESH or HOST, by either command, is a write of the block. -/
theorem exec_mc_write (v : Word) :
    exec (.registerWrite .mc (BitVec.ofNat 40 (breg b off)) 4 v) s =
        .next (writeBlock .mc b off (v.extractLsb' 0 32) (noteAccess .mc s)) ∧
      exec (.registerPathAccess .mc (BitVec.ofNat 40 (breg b off)) 4 (some v)) s =
        .next (writeBlock .mc b off (v.extractLsb' 0 32) (noteAccess .mc s)) := by
  have hp := place_of_dev_mesh_host hb hoff
  have h := access_mc_block 4 (some v) (breg_lt hb hoff) hp hs (by decide) (by decide)
  rw [show (4 : BitVec 4).toNat = 4 from rfl, serveAccess_mc_write hb (breg_aligned hb hal) hp] at h
  exact ⟨h, h⟩

/-- The MC's 32-bit read of DEV, MESH or HOST answers with what the block reads as. -/
theorem exec_mc_read :
    exec (.registerPathAccess .mc (BitVec.ofNat 40 (breg b off)) 4 none) s =
      .next (answer .mc ((readBlock .mc b off (noteAccess .mc s)).1.setWidth 64) (readBlock .mc b off (noteAccess .mc s)).2) := by
  have hp := place_of_dev_mesh_host hb hoff
  have h := access_mc_block 4 none (breg_lt hb hoff) hp hs (by decide) (by decide)
  rw [show (4 : BitVec 4).toNat = 4 from rfl, serveAccess_mc_read hb (breg_aligned hb hal) hp] at h
  exact h

end

/-- The row of an offset of DEV, MESH or HOST is its block's. -/
theorem rowOf?_eq {b : Blk} (hb : b = .dev ∨ b = .mesh ∨ b = .host) (s : State) (off : Nat) :
    rowOf? s b off = (findRow s.profile b off).map (·.1) := by
  obtain rfl | rfl | rfl := hb <;> simp [rowOf?]

theorem rowAt_mesh (q : Profile) {off : Nat} (h : off < 0x10000) (hal : off % 4 = 0) :
    rowAt q (breg .mesh off) = findRow q .mesh off := by
  have ha := breg_aligned (.inr (.inl rfl)) hal
  simp only [rowAt, ha, Nat.sub_zero, place_mesh h]

/-- A write of a plain register of MESH other than MESH_LINKSEL is a plain write. -/
theorem writeBlock_mesh (req : Requester) {off : Nat} {s : State} {r : RRow} {i : Nat} (hoff : off < 0x10000) (hal : off % 4 = 0)
    (hsel : off ≠ 0x18) (hr : findRow s.profile .mesh off = some (r, i)) (hpair : r.pair = .none) (v : Reg32) :
    writeBlock req .mesh off v s = plainWrite (breg .mesh off) r v s := by
  simp only [writeBlock, if_neg hsel, tableWrite, rowAt_mesh _ hoff hal, hr, hpair]

theorem readBlock_mesh (req : Requester) {off : Nat} {s : State} {r : RRow} {i : Nat}
    (hr : findRow s.profile .mesh off = some (r, i)) (hpair : r.pair = .none) :
    readBlock req .mesh off s = (s.rd (breg .mesh off), s) := by
  simp only [readBlock, rowOf?_eq (.inr (.inl rfl)), hr, Option.map_some, hpair, viewBlock]

/-- A read of an offset that holds no register brings zero and counts (R9). -/
theorem readBlock_reserved (req : Requester) {b : Blk} {off : Nat} {s : State} (hb : b = .dev ∨ b = .host)
    (hr : findRow s.profile b off = none) : readBlock req b off s = (0, s.rsvd) := by
  have hrow := rowOf?_eq (hb.imp id .inr) s off
  rw [hr, Option.map_none] at hrow
  simp only [readBlock, hrow]

/-- A write of an offset of DEV or HOST that holds no register counts (R9). -/
theorem writeBlock_reserved (req : Requester) {b : Blk} {off : Nat} {s : State} (hb : b = .dev ∨ b = .host)
    (hr : findRow s.profile b off = none) (v : Reg32) : writeBlock req b off v s = s.rsvd := by
  have hrow := rowOf?_eq (hb.imp id .inr) s off
  rw [hr, Option.map_none] at hrow
  obtain rfl | rfl := hb <;> simp [writeBlock, ignoreAt, hrow]

/-! ## The timeout of a read (R275, R276) -/

/-- The detection of a timed-out read (R456). -/
def timeoutDetection (addr : BitVec 40) : Detection :=
  let site := pathSite addr.toNat
  { Detection.bare 0x47 with
    locus := site.setWidth 16, a := addr.setWidth 64, plot := if site.toNat < 64 then some (plotNo site.toNat) else none }

/-- MESH_RPATH after a timed-out read is counted. -/
def countTimeout (addr : BitVec 40) (s : State) : State :=
  (s.satInc (breg .mesh 0x28) 16 16).setFld (breg .mesh 0x28) 0 8 (pathSite addr.toNat).toNat

theorem timeoutDetection_code (addr : BitVec 40) : (timeoutDetection addr).code ≠ 0x4E := by
  show (0x47 : BitVec 8) ≠ 0x4E
  decide

theorem countTimeout_frame (addr : BitVec 40) (s : State) : Frame blankRegs (· = breg .mesh 0x28) s (countTimeout addr s) :=
  have hwr (s : State) (v : Reg32) : Frame blankRegs (· = breg .mesh 0x28) s (s.wr (breg .mesh 0x28) v) :=
    .wr (F := (· = breg .mesh 0x28)) (fun _ _ => rfl) s rfl v
  (hwr s _).trans (hwr _ _)

theorem recordTimeout_frame (addr : BitVec 40) (s : State) :
    Frame blankReports (fun a => collectorReg a ∨ a = breg .mesh 0x28) s (recordTimeout addr s) :=
  ((countTimeout_frame addr s).mono fun _ h => .inr h).trans
    ((detect_records (timeoutDetection_code addr) _).frame.mono fun _ h => .inl h)

/-- No detection writes a register of the MESH block. -/
theorem not_collectorReg_mesh {off : Nat} (h : off < 0x10000) : ¬ collectorReg (breg .mesh off) := by
  rintro (⟨-, h'⟩ | ⟨p, hp, -, h'⟩) <;> simp only [breg, preg, plotWin, Blk.base] at h' <;> omega

/-- MESH_RPATH counts a timed-out read and holds its target's site (R276). -/
theorem recordTimeout_counts (addr : BitVec 40) (s : State) :
    (recordTimeout addr s).fld (breg .mesh 0x28) 16 16 = min 65535 (s.fld (breg .mesh 0x28) 16 16 + 1) ∧
      (recordTimeout addr s).fld (breg .mesh 0x28) 0 8 = (pathSite addr.toNat).toNat := by
  have hrd : (recordTimeout addr s).rd (breg .mesh 0x28) = (countTimeout addr s).rd (breg .mesh 0x28) :=
    (detect_records (timeoutDetection_code addr) _).frame.regs _ (not_collectorReg_mesh (by omega))
  rw [State.fld_congr hrd, State.fld_congr hrd, countTimeout]
  constructor
  · rw [State.fld_setFld_disjoint _ _ _ _ _ _ _ (by omega), State.fld_satInc_same _ _ _ _ (by omega)]
    rfl
  · rw [State.fld_setFld_same _ _ _ _ _ (by omega), Nat.mod_eq_of_lt (pathSite addr.toNat).isLt]

/-- A timed-out read opens its record where the collector is free (R275, R456). -/
theorem recordTimeout_opens {addr : BitVec 40} {s : State} (h : CollectorFree (timeoutDetection addr) s) :
    RecordOpened (timeoutDetection addr) s (recordTimeout addr s) := by
  have hc := countTimeout_frame addr s
  have hreact : reactOf (countTimeout addr s) 0x47 = reactOf s 0x47 := by
    simp only [reactOf, hc.get (·.sieve), hc.regs _ (show breg .sieve (0x400 + 4 * (0x47 / 8)) ≠ breg .mesh 0x28 by decide)]
  exact (detect_opens (h.of_same (hc.get (·.sieve)))).of_same (hc.get (·.sieve)) hreact (hc.get (·.opState))
    (hc.get (·.time)) rfl

/-- A read that has been outstanding for TIMEOUT completes: it is recorded, and its requester answered with ones, the SMBus
port with its flag set and its pointer moved on (R275, R485). -/
theorem execRpathTimeout_eq {s : State} {req : Requester} {addr : BitVec 40} (hreq : req = .host ∨ req = .mc ∨ req = .smbus)
    (hs : s.opState ≠ .off) (hlim : s.fld (breg .mesh 0x24) 0 16 ≠ 0)
    (hout : readOutstanding s req addr (1000 * s.fld (breg .mesh 0x24) 0 16) = true)
    (hsmb : req = .smbus → addr = s.smb.ptr ∧ smbAnswers s = true) :
    execRpathTimeout req addr s = .next (if req = .smbus then
        answer req 0xFFFFFFFF { noteAccess req (recordTimeout addr s) with
          smb := { (recordTimeout addr s).smb with timeout := true, ptr := (recordTimeout addr s).smb.ptr + 4 } }
      else answer req (BitVec.allOnes 64) (noteAccess req (recordTimeout addr s))) := by
  have hlim' : ¬ (1000 * s.fld (breg .mesh 0x24) 0 16 = 0 ∨ s.opState = .off) := by
    rintro (h | h)
    · omega
    · exact hs h
  unfold execRpathTimeout
  rw [if_neg hlim']
  obtain rfl | rfl | rfl := hreq
  · simp [hout]
  · simp [hout]
  · obtain ⟨rfl, hans⟩ := hsmb rfl
    simp [hout, hans, noteAccess]

/-- Settles O12. -/
theorem registerAccesses : Obligations.RegisterAccesses := by
  refine ⟨?_, ?_, ?_, ?_⟩
  · intro s off r i v hs hoff hal hsel hr hpair
    have hoff' : off < 0x10000 := by omega
    have hb : (Blk.mesh = .dev ∨ Blk.mesh = .mesh ∨ Blk.mesh = .host) := .inr (.inl rfl)
    obtain ⟨hw, hpath⟩ := exec_mc_write hb hoff' hal hs v
    have hread := exec_mc_read hb hoff' hal hs
    rw [writeBlock_mesh .mc hoff' hal hsel (noteAccess_profile .mc s ▸ hr) hpair] at hw hpath
    rw [readBlock_mesh .mc (noteAccess_profile .mc s ▸ hr) hpair] at hread
    exact ⟨hw, hpath, _, hread, rfl, ⟨rfl, rfl, rfl⟩, get_rdata_answer ..⟩
  · intro s b off v hb hoff hal hr hs
    have hb' : b = .dev ∨ b = .mesh ∨ b = .host := hb.imp_right .inr
    obtain ⟨hw, hpath⟩ := exec_mc_write hb' hoff hal hs v
    have hread := exec_mc_read hb' hoff hal hs
    rw [writeBlock_reserved .mc hb (noteAccess_profile .mc s ▸ hr)] at hw hpath
    rw [readBlock_reserved .mc hb (noteAccess_profile .mc s ▸ hr)] at hread
    have counted : ((noteAccess .mc s).rsvd.rd (breg .dev 0x10)).toNat = min 0xFFFFFFFF ((s.rd (breg .dev 0x10)).toNat + 1) ∧
        RegsBut [breg .dev 0x10] s (noteAccess .mc s).rsvd :=
      ⟨State.rd_rsvd _, fun a ha => State.rd_rsvd_ne _ (by simpa using ha)⟩
    exact ⟨⟨_, hread, counted, get_rdata_answer .., rfl⟩, ⟨_, hw, counted, rfl⟩, ⟨_, hpath, counted, rfl⟩⟩
  · intro s a r v ha hlen hdis
    have hfield (f : RField) (hf : f ∈ r.fields) : ∃ old : Reg32, bits old f.lo f.len = bits (s.rd a) f.lo f.len ∧
        bits ((plainWrite a r v s).rd a) f.lo f.len = bits (writeField old v f).1 f.lo f.len := by
      rw [rd_plainWrite_same ha, writeFields_eq]
      exact bits_writeSteps v r.fields (s.rd a, false) hdis f hf (hlen f hf).1
    refine ⟨fun f hf hacc => ?_, fun f hf hacc => ?_, rd_plainWrite_count ha r v s, fun b hb => ?_, plainWrite_frame ..⟩
    · obtain ⟨old, hold, hw⟩ := hfield f hf
      rw [hw, bits_writeField_rw old v f hacc (hlen f hf).1, hold]
      rfl
    · obtain ⟨old, hold, hw⟩ := hfield f hf
      rw [hw, bits_writeField_ro old v f hacc, hold]
    · simp only [List.mem_cons, List.not_mem_nil, or_false, not_or] at hb
      exact rd_plainWrite_ne hb.1 hb.2 r v s
  · intro s req addr hreq hs hlim hout hsmb
    have hf := recordTimeout_frame addr s
    obtain ⟨hcount, hsite⟩ := recordTimeout_counts addr s
    have hexec := execRpathTimeout_eq hreq hs hlim hout hsmb
    have hopens := recordTimeout_opens (addr := addr) (s := s)
    generalize recordTimeout addr s = u at hf hcount hsite hexec hopens
    have hmem : SameMemories s u := ⟨hf.get (·.mem), hf.get (·.pres), hf.get (·.ucode)⟩
    have heng : u.engines = s.engines := hf.get (·.engines)
    have hsmbEq : u.smb = s.smb := hf.get (·.smb)
    refine ⟨_, hexec, ?_⟩
    split
    · refine ⟨get_rdata_answer .., ?_, hcount, hsite, hmem, heng, fun h => (hopens h).of_same rfl rfl rfl rfl rfl⟩
      rw [← hsmbEq]
      rfl
    · exact ⟨get_rdata_answer .., hsmbEq, hcount, hsite, hmem, heng, fun h => (hopens h).of_same rfl rfl rfl rfl rfl⟩

end Sys2Proof.Machine
end

section
/-! SUPPORT. Queues: what a flush, an emptied queue and an abandoned read change (R267 to R271). -/

namespace Sys2Proof.Machine

/-! ## Queues (R267 to R271) -/

/-- The registers that the work of the queues writes: MESH_QDISC, and the power of a link whose queues are flushed. -/
def queueReg (a : Nat) : Prop := a = breg .mesh 0x10 ∨ a = breg .pwr 0x24

/-- The state without its queues, what is under way in them, the links' buffers and the links that go off. -/
def blankQueues (s : State) : State :=
  { s with regs := [], queues := [], flushing := [], dropping := [], appends := [], owed := [], holds := [], reads := [],
           wleft := [], power := { s.power with linkDown := [] }, fabric := { s.fabric with links := [] } }

theorem Frame.wrQueue (s : State) {a : Nat} (ha : queueReg a) (v : Reg32) : Frame blankQueues queueReg s (s.wr a v) :=
  .wr (fun _ _ => rfl) s ha v

theorem countDiscard_frame (n : Nat) (s : State) : Frame blankQueues queueReg s (countDiscard n s) := .wrQueue s (.inl rfl) _

theorem setHold_frame (k : Nat) (v : Option (Nat × Nat)) (s : State) : Frame blankQueues queueReg s (setHold k v s) :=
  .of_regs rfl rfl

theorem modLink_frame (n : Nat) (g : Link → Link) (s : State) : Frame blankQueues queueReg s (modLink n g s) := .of_regs rfl rfl

theorem seeLinkOff_frame (s : State) : Frame blankQueues queueReg s (seeLinkOff s) := by
  unfold seeLinkOff
  dsimp only
  exact .ite (.refl ..) (.after (.foldl _ _ fun _ _ s => .wrQueue s (.inr rfl) _) (.of_regs rfl rfl))

theorem endFlush_frame (k : Nat) (s : State) : Frame blankQueues queueReg s (endFlush k s) := by
  unfold endFlush
  exact .ite (.after (seeLinkOff_frame _) (.of_regs rfl rfl)) (.refl ..)

theorem topUp_frame (site : Nat) (toMesh : Bool) (chan : Nat) (s : State) :
    Frame blankQueues queueReg s (topUp site toMesh chan s) := by
  unfold topUp
  exact .ite (.refl ..) (.after (countDiscard_frame ..) (.of_regs rfl rfl))

/-- A flush begins, and ends at once where the queue is empty (R269). -/
theorem flushQueue_frame (site : Nat) (toMesh : Bool) (chan : Nat) (writerReset : Bool) (s : State) :
    Frame blankQueues queueReg s (flushQueue site toMesh chan writerReset s) := by
  have after (t : State) (h : Frame blankQueues queueReg s t) : Frame blankQueues queueReg s (afterRead site toMesh chan t) :=
    (h.trans (topUp_frame ..)).trans (endFlush_frame ..)
  unfold flushQueue
  exact after _ (.after (.ite (.refl ..) (.of_regs rfl rfl)) (.of_regs rfl rfl))

theorem resetSides_frame (w n : Nat) (s : State) : Frame blankQueues queueReg s (resetSides w n s) := by
  have side : Frame blankQueues queueReg s
      (if leftOf s w = 0 then s else { s with dropping := SMap.set s.dropping w true false }) :=
    .ite (.refl ..) (.of_regs rfl rfl)
  unfold resetSides
  exact .after (.ite (.refl ..) (.after (countDiscard_frame ..) (.of_regs rfl rfl))) side

theorem returnCredit_frame (site chan : Nat) (toMesh : Bool) (s : State) :
    Frame blankQueues queueReg s (returnCredit site chan toMesh s) := by
  unfold returnCredit
  exact .ite (modLink_frame ..) (.refl ..)

/-- A queue that is emptied counts what it discards (R271). -/
theorem emptyQueue_frame (site : Nat) (toMesh : Bool) (chan : Nat) (s : State) :
    Frame blankQueues queueReg s (emptyQueue site toMesh chan s) := by
  unfold emptyQueue
  extract_lets k fs x t u v
  have ht : Frame blankQueues queueReg s t := .after (countDiscard_frame ..) (.of_regs rfl rfl)
  have hu : Frame blankQueues queueReg t u := .foldl _ _ fun _ _ s => returnCredit_frame ..
  have hv : Frame blankQueues queueReg u v := .of_regs rfl rfl
  refine Frame.trans ((ht.trans hu).trans hv) (Frame.trans ?_ (endFlush_frame ..))
  split
  · split
    · exact (setHold_frame ..).trans (resetSides_frame ..)
    · exact resetSides_frame ..
  · exact resetSides_frame ..

theorem abandonRead_frame (p chan : Nat) (s : State) : Frame blankQueues queueReg s (abandonRead p chan s) := by
  unfold abandonRead
  dsimp only
  split
  · exact .ite (setHold_frame ..) (.after (setHold_frame ..) (.of_regs rfl rfl))
  · exact .refl ..

end Sys2Proof.Machine
end

section
/-! SUPPORT. Slots and plots that are reset: their engines, registers and presence (R430, R431). -/

namespace Sys2Proof.Machine

/-! ## Slots and plots that are reset (R430, R431) -/

theorem SMap.get_dropRange_out {β : Type} {lo hi k : Nat} (h : k < lo ∨ hi ≤ k) (d : β) :
    ∀ m : SMap β, SMap.get (SMap.dropRange m lo hi) k d = SMap.get m k d
  | [] => rfl
  | (i, v) :: m => by
    have ih := SMap.get_dropRange_out h d m
    unfold SMap.dropRange at ih ⊢
    rw [List.filter_cons]
    split
    · simp only [SMap.get, ih]
    · next hin =>
      have hne : k ≠ i := by
        rintro rfl
        simp at hin
        omega
      simp only [SMap.get, if_neg hne, ih]

theorem rd_dropRegs_out {lo hi a : Nat} (h : a < lo ∨ hi ≤ a) (s : State) : (dropRegs lo hi s).rd a = s.rd a :=
  SMap.get_dropRange_out h ..

theorem dropRegs_frame (lo hi : Nat) (s : State) : Frame blankRegs (fun a => lo ≤ a ∧ a < hi) s (dropRegs lo hi s) :=
  ⟨rfl, fun a ha => rd_dropRegs_out (by omega) s⟩

/-- A plot's window (R22). -/
def plotRegs (p a : Nat) : Prop := plotWin p ≤ a ∧ a < plotWin p + 0x800000

theorem slotBase_eq (p i : Nat) (hi : i < 17) : slotBase (17 * p + i) = plotWin p + i * 0x40000 := by
  have hdiv : (17 * p + i) / 17 = p := by omega
  have hmod : (17 * p + i) % 17 = i := by omega
  rw [slotBase, hdiv, hmod]

/-- Whether each plot is there, powered and in a reset is the same in both states. -/
structure SamePresence (s t : State) : Prop where
  absent : ∀ q, (t.plot q).absent = (s.plot q).absent
  powered : ∀ q, (t.plot q).powered = (s.plot q).powered
  resetting : ∀ q, (t.plot q).resetting = (s.plot q).resetting

theorem SamePresence.of_plots {s t : State} (h : t.plots = s.plots) : SamePresence s t := by
  constructor <;> intro q <;> simp only [State.plot, h]

theorem SamePresence.after {s t u : State} (k : SamePresence t u) (h : SamePresence s t) : SamePresence s u :=
  ⟨fun q => (k.absent q).trans (h.absent q), fun q => (k.powered q).trans (h.powered q),
    fun q => (k.resetting q).trans (h.resetting q)⟩

theorem SamePresence.trans {s t u : State} (h : SamePresence s t) (k : SamePresence t u) : SamePresence s u := k.after h

/-- A change of a plot that keeps these three of it. -/
theorem SamePresence.modPlot (p : Nat) (g : Plot → Plot) (s : State)
    (hg : ∀ x, (g x).absent = x.absent ∧ (g x).powered = x.powered ∧ (g x).resetting = x.resetting) :
    SamePresence s (s.modPlot p g) := by
  have h (q : Nat) : ((s.modPlot p g).plot q).absent = (s.plot q).absent ∧
      ((s.modPlot p g).plot q).powered = (s.plot q).powered ∧ ((s.modPlot p g).plot q).resetting = (s.plot q).resetting := by
    by_cases hq : q = p
    · rw [hq, State.plot_modPlot_same]
      exact hg _
    · rw [State.plot_modPlot_ne _ hq]
      exact ⟨rfl, rfl, rfl⟩
  exact ⟨fun q => (h q).1, fun q => (h q).2.1, fun q => (h q).2.2⟩

theorem SamePresence.foldl {β : Type} {f : State → β → State} (h : ∀ s b, SamePresence s (f s b)) (l : List β) (s : State) :
    SamePresence s (l.foldl f s) := foldl_keeps (fun _ => .of_plots rfl) (fun h k => h.trans k) l s fun b _ s => h s b

/-- The state without its registers, engines and plots. -/
def blankSlots (s : State) : State := { s with regs := [], engines := [], plots := [] }

theorem setEng_frame (e : Nat) (x : Engine) (F : Nat → Prop) (s : State) : Frame blankSlots F s (s.setEng e x) := .of_regs rfl rfl

theorem setPlot_frame (p : Nat) (x : Plot) (F : Nat → Prop) (s : State) : Frame blankSlots F s (s.setPlot p x) := .of_regs rfl rfl

theorem modPlot_frame (p : Nat) (g : Plot → Plot) (F : Nat → Prop) (s : State) : Frame blankSlots F s (s.modPlot p g) :=
  .of_regs rfl rfl

theorem resetSlot_frame (e : Nat) (s : State) :
    Frame blankSlots (fun a => ereg e 0 ≤ a ∧ a < ereg e 0x240) s (resetSlot e s) := by
  have h1 := (dropRegs_frame (ereg e 0) (ereg e 0x200) s).mono (blank' := blankSlots)
    (F' := fun a => ereg e 0 ≤ a ∧ a < ereg e 0x240) fun a ha => by simp only [ereg] at *; omega
  have h2 := (dropRegs_frame (ereg e 0x204) (ereg e 0x240) (dropRegs (ereg e 0) (ereg e 0x200) s)).mono (blank' := blankSlots)
    (F' := fun a => ereg e 0 ≤ a ∧ a < ereg e 0x240) fun a ha => by simp only [ereg] at *; omega
  unfold resetSlot
  exact (h1.trans h2).trans (.after (modPlot_frame ..) (setEng_frame ..))

theorem resetSlot_presence (e : Nat) (s : State) : SamePresence s (resetSlot e s) := by
  unfold resetSlot
  have hg (t : State) : SamePresence t (t.modPlot (e / 17) fun x => { x with b64ptr := 15 }) :=
    .modPlot _ _ _ fun _ => ⟨rfl, rfl, rfl⟩
  exact (hg _).after (.of_plots rfl)

@[simp] theorem eng_resetSlot_same (e : Nat) (s : State) : (resetSlot e s).eng e = Engine.reset :=
  State.eng_setEng_same (dropRegs (ereg e 0x204) (ereg e 0x240) (dropRegs (ereg e 0) (ereg e 0x200) s)) e Engine.reset

theorem eng_resetSlot_ne {e k : Nat} (h : k ≠ e) (s : State) : (resetSlot e s).eng k = s.eng k :=
  State.eng_setEng_ne (dropRegs (ereg e 0x204) (ereg e 0x240) (dropRegs (ereg e 0) (ereg e 0x200) s)) h Engine.reset

theorem eng_resetSlots_out {k : Nat} : ∀ (l : List Nat) (f : Nat → Nat) (s : State), (∀ i, i ∈ l → k ≠ f i) →
    (l.foldl (fun s i => resetSlot (f i) s) s).eng k = s.eng k
  | [], _, _, _ => rfl
  | i :: l, f, s, h => (eng_resetSlots_out l f _ fun j hj => h j (List.mem_cons_of_mem _ hj)).trans
      (eng_resetSlot_ne (h i List.mem_cons_self) s)

theorem eng_resetSlots_in : ∀ (l : List Nat) (f : Nat → Nat) (s : State) (i : Nat), i ∈ l →
    (l.foldl (fun s i => resetSlot (f i) s) s).eng (f i) = Engine.reset
  | [], _, _, _, hi => absurd hi List.not_mem_nil
  | j :: l, f, s, i, hi => by
    by_cases hl : i ∈ l
    · exact eng_resetSlots_in l f _ i hl
    · by_cases hs : ∃ k, k ∈ l ∧ f i = f k
      · obtain ⟨k, hk, he⟩ := hs
        rw [he]
        exact eng_resetSlots_in l f _ k hk
      · obtain rfl | hi := List.mem_cons.mp hi
        · exact (eng_resetSlots_out l f _ fun k hk he => hs ⟨k, hk, he⟩).trans (eng_resetSlot_same ..)
        · exact absurd hi hl

/-- The state without what the reset of a plot's units clears. -/
def blankUnits (s : State) : State := { blankQueues s with engines := [], plots := [] }

/-- The registers that the reset of a plot's units writes. -/
def unitRegs (p a : Nat) : Prop := queueReg a ∨ plotRegs p a

theorem copyPages_frame (p : Nat) (set : Bool) (F : Nat → Prop) (s : State) : Frame blankSlots F s (copyPages p set s) := by
  unfold copyPages
  exact modPlot_frame ..

@[simp] theorem eng_copyPages (p : Nat) (set : Bool) (s : State) (e : Nat) : (copyPages p set s).eng e = s.eng e := by
  unfold copyPages
  exact State.eng_modPlot ..

theorem copyPages_plot (p : Nat) (set : Bool) (s : State) : ∃ v w : BitVec 64,
    (copyPages p set s).plot p = { s.plot p with pages0 := v, pages1 := w } := by
  unfold copyPages
  dsimp only
  rw [State.plot_modPlot_same]
  cases set
  · exact ⟨_, _, rfl⟩
  · exact ⟨_, _, rfl⟩

/-- The units and engines of a plot have been reset; nothing else but the queues has changed (R431). -/
structure PlotCleared (p : Nat) (s t : State) : Prop where
  frame : Frame blankUnits (unitRegs p) s t
  inside : ∀ i, i < 17 → t.eng (17 * p + i) = Engine.reset
  outside : ∀ k, (k < 17 * p ∨ 17 * p + 17 ≤ k) → t.eng k = s.eng k
  plot : ∃ v w : BitVec 64, t.plot p = { Plot.reset with
    epoch := curEpoch s, absent := (s.plot p).absent, powered := (s.plot p).powered, pages0 := v, pages1 := w }

/-- The EPOCH register lies in no plot's window. -/
theorem not_unitRegs_epoch {p : Nat} (hp : p < 64) : ¬ unitRegs p (breg .upk 0x64) := by
  rintro ((h | h) | ⟨-, h⟩) <;> simp only [breg, plotWin, Blk.base] at h <;> omega

theorem resetSlots_frame (p : Nat) (s : State) :
    Frame blankSlots (plotRegs p) s ((List.range 17).foldl (fun s i => resetSlot (17 * p + i) s) s) := by
  refine Frame.foldl _ s fun i hi s => ?_
  have hi := List.mem_range.mp hi
  have h := resetSlot_frame (17 * p + i) s
  simp only [ereg, slotBase_eq _ _ hi] at h
  exact h.mono fun a ha => by simp only [plotRegs]; omega

/-- The end of a plot's reset: its shared units are at their reset values, in the device's epoch and with its pages. -/
theorem PlotCleared.of_units {p : Nat} (hp : p < 64) {s t : State} (hf : Frame blankUnits (unitRegs p) s t)
    (hpres : SamePresence s t) (hin : ∀ i, i < 17 → t.eng (17 * p + i) = Engine.reset)
    (hout : ∀ k, (k < 17 * p ∨ 17 * p + 17 ≤ k) → t.eng k = s.eng k) :
    PlotCleared p s (copyPages p true (copyPages p false (t.setPlot p
      { Plot.reset with epoch := curEpoch t, absent := (t.plot p).absent, powered := (t.plot p).powered }))) := by
  have hs := setPlot_frame p { Plot.reset with epoch := curEpoch t, absent := (t.plot p).absent, powered := (t.plot p).powered }
    (unitRegs p) t
  have hc := hs.trans ((copyPages_frame p false (unitRegs p) _).trans (copyPages_frame p true _ _))
  refine ⟨hf.trans (hc.mono fun _ h => h), fun i hi => ?_, fun k hk => ?_, ?_⟩
  · rw [eng_copyPages, eng_copyPages, State.eng_setPlot, hin i hi]
  · rw [eng_copyPages, eng_copyPages, State.eng_setPlot, hout k hk]
  · have hep : curEpoch t = curEpoch s := State.flag_congr (hf.regs _ (not_unitRegs_epoch hp)) 0
    rw [hpres.absent p, hpres.powered p, hep]
    obtain ⟨v, w, h⟩ := copyPages_plot p true (copyPages p false (t.setPlot p
      { Plot.reset with epoch := curEpoch s, absent := (s.plot p).absent, powered := (s.plot p).powered }))
    obtain ⟨v', w', h'⟩ := copyPages_plot p false (t.setPlot p
      { Plot.reset with epoch := curEpoch s, absent := (s.plot p).absent, powered := (s.plot p).powered })
    rw [h', State.plot_setPlot_same] at h
    exact ⟨v, w, h⟩

theorem clearPlot_clears (p : PlotNo) (s : State) : PlotCleared p.val s (clearPlot p s) := by
  unfold clearPlot
  extract_lets s1 s2 s3 s4 s5 x
  have h1 : Frame blankQueues queueReg s s1 := .foldl _ _ fun c _ s =>
    (abandonRead_frame ..).after ((emptyQueue_frame p.val true c s).trans (.of_regs rfl rfl))
  have h2 : Frame blankSlots (plotRegs p.val) s1 s2 := resetSlots_frame p.val s1
  have h2p : SamePresence s1 s2 := .foldl (fun _ _ => resetSlot_presence ..) _ _
  have h2in (i : Nat) (hi : i < 17) : s2.eng (17 * p.val + i) = Engine.reset :=
    eng_resetSlots_in (List.range 17) (17 * p.val + ·) s1 i (List.mem_range.mpr hi)
  have h2out (k : Nat) (hk : k < 17 * p.val ∨ 17 * p.val + 17 ≤ k) : s2.eng k = s1.eng k :=
    eng_resetSlots_out (List.range 17) (17 * p.val + ·) s1 fun i hi => by
      have := List.mem_range.mp hi
      omega
  have h3 : Frame blankQueues queueReg s2 s3 := .foldl _ _ fun _ _ _ => .foldl _ _ fun _ _ _ => setHold_frame ..
  have h4 : Frame blankRegs (plotRegs p.val) s3 s4 :=
    (dropRegs_frame _ _ s3).mono fun a ha => by simp only [preg, plotRegs] at *; omega
  have h5 : Frame blankRegs (plotRegs p.val) s4 s5 :=
    (dropRegs_frame _ _ s4).mono fun a ha => by simp only [preg, plotRegs] at *; omega
  clear_value s5 s4 s3 s2 s1
  have h35 := h4.trans h5
  refine .of_units p.isLt ?_ ?_ (fun i hi => ?_) (fun k hk => ?_)
  · exact ((h1.mono fun _ => .inl).trans (h2.mono fun _ => .inr)).trans ((h3.mono fun _ => .inl).trans (h35.mono fun _ => .inr))
  · exact ((SamePresence.of_plots (h1.get (·.plots))).trans h2p).trans
      ((SamePresence.of_plots (h3.get (·.plots))).trans (.of_plots (h35.get (·.plots))))
  · rw [State.eng, h35.get (·.engines), h3.get (·.engines)]
    exact h2in i hi
  · rw [State.eng, h35.get (·.engines), h3.get (·.engines)]
    exact (h2out k hk).trans (by rw [State.eng, h1.get (·.engines)]; rfl)

end Sys2Proof.Machine
end

section
/-! SUPPORT. The descriptors of engines that are reset (R322). -/

namespace Sys2Proof.Machine

/-! ## Descriptors of engines that are reset (R322) -/

/-- The state without what the Dibber and the lock unit note of a reset. -/
def blankStrands (s : State) : State := { s with regs := [], dib := Dib.reset, lck := { s.lck with notices := [] } }

/-- The register that strands that become ready write: the device's quiescence. -/
def strandReg (a : Nat) : Prop := a = breg .mesh 0x4008

theorem modDesc_frame (d : BitVec 14) (g : Desc → Desc) (s : State) : Frame blankStrands strandReg s (modDesc d g s) :=
  .of_regs rfl rfl

theorem setReady_frame (p : Nat) (l : List (BitVec 14)) (s : State) : Frame blankStrands strandReg s (setReady p l s) :=
  .of_regs rfl rfl

theorem unready_frame (d : BitVec 14) (s : State) : Frame blankStrands strandReg s (unready d s) := setReady_frame ..

theorem stirDevice_frame (s : State) : Frame blankRegs strandReg s (stirDevice s) :=
  .wr (F := strandReg) (fun _ _ => rfl) s rfl _

theorem sendReset_frame (o : Owner) (service : Bool) (s : State) : Frame blankStrands strandReg s (sendReset o service s) :=
  .of_regs rfl rfl

theorem makeReady_frame (d : BitVec 14) (head : Bool) (s : State) : Frame blankStrands strandReg s (makeReady d head s) := by
  unfold makeReady
  exact .after (setReady_frame ..) (.after ((stirDevice_frame _).mono fun _ h => h) (.after (unready_frame ..) (modDesc_frame ..)))

theorem disarm_frame (d : BitVec 14) (s : State) : Frame blankStrands strandReg s (disarm d s) := by
  unfold disarm
  exact .after (modDesc_frame ..) (.of_regs rfl rfl)

theorem loseDesc_frame (d : BitVec 14) (service : Bool) (s : State) : Frame blankStrands strandReg s (loseDesc d service s) := by
  unfold loseDesc
  exact .after (sendReset_frame ..) (modDesc_frame ..)

theorem cancelLost_frame (d : BitVec 14) (service : Bool) (s : State) : Frame blankStrands strandReg s (cancelLost d service s) := by
  unfold cancelLost
  exact .after (loseDesc_frame ..) (.after (modDesc_frame ..) (.after (disarm_frame ..) (unready_frame ..)))

theorem resetDesc_frame (engs : BitVec 10 → Bool) (service : Bool) (s : State) (d : Nat) :
    Frame blankStrands strandReg s (resetDesc engs service s d) := by
  unfold resetDesc
  exact .ite (cancelLost_frame ..) (.ite (makeReady_frame ..) (.refl ..))

/-- The reset of engines changes what the Dibber holds and tells the lock unit (R322, R346). -/
theorem resetStrands_frame (engs : BitVec 10 → Bool) (pend : List (BitVec 14)) (service : Bool) (s : State) :
    Frame blankStrands strandReg s (resetStrands engs pend service s) := by
  unfold resetStrands
  exact .trans (.trans (.foldl _ _ fun _ _ _ => resetDesc_frame ..)
    (.foldl _ _ fun _ _ _ => .ite (.refl ..) (loseDesc_frame ..))) (.of_regs rfl rfl)

/-! What becomes of each descriptor. -/

theorem desc_modDesc_same (d : BitVec 14) (g : Desc → Desc) (s : State) : (modDesc d g s).desc d.toNat = g (s.desc d.toNat) :=
  State.desc_setDesc_same ..

theorem desc_modDesc_ne {d : BitVec 14} {k : Nat} (h : k ≠ d.toNat) (g : Desc → Desc) (s : State) :
    (modDesc d g s).desc k = s.desc k := State.desc_setDesc_ne _ h _

theorem desc_sendReset (o : Owner) (service : Bool) (s : State) (k : Nat) : (sendReset o service s).desc k = s.desc k := rfl

theorem desc_setReady (p : Nat) (l : List (BitVec 14)) (s : State) (k : Nat) : (setReady p l s).desc k = s.desc k := rfl

theorem desc_stirDevice (s : State) (k : Nat) : (stirDevice s).desc k = s.desc k := rfl

theorem desc_unready (d : BitVec 14) (s : State) (k : Nat) : (unready d s).desc k = s.desc k := rfl

theorem desc_makeReady_ne {d : BitVec 14} {k : Nat} (h : k ≠ d.toNat) (head : Bool) (s : State) :
    (makeReady d head s).desc k = s.desc k := by
  unfold makeReady
  dsimp only
  rw [desc_setReady, desc_stirDevice, desc_unready, desc_modDesc_ne h]

theorem desc_loseDesc_same (d : BitVec 14) (service : Bool) (s : State) :
    (loseDesc d service s).desc d.toNat = { s.desc d.toNat with lost := true, accHold := false } := by
  unfold loseDesc
  rw [desc_sendReset, desc_modDesc_same]

theorem desc_loseDesc_ne {d : BitVec 14} {k : Nat} (h : k ≠ d.toNat) (service : Bool) (s : State) :
    (loseDesc d service s).desc k = s.desc k := by
  unfold loseDesc
  rw [desc_sendReset, desc_modDesc_ne h]

theorem desc_disarm_ne {d : BitVec 14} {k : Nat} (h : k ≠ d.toNat) (s : State) : (disarm d s).desc k = s.desc k :=
  desc_modDesc_ne h _ { s with dib := { s.dib with deadlines := s.dib.deadlines.filter (fun k => k.2 != d) } }

theorem desc_cancelLost_ne {d : BitVec 14} {k : Nat} (h : k ≠ d.toNat) (service : Bool) (s : State) :
    (cancelLost d service s).desc k = s.desc k := by
  unfold cancelLost
  rw [desc_loseDesc_ne h, desc_modDesc_ne h, desc_disarm_ne h, desc_unready]

/-- A descriptor is CANCELLED and LOST. -/
def DescLost (d : Nat) (s : State) : Prop := (s.desc d).state = .cancelled ∧ (s.desc d).lost = true

theorem cancelLost_loses (d : BitVec 14) (service : Bool) (s : State) : DescLost d.toNat (cancelLost d service s) := by
  unfold DescLost cancelLost
  rw [desc_loseDesc_same, desc_modDesc_same]
  exact ⟨rfl, rfl⟩

theorem loseDesc_keeps_lost {k : Nat} {s : State} (h : DescLost k s) (d : BitVec 14) (service : Bool) :
    DescLost k (loseDesc d service s) := by
  unfold DescLost at *
  by_cases hk : k = d.toNat
  · subst hk
    rw [desc_loseDesc_same]
    exact ⟨h.1, rfl⟩
  · rwa [desc_loseDesc_ne hk]

theorem desc_resetDesc_ne {d k : Nat} (hd : d < 16384) (h : k ≠ d) (engs : BitVec 10 → Bool) (service : Bool) (s : State) :
    (resetDesc engs service s d).desc k = s.desc k := by
  have hk : k ≠ (BitVec.ofNat 14 d).toNat := by rwa [BitVec.toNat_ofNat, Nat.mod_eq_of_lt hd]
  unfold resetDesc
  dsimp only
  split
  · exact desc_cancelLost_ne hk ..
  · split
    · exact desc_makeReady_ne hk ..
    · rfl

/-- A strand that runs on an engine that is reset is lost (R322). -/
theorem resetDesc_loses {engs : BitVec 10 → Bool} {d : Nat} {s : State} (hd : d < 16384) (hrun : (s.desc d).state = .running)
    (heng : engs (s.desc d).lastEng = true) (service : Bool) : DescLost d (resetDesc engs service s d) := by
  have h := cancelLost_loses (BitVec.ofNat 14 d) service s
  rw [BitVec.toNat_ofNat, Nat.mod_eq_of_lt hd] at h
  unfold resetDesc
  dsimp only
  rwa [if_pos ⟨hrun, heng⟩]

theorem resetDesc_keeps_lost {d k : Nat} {s : State} (hd : d < 16384) (h : DescLost k s) (engs : BitVec 10 → Bool) (service : Bool) :
    DescLost k (resetDesc engs service s d) := by
  by_cases hk : k = d
  · subst hk
    unfold resetDesc
    simpa [h.1] using h
  · unfold DescLost at *
    rwa [desc_resetDesc_ne hd hk]

theorem resetDescs_keep_lost {k : Nat} (engs : BitVec 10 → Bool) (service : Bool) : ∀ (l : List Nat) (s : State),
    (∀ d, d ∈ l → d < 16384) → DescLost k s → DescLost k (l.foldl (resetDesc engs service) s)
  | [], _, _, h => h
  | d :: l, _, hl, h => resetDescs_keep_lost engs service l _ (fun i hi => hl i (List.mem_cons_of_mem _ hi))
      (resetDesc_keeps_lost (hl d List.mem_cons_self) h engs service)

theorem resetDescs_lose {k : Nat} {engs : BitVec 10 → Bool} (service : Bool) : ∀ (l : List Nat) (s : State),
    (∀ d, d ∈ l → d < 16384) → k ∈ l → (s.desc k).state = .running → engs (s.desc k).lastEng = true →
    DescLost k (l.foldl (resetDesc engs service) s)
  | [], _, _, hk, _, _ => absurd hk List.not_mem_nil
  | d :: l, s, hl, hk, hrun, heng => by
    have hd := hl d List.mem_cons_self
    have hl' (i : Nat) (hi : i ∈ l) : i < 16384 := hl i (List.mem_cons_of_mem _ hi)
    by_cases h : k = d
    · subst h
      exact resetDescs_keep_lost engs service l _ hl' (resetDesc_loses hd hrun heng service)
    · have hdesc := desc_resetDesc_ne hd h engs service s
      exact resetDescs_lose service l _ hl' ((List.mem_cons.mp hk).resolve_left h) (by rw [hdesc, hrun]) (by rw [hdesc, heng])

/-- A key that does not read as the default is listed. -/
theorem SMap.mem_keys_of_get_ne {β : Type} {k : Nat} {d : β} : ∀ {m : SMap β}, SMap.get m k d ≠ d → k ∈ m.map (·.1)
  | [], h => absurd rfl h
  | (i, v) :: m, h => by
    by_cases hk : k = i
    · simp [hk]
    · rw [SMap.get, if_neg hk] at h
      exact List.mem_cons_of_mem _ (SMap.mem_keys_of_get_ne h)

/-- Every strand that runs on an engine that is reset is CANCELLED and LOST (R322). -/
theorem resetStrands_loses {engs : BitVec 10 → Bool} {s : State} {d : Nat} (hkeys : ∀ p, p ∈ s.dib.descs → p.1 < 16384)
    (hrun : (s.desc d).state = .running) (heng : engs (s.desc d).lastEng = true) (pend : List (BitVec 14)) (service : Bool) :
    DescLost d (resetStrands engs pend service s) := by
  have hmem : d ∈ s.dib.descs.map (·.1) := SMap.mem_keys_of_get_ne (d := Desc.free) fun h => by
    rw [show s.desc d = Desc.free from h] at hrun
    cases hrun
  have hl (i : Nat) (hi : i ∈ s.dib.descs.map (·.1)) : i < 16384 := by
    obtain ⟨p, hp, rfl⟩ := List.mem_map.mp hi
    exact hkeys p hp
  have hlost := resetDescs_lose service _ s hl hmem hrun heng
  unfold resetStrands
  exact List.foldlRecOn (motive := DescLost d) pend _ hlost fun t ht k _ => by
    split
    · exact ht
    · exact loseDesc_keeps_lost ht k service

end Sys2Proof.Machine
end

section
/-! PROOFS. The reset of a plot by a reaction (R431, R461, R464), for O59. -/

namespace Sys2Proof.Machine

/-! ## What follows the reset of a plot (R244, R346, R421, R446, R448) -/

/-- The state without its registers, events, reset notices and upkeep. -/
def blankNotes (s : State) : State :=
  { blankEvents s with regs := [], lck := { s.lck with notices := [] }, upkeep := Upkeep.reset }

/-- The registers that a reset's notes write: the device's quiescence, the state of the epoch, and the status of the
power. -/
def noteReg (a : Nat) : Prop := strandReg a ∨ a = breg .upk 0x64 ∨ a = breg .pwr 0

theorem resetOwners_frame (p : PlotNo) (service : Bool) (s : State) : Frame blankNotes noteReg s (resetOwners p service s) :=
  .foldl _ _ fun _ _ _ => .of_regs rfl rfl

theorem seeWaiting_frame (s : State) : Frame blankNotes noteReg s (seeWaiting s) := by
  unfold seeWaiting
  exact .ite (.of_regs rfl rfl) (.refl ..)

theorem dropWaiting_frame (p : PlotNo) (s : State) : Frame blankNotes noteReg s (dropWaiting p s) := by
  unfold dropWaiting
  exact .after (seeWaiting_frame _) (.of_regs rfl rfl)

theorem seeTblock_frame (s : State) : Frame blankNotes noteReg s (seeTblock s) := by
  unfold seeTblock
  exact .ite (.refl ..) (.wr (fun _ _ => rfl) s (.inr (.inl rfl)) _)

theorem seeCap_frame (s : State) : Frame blankNotes noteReg s (seeCap s) := by
  unfold seeCap
  exact .ite (.refl ..) (.after ((raiseEvent_frame ..).mono fun _ h => h) (.wr (fun _ _ => rfl) s (.inr (.inr rfl)) _))

/-! ## The end of a reaction's work -/

/-- The record of a reaction whose work is done shows it. -/
theorem acted_recOf {c : Nat} {s : State} (h : (recOf s c).isSome = true) :
    ∃ r, recOf (acted c s) c = some r ∧ r.phase = .acted := by
  obtain ⟨r, hr⟩ := Option.isSome_iff_exists.mp h
  exact ⟨{ r with phase := .acted }, by simp [acted, hr], rfl⟩

theorem acted_frame (c : Nat) (s : State) : Frame blankRecs collectorReg s (acted c s) := by
  unfold acted
  split
  · exact setRec_frame ..
  · exact .refl ..

/-- The record of a reaction that runs, with its plot. -/
theorem runningAs_eq {s : State} {react : BitVec 3} {c : Nat} {r : Rec} {p : PlotNo} (hrun : s.sieve.running = some c)
    (hr : recOf s c = some r) (hp : r.tplot = some p) (hreact : s.sieve.runReact = react) (hphase : r.phase = .running) :
    runningAs s react = some (c, r, p) := by
  simp [runningAs, hrun, hr, hp, hreact, hphase]

/-! ## The reset of a plot (R431, R461) -/

/-- The state without what the end of a plot's reset changes. -/
def blankPlotReset (s : State) : State :=
  { blankUnits s with dib := Dib.reset, lck := { s.lck with notices := [] }, upkeep := Upkeep.reset }

/-- The registers that the end of a plot's reset writes. -/
def plotResetReg (p a : Nat) : Prop := unitRegs p a ∨ noteReg a

section
variable {p : PlotNo} {s : State} {x : PlotReset}

/-- The end of a plot's reset: what it clears, the strands it takes with it, and its notes. -/
theorem finishPlotReset_steps (h : (s.plot p.val).resetting = some x) : ∃ pend u,
    u = resetStrands (fun e => e.toNat / 16 == p.val) pend x.service (clearPlot p s) ∧
      Frame blankNotes noteReg u (finishPlotReset p s) := by
  unfold finishPlotReset
  rw [h]
  exact ⟨_, _, rfl, .after (seeTblock_frame _) (.after (dropWaiting_frame ..) (.after (resetOwners_frame ..)
    ((stirDevice_frame _).mono fun _ => .inl)))⟩

/-- The plot's units are at their reset values after it, and the engines of no other plot have changed (R249, R431). -/
theorem finishPlotReset_clears (h : (s.plot p.val).resetting = some x) :
    Frame blankPlotReset (plotResetReg p.val) s (finishPlotReset p s) ∧
      (finishPlotReset p s).plots = (clearPlot p s).plots ∧ (finishPlotReset p s).engines = (clearPlot p s).engines := by
  obtain ⟨pend, u, rfl, hu⟩ := finishPlotReset_steps h
  have hc := (clearPlot_clears p s).frame
  have hs := resetStrands_frame (fun e => e.toNat / 16 == p.val) pend x.service (clearPlot p s)
  refine ⟨?_, (hu.get (·.plots)).trans (hs.get (·.plots)), (hu.get (·.engines)).trans (hs.get (·.engines))⟩
  exact (hc.mono fun _ => .inl).trans ((hs.mono fun _ h => .inr (.inl h)).trans (hu.mono fun _ => .inr))

/-- The strands that ran on the plot's engines are CANCELLED and LOST (R322). -/
theorem finishPlotReset_loses (h : (s.plot p.val).resetting = some x) (hkeys : ∀ k, k ∈ s.dib.descs → k.1 < 16384) {d : Nat}
    (hrun : (s.desc d).state = .running) (heng : (s.desc d).lastEng.toNat / 16 = p.val) : DescLost d (finishPlotReset p s) := by
  obtain ⟨pend, u, rfl, hu⟩ := finishPlotReset_steps h
  have hdib : (clearPlot p s).dib = s.dib := (clearPlot_clears p s).frame.get (·.dib)
  have hdesc : (clearPlot p s).desc d = s.desc d := by simp only [State.desc, hdib]
  have hlost := resetStrands_loses (engs := fun e => e.toNat / 16 == p.val) (s := clearPlot p s) (d := d)
    (by rwa [hdib]) (by rw [hdesc, hrun]) (by rw [hdesc]; simpa using heng) pend x.service
  have heq := hu.get (fun s => s.dib.descs)
  simpa only [DescLost, State.desc, heq] using hlost

end

/-- PLOT_RESET_REACTION ends the reset of the plot of the record that runs it (R461, R464). -/
theorem execPlotResetReaction_eq {s : State} {c : Nat} {r : Rec} {p : PlotNo} {x : PlotReset}
    (h : runningAs s reReset = some (c, r, p)) (hx : (s.plot p.val).resetting = some x) (ho : x.origin ≠ .command) :
    execPlotResetReaction s = .next (acted c (finishPlotReset p s)) := by
  simp [execPlotResetReaction, h, hx, ho]

/-- A plot's reset by a reaction (R431, R461, R464). -/
theorem plotResetReaction_done {s : State} {c : Nat} {r : Rec} {p : PlotNo} {x : PlotReset} (hs : s.stored)
    (h : runningAs s reReset = some (c, r, p)) (hr : recOf s c = some r) (hx : (s.plot p.val).resetting = some x)
    (ho : x.origin ≠ .command) :
    ∃ t, execPlotResetReaction s = .next t ∧ (∃ r, recOf t c = some r ∧ r.phase = .acted) ∧ (t.plot p.val).resetting = none ∧
      (t.plot p.val).ctxs = [] ∧ (t.plot p.val).epoch = curEpoch s ∧ (t.plot p.val).absent = (s.plot p.val).absent ∧
      (∀ i, i < 17 → t.eng (17 * p.val + i) = Engine.reset) ∧
      (∀ k, (k < 17 * p.val ∨ 17 * p.val + 17 ≤ k) → t.eng k = s.eng k) ∧
      (∀ d, d < 16384 → (s.desc d).state = .running → (s.desc d).lastEng.toNat / 16 = p.val →
        (t.desc d).state = .cancelled ∧ (t.desc d).lost = true) := by
  obtain ⟨-, -, -, -, -, -, -, hkeys⟩ := hs
  obtain ⟨hf, hplots, hengs⟩ := finishPlotReset_clears hx
  obtain ⟨-, hin, hout, v, w, hplot⟩ := clearPlot_clears p s
  have ha := acted_frame c (finishPlotReset p s)
  have hp : (acted c (finishPlotReset p s)).plot p.val = (clearPlot p s).plot p.val := by
    simp only [State.plot, ha.get (·.plots), hplots]
  have he (k : Nat) : (acted c (finishPlotReset p s)).eng k = (clearPlot p s).eng k := by
    simp only [State.eng, ha.get (·.engines), hengs]
  have hrec : (recOf (finishPlotReset p s) c).isSome = true := by
    rw [show recOf (finishPlotReset p s) c = recOf s c by simp only [recOf, hf.get (·.sieve)], hr]
    rfl
  refine ⟨_, execPlotResetReaction_eq h hx ho, acted_recOf hrec, ?_, ?_, ?_, ?_, fun i hi => (he _).trans (hin i hi),
    fun k hk => (he k).trans (hout k hk), fun d _ hrun heng => ?_⟩
  · rw [hp, hplot]
    rfl
  · rw [hp, hplot]
    rfl
  · rw [hp, hplot]
  · rw [hp, hplot]
  · have hlost := finishPlotReset_loses hx hkeys hrun heng
    simpa only [DescLost, State.desc, ha.get (·.dib)] using hlost

end Sys2Proof.Machine
end

section
/-! PROOFS. The quarantine of a plot (R415, R464), for O59. -/

namespace Sys2Proof.Machine

/-! ## Quarantine (R15, R464) -/

/-- SIEVE_QUAR, the register of a plot's domain, its LDO's and its clock's are four registers. -/
theorem quarantineRegs_ne (p : Nat) (hp : p < 64) :
    breg .sieve (0x30 + 4 * (p / 32)) ≠ breg .pwr (0x1C + 4 * (p / 32)) ∧ breg .sieve (0x30 + 4 * (p / 32)) ≠ ldoReg p ∧
      breg .sieve (0x30 + 4 * (p / 32)) ≠ clkStat p ∧ breg .pwr (0x1C + 4 * (p / 32)) ≠ ldoReg p ∧
      breg .pwr (0x1C + 4 * (p / 32)) ≠ clkStat p ∧ ldoReg p ≠ clkStat p := by
  simp only [breg, ldoReg, clkStat, Blk.base]
  omega

/-- The registers that show a plot as switched off and quarantined. -/
def quarantineReg (p a : Nat) : Prop :=
  a = breg .sieve (0x30 + 4 * (p / 32)) ∨ a = breg .pwr (0x1C + 4 * (p / 32)) ∨ a = ldoReg p ∨ a = clkStat p

theorem not_noteReg_quarantine {p a : Nat} (hp : p < 64) (h : quarantineReg p a) : ¬ noteReg a ∧ ¬ collectorReg a := by
  constructor
  · rintro (h' | h' | h') <;> simp only [quarantineReg, breg, ldoReg, clkStat, Blk.base, strandReg] at * <;> omega
  · rintro (⟨h', h''⟩ | ⟨q, hq, h', h''⟩) <;>
      simp only [quarantineReg, breg, preg, plotWin, ldoReg, clkStat, Blk.base] at * <;> omega

/-- A state shows a plot as quarantined and switched off (R415, R464). -/
structure ShowsQuarantine (p : Nat) (t : State) : Prop where
  listed : t.flag (breg .sieve (0x30 + 4 * (p / 32))) (p % 32) = true
  domain : t.flag (breg .pwr (0x1C + 4 * (p / 32))) (p % 32) = false
  ldo : ldoOut t p = 0
  code : curCode t p = 0

theorem ShowsQuarantine.congr {p : Nat} {s t : State} (h : ShowsQuarantine p s)
    (hr : ∀ a, quarantineReg p a → t.rd a = s.rd a) : ShowsQuarantine p t :=
  ⟨(State.flag_congr (hr _ (.inl rfl)) _).trans h.listed, (State.flag_congr (hr _ (.inr (.inl rfl))) _).trans h.domain,
    (State.fld_congr (hr _ (.inr (.inr (.inl rfl)))) ..).trans h.ldo,
    (State.fld_congr (hr _ (.inr (.inr (.inr rfl)))) ..).trans h.code⟩

/-- The registers of a plot as its quarantine leaves them. -/
def showQuarantine (p : Nat) (s : State) : State :=
  (((((s.setFlag (breg .sieve (0x30 + 4 * (p / 32))) (p % 32) true).setFlag
    (breg .pwr (0x1C + 4 * (p / 32))) (p % 32) false).setFld (ldoReg p) 0 10 0).setFlag (clkStat p) 31 false).setFlag (clkStat p) 30 false).setFld (clkStat p) 0 6 0

theorem showQuarantine_frame (p : Nat) (s : State) : Frame blankRegs (quarantineReg p) s (showQuarantine p s) := by
  have w (s : State) {a : Nat} (ha : quarantineReg p a) (v : Reg32) : Frame blankRegs (quarantineReg p) s (s.wr a v) :=
    .wr (fun _ _ => rfl) s ha v
  have clk : quarantineReg p (clkStat p) := .inr (.inr (.inr rfl))
  unfold showQuarantine
  exact .after (w _ clk _) (.after (w _ clk _) (.after (w _ clk _) (.after (w _ (.inr (.inr (.inl rfl))) _)
    (.after (w _ (.inr (.inl rfl)) _) (w s (.inl rfl) _)))))

theorem showQuarantine_shows {p : Nat} (hp : p < 64) (s : State) : ShowsQuarantine p (showQuarantine p s) := by
  obtain ⟨hab, hal, hac, hbl, hbc, hlc⟩ := quarantineRegs_ne p hp
  unfold showQuarantine
  constructor
  · rw [State.flag_congr (State.rd_setFld_ne _ hac ..), State.flag_congr (State.rd_setFlag_ne _ hac ..),
      State.flag_congr (State.rd_setFlag_ne _ hac ..), State.flag_congr (State.rd_setFld_ne _ hal ..),
      State.flag_congr (State.rd_setFlag_ne _ hab ..), State.flag_setFlag_same _ _ _ _ (by omega)]
  · rw [State.flag_congr (State.rd_setFld_ne _ hbc ..), State.flag_congr (State.rd_setFlag_ne _ hbc ..),
      State.flag_congr (State.rd_setFlag_ne _ hbc ..), State.flag_congr (State.rd_setFld_ne _ hbl ..),
      State.flag_setFlag_same _ _ _ _ (by omega)]
  · rw [ldoOut, State.fld_congr (State.rd_setFld_ne _ hlc ..), State.fld_congr (State.rd_setFlag_ne _ hlc ..),
      State.fld_congr (State.rd_setFlag_ne _ hlc ..), State.fld_setFld_same _ _ _ _ _ (by omega), Nat.zero_mod]
  · rw [curCode, State.fld_setFld_same _ _ _ _ _ (by omega), Nat.zero_mod]

/-- A plot that is made absent and off. -/
def goAbsent (p : Nat) (s : State) : State :=
  s.modPlot p (fun x => { x with absent := true, powered := false, resetting := none })

theorem goAbsent_plot (p : Nat) (s : State) : ((goAbsent p s).plot p).absent = true ∧ ((goAbsent p s).plot p).powered = false ∧
    ((goAbsent p s).plot p).resetting = none := by
  rw [goAbsent, State.plot_modPlot_same]
  exact ⟨rfl, rfl, rfl⟩

theorem goAbsent_frame (p : Nat) (F : Nat → Prop) (s : State) : Frame blankSlots F s (goAbsent p s) := modPlot_frame ..

theorem goAbsent_engines (p : Nat) (s : State) : (goAbsent p s).engines = s.engines := rfl

/-- A quarantine as its steps: the plot's units are reset, its queues emptied and its strands lost; its registers show it,
and it is absent. -/
theorem quarantinePlot_steps (p : PlotNo) (service : Bool) (s : State) : ∃ u,
    Frame blankPlotReset (plotResetReg p.val) s u ∧ u.engines = (clearPlot p s).engines ∧
      quarantinePlot p service s = seeTblock (dropWaiting p (seeCap (goAbsent p.val (showQuarantine p.val u)))) := by
  unfold quarantinePlot showQuarantine goAbsent
  extract_lets s1 s2 ds s3 s4 s5
  have h1 := (clearPlot_clears p s).frame
  have h2 : Frame blankQueues queueReg s1 s2 := .foldl _ _ fun _ _ _ => emptyQueue_frame ..
  have h3 : Frame blankStrands strandReg s2 s3 := .foldl _ _ fun _ _ _ => cancelLost_frame ..
  have h4 : Frame blankStrands strandReg s3 s4 := resetStrands_frame ..
  have h5 : Frame blankNotes noteReg s4 s5 := resetOwners_frame ..
  have h34 := h3.trans h4
  clear_value s5 s4 s3 s2
  refine ⟨s5, ?_, ?_, rfl⟩
  · exact ((h1.mono fun _ => .inl).trans (h2.mono fun _ h => .inl (.inl h))).trans
      ((h34.mono fun _ h => .inr (.inl h)).trans (h5.mono fun _ => .inr))
  · exact (h5.get (·.engines)).trans ((h34.get (·.engines)).trans (h2.get (·.engines)))

/-- The frame of a quarantine's last notes. -/
theorem quarantineNotes_frame (p : PlotNo) (s : State) :
    Frame blankNotes noteReg s (seeTblock (dropWaiting p (seeCap s))) :=
  (seeTblock_frame _).after ((dropWaiting_frame ..).after (seeCap_frame s))

/-- PLOT_QUARANTINE is the quarantine of the plot of the record that runs it (R464). -/
theorem execPlotQuarantine_eq {s : State} {c : Nat} {r : Rec} {p : PlotNo} (h : runningAs s reQuarantine = some (c, r, p)) :
    execPlotQuarantine s = .next (acted c (quarantinePlot p s.sieve.service s)) := by simp only [execPlotQuarantine, h]

/-- A quarantine (R415, R464). -/
theorem plotQuarantine_done {s : State} {c : Nat} {r : Rec} {p : PlotNo} (h : runningAs s reQuarantine = some (c, r, p))
    (hr : recOf s c = some r) :
    ∃ t, execPlotQuarantine s = .next t ∧ (∃ r, recOf t c = some r ∧ r.phase = .acted) ∧ (t.plot p.val).absent = true ∧
      (t.plot p.val).powered = false ∧ (t.plot p.val).resetting = none ∧ ShowsQuarantine p.val t ∧
      (∀ i, i < 17 → t.eng (17 * p.val + i) = Engine.reset) ∧
      (∀ k, (k < 17 * p.val ∨ 17 * p.val + 17 ≤ k) → t.eng k = s.eng k) ∧
      (∀ e : BitVec 10, e.toNat / 16 = p.val → slotOf t e = none) := by
  obtain ⟨u, hu, hueng, hq⟩ := quarantinePlot_steps p s.sieve.service s
  obtain ⟨-, hin, hout, -⟩ := clearPlot_clears p s
  have hv := showQuarantine_frame p.val u
  have hw := goAbsent_frame p.val (fun _ => False) (showQuarantine p.val u)
  have hx := quarantineNotes_frame p (goAbsent p.val (showQuarantine p.val u))
  have hshow := showQuarantine_shows p.isLt u
  have hplot := goAbsent_plot p.val (showQuarantine p.val u)
  have hweng := goAbsent_engines p.val (showQuarantine p.val u)
  rw [execPlotQuarantine_eq h, hq]
  generalize goAbsent p.val (showQuarantine p.val u) = w at *
  generalize showQuarantine p.val u = v at *
  generalize seeTblock (dropWaiting p (seeCap w)) = x at *
  have ha := acted_frame c x
  have heng (k : Nat) : (acted c x).eng k = (clearPlot p s).eng k := by
    rw [State.eng, ha.get (·.engines), hx.get (·.engines), hweng, hv.get (·.engines), hueng]
    rfl
  have hpl (k : Nat) : (acted c x).plot k = w.plot k := by
    rw [State.plot, ha.get (·.plots), hx.get (·.plots)]
    rfl
  have hrec : (recOf x c).isSome = true := by
    rw [recOf, hx.get (·.sieve), hw.get (·.sieve), hv.get (·.sieve), hu.get (·.sieve)]
    exact Option.isSome_iff_exists.mpr ⟨r, hr⟩
  have habsent : ((acted c x).plot p.val).absent = true := by rw [hpl, hplot.1]
  refine ⟨_, rfl, acted_recOf hrec, habsent, ?_, ?_, hshow.congr fun a ha' => ?_, fun i hi => (heng _).trans (hin i hi),
    fun k hk => (heng k).trans (hout k hk), fun e he => ?_⟩
  · rw [hpl, hplot.2.1]
  · rw [hpl, hplot.2.2]
  · obtain ⟨hnote, hcol⟩ := not_noteReg_quarantine p.isLt ha'
    exact (ha.regs a hcol).trans ((hx.regs a hnote).trans (hw.regs a id))
  · rw [slotOf, he]
    exact if_pos habsent

end Sys2Proof.Machine
end

section
/-! PROOFS. The start of a reaction (R19, R460, R462), for O59. -/

namespace Sys2Proof.Machine

/-! ## The transitions that a reaction ends (R19, R428) -/

/-- The domain requests of the links, and the clocks' status registers. -/
def transReg (a : Nat) : Prop := a = breg .pwr 0x18 ∨ ∃ p, p < 64 ∧ a = clkStat p

/-- The state without its registers and without the links that go off. -/
def blankTrans (s : State) : State := { s with regs := [], power := { s.power with linkDown := [] } }

theorem clkStat_inj {p q : Nat} (h : clkStat p = clkStat q) : p = q := by
  simp only [clkStat, breg] at h
  omega

theorem keepLinks_frame (s : State) : Frame blankTrans (fun a => a = breg .pwr 0x18) s (keepLinks s) := by
  unfold keepLinks
  exact .after (.foldl _ _ fun _ _ s => Frame.wr (F := (· = breg .pwr 0x18)) (fun _ _ => rfl) s rfl _) (.of_regs rfl rfl)

/-- A transition ends with TRUNC (R19). -/
def truncAt (p : Nat) (s : State) : State := (s.setFlag (clkStat p) 31 false).setFlag (clkStat p) 29 true

theorem truncAt_frame {F : Nat → Prop} {p : Nat} (hF : F (clkStat p)) (s : State) : Frame blankRegs F s (truncAt p s) :=
  .after (.wr (fun _ _ => rfl) _ hF _) (.wr (fun _ _ => rfl) s hF _)

/-- A plot's transition has ended with TRUNC at the code that it had. -/
def Truncated (p : Nat) (s t : State) : Prop :=
  t.flag (clkStat p) 31 = false ∧ t.flag (clkStat p) 29 = true ∧ curCode t p = curCode s p

theorem truncAt_truncated (p : Nat) (s : State) : Truncated p s (truncAt p s) := by
  unfold truncAt
  refine ⟨?_, ?_, ?_⟩
  · rw [State.flag_setFlag_ne _ _ _ (by decide), State.flag_setFlag_same _ _ _ _ (by decide)]
  · rw [State.flag_setFlag_same _ _ _ _ (by decide)]
  · rw [curCode, State.fld_setFlag_out _ _ _ _ _ _ (by decide), State.fld_setFlag_out _ _ _ _ _ _ (by decide)]
    rfl

theorem Truncated.congr {p : Nat} {s s' t t' : State} (h : Truncated p s t) (hs : s.rd (clkStat p) = s'.rd (clkStat p))
    (ht : t'.rd (clkStat p) = t.rd (clkStat p)) : Truncated p s' t' :=
  ⟨(State.flag_congr ht _).trans h.1, (State.flag_congr ht _).trans h.2.1,
    ((State.fld_congr ht ..).trans h.2.2).trans (State.fld_congr hs ..)⟩

theorem truncDvfs_frame {F : Nat → Prop} {p : Nat} (hF : F (clkStat p)) (s : State) : Frame blankRegs F s (truncDvfs s p) := by
  unfold truncDvfs
  exact .ite (truncAt_frame hF s) (.refl ..)

/-- Every register but the two of a plot's transition. -/
def notTrans (p a : Nat) : Prop := a ≠ clkStat p ∧ a ≠ ldoReg p

theorem notTrans_clkStat {p q : Nat} (hp : p < 64) (h : q ≠ p) : notTrans p (clkStat q) :=
  ⟨fun he => h (clkStat_inj he), by simp only [clkStat, ldoReg, breg, Blk.base]; omega⟩

/-- A reaction that starts ends the transition of every plot whose LDO stands at its setting (R19). -/
theorem truncDvfs_truncates {p : Nat} (hp : p < 64) {s : State} (hrun : s.flag (clkStat p) 31 = true)
    (hldo : s.flag (ldoReg p) 31 = true) : Truncated p s ((List.range 64).foldl truncDvfs s) := by
  obtain ⟨u, hu, hu'⟩ := Frame.turn (blank := blankRegs) (F := notTrans p) (f := truncDvfs)
    (List.range 64) s List.nodup_range (List.mem_range.mpr hp) fun q t hq => truncDvfs_frame (notTrans_clkStat hp hq) t
  have hclk := hu.regs (clkStat p) fun h => h.1 rfl
  have hldo' := hu.regs (ldoReg p) fun h => h.2 rfl
  have hu1 : truncDvfs u p = truncAt p u := by
    unfold truncDvfs
    rw [State.flag_congr hclk, State.flag_congr hldo', hrun, hldo]
    rfl
  rw [hu1] at hu'
  exact (truncAt_truncated p u).congr hclk (hu'.regs _ fun h => h.1 rfl)

/-- What a reaction that starts finds: no link goes off any more, and no transition runs whose LDO stands at its setting. -/
def holdTransitions (s : State) : State := (List.range 64).foldl truncDvfs (keepLinks s)

theorem holdTransitions_frame (s : State) : Frame blankTrans transReg s (holdTransitions s) :=
  .after (.foldl _ _ fun _ hp s => (truncDvfs_frame (F := transReg) (.inr ⟨_, List.mem_range.mp hp, rfl⟩) s).mono fun _ h => h)
    ((keepLinks_frame s).mono fun _ => .inl)

theorem holdTransitions_truncates {p : Nat} (hp : p < 64) {s : State} (hrun : s.flag (clkStat p) 31 = true)
    (hldo : s.flag (ldoReg p) 31 = true) : Truncated p s (holdTransitions s) := by
  have hk := keepLinks_frame s
  have hclk : (keepLinks s).rd (clkStat p) = s.rd (clkStat p) := hk.regs _ (by simp only [clkStat, breg, Blk.base]; omega)
  have hl : (keepLinks s).rd (ldoReg p) = s.rd (ldoReg p) := hk.regs _ (by simp only [ldoReg, breg, Blk.base]; omega)
  exact (truncDvfs_truncates hp ((State.flag_congr hclk _).trans hrun) ((State.flag_congr hl _).trans hldo)).congr hclk rfl

/-! ## The start of a reaction (R460, R462) -/

/-- The state without its registers and without what the Sieve notes of a reaction that starts. -/
def blankStart (s : State) : State :=
  { s with regs := [],
           sieve := { s.sieve with recs := [], hist := [], running := none, runReact := 0, service := false, masks := [] } }

/-- A reaction has begun: the Sieve runs it, its record shows it, and its mask stands. -/
structure ReactionBegun (c : Nat) (r : Rec) (react : BitVec 3) (s t : State) : Prop where
  frame : Frame blankStart collectorReg s t
  running : t.sieve.running = some c
  runReact : t.sieve.runReact = react
  record : recOf t c = some { r with react := react, phase := .running }
  mask : ∀ m, reactMask t r react = some m → { mask := m, col := c, ends := none } ∈ t.sieve.masks

/-- The Sieve's part of a reaction's start. -/
def beginSieve (c : Nat) (r : Rec) (react : BitVec 3) (s : State) : State :=
  let s := { s with sieve := { s.sieve with running := some c, runReact := react, service := s.opState == .service } }
  let s := setRec c { r with react := react, phase := .running } s
  match reactMask s r react with
  | some m => addMask m c none s
  | none => s

theorem beginSieve_begun (c : Nat) (r : Rec) (react : BitVec 3) (s : State) :
    ReactionBegun c r react s (beginSieve c r react s) := by
  unfold beginSieve
  extract_lets _ s1 s2
  have h1 : Frame blankStart collectorReg s s1 := .of_regs rfl rfl
  have h2 : Frame blankRecs collectorReg s1 s2 := setRec_frame ..
  have h12 : Frame blankStart collectorReg s s2 := h1.trans (h2.mono fun _ h => h)
  have hrun : s2.sieve.running = some c := h2.get (·.sieve.running)
  have hreact : s2.sieve.runReact = react := h2.get (·.sieve.runReact)
  have hrec : recOf s2 c = some { r with react := react, phase := .running } := recOf_setRec_same ..
  clear_value s2
  cases hm : reactMask s2 r react with
  | none => exact ⟨h12, hrun, hreact, hrec, fun m h => by rw [hm] at h; cases h⟩
  | some m =>
    refine ⟨h12.trans (.of_regs rfl rfl), hrun, hreact, hrec, fun m' h => ?_⟩
    have hmm : m = m' := Option.some.inj (hm.symm.trans h)
    subst hmm
    simp [addMask]

/-- The state without its queues and plots. -/
def blankReset (s : State) : State := { blankQueues s with plots := [] }

/-- The reset of a plot empties its queues, and the plot is in it until its end (R431). -/
theorem beginPlotReset_begins (p : PlotNo) (b : ResetBy) (s : State) :
    Frame blankReset queueReg s (beginPlotReset p b s) ∧
      ((beginPlotReset p b s).plot p.val).resetting = some { origin := b, service := s.opState == .service } := by
  unfold beginPlotReset
  extract_lets s1
  have h1 : Frame blankReset queueReg s s1 := .of_regs rfl rfl
  have h2 := Frame.foldl (blank := blankQueues) (F := queueReg) (List.range 3) s1 (f := fun s c =>
    flushQueue p.val false c true (flushQueue p.val true c true s)) fun _ _ _ =>
    .after (flushQueue_frame ..) (flushQueue_frame ..)
  refine ⟨h1.trans (h2.mono fun _ h => h), ?_⟩
  rw [State.plot, h2.get (·.plots)]
  exact congrArg Plot.resetting (State.plot_modPlot_same ..)

/-- The start of a reaction is the Sieve's part, and for one that resets a plot the start of that reset. -/
theorem startReaction_eq (c : Nat) (r : Rec) (react : BitVec 3) (s : State) :
    startReaction c r react s = match r.tplot with
      | none => beginSieve c r react s
      | some p =>
        if (react = reReset ∨ react = reQuarantine) ∧ ((beginSieve c r react s).plot p.val).resetting.isNone then
          beginPlotReset p (if react = reReset then .reaction else .quarantine) (beginSieve c r react s)
        else beginSieve c r react s := rfl

/-- A reaction has started from a state: the Sieve runs it as the first of its queue, its record shows it, memories and
engines are as they were, and the transitions whose LDO stands at its setting have ended (R19, R460). -/
structure Started (c : Nat) (cs : List Nat) (r : Rec) (react : BitVec 3) (s t : State) : Prop where
  running : t.sieve.running = some c
  runReact : t.sieve.runReact = react
  queue : t.sieve.queue = cs
  record : recOf t c = some { r with react := react, phase := .running }
  memories : SameMemories s t
  engines : t.engines = s.engines
  truncated : ∀ p : PlotNo, s.flag (clkStat p.val) 31 = true → s.flag (ldoReg p.val) 31 = true → Truncated p.val s t

/-- What a reaction that starts finds, its record taken from the queue. -/
def takeFirst (cs : List Nat) (s : State) : State := holdTransitions { s with sieve := { s.sieve with queue := cs } }

theorem takeFirst_frame (cs : List Nat) (s : State) :
    Frame blankTrans transReg { s with sieve := { s.sieve with queue := cs } } (takeFirst cs s) := holdTransitions_frame _

theorem takeFirst_truncates {cs : List Nat} {p : Nat} (hp : p < 64) {s : State} (hrun : s.flag (clkStat p) 31 = true)
    (hldo : s.flag (ldoReg p) 31 = true) : Truncated p s (takeFirst cs s) :=
  (holdTransitions_truncates hp (s := { s with sieve := { s.sieve with queue := cs } }) hrun hldo).congr rfl rfl

/-- A register of the device's blocks beyond the counters of the SIEVE block is none that a detection writes. -/
theorem not_collectorReg_beyond {a : Nat} (h : breg .sieve 0x30 ≤ a) : ¬ collectorReg a := by
  rintro (⟨-, h'⟩ | ⟨q, hq, -, h'⟩)
  · omega
  · simp only [breg, preg, plotWin, Blk.base] at h h'
    omega

theorem not_collectorReg_clkStat (p : Nat) : ¬ collectorReg (clkStat p) :=
  not_collectorReg_beyond (by simp only [clkStat, breg, Blk.base]; omega)

theorem ReactionBegun.started {c : Nat} {cs : List Nat} {r : Rec} {react : BitVec 3} {s t : State}
    (h : ReactionBegun c r react (takeFirst cs s) t) : Started c cs r react s t := by
  obtain ⟨hf, hrun, hreact, hrec, -⟩ := h
  have hu := takeFirst_frame cs s
  have htrunc := fun p : PlotNo => takeFirst_truncates (cs := cs) p.isLt (s := s)
  generalize takeFirst cs s = u at hf hu htrunc
  exact {
    running := hrun
    runReact := hreact
    queue := (hf.get (·.sieve.queue)).trans (hu.get (·.sieve.queue))
    record := hrec
    memories := ⟨(hf.get (·.mem)).trans (hu.get (·.mem)), (hf.get (·.pres)).trans (hu.get (·.pres)),
      (hf.get (·.ucode)).trans (hu.get (·.ucode))⟩
    engines := (hf.get (·.engines)).trans (hu.get (·.engines))
    truncated := fun p hrun hldo => (htrunc p hrun hldo).congr rfl (hf.regs _ (not_collectorReg_clkStat p.val)) }

/-- The start of a plot's reset changes nothing of it. -/
theorem Started.reset {c : Nat} {cs : List Nat} {r : Rec} {react : BitVec 3} {s t u : State} (h : Started c cs r react s t)
    (hf : Frame blankReset queueReg t u) : Started c cs r react s u := by
  have hsieve : u.sieve = t.sieve := hf.get (·.sieve)
  obtain ⟨hrun, hreact, hqueue, hrec, ⟨hmem, hpres, hucode⟩, heng, htrunc⟩ := h
  exact {
    running := by rw [hsieve, hrun]
    runReact := by rw [hsieve, hreact]
    queue := by rw [hsieve, hqueue]
    record := by rw [recOf, hsieve]; exact hrec
    memories := ⟨(hf.get (·.mem)).trans hmem, (hf.get (·.pres)).trans hpres, (hf.get (·.ucode)).trans hucode⟩
    engines := (hf.get (·.engines)).trans heng
    truncated := fun p hrun hldo => (htrunc p hrun hldo).congr rfl (hf.regs _ fun hq => by
      have := p.isLt
      simp only [queueReg, clkStat, breg, Blk.base] at hq
      omega) }

/-! ## Where a reaction waits, is dropped or starts -/

theorem resumeWaiting_reacting {s : State} (h : reacting s = true) : resumeWaiting s = s := if_pos h

theorem execReactionStart_waits {s : State} (h : transiting s = true) : execReactionStart s = .next s := if_pos (.inr h)

theorem execReactionStart_drops {s : State} {c k : Nat} {cs : List Nat} {r : Rec} (hrun : s.sieve.running = none)
    (hqueue : s.sieve.queue = c :: cs) (hr : recOf s c = some r) (ht : transiting s = false) (hsafe : s.sieve.safe = some k)
    (hk : k ≠ c) : execReactionStart s = .next (dropReaction k c { s with sieve := { s.sieve with queue := cs } }) := by
  have hr' : SMap.get s.sieve.recs c none = some r := hr
  simp [execReactionStart, recOf, hrun, ht, hqueue, hr', hsafe, hk]

/-- The first queued reaction starts where none runs and nothing is in transition (R460). -/
theorem execReactionStart_starts {s t : State} {c : Nat} {cs : List Nat} {r : Rec} (hrun : s.sieve.running = none)
    (hqueue : s.sieve.queue = c :: cs) (hr : recOf s c = some r) (ht : transiting s = false) (hsafe : s.sieve.safe = none)
    (hb : beginReaction c r (takeFirst cs s) = t) (h : t.sieve.running = some c) : execReactionStart s = .next t := by
  have hr' : SMap.get s.sieve.recs c none = some r := hr
  have heq : execReactionStart s = .next (resumeWaiting (beginReaction c r (takeFirst cs s))) := by
    simp [execReactionStart, recOf, hrun, ht, hqueue, hr', hsafe, takeFirst, holdTransitions]
  rw [heq, hb, resumeWaiting_reacting]
  simp [reacting, h]

/-- In the safe state a queued reaction is dropped and the record of the safe state counts it (R465). -/
theorem reactionStart_dropped {s : State} {c k : Nat} {cs : List Nat} {r x : Rec} (hrun : s.sieve.running = none)
    (hqueue : s.sieve.queue = c :: cs) (hr : recOf s c = some r) (ht : transiting s = false) (hsafe : s.sieve.safe = some k)
    (hk : k ≠ c) (hx : recOf s k = some x) : ∃ t, execReactionStart s = .next t ∧ t.sieve.running = none ∧ t.sieve.queue = cs ∧
      recOf t c = none ∧ SameMemories s t ∧ t.engines = s.engines ∧
      ∃ y, recOf t k = some y ∧ y.conseq = (if x.conseq = 0xFFFF then x.conseq else x.conseq + 1) := by
  have hd := dropReaction_frame k c { s with sieve := { s.sieve with queue := cs } }
  exact ⟨_, execReactionStart_drops hrun hqueue hr ht hsafe hk, (hd.get (·.sieve.running)).trans hrun, hd.get (·.sieve.queue),
    recOf_dropReaction_same .., ⟨hd.get (·.mem), hd.get (·.pres), hd.get (·.ucode)⟩, hd.get (·.engines),
    _, recOf_dropReaction_safe hk hx, rfl⟩

/-! ## The reactions that start -/

theorem beginReaction_safe {c : Nat} {r : Rec} (h : r.react = reSafe) (s : State) :
    beginReaction c r s = beginSieve c r reSafe s := by
  unfold beginReaction
  cases hp : r.tplot with
  | none => simp [startReaction_eq, hp, h]
  | some p => simp [startReaction_eq, hp, h, reSafe, reReset, reQuarantine]

theorem beginReaction_retire {c : Nat} {r : Rec} {p : PlotNo} {s : State} (h : r.react = reRetire) (hp : r.tplot = some p)
    (hab : (s.plot p.val).absent = false) (hphys : r.phys ≠ 0x7FF) (hsl : recSlot r ≠ outSlot s p.val)
    (hspare : s.flag (preg p.val 0) 30 = true) : beginReaction c r s = beginSieve c r reRetire s := by
  unfold beginReaction
  simp only [hp, hab, if_neg hphys, if_neg hsl, hspare, h, startReaction_eq]
  rfl

theorem beginReaction_reset {c : Nat} {r : Rec} {p : PlotNo} {s : State} (h : r.react = reReset ∨ r.react = reQuarantine)
    (hp : r.tplot = some p) (hab : (s.plot p.val).absent = false) (hres : (s.plot p.val).resetting = none) :
    beginReaction c r s = beginPlotReset p (if r.react = reReset then .reaction else .quarantine) (beginSieve c r r.react s) := by
  have hb : ((beginSieve c r r.react s).plot p.val).resetting = none := by
    rw [State.plot, (beginSieve_begun c r r.react s).frame.get (·.plots)]
    exact hres
  unfold beginReaction
  simp only [hp, hab, startReaction_eq]
  rw [if_neg, if_neg Bool.false_ne_true, if_neg, if_pos ⟨h, by rw [hb]; rfl⟩]
  all_goals obtain h | h := h <;> rw [h] <;> decide

/-! ## Engines that retire -/

/-- A slot's logical number depends on the register of its plot's slots alone. -/
theorem logicalOf_congr {s t : State} {e : Nat} (h : t.rd (preg (e / 17) 0) = s.rd (preg (e / 17) 0)) :
    logicalOf t e = logicalOf s e := by
  unfold logicalOf outSlot
  dsimp only
  rw [State.fld_congr h]

theorem not_transReg_preg0 (p : Nat) : ¬ transReg (preg p 0) := by
  rintro (h | ⟨q, hq, h⟩) <;> simp only [clkStat, breg, preg, plotWin, Blk.base] at h <;> omega

theorem not_collectorReg_preg0 (p : Nat) : ¬ collectorReg (preg p 0) := by
  rintro (h | ⟨q, hq, h⟩) <;> simp only [breg, preg, plotWin, Blk.base] at h <;> omega

/-- An engine whose retirement has started is out of service (R458). -/
theorem inService_of_retiring {s : State} {e : Nat} (h : retiring s (logicalD s e) = true) : inService s e = false := by
  simp [inService, h]

theorem retiring_of_mask {s : State} {k : BitVec 10} {p : PlotNo} {sl : BitVec 5} {c : Nat}
    (h : { mask := .engine p k sl, col := c, ends := none } ∈ s.sieve.masks) : retiring s k = true :=
  List.any_eq_true.mpr ⟨_, h, by simp⟩

section
variable {s : State} {c : Nat} {cs : List Nat} {r : Rec}

theorem rd_takeFirst {a : Nat} (h : ¬ transReg a) : (takeFirst cs s).rd a = s.rd a := (takeFirst_frame cs s).regs a h

theorem plot_takeFirst (q : Nat) : (takeFirst cs s).plot q = s.plot q := by
  rw [State.plot, (takeFirst_frame cs s).get (·.plots)]
  rfl

variable (hrun : s.sieve.running = none) (hqueue : s.sieve.queue = c :: cs) (hr : recOf s c = some r)
  (ht : transiting s = false) (hsafe : s.sieve.safe = none)
include hrun hqueue hr ht hsafe

/-- A DEVICE_SAFE that starts masks the device (R462). -/
theorem reactionStart_safe (h : r.react = reSafe) : ∃ t, execReactionStart s = .next t ∧ Started c cs r reSafe s t ∧
    t.plots = s.plots ∧ ∃ w, w ∈ t.sieve.masks ∧ w.mask = .device ∧ w.col = c := by
  have hb := beginSieve_begun c r reSafe (takeFirst cs s)
  exact ⟨_, execReactionStart_starts hrun hqueue hr ht hsafe (beginReaction_safe h _) hb.running, hb.started,
    (hb.frame.get (·.plots)).trans ((takeFirst_frame cs s).get (·.plots)), _, hb.mask .device rfl, rfl, rfl⟩

/-- A retirement that starts masks its engine, which is out of service from then on (R458, R462). -/
theorem reactionStart_retire {p : PlotNo} (hp : r.tplot = some p) (hab : (s.plot p.val).absent = false) (h : r.react = reRetire)
    (hphys : r.phys ≠ 0x7FF) (hsl : recSlot r ≠ outSlot s p.val) (hspare : s.flag (preg p.val 0) 30 = true) :
    ∃ t, execReactionStart s = .next t ∧ Started c cs r reRetire s t ∧
      (∃ w, w ∈ t.sieve.masks ∧ w.mask = .engine p (logicalD s r.phys.toNat) (BitVec.ofNat 5 (recSlot r)) ∧ w.col = c) ∧
      retiring t (logicalD s r.phys.toNat) = true ∧ inService t r.phys.toNat = false := by
  have hb := beginSieve_begun c r reRetire (takeFirst cs s)
  have hpreg (q : Nat) : (takeFirst cs s).rd (preg q 0) = s.rd (preg q 0) := rd_takeFirst (not_transReg_preg0 q)
  have hbr : beginReaction c r (takeFirst cs s) = beginSieve c r reRetire (takeFirst cs s) :=
    beginReaction_retire h hp (by rwa [plot_takeFirst]) hphys (by rwa [outSlot, State.fld_congr (hpreg _)])
      (by rwa [State.flag_congr (hpreg _)])
  have hlog : logicalD (beginSieve c r reRetire (takeFirst cs s)) r.phys.toNat = logicalD s r.phys.toNat := by
    rw [logicalD, logicalOf_congr ((hb.frame.regs _ (not_collectorReg_preg0 _)).trans (hpreg _))]
    rfl
  have hm := hb.mask (.engine p (logicalD s r.phys.toNat) (BitVec.ofNat 5 (recSlot r))) (by rw [reactMask, hp, hlog]; rfl)
  have hret := retiring_of_mask hm
  exact ⟨_, execReactionStart_starts hrun hqueue hr ht hsafe hbr hb.running, hb.started, ⟨_, hm, rfl, rfl⟩, hret,
    inService_of_retiring (by rwa [hlog])⟩

/-- A plot's reset or quarantine that starts masks the plot and begins its reset (R431, R462). -/
theorem reactionStart_reset {p : PlotNo} (hp : r.tplot = some p) (hab : (s.plot p.val).absent = false)
    (h : r.react = reReset ∨ r.react = reQuarantine) (hres : (s.plot p.val).resetting = none) :
    ∃ t, execReactionStart s = .next t ∧ Started c cs r r.react s t ∧
      (∃ w, w ∈ t.sieve.masks ∧ w.mask = .plot p ∧ w.col = c) ∧
      (t.plot p.val).resetting = some {
        origin := if r.react = reReset then .reaction else .quarantine, service := s.opState == .service } := by
  have hb := beginSieve_begun c r r.react (takeFirst cs s)
  have hop : (beginSieve c r r.react (takeFirst cs s)).opState = s.opState :=
    (hb.frame.get (·.opState)).trans ((takeFirst_frame cs s).get (·.opState))
  obtain ⟨hf, hresets⟩ := beginPlotReset_begins p (if r.react = reReset then .reaction else .quarantine)
    (beginSieve c r r.react (takeFirst cs s))
  have hbr := beginReaction_reset h hp (s := takeFirst cs s) (c := c) (by rw [plot_takeFirst, hab])
    (by rw [plot_takeFirst, hres])
  have hst := hb.started.reset hf
  have hm := hb.mask (.plot p) (by obtain h | h := h <;> rw [reactMask, hp, h] <;> rfl)
  rw [← hf.get (·.sieve)] at hm
  rw [hop] at hresets
  exact ⟨_, execReactionStart_starts hrun hqueue hr ht hsafe hbr hst.running, hst, ⟨_, hm, rfl, rfl⟩, hresets⟩

end

end Sys2Proof.Machine
end

section
/-! SUPPORT. What waits for the end of a reaction, and the transitions that then begin (R19, R418). -/

namespace Sys2Proof.Machine

/-! ## What waits for the end of a reaction (R19) -/

/-- The registers that a request of the links' domains writes. -/
def linkReg (a : Nat) : Prop := queueReg a ∨ a = breg .pwr 0x18 ∨ a = breg .pwr 0x28

/-- The registers that what waited for a reaction writes: the state of the epoch, the links' domain requests, their refusals
and their queues, and the banks' transition. -/
def resumeReg (a : Nat) : Prop := linkReg a ∨ a = breg .upk 0x64 ∨ a = breg .grn 0x200

/-- The state without what an advance, the links' requests and a transition of banks change as they start. -/
def blankResume (s : State) : State :=
  { blankQueues s with
    plots := [], banks := [], bankQ := [], bankWait := false, dib := { s.dib with events := [] }, upkeep := Upkeep.reset,
    power := { s.power with linkUp := [], linkDown := [], linkAsk := none } }

/-- The state without its registers, plots and upkeep. -/
def blankEpoch (s : State) : State := { s with regs := [], plots := [], upkeep := Upkeep.reset }

/-- An advance has started: the other epoch is current and the advance is busy (R443). -/
structure EpochStarted (s t : State) : Prop where
  frame : Frame blankEpoch (· = breg .upk 0x64) s t
  presence : SamePresence s t
  current : curEpoch t = !curEpoch s
  busy : epochBusy t = true
  asked : t.upkeep.asked = false

theorem copyPages_presence (p : Nat) (set : Bool) (s : State) : SamePresence s (copyPages p set s) := by
  unfold copyPages
  exact .modPlot _ _ _ fun _ => by cases set <;> exact ⟨rfl, rfl, rfl⟩

/-- The state without its plots. -/
def blankPages (s : State) : State := { s with plots := [] }

theorem copyPages_pages (p : Nat) (set : Bool) (s : State) : Frame blankPages (fun _ => False) s (copyPages p set s) := by
  unfold copyPages
  exact .of_regs rfl rfl

/-- Two states with one register of the epoch have one epoch. -/
theorem epoch_congr {s t : State} (h : t.rd (breg .upk 0x64) = s.rd (breg .upk 0x64)) :
    curEpoch t = curEpoch s ∧ epochBusy t = epochBusy s := ⟨State.flag_congr h 0, State.flag_congr h 31⟩

theorem seeWaiting_eq (s : State) : ∃ d, seeWaiting s = { s with upkeep := { s.upkeep with drainAt := d } } := by
  unfold seeWaiting
  split
  · exact ⟨_, rfl⟩
  · exact ⟨s.upkeep.drainAt, rfl⟩

theorem startEpoch_starts (s : State) : EpochStarted s (startEpoch s) := by
  unfold startEpoch
  extract_lets s1 s2 _ u
  have hb (s : State) (v : Reg32) : Frame blankRegs (· = breg .upk 0x64) s (s.wr (breg .upk 0x64) v) :=
    .wr (F := (· = breg .upk 0x64)) (fun _ _ => rfl) s rfl v
  have h1 : Frame blankRegs (· = breg .upk 0x64) s s1 := (hb s _).trans (hb _ _)
  have hcur : curEpoch s1 = !curEpoch s := by
    rw [curEpoch, State.flag_setFlag_ne _ _ _ (by decide), State.flag_setFlag_same _ _ _ _ (by decide)]
  have hbusy : epochBusy s1 = true := State.flag_setFlag_same _ _ _ _ (by decide)
  have h2 : Frame blankPages (fun _ => False) s1 s2 := .foldl _ _ fun _ _ _ => copyPages_pages ..
  have h2p : SamePresence s1 s2 := .foldl (fun _ _ => copyPages_presence ..) _ _
  have hu : u.asked = false := rfl
  clear_value s1 s2 u
  obtain ⟨d, h3⟩ := seeWaiting_eq { s2 with upkeep := u }
  rw [h3]
  obtain ⟨hcur2, hbusy2⟩ := epoch_congr (h2.regs (breg .upk 0x64) id)
  exact ⟨(h1.mono fun _ h => h).trans ((h2.mono fun _ => False.elim).trans (.of_regs rfl rfl)),
    ((SamePresence.of_plots (h1.get (·.plots))).trans h2p).trans (.of_plots rfl), hcur2.trans hcur, hbusy2.trans hbusy, hu⟩

/-- A request of the links' domains changes their requests, and flushes the queues of a link that goes off (R269, R415). -/
theorem flushLink_frame (n : Nat) (s : State) : Frame blankQueues queueReg s (flushLink n s) := by
  unfold flushLink
  exact .after (.foldl _ _ fun _ _ _ => flushQueue_frame ..) (.after (.foldl _ _ fun _ _ _ => flushQueue_frame ..)
    (.of_regs rfl rfl))

/-- The state without its queues and the links' requests. -/
def blankLinks (s : State) : State :=
  { blankQueues s with power := { s.power with linkUp := [], linkDown := [], linkAsk := none } }

theorem requestLink_frame (v : Reg32) (s : State) (n : Nat) : Frame blankLinks linkReg s (requestLink v s n) := by
  have hw (s : State) {a : Nat} (ha : linkReg a) (v : Reg32) : Frame blankLinks linkReg s (s.wr a v) :=
    .wr (fun _ _ => rfl) s ha v
  have h18 : linkReg (breg .pwr 0x18) := .inr (.inl rfl)
  have h28 : linkReg (breg .pwr 0x28) := .inr (.inr rfl)
  unfold requestLink
  extract_lets a l s1 _ s2 _ up s3 down
  split
  · have h1 : Frame blankLinks linkReg s s1 := hw s h18 _
    have h2 : Frame blankLinks linkReg s1 s2 := .of_regs rfl rfl
    exact .after (.ite (.refl ..) (.of_regs rfl rfl)) (h1.trans h2)
  · split
    · exact .refl ..
    · split
      · have h1 : Frame blankLinks linkReg s s3 := hw s h18 _
        exact .after ((flushLink_frame ..).mono fun _ => .inl) (h1.trans (.of_regs rfl rfl))
      · exact .after (hw _ h28 _) (hw s h28 _)

theorem requestLinks_frame (v : Reg32) (s : State) : Frame blankLinks linkReg s (requestLinks v s) :=
  .foldl _ _ fun _ _ s => requestLink_frame v s _

/-- The state without its registers, events and banks. -/
def blankBanks (s : State) : State := { blankEvents s with regs := [], banks := [], bankQ := [], bankWait := false }

theorem nextBank_frame (s : State) : Frame blankBanks (· = breg .grn 0x200) s (nextBank s) := by
  have hw (s : State) (v : Reg32) : Frame blankBanks (· = breg .grn 0x200) s (s.wr (breg .grn 0x200) v) :=
    .wr (F := (· = breg .grn 0x200)) (fun _ _ => rfl) s rfl v
  have hset (b : Nat) (v : BankState) : Frame blankBanks (· = breg .grn 0x200) s (setBank b v s) := .of_regs rfl rfl
  unfold nextBank
  split
  · exact .after (.ite ((raiseEvent_frame ..).mono fun _ h => h) (.refl ..)) (hw s _)
  · split
    · split
      · exact hset ..
      · exact hset ..
      · exact .refl ..
    · exact .refl ..

/-- A transition of banks starts (R295). -/
theorem startBanks_frame (s : State) : Frame blankBanks (· = breg .grn 0x200) s (startBanks s) := by
  unfold startBanks
  have hw (s : State) (v : Reg32) : Frame blankBanks (· = breg .grn 0x200) s (s.wr (breg .grn 0x200) v) :=
    .wr (F := (· = breg .grn 0x200)) (fun _ _ => rfl) s rfl v
  extract_lets bs s1
  have h1 : Frame blankBanks (· = breg .grn 0x200) s s1 := .of_regs rfl rfl
  clear_value s1 bs
  have h2 : Frame blankBanks (· = breg .grn 0x200) (s1.setFlag (breg .grn 0x200) 31 true)
    { s1.setFlag (breg .grn 0x200) 31 true with bankQ := bs } := .of_regs rfl rfl
  exact h1.trans (.ite (.refl ..) (.after (nextBank_frame _) ((hw s1 _).trans h2)))

/-! ## Transitions that begin (R418) -/

/-- The state without its registers and the plots in which a transition ran. -/
def blankMoved (s : State) : State := { s with regs := [], upkeep := { s.upkeep with moved := [] } }

theorem startDvfs_frame {F : Nat → Prop} {p : Nat} (hF : F (clkStat p)) (s : State) : Frame blankMoved F s (startDvfs s p) := by
  have hm (s : State) : Frame blankMoved F s (markMoved p s) := .of_regs rfl rfl
  unfold startDvfs
  exact .ite ((Frame.wr (fun _ _ => rfl) s hF _).trans (hm _)) (.refl ..)

theorem startDvfs_begins {s : State} {p : Nat} (hon : plotOn s p = true) (hfail : s.flag (clkStat p) 30 = false)
    (hfrozen : s.power.frozen = false) (hreact : reacting s = false) (hcode : curCode s p ≠ effCode s p) :
    startDvfs s p = markMoved p (s.setFlag (clkStat p) 31 true) := by
  simp [startDvfs, hon, hfail, hfrozen, hreact, hcode]

/-- A plot's transition has begun at the code that it had. -/
def DvfsBegun (p : Nat) (s t : State) : Prop := t.flag (clkStat p) 31 = true ∧ curCode t p = curCode s p

theorem markMoved_begun (p : Nat) (s : State) : DvfsBegun p s (markMoved p (s.setFlag (clkStat p) 31 true)) := by
  have h : (markMoved p (s.setFlag (clkStat p) 31 true)).rd (clkStat p) = (s.setFlag (clkStat p) 31 true).rd (clkStat p) := rfl
  constructor
  · rw [State.flag_congr h, State.flag_setFlag_same _ _ _ _ (by decide)]
  · rw [curCode, State.fld_congr h, State.fld_setFlag_out _ _ _ _ _ _ (by decide)]
    rfl

/-- What the start of a plot's transition looks at is the same in both states: whether the plot is on, its clock's registers
and the ceiling, and whether a reaction runs or holds the power (R418). -/
structure SameDvfs (p : Nat) (s t : State) : Prop where
  opState : t.opState = s.opState
  powered : (t.plot p).powered = (s.plot p).powered
  absent : (t.plot p).absent = (s.plot p).absent
  sieve : t.sieve = s.sieve
  frozen : t.power.frozen = s.power.frozen
  stat : t.rd (clkStat p) = s.rd (clkStat p)
  req : t.rd (clkReq p) = s.rd (clkReq p)
  ceiling : t.rd (breg .pwr 0x14) = s.rd (breg .pwr 0x14)

theorem SameDvfs.trans {p : Nat} {s t u : State} (h : SameDvfs p s t) (k : SameDvfs p t u) : SameDvfs p s u where
  opState := k.opState.trans h.opState
  powered := k.powered.trans h.powered
  absent := k.absent.trans h.absent
  sieve := k.sieve.trans h.sieve
  frozen := k.frozen.trans h.frozen
  stat := k.stat.trans h.stat
  req := k.req.trans h.req
  ceiling := k.ceiling.trans h.ceiling

theorem SameDvfs.codes {p : Nat} {s t : State} (h : SameDvfs p s t) :
    plotOn t p = plotOn s p ∧ curCode t p = curCode s p ∧ effCode t p = effCode s p ∧ reacting t = reacting s := by
  refine ⟨?_, State.fld_congr h.stat .., ?_, ?_⟩
  · rw [plotOn, h.opState, h.powered, h.absent]
    rfl
  · rw [effCode, targetCode, ceilCode, State.flag_congr h.req, State.fld_congr h.req, State.fld_congr h.ceiling]
    rfl
  · rw [reacting, h.sieve]
    rfl

/-- A plot that is on and stands at another code than its EFF begins a transition where no reaction runs (R19, R418). -/
theorem startDvfs_all {p : Nat} (hp : p < 64) {s : State} (hon : plotOn s p = true) (hfail : s.flag (clkStat p) 30 = false)
    (hfrozen : s.power.frozen = false) (hreact : reacting s = false) (hcode : curCode s p ≠ effCode s p) :
    DvfsBegun p s ((List.range 64).foldl startDvfs s) := by
  obtain ⟨u, hu, hu'⟩ := Frame.turn (blank := blankMoved)
    (F := fun a => a ≠ clkStat p ∧ a ≠ clkReq p ∧ a ≠ breg .pwr 0x14) (f := startDvfs) (List.range 64) s List.nodup_range
    (List.mem_range.mpr hp) fun q t hq => startDvfs_frame ⟨fun he => hq (clkStat_inj he), by
      simp only [clkStat, clkReq, breg, Blk.base]; omega, by simp only [clkStat, breg, Blk.base]; omega⟩ t
  have hsame : SameDvfs p s u := {
    opState := hu.get (·.opState)
    powered := by rw [State.plot, hu.get (·.plots)]; rfl
    absent := by rw [State.plot, hu.get (·.plots)]; rfl
    sieve := hu.get (·.sieve)
    frozen := hu.get (·.power.frozen)
    stat := hu.regs _ fun h => h.1 rfl
    req := hu.regs _ fun h => h.2.1 rfl
    ceiling := hu.regs _ fun h => h.2.2 rfl }
  obtain ⟨hon', hcur, heff, hreact'⟩ := hsame.codes
  rw [startDvfs_begins (hon'.trans hon) ((State.flag_congr hsame.stat _).trans hfail) (hsame.frozen.trans hfrozen)
    (hreact'.trans hreact) (by rwa [hcur, heff])] at hu'
  obtain ⟨hrun, hcode⟩ := markMoved_begun p u
  have hend := hu'.regs (clkStat p) fun h => h.1 rfl
  exact ⟨(State.flag_congr hend _).trans hrun, ((State.fld_congr hend ..).trans hcode).trans hcur⟩

/-! ## The wait for a reaction ends -/

/-- The advance that waited. -/
def resumeEpoch (s : State) : State := if s.upkeep.asked && !s.flag (breg .upk 0x64) 30 then startEpoch s else s

/-- The links' requests that waited. -/
def resumeLinks (s : State) : State :=
  match s.power.linkAsk with
  | some v => requestLinks v { s with power := { s.power with linkAsk := none } }
  | none => s

/-- The transition of banks that waited. -/
def resumeBanks (s : State) : State := if s.bankWait then startBanks s else s

theorem resumeWaiting_idle {s : State} (h : reacting s = false) :
    resumeWaiting s = (List.range 64).foldl startDvfs (resumeBanks (resumeLinks (resumeEpoch s))) := by
  unfold resumeWaiting
  rw [if_neg (by rw [h]; decide)]
  rfl

theorem resumeEpoch_frame (s : State) : Frame blankEpoch (· = breg .upk 0x64) s (resumeEpoch s) :=
  .ite (startEpoch_starts s).frame (.refl ..)

theorem resumeEpoch_presence (s : State) : SamePresence s (resumeEpoch s) := by
  unfold resumeEpoch
  split
  · exact (startEpoch_starts s).presence
  · exact .of_plots rfl

theorem resumeLinks_frame (s : State) : Frame blankLinks linkReg s (resumeLinks s) := by
  unfold resumeLinks
  split
  · exact .after (requestLinks_frame ..) (.of_regs rfl rfl)
  · exact .refl ..

theorem resumeBanks_frame (s : State) : Frame blankBanks (· = breg .grn 0x200) s (resumeBanks s) :=
  .ite (startBanks_frame s) (.refl ..)

/-- Nothing waited. -/
theorem resume_nothing {s : State} (ha : s.upkeep.asked = false) (hb : s.bankWait = false) (hl : s.power.linkAsk = none) :
    resumeBanks (resumeLinks (resumeEpoch s)) = s := by
  have h : resumeEpoch s = s := by simp [resumeEpoch, ha]
  rw [h, resumeLinks, hl, resumeBanks, hb]
  rfl

/-- What no start after a reaction changes: the Sieve, the operating state and whether a FATAL reaction holds the power. -/
theorem resume_frame (s : State) : Frame blankResume resumeReg s (resumeBanks (resumeLinks (resumeEpoch s))) :=
  ((resumeEpoch_frame s).mono fun _ h => .inr (.inl h)).trans
    (((resumeLinks_frame _).mono fun _ => .inl).trans ((resumeBanks_frame _).mono fun _ h => .inr (.inr h)))

end Sys2Proof.Machine
end

section
/-! PROOFS. The end of a reaction (R460, R465), for O59. -/

namespace Sys2Proof.Machine

/-! ## The end of a reaction (R460, R465) -/

/-- The state without its registers and what the end of a reaction notes. -/
def blankEnd (s : State) : State :=
  { s with regs := [], cmd := none, opState := .off,
           sieve := { s.sieve with recs := [], hist := [], running := none, runReact := 0, masks := [] } }

/-- A reaction has ended: its record shows it, its masks end, and one other than DEVICE_SAFE moves SERVICE to RECOVERY. -/
structure ReactionEnded (c : Nat) (r : Rec) (s t : State) : Prop where
  frame : Frame blankEnd collectorReg s t
  running : t.sieve.running = none
  runReact : t.sieve.runReact = 0
  record : recOf t c = some { r with phase := .done, tDone := some s.time.now }
  others : ∀ k, k ≠ c → recOf t k = recOf s k
  opState : t.opState = (if s.sieve.runReact ≠ reSafe ∧ s.opState = .service then .recovery else s.opState)
  masks : ∀ w, w ∈ t.sieve.masks → w.col = c → w.ends.isSome = true

/-- A reaction's end before anything else goes on. -/
def endReaction (c : Nat) (r : Rec) (s : State) : State :=
  let u := if s.sieve.runReact = reSafe then endMask c s else afterReset (endMask c s)
  setRec c { r with phase := .done, tDone := some u.time.now } { u with sieve := { u.sieve with running := none, runReact := 0 } }

/-- A mask that ends has a time of its end (R462). -/
theorem endMask_ends (c : Nat) (s : State) : ∀ w, w ∈ (endMask c s).sieve.masks → w.col = c → w.ends.isSome = true := by
  intro w hw hc
  obtain ⟨v, -, rfl⟩ := List.mem_map.mp hw
  by_cases h : v.col = c ∧ v.ends.isNone = true
  · rw [if_pos h]
    rfl
  · rw [if_neg h] at hc ⊢
    have hends : v.ends.isNone = false := Bool.eq_false_iff.mpr fun hn => h ⟨hc, hn⟩
    rwa [Option.isNone_eq_false_iff] at hends

/-- The end of a reaction other than DEVICE_SAFE moves SERVICE to RECOVERY (R16). -/
theorem afterReset_opState (s : State) : (afterReset s).opState = if s.opState = .service then .recovery else s.opState := by
  unfold afterReset
  cases hc : s.cmd with
  | none =>
    by_cases h : s.opState = .service
    · simp [h]
    · simp [h]
  | some k =>
    by_cases h : s.opState = .service
    · simp [h]
    · simp [h]

/-- The state without the command in progress and the operating state. -/
def blankCmd (s : State) : State := { s with cmd := none, opState := .off }

theorem afterReset_frame (s : State) : Frame blankCmd (fun _ => False) s (afterReset s) := by
  unfold afterReset
  split
  · exact .ite (.of_regs rfl rfl) (.of_regs rfl rfl)
  · exact .ite (.of_regs rfl rfl) (.refl ..)

theorem endMask_frame (c : Nat) (s : State) :
    Frame (fun s => { s with sieve := { s.sieve with masks := [] } }) (fun _ => False) s (endMask c s) := .of_regs rfl rfl

theorem endReaction_ends (c : Nat) (r : Rec) (s : State) : ReactionEnded c r s (endReaction c r s) := by
  unfold endReaction
  extract_lets u
  have he := endMask_frame c s
  have hmasks := endMask_ends c s
  have hopEq : (endMask c s).opState = s.opState := he.get (·.opState)
  have hu : Frame blankCmd (fun _ => False) (endMask c s) u := .ite (.refl ..) (afterReset_frame _)
  have hop : u.opState = (if s.sieve.runReact ≠ reSafe ∧ s.opState = .service then .recovery else s.opState) := by
    by_cases h : s.sieve.runReact = reSafe
    · simp [u, h, hopEq]
    · simp [u, h, afterReset_opState, hopEq]
  generalize endMask c s = v at *
  clear_value u
  have hrecs : u.sieve.recs = s.sieve.recs := (hu.get (·.sieve.recs)).trans (he.get (·.sieve.recs))
  have htime : u.time = s.time := (hu.get (·.time)).trans (he.get (·.time))
  have hw : Frame blankEnd collectorReg s { u with sieve := { u.sieve with running := none, runReact := 0 } } :=
    ((he.mono fun _ => False.elim).trans (hu.mono fun _ => False.elim)).trans (.of_regs rfl rfl)
  have hx := setRec_frame c { r with phase := .done, tDone := some u.time.now }
    { u with sieve := { u.sieve with running := none, runReact := 0 } }
  exact {
    frame := hw.trans (hx.mono fun _ h => h)
    running := hx.get (·.sieve.running)
    runReact := hx.get (·.sieve.runReact)
    record := by rw [recOf_setRec_same, htime]
    others := fun k hk => by
      rw [recOf_setRec_ne hk]
      exact congrArg (SMap.get · k none) hrecs
    opState := (hx.get (·.opState)).trans hop
    masks := fun w hw hc => hmasks w (by rwa [hx.get (·.sieve.masks), hu.get (·.sieve.masks)] at hw) hc }

section
variable {s : State} {c : Nat} {r : Rec} (hrun : s.sieve.running = some c) (hr : recOf s c = some r) (hphase : r.phase = .acted)
include hrun hr hphase

/-- A reaction ends, and what waited for it goes on (R19). -/
theorem execReactionComplete_ends (hsev : severity r.react ≤ severity s.sieve.runReact) :
    execReactionComplete s = .next (resumeWaiting (endReaction c r s)) := by
  have h : ¬ severity s.sieve.runReact < severity r.react := by omega
  unfold execReactionComplete endReaction
  simp only [hrun, hr, hphase, h]
  rfl

/-- In the safe state a reaction of greater severity is dropped as the one that ran ends (R465). -/
theorem execReactionComplete_drops {k : Nat} (hsev : severity s.sieve.runReact < severity r.react)
    (hsafe : s.sieve.safe = some k) (hk : k ≠ c) :
    execReactionComplete s = .next (dropReaction k c (endReaction c r s)) := by
  have hs : (endReaction c r s).sieve.safe = some k := ((endReaction_ends c r s).frame.get (·.sieve.safe)).trans hsafe
  have heq : ∃ r', execReactionComplete s = match (endReaction c r s).sieve.safe with
      | none => .next (beginReaction c r' (endReaction c r s))
      | some k => .next (if k = c then endReaction c r s else dropReaction k c (endReaction c r s)) := by
    unfold execReactionComplete endReaction
    simp only [hrun, hr, hphase, hsev]
    exact ⟨_, rfl⟩
  obtain ⟨r', heq⟩ := heq
  rw [heq, hs]
  exact congrArg _ (if_neg hk)

/-- A record of greater severity whose reaction would follow in the safe state counts in the record of the safe state
(R465). -/
theorem reactionComplete_dropped {k : Nat} {x : Rec} (hsev : severity s.sieve.runReact < severity r.react)
    (hsafe : s.sieve.safe = some k) (hk : k ≠ c) (hx : recOf s k = some x) : ∃ t, execReactionComplete s = .next t ∧
      t.sieve.running = none ∧ recOf t c = none ∧
      ∃ y, recOf t k = some y ∧ y.conseq = (if x.conseq = 0xFFFF then x.conseq else x.conseq + 1) := by
  have hv := endReaction_ends c r s
  have hd := dropReaction_frame k c (endReaction c r s)
  exact ⟨_, execReactionComplete_drops hrun hr hphase hsev hsafe hk, (hd.get (·.sieve.running)).trans hv.running,
    recOf_dropReaction_same .., _, recOf_dropReaction_safe hk ((hv.others k hk).trans hx), rfl⟩

end

/-- The Sieve after a reaction's end: none runs, and its record shows the end. -/
def ShowsEnd (c : Nat) (r : Rec) (s t : State) : Prop :=
  t.sieve.running = none ∧ t.sieve.runReact = 0 ∧ recOf t c = some { r with phase := .done, tDone := some s.time.now }

theorem ReactionEnded.shows {c : Nat} {r : Rec} {s t u : State} (h : ReactionEnded c r s t) (hs : u.sieve = t.sieve) :
    ShowsEnd c r s u := by
  refine ⟨?_, ?_, ?_⟩
  · rw [hs, h.running]
  · rw [hs, h.runReact]
  · rw [recOf, hs]
    exact h.record

/-- What waited goes on waiting where another reaction is queued (R19). -/
theorem resumeWaiting_queued {s : State} (h : s.sieve.queue ≠ []) : resumeWaiting s = s := by
  refine resumeWaiting_reacting ?_
  simp [reacting, h]

theorem reacting_idle {s : State} (hrun : s.sieve.running = none) (hq : s.sieve.queue = []) : reacting s = false := by
  simp [reacting, hrun, hq]

/-- The status registers of the plots' clocks. -/
def clkStatReg (a : Nat) : Prop := ∃ q, q < 64 ∧ a = clkStat q

/-- The transitions that begin change the clocks' registers and nothing of the epoch. -/
theorem startDvfs_all_frame (s : State) :
    Frame blankMoved clkStatReg s ((List.range 64).foldl startDvfs s) :=
  .foldl _ _ fun q hq s => startDvfs_frame (F := clkStatReg) ⟨q, List.mem_range.mp hq, rfl⟩ s

/-- The Sieve is as it was after what waited has gone on. -/
theorem resumeWaiting_sieve (s : State) : (resumeWaiting s).sieve = s.sieve := by
  cases h : reacting s
  · rw [resumeWaiting_idle h, (startDvfs_all_frame _).get (·.sieve), (resume_frame s).get (·.sieve)]
  · rw [resumeWaiting_reacting h]

/-- An advance that waited starts where no reaction is queued (R19, R443). -/
theorem resumeWaiting_epoch {s : State} (h : reacting s = false) (ha : s.upkeep.asked = true)
    (hsafe : s.flag (breg .upk 0x64) 30 = false) (hb : s.bankWait = false) :
    curEpoch (resumeWaiting s) = !curEpoch s ∧ epochBusy (resumeWaiting s) = true ∧ (resumeWaiting s).upkeep.asked = false := by
  have he : resumeEpoch s = startEpoch s := by simp [resumeEpoch, ha, hsafe]
  obtain ⟨hf, -, hcur, hbusy, hasked⟩ := startEpoch_starts s
  have hl := resumeLinks_frame (startEpoch s)
  have hbank : resumeBanks (resumeLinks (startEpoch s)) = resumeLinks (startEpoch s) := by
    rw [resumeBanks, hl.get (·.bankWait), hf.get (·.bankWait), hb]
    rfl
  rw [resumeWaiting_idle h, he, hbank]
  have hd := startDvfs_all_frame (resumeLinks (startEpoch s))
  generalize startEpoch s = u at *
  generalize resumeLinks u = v at *
  have hreg : ((List.range 64).foldl startDvfs v).rd (breg .upk 0x64) = u.rd (breg .upk 0x64) := by
    rw [hd.regs _ (by rintro ⟨q, hlt, hq⟩; simp only [clkStat, breg, Blk.base] at hq; omega),
      hl.regs _ (by simp only [linkReg, queueReg, breg, Blk.base]; omega)]
  obtain ⟨hc, hb⟩ := epoch_congr hreg
  exact ⟨hc.trans hcur, hb.trans hbusy, (hd.get (·.upkeep.asked)).trans ((hl.get (·.upkeep.asked)).trans hasked)⟩

/-- A transition begins in each plot that does not run at EFF_n (R19, R418). -/
theorem resumeWaiting_dvfs {s : State} (h : reacting s = false) (hfrozen : s.power.frozen = false) {p : PlotNo}
    (hon : plotOn s p = true) (hfail : s.flag (clkStat p.val) 30 = false) (hcode : curCode s p.val ≠ effCode s p.val) :
    DvfsBegun p.val s (resumeWaiting s) := by
  rw [resumeWaiting_idle h]
  have hf := resume_frame s
  have hp : SamePresence s (resumeBanks (resumeLinks (resumeEpoch s))) :=
    (resumeEpoch_presence s).trans ((SamePresence.of_plots ((resumeLinks_frame _).get (·.plots))).trans
      (.of_plots ((resumeBanks_frame _).get (·.plots))))
  generalize resumeBanks (resumeLinks (resumeEpoch s)) = u at *
  have hlt := p.isLt
  have hsame : SameDvfs p.val s u := {
    opState := hf.get (·.opState)
    powered := hp.powered _
    absent := hp.absent _
    sieve := hf.get (·.sieve)
    frozen := hf.get (·.power.frozen)
    stat := hf.regs _ (by simp only [resumeReg, linkReg, queueReg, clkStat, breg, Blk.base]; omega)
    req := hf.regs _ (by simp only [resumeReg, linkReg, queueReg, clkReq, breg, Blk.base]; omega)
    ceiling := hf.regs _ (by simp only [resumeReg, linkReg, queueReg, breg, Blk.base]; omega) }
  obtain ⟨hon', hcur, heff, hreact⟩ := hsame.codes
  obtain ⟨hrun, hkeep⟩ := startDvfs_all p.isLt (hon'.trans hon) ((State.flag_congr hsame.stat _).trans hfail)
    (hsame.frozen.trans hfrozen) (hreact.trans h) (by rwa [hcur, heff])
  exact ⟨hrun, hkeep.trans hcur⟩

/-! ## REACTION_COMPLETE -/

section
variable {s : State} {c : Nat} {r : Rec} (hrun : s.sieve.running = some c) (hr : recOf s c = some r) (hphase : r.phase = .acted)
  (hsev : severity r.react ≤ severity s.sieve.runReact)
include hrun hr hphase hsev

/-- With another reaction queued, an advance or a transition of banks that waits goes on waiting (R19). -/
theorem reactionComplete_queued (hq : s.sieve.queue ≠ []) : ∃ t, execReactionComplete s = .next t ∧ ShowsEnd c r s t ∧
    t.upkeep = s.upkeep ∧ t.bankWait = s.bankWait ∧ t.bankQ = s.bankQ := by
  have hv := endReaction_ends c r s
  have hf := hv.frame
  have hw : resumeWaiting (endReaction c r s) = endReaction c r s :=
    resumeWaiting_queued (by rwa [hf.get (·.sieve.queue)])
  exact ⟨_, (execReactionComplete_ends hrun hr hphase hsev).trans (by rw [hw]), hv.shows rfl, hf.get (·.upkeep),
    hf.get (·.bankWait), hf.get (·.bankQ)⟩

/-- A waiting advance starts where none is queued (R19, R443). -/
theorem reactionComplete_epoch (hq : s.sieve.queue = []) (ha : s.upkeep.asked = true) (hsafe : s.flag (breg .upk 0x64) 30 = false)
    (hb : s.bankWait = false) : ∃ t, execReactionComplete s = .next t ∧ ShowsEnd c r s t ∧ curEpoch t = !curEpoch s ∧
      epochBusy t = true ∧ t.upkeep.asked = false := by
  have hv := endReaction_ends c r s
  have hf := hv.frame
  have hreg : (endReaction c r s).rd (breg .upk 0x64) = s.rd (breg .upk 0x64) := hf.regs _ (not_collectorReg_beyond (by decide))
  obtain ⟨hcur, hbusy, hasked⟩ := resumeWaiting_epoch (s := endReaction c r s)
    (reacting_idle hv.running ((hf.get (·.sieve.queue)).trans hq)) ((hf.get (·.upkeep.asked)).trans ha)
    ((State.flag_congr hreg _).trans hsafe) ((hf.get (·.bankWait)).trans hb)
  exact ⟨_, execReactionComplete_ends hrun hr hphase hsev, hv.shows (resumeWaiting_sieve _),
    hcur.trans (congrArg _ (epoch_congr hreg).1), hbusy, hasked⟩

/-- What the end of a reaction leaves: the operating state, its masks ended, memories, engines and plots (R16, R462). -/
theorem reactionComplete_keeps (hw : s.sieve.queue ≠ [] ∨
    (s.upkeep.asked = false ∧ s.bankWait = false ∧ s.power.linkAsk = none)) :
    ∃ t, execReactionComplete s = .next t ∧ ShowsEnd c r s t ∧
      t.opState = (if s.sieve.runReact ≠ reSafe ∧ s.opState = .service then .recovery else s.opState) ∧
      (∀ w, w ∈ t.sieve.masks → w.col = c → w.ends.isSome = true) ∧ SameMemories s t ∧ t.engines = s.engines ∧
      t.plots = s.plots := by
  have hv := endReaction_ends c r s
  have hf := hv.frame
  have hd : Frame blankMoved clkStatReg (endReaction c r s) (resumeWaiting (endReaction c r s)) := by
    cases hreact : reacting (endReaction c r s)
    · obtain hq | ⟨ha, hb, hl⟩ := hw
      · rw [resumeWaiting_queued (by rwa [hf.get (·.sieve.queue)])]
        exact .refl ..
      · rw [resumeWaiting_idle hreact, resume_nothing ((hf.get (·.upkeep.asked)).trans ha) ((hf.get (·.bankWait)).trans hb)
          ((hf.get (·.power.linkAsk)).trans hl)]
        exact startDvfs_all_frame _
    · rw [resumeWaiting_reacting hreact]
      exact .refl ..
  refine ⟨_, execReactionComplete_ends hrun hr hphase hsev, hv.shows (resumeWaiting_sieve _), ?_, ?_, ⟨?_, ?_, ?_⟩, ?_, ?_⟩
  · rw [hd.get (·.opState), hv.opState]
  · rw [resumeWaiting_sieve]
    exact hv.masks
  · exact (hd.get (·.mem)).trans (hf.get (·.mem))
  · exact (hd.get (·.pres)).trans (hf.get (·.pres))
  · exact (hd.get (·.ucode)).trans (hf.get (·.ucode))
  · exact (hd.get (·.engines)).trans (hf.get (·.engines))
  · exact (hd.get (·.plots)).trans (hf.get (·.plots))

/-- Once no reaction is queued a transition begins in each plot that does not run at EFF_n (R19, R418). -/
theorem reactionComplete_dvfs (hq : s.sieve.queue = []) (hfrozen : s.power.frozen = false) (hoff : s.opState ≠ .off) :
    ∃ t, execReactionComplete s = .next t ∧ ShowsEnd c r s t ∧ ∀ p : PlotNo, (s.plot p.val).powered = true →
      (s.plot p.val).absent = false → s.flag (clkStat p.val) 30 = false → curCode s p.val ≠ effCode s p.val →
      DvfsBegun p.val s t := by
  have hv := endReaction_ends c r s
  have hf := hv.frame
  have hon : (endReaction c r s).opState ≠ .off := by
    rw [hv.opState]
    split
    · decide
    · exact hoff
  have hidle : reacting (endReaction c r s) = false := reacting_idle hv.running ((hf.get (·.sieve.queue)).trans hq)
  have hcol {a : Nat} (h : ¬ collectorReg a) : (endReaction c r s).rd a = s.rd a := hf.regs a h
  refine ⟨_, execReactionComplete_ends hrun hr hphase hsev, hv.shows (resumeWaiting_sieve _), fun p hp ha hfail hcode => ?_⟩
  have hplot : (endReaction c r s).plot p.val = s.plot p.val := by
    rw [State.plot, hf.get (·.plots)]
    rfl
  have hstat := hcol (not_collectorReg_clkStat p.val)
  have hcur : curCode (endReaction c r s) p.val = curCode s p.val := State.fld_congr hstat ..
  have heff : effCode (endReaction c r s) p.val = effCode s p.val := by
    have hreq : (endReaction c r s).rd (clkReq p.val) = s.rd (clkReq p.val) := hcol
      (not_collectorReg_beyond (by simp only [clkReq, breg, Blk.base]; omega))
    have hceil : (endReaction c r s).rd (breg .pwr 0x14) = s.rd (breg .pwr 0x14) := hcol
      (not_collectorReg_beyond (by decide))
    rw [effCode, targetCode, ceilCode, State.flag_congr hreq, State.fld_congr hreq, State.fld_congr hceil]
    rfl
  have hd : DvfsBegun p.val (endReaction c r s) (resumeWaiting (endReaction c r s)) :=
    resumeWaiting_dvfs hidle ((hf.get (·.power.frozen)).trans hfrozen) (by simp [plotOn, hon, hplot, hp, ha])
      ((State.flag_congr hstat _).trans hfail) (by rwa [hcur, heff])
  exact ⟨hd.1, hd.2.trans hcur⟩

end

end Sys2Proof.Machine
end

section
/-! PROOFS. The safe state (R428, R465, R482), for O59. -/

namespace Sys2Proof.Machine

/-! ## The safe state, part by part (R465) -/

/-- A level that is set is read at its output, and the others as before. -/
theorem outLevel_setOut (n k : Nat) (v : Level) (s : State) :
    outLevel (setOut n v s) k = if k = n then v else outLevel s k := by
  split
  · next h =>
    subst h
    exact SMap.get_set_same ..
  · next h => exact SMap.get_set_ne _ h ..

/-- The level of the safe state depends on the registers and the Sieve alone. -/
theorem safeLevel_setOut (n k : Nat) (v : Level) (s : State) : safeLevel (setOut n v s) k = safeLevel s k := rfl

/-- Every output that is set to its safe level reads it. -/
theorem outLevel_safe {n : Nat} (s : State) : ∀ (l : List Nat) (t : State), (∀ k, safeLevel t k = safeLevel s k) →
    (n ∈ l ∨ outLevel t n = safeLevel s n) → outLevel (l.foldl (fun t k => setOut k (safeLevel t k) t) t) n = safeLevel s n
  | [], t, _, h => h.resolve_left List.not_mem_nil
  | k :: l, t, hs, h => outLevel_safe s l _ (fun j => (safeLevel_setOut ..).trans (hs j)) (by
      by_cases hnk : n = k
      · exact .inr (by rw [outLevel_setOut, if_pos hnk, hs, hnk])
      · rw [outLevel_setOut, if_neg hnk]
        exact h.imp_left fun h => (List.mem_cons.mp h).resolve_left hnk)

/-- FAULT_N, the schedules and the TAP of the safe state. -/
def safeLands (scan : Bool) (s : State) : State :=
  { s with
    faultN := true
    evio := { s.evio with queues := [] }
    tap := if scan then { s.tap with instr := .bypass } else s.tap }

/-- The state without its outputs and their schedules, FAULT_N and the instruction of the TAP. -/
def blankOutputs (s : State) : State :=
  { s with faultN := false, evio := { s.evio with queues := [], outs := [] }, tap := { s.tap with instr := .bypass } }

theorem safeLands_frame (scan : Bool) (s : State) : Frame blankOutputs (fun _ => False) s (safeLands scan s) := by
  cases scan
  · exact .of_regs rfl rfl
  · exact .of_regs rfl rfl

theorem outLevel_safeLands (scan : Bool) (s : State) (n : Nat) : outLevel (safeLands scan s) n = outLevel s n := rfl

theorem safeLands_lands (scan : Bool) (s : State) : (safeLands scan s).faultN = true ∧ (safeLands scan s).evio.queues = [] :=
  ⟨rfl, rfl⟩

/-- The outputs, FAULT_N and the lands of the safe state. -/
def safeOutputs (s : State) : State :=
  safeLands s.tap.instr.drives ((List.range 32).foldl (fun s n => setOut n (safeLevel s n) s) s)

theorem safeOutputs_frame (s : State) : Frame blankOutputs (fun _ => False) s (safeOutputs s) :=
  .after (safeLands_frame ..) (.foldl _ _ fun _ _ _ => .of_regs rfl rfl)

theorem outLevel_safeOutputs {n : Nat} (hn : n < 32) (s : State) : outLevel (safeOutputs s) n = safeLevel s n :=
  (outLevel_safeLands ..).trans (outLevel_safe s (List.range 32) s (fun _ => rfl) (.inl (List.mem_range.mpr hn)))

/-! Links that scan held, and the transitions that a FATAL reaction ends (R428, R482). -/

/-- The registers of the links' states. -/
def linkStateReg (a : Nat) : Prop := ∃ n, n < 8 ∧ a = breg .run (0x104 + 0x40 * n)

/-- The state without its registers and links. -/
def blankLink (s : State) : State := { s with regs := [], fabric := { s.fabric with links := [] } }

theorem releaseLink_frame {n : Nat} (hn : n < 8) (s : State) : Frame blankLink linkStateReg s (releaseLink s n) := by
  have hw (s : State) (v : Reg32) : Frame blankLink linkStateReg s (s.wr (breg .run (0x104 + 0x40 * n)) v) :=
    .wr (F := linkStateReg) (fun _ _ => rfl) s ⟨n, hn, rfl⟩ v
  have hm (g : Link → Link) (s : State) : Frame blankLink linkStateReg s (modLink n g s) := .of_regs rfl rfl
  unfold releaseLink
  exact .ite (.after (hm ..) (hw s _)) (.refl ..)

/-- The registers that the safe state writes of links, clocks and the epoch. -/
def safeReg (a : Nat) : Prop :=
  (∃ p, p < 64 ∧ a = clkStat p) ∨ linkStateReg a ∨ a = breg .upk 0x64

theorem releaseLinks_frame (scan : Bool) (s : State) :
    Frame blankLink linkStateReg s (if scan then (List.range 8).foldl releaseLink s else s) :=
  .ite (.foldl _ _ fun _ hn s => releaseLink_frame (List.mem_range.mp hn) s) (.refl ..)

/-- The state without its registers, its links and the state of its power. -/
def blankHold (s : State) : State :=
  { s with regs := [], fabric := { s.fabric with links := [] },
           power := { s.power with frozen := false, linkUp := [], linkDown := [], linkAsk := none } }

/-- One plot's part of what a FATAL reaction holds. -/
def truncRunning (s : State) (p : Nat) : State := if s.flag (clkStat p) 31 then truncAt p s else s

theorem truncRunning_frame {F : Nat → Prop} {p : Nat} (hF : F (clkStat p)) (s : State) :
    Frame blankRegs F s (truncRunning s p) := by
  unfold truncRunning
  exact .ite (truncAt_frame hF s) (.refl ..)

/-- A FATAL reaction ends every plot's transition with TRUNC (R428). -/
theorem truncRunning_truncates {p : Nat} (hp : p < 64) {s : State} (hrun : s.flag (clkStat p) 31 = true) :
    Truncated p s ((List.range 64).foldl truncRunning s) := by
  obtain ⟨u, hu, hu'⟩ := Frame.turn (blank := blankRegs) (F := (· ≠ clkStat p)) (f := truncRunning) (List.range 64) s
    List.nodup_range (List.mem_range.mpr hp) fun q t hq => truncRunning_frame (fun he => hq (clkStat_inj he)) t
  have hclk := hu.regs (clkStat p) fun h => h rfl
  have hu1 : truncRunning u p = truncAt p u := by
    unfold truncRunning
    rw [State.flag_congr hclk, hrun]
    rfl
  rw [hu1] at hu'
  exact (truncAt_truncated p u).congr hclk (hu'.regs _ fun h => h rfl)

theorem freezePower_eq (s : State) : freezePower s = (List.range 64).foldl truncRunning
    { s with power := { s.power with frozen := true, linkUp := [], linkDown := [], linkAsk := none } } := rfl

/-- What the safe state holds: the power, for a FATAL record, and the links that scan held. -/
def safeHold (fatal scan : Bool) (s : State) : State :=
  let s := if fatal then freezePower s else s
  let s := if scan then (List.range 8).foldl releaseLink s else s
  if fatal then s.setFlag (breg .upk 0x64) 30 true else s

theorem freezePower_frame (s : State) : Frame blankHold safeReg s (freezePower s) := by
  rw [freezePower_eq]
  have h := Frame.foldl (blank := blankRegs) (F := safeReg) (f := truncRunning) (List.range 64)
    { s with power := { s.power with frozen := true, linkUp := [], linkDown := [], linkAsk := none } }
    fun p hp s => truncRunning_frame (.inl ⟨p, List.mem_range.mp hp, rfl⟩) s
  exact .after (h.mono fun _ h => h) (.of_regs rfl rfl)

theorem freezePower_freezes (s : State) : (freezePower s).power.frozen = true := by
  rw [freezePower_eq]
  exact (Frame.foldl (blank := blankRegs) (F := safeReg) (f := truncRunning) (List.range 64)
    { s with power := { s.power with frozen := true, linkUp := [], linkDown := [], linkAsk := none } }
    fun p hp s => truncRunning_frame (.inl ⟨p, List.mem_range.mp hp, rfl⟩) s).get (·.power.frozen)

theorem safeHold_frame (fatal scan : Bool) (s : State) : Frame blankHold safeReg s (safeHold fatal scan s) := by
  have hw (s : State) (v : Reg32) : Frame blankHold safeReg s (s.wr (breg .upk 0x64) v) :=
    .wr (fun _ _ => rfl) s (.inr (.inr rfl)) v
  have hl (s : State) : Frame blankHold safeReg s (if scan then (List.range 8).foldl releaseLink s else s) :=
    (releaseLinks_frame scan s).mono fun _ h => .inr (.inl h)
  unfold safeHold
  exact .after (.ite (hw ..) (.refl ..)) (.after (hl _) (.ite (freezePower_frame s) (.refl ..)))

/-- A FATAL record holds the power, ends the transitions with TRUNC and shows it in the epoch's register (R428). -/
theorem safeHold_fatal (scan : Bool) (s : State) : (safeHold true scan s).power.frozen = true ∧
    (safeHold true scan s).flag (breg .upk 0x64) 30 = true ∧
    ∀ p, p < 64 → s.flag (clkStat p) 31 = true → Truncated p s (safeHold true scan s) := by
  unfold safeHold
  simp only [if_true]
  have hf := freezePower_freezes s
  have ht (p : Nat) (hp : p < 64) (hrun : s.flag (clkStat p) 31 = true) : Truncated p s (freezePower s) :=
    (truncRunning_truncates hp
      (s := { s with power := { s.power with frozen := true, linkUp := [], linkDown := [], linkAsk := none } }) hrun).congr
      rfl rfl
  generalize freezePower s = u at *
  have hl := releaseLinks_frame scan u
  generalize (if scan then (List.range 8).foldl releaseLink u else u) = v at *
  refine ⟨(hl.get (·.power.frozen)).trans hf, State.flag_setFlag_same _ _ _ _ (by decide), fun p hp hrun => ?_⟩
  refine (ht p hp hrun).congr rfl ((State.rd_setFlag_ne _ ?_ ..).trans (hl.regs _ ?_))
  · simp only [clkStat, breg, Blk.base]
    omega
  · rintro ⟨n, hn, h⟩
    simp only [clkStat, breg, Blk.base] at h
    omega

/-- The state without what the Sieve notes of the safe state. -/
def blankSafe (s : State) : State :=
  { s with regs := [], sieve := { s.sieve with recs := [], hist := [], safe := none, queue := [] } }

/-- The safe state holds under a record, and the queued reactions are dropped (R465). -/
def safeQueue (c : Nat) (s : State) : State :=
  (s.sieve.queue.filter (· != c)).foldl (fun s k => dropReaction c k s)
    { s with sieve := { s.sieve with safe := some c, queue := [] } }

theorem dropReaction_keeps {k c : Nat} (h : k ≠ c) {s : State} (hk : (recOf s k).isSome = true) :
    (recOf (dropReaction k c s) k).isSome = true := by
  obtain ⟨x, hx⟩ := Option.isSome_iff_exists.mp hk
  rw [recOf_dropReaction_safe h hx]
  rfl

theorem dropReactions_keep {c : Nat} : ∀ (l : List Nat) (s : State), (∀ k, k ∈ l → k ≠ c) → (recOf s c).isSome = true →
    (recOf (l.foldl (fun s k => dropReaction c k s) s) c).isSome = true
  | [], _, _, h => h
  | k :: l, _, hl, h => dropReactions_keep l _ (fun k hk => hl k (List.mem_cons_of_mem _ hk))
      (dropReaction_keeps (Ne.symm (hl k List.mem_cons_self)) h)

theorem safeQueue_safe (c : Nat) (s : State) : Frame blankSafe collectorReg s (safeQueue c s) ∧
    (safeQueue c s).sieve.safe = some c ∧ (safeQueue c s).sieve.queue = [] ∧
    ((recOf s c).isSome = true → (recOf (safeQueue c s) c).isSome = true) := by
  unfold safeQueue
  have h := Frame.foldl (blank := blankRecs) (F := collectorReg) (f := fun s k => dropReaction c k s)
    (s.sieve.queue.filter (· != c)) { s with sieve := { s.sieve with safe := some c, queue := [] } }
    fun k _ s => dropReaction_frame c k s
  refine ⟨.after (h.mono fun _ h => h) (.of_regs rfl rfl), h.get (·.sieve.safe), h.get (·.sieve.queue), fun hr => ?_⟩
  exact dropReactions_keep _ _ (fun k hk => by simpa using (List.mem_filter.mp hk).2) hr

/-- The state without the management notices that its links hold. -/
def blankNotice (s : State) : State := { s with fabric := { s.fabric with nseq := 0, links := [] } }

theorem sendNotice_frame (reason : BitVec 4) (s : State) : Frame blankNotice (fun _ => False) s (sendNotice reason s) := by
  have hm (n : Nat) (g : Link → Link) (s : State) : Frame blankNotice (fun _ => False) s (modLink n g s) := .of_regs rfl rfl
  unfold sendNotice
  exact .ite (.refl ..) (.after (.foldl _ _ fun n _ s => .ite (hm n _ s) (.refl ..)) (.of_regs rfl rfl))

/-! Halted engines. -/

/-- The state without its registers and plots. -/
def blankHalt (s : State) : State := { s with regs := [], plots := [] }

theorem haltEngine_frame {F : Nat → Prop} {e : Nat} (hF : F (ereg e 4)) (s : State) : Frame blankHalt F s (haltEngine s e) := by
  have hw (s : State) (v : Reg32) : Frame blankHalt F s (s.wr (ereg e 4) v) := .wr (fun _ _ => rfl) s hF v
  have hn (p : Nat) (n : Notice) (s : State) : Frame blankHalt F s (notify p n s) := .of_regs rfl rfl
  unfold haltEngine
  split
  · exact .refl ..
  · extract_lets was t
    have ht : Frame blankHalt F s t := (hw s _).trans (hw _ _)
    clear_value t
    split
    · exact .ite ht (ht.trans (hn ..))
    · exact ht

theorem haltEngine_presence (s : State) (e : Nat) : SamePresence s (haltEngine s e) := by
  have hn (p : Nat) (n : Notice) (s : State) : SamePresence s (notify p n s) :=
    .modPlot p (fun x => { x with notices := x.notices ++ [n] }) s fun _ => ⟨rfl, rfl, rfl⟩
  unfold haltEngine
  split
  · exact .of_plots rfl
  · extract_lets was t
    have hw (s : State) (a : Nat) (v : Reg32) : (s.wr a v).plots = s.plots := rfl
    have ht : SamePresence s t := .of_plots ((hw ..).trans (hw ..))
    clear_value t
    split
    · split
      · exact ht
      · exact ht.trans (hn ..)
    · exact ht

/-- Both halt bits of an engine are 1. -/
def Halted (e : Nat) (s : State) : Prop := s.flag (ereg e 4) 0 = true ∧ s.flag (ereg e 4) 1 = true

theorem Halted.congr {e : Nat} {s t : State} (h : Halted e s) (hr : t.rd (ereg e 4) = s.rd (ereg e 4)) : Halted e t :=
  ⟨(State.flag_congr hr 0).trans h.1, (State.flag_congr hr 1).trans h.2⟩

/-- An engine in service takes both halt bits (R465). -/
theorem haltEngine_halts {e : Nat} {s : State} (h : inService s e = true) : Halted e (haltEngine s e) := by
  have ht : Halted e ((s.setFlag (ereg e 4) 0 true).setFlag (ereg e 4) 1 true) :=
    ⟨(State.flag_setFlag_ne _ _ _ (by decide)).trans (State.flag_setFlag_same _ _ _ _ (by decide)),
      State.flag_setFlag_same _ _ _ _ (by decide)⟩
  unfold haltEngine
  rw [if_neg (by rw [h]; decide)]
  dsimp only
  generalize (s.setFlag (ereg e 4) 0 true).setFlag (ereg e 4) 1 true = t at *
  split
  · split
    · exact ht
    · exact ht.congr (State.rd_modPlot ..)
  · exact ht

/-- Whether an engine is in service depends on its plot's register and presence, the Sieve's masks and the operating
state. -/
theorem inService_congr {s t : State} {e : Nat} (hr : t.rd (preg (e / 17) 0) = s.rd (preg (e / 17) 0)) (hp : SamePresence s t)
    (hm : t.sieve.masks = s.sieve.masks) (ho : t.opState = s.opState) : inService t e = inService s e := by
  unfold inService logicalD retiring
  dsimp only
  rw [logicalOf_congr hr, hp.absent, hp.powered, hp.resetting, hm, ho]

theorem ereg_ne_preg {e p o o' : Nat} (ho : o < 0x8000) (ho' : o' < 0x8000) : ereg e o ≠ preg p o' := by
  have := Nat.mod_lt e (y := 17) (by decide)
  simp only [ereg, preg, slotBase, plotWin]
  omega

theorem ereg_inj {e k o : Nat} (h : ereg e o = ereg k o) : e = k := by
  have := Nat.mod_lt e (y := 17) (by decide)
  have := Nat.mod_lt k (y := 17) (by decide)
  simp only [ereg, slotBase, plotWin] at h
  omega

/-- The engines in service are halted. -/
def haltAll (s : State) : State := if s.flag (breg .sieve 0x38) 0 then (List.range 1088).foldl haltEngine s else s

/-- The registers that halts write. -/
def haltReg (a : Nat) : Prop := ∃ e, a = ereg e 4

theorem haltAll_frame (s : State) : Frame blankHalt haltReg s (haltAll s) :=
  .ite (.foldl _ _ fun e _ s => haltEngine_frame ⟨e, rfl⟩ s) (.refl ..)

/-- Every engine in service is halted where SIEVE_SAFE asks for it (R465). -/
theorem haltAll_halts {s : State} (h : s.flag (breg .sieve 0x38) 0 = true) {e : Nat} (he : e < 1088)
    (hs : inService s e = true) : Halted e (haltAll s) := by
  obtain ⟨u, ⟨hu, hup⟩, hu', -⟩ := foldl_turn (p := e)
    (R := fun s t => Frame blankHalt (fun a => a ≠ preg (e / 17) 0 ∧ a ≠ ereg e 4) s t ∧ SamePresence s t)
    (fun s => ⟨.refl .., .of_plots rfl⟩) (fun h k => ⟨h.1.trans k.1, h.2.trans k.2⟩) (f := haltEngine)
    (fun q t hq => ⟨haltEngine_frame ⟨ereg_ne_preg (by decide) (by decide), fun h => hq (ereg_inj h)⟩ t,
      haltEngine_presence ..⟩) (List.range 1088) s List.nodup_range (List.mem_range.mpr he)
  have hin : inService u e = true := by
    rw [inService_congr (hu.regs _ fun h => h.1 rfl) hup (hu.get (·.sieve.masks)) (hu.get (·.opState)), hs]
  rw [haltAll, if_pos h]
  exact (haltEngine_halts hin).congr (hu'.regs _ fun h => h.2 rfl)

theorem enterSafe_eq (c : Nat) (fatal : Bool) (s : State) : enterSafe c fatal s =
    haltAll (sendNotice 1 (safeQueue c (safeHold fatal s.tap.instr.drives (safeOutputs s)))) := rfl

/-! ## The safe state (R465) -/

/-- The safe state has been entered under a record from a state. -/
structure InSafeState (c : Nat) (s t : State) : Prop where
  safe : t.sieve.safe = some c
  faultN : t.faultN = true
  queue : t.sieve.queue = []
  schedules : t.evio.queues = []
  levels : ∀ n, n < 32 → outLevel t n = safeLevel s n
  opState : t.opState = s.opState
  memories : SameMemories s t
  halts : s.flag (breg .sieve 0x38) 0 = true → ∀ e : EngNo, inService s e.val = true → Halted e.val t

/-- The part of the safe state before engines halt. -/
def safeParts (c : Nat) (fatal : Bool) (s : State) : State :=
  sendNotice 1 (safeQueue c (safeHold fatal s.tap.instr.drives (safeOutputs s)))

/-- The state without what the safe state changes before engines halt. -/
def blankParts (s : State) : State :=
  { s with
    regs := [], faultN := false, evio := { s.evio with queues := [], outs := [] }, tap := { s.tap with instr := .bypass },
    fabric := { s.fabric with nseq := 0, links := [] },
    power := { s.power with frozen := false, linkUp := [], linkDown := [], linkAsk := none },
    sieve := { s.sieve with recs := [], hist := [], safe := none, queue := [] } }

theorem safeParts_frame (c : Nat) (fatal : Bool) (s : State) :
    Frame blankParts (fun a => safeReg a ∨ collectorReg a) s (safeParts c fatal s) :=
  (((safeOutputs_frame s).mono fun _ => False.elim).trans ((safeHold_frame ..).mono fun _ => .inl)).trans
    (((safeQueue_safe ..).1.mono fun _ => .inr).trans ((sendNotice_frame ..).mono fun _ => False.elim))

/-- The registers of the safe state that its parts do not write. -/
theorem safeParts_regs (c : Nat) (fatal : Bool) (s : State) :
    (safeParts c fatal s).rd (breg .sieve 0x38) = s.rd (breg .sieve 0x38) ∧
      ∀ p, (safeParts c fatal s).rd (preg p 0) = s.rd (preg p 0) := by
  have hf := safeParts_frame c fatal s
  refine ⟨hf.regs _ ?_, fun p => hf.regs _ ?_⟩
  · rintro ((⟨q, hq, h⟩ | ⟨q, hq, h⟩ | h) | h | ⟨q, hq, h⟩) <;>
      simp only [clkStat, breg, preg, plotWin, Blk.base] at h <;> omega
  · rintro ((⟨q, hq, h⟩ | ⟨q, hq, h⟩ | h) | h | ⟨q, hq, h⟩) <;>
      simp only [clkStat, breg, preg, plotWin, Blk.base] at h <;> omega

theorem safeParts_outputs (c : Nat) (fatal : Bool) (s : State) : (safeParts c fatal s).faultN = true ∧
    (safeParts c fatal s).evio.queues = [] ∧ (∀ n, n < 32 → outLevel (safeParts c fatal s) n = safeLevel s n) ∧
    (safeParts c fatal s).sieve.safe = some c ∧ (safeParts c fatal s).sieve.queue = [] ∧
    ((recOf s c).isSome = true → (recOf (safeParts c fatal s) c).isSome = true) := by
  obtain ⟨hfault, hqueues⟩ := safeLands_lands s.tap.instr.drives ((List.range 32).foldl (fun s n => setOut n (safeLevel s n) s) s)
  have hout (n : Nat) (hn : n < 32) := outLevel_safeOutputs hn s
  have h1 := safeOutputs_frame s
  unfold safeParts
  change (safeOutputs s).faultN = true at hfault
  change (safeOutputs s).evio.queues = [] at hqueues
  generalize safeOutputs s = u at *
  have h2 := safeHold_frame fatal s.tap.instr.drives u
  generalize safeHold fatal s.tap.instr.drives u = v at *
  obtain ⟨h3, hsafe, hq, hrec⟩ := safeQueue_safe c v
  generalize safeQueue c v = w at *
  have h4 := sendNotice_frame 1 w
  generalize sendNotice 1 w = x at *
  have hevio : x.evio = u.evio := (h4.get (·.evio)).trans ((h3.get (·.evio)).trans (h2.get (·.evio)))
  refine ⟨?_, by rw [hevio, hqueues], fun n hn => ?_, ?_, ?_, fun h => ?_⟩
  · rw [h4.get (·.faultN), h3.get (·.faultN), h2.get (·.faultN), hfault]
  · rw [outLevel, hevio]
    exact hout n hn
  · rw [h4.get (·.sieve.safe), hsafe]
  · rw [h4.get (·.sieve.queue), hq]
  · rw [recOf, h4.get (·.sieve)]
    refine hrec ?_
    rwa [recOf, h2.get (·.sieve), h1.get (·.sieve)]

theorem enterSafe_safe (c : Nat) (fatal : Bool) (s : State) : InSafeState c s (enterSafe c fatal s) := by
  have hf := safeParts_frame c fatal s
  obtain ⟨hsieve, hpreg⟩ := safeParts_regs c fatal s
  obtain ⟨hfault, hqueues, hout, hsafe, hq, -⟩ := safeParts_outputs c fatal s
  have he : enterSafe c fatal s = haltAll (safeParts c fatal s) := enterSafe_eq c fatal s
  rw [he]
  generalize safeParts c fatal s = u at *
  have hh := haltAll_frame u
  exact {
    safe := by rw [hh.get (·.sieve.safe), hsafe]
    faultN := by rw [hh.get (·.faultN), hfault]
    queue := by rw [hh.get (·.sieve.queue), hq]
    schedules := by rw [hh.get (·.evio.queues), hqueues]
    levels := fun n hn => by
      rw [outLevel, hh.get (·.evio.outs)]
      exact hout n hn
    opState := by rw [hh.get (·.opState), hf.get (·.opState)]
    memories := ⟨(hh.get (·.mem)).trans (hf.get (·.mem)), (hh.get (·.pres)).trans (hf.get (·.pres)),
      (hh.get (·.ucode)).trans (hf.get (·.ucode))⟩
    halts := fun h e hin => haltAll_halts ((State.flag_congr hsieve 0).trans h) e.isLt (by
      rwa [inService_congr (hpreg _) (.of_plots (hf.get (·.plots))) (hf.get (·.sieve.masks)) (hf.get (·.opState))]) }

/-- The record under which the safe state holds is kept, and the reaction that runs is as it was. -/
theorem enterSafe_record (c : Nat) (fatal : Bool) (s : State) (h : (recOf s c).isSome = true) :
    (recOf (enterSafe c fatal s) c).isSome = true ∧ (enterSafe c fatal s).sieve.running = s.sieve.running := by
  have hf := safeParts_frame c fatal s
  obtain ⟨-, -, -, -, -, hrec⟩ := safeParts_outputs c fatal s
  have he : enterSafe c fatal s = haltAll (safeParts c fatal s) := enterSafe_eq c fatal s
  rw [he]
  generalize safeParts c fatal s = u at *
  have hh := haltAll_frame u
  refine ⟨?_, (hh.get (·.sieve.running)).trans (hf.get (·.sieve.running))⟩
  rw [recOf, hh.get (·.sieve)]
  exact hrec h

/-- The power that a FATAL record holds (R428). -/
structure PowerHeld (s t : State) : Prop where
  frozen : t.power.frozen = true
  shown : t.flag (breg .upk 0x64) 30 = true
  truncated : ∀ p, p < 64 → s.flag (clkStat p) 31 = true → Truncated p s t

/-- Neither records nor halts reach the registers of the power. -/
theorem not_recordHalt {a : Nat} (h : (∃ p, p < 64 ∧ a = clkStat p) ∨ a = breg .upk 0x64) : ¬ (collectorReg a ∨ haltReg a) := by
  rintro ((h' | ⟨q, hq, h'⟩) | ⟨e, h'⟩)
  · simp only [clkStat, breg, Blk.base] at h h'
    omega
  · simp only [clkStat, breg, preg, plotWin, Blk.base] at h h'
    omega
  · have := Nat.mod_lt e (y := 17) (by decide)
    simp only [clkStat, breg, ereg, slotBase, plotWin, Blk.base] at h h'
    omega

/-- Power that is held stays so where only records and halts are written. -/
theorem PowerHeld.keeps {s t u : State} (h : PowerHeld s t) (hfrozen : u.power.frozen = t.power.frozen)
    (hr : ∀ a, ¬ (collectorReg a ∨ haltReg a) → u.rd a = t.rd a) : PowerHeld s u :=
  ⟨hfrozen.trans h.frozen, (State.flag_congr (hr _ (not_recordHalt (.inr rfl))) 30).trans h.shown,
    fun p hp hrun => (h.truncated p hp hrun).congr rfl (hr _ (not_recordHalt (.inl ⟨p, hp, rfl⟩)))⟩

theorem enterSafe_fatal (c : Nat) (s : State) : PowerHeld s (enterSafe c true s) := by
  rw [enterSafe_eq]
  have h1 := safeOutputs_frame s
  generalize safeOutputs s = u at *
  obtain ⟨hfrozen, hshown, htrunc⟩ := safeHold_fatal s.tap.instr.drives u
  have hv : PowerHeld s (safeHold true s.tap.instr.drives u) := ⟨hfrozen, hshown, fun p hp hrun =>
    (htrunc p hp ((State.flag_congr (h1.regs _ id) 31).trans hrun)).congr (h1.regs _ id) rfl⟩
  generalize safeHold true s.tap.instr.drives u = v at *
  have h3 := (safeQueue_safe c v).1
  have hw := hv.keeps (h3.get (·.power.frozen)) fun a ha => h3.regs a fun h => ha (.inl h)
  generalize safeQueue c v = w at *
  have h4 := sendNotice_frame 1 w
  have hx := hw.keeps (h4.get (·.power.frozen)) fun a _ => h4.regs a id
  generalize sendNotice 1 w = x at *
  have h5 := haltAll_frame x
  exact hx.keeps (h5.get (·.power.frozen)) fun a ha => h5.regs a fun h => ha (.inr h)

/-- A record that is not FATAL holds no power. -/
theorem enterSafe_notFatal (c : Nat) (s : State) : (enterSafe c false s).power.frozen = s.power.frozen := by
  rw [enterSafe_eq]
  have h1 := safeOutputs_frame s
  generalize safeOutputs s = u at *
  have h2 : Frame blankLink linkStateReg u (safeHold false s.tap.instr.drives u) := releaseLinks_frame ..
  generalize safeHold false s.tap.instr.drives u = v at *
  rw [(haltAll_frame _).get (·.power.frozen), (sendNotice_frame 1 _).get (·.power.frozen),
    (safeQueue_safe c v).1.get (·.power.frozen), h2.get (·.power.frozen), h1.get (·.power.frozen)]

theorem InSafeState.records {c : Nat} {s t u : State} (h : InSafeState c s t) (k : Frame blankRecs collectorReg t u) :
    InSafeState c s u := by
  obtain ⟨hsafe, hfault, hqueue, hsched, hlev, hop, ⟨hmem, hpres, hucode⟩, hhalts⟩ := h
  exact {
    safe := (k.get (·.sieve.safe)).trans hsafe
    faultN := (k.get (·.faultN)).trans hfault
    queue := (k.get (·.sieve.queue)).trans hqueue
    schedules := (k.get (·.evio.queues)).trans hsched
    levels := fun n hn => by
      rw [outLevel, k.get (·.evio.outs)]
      exact hlev n hn
    opState := (k.get (·.opState)).trans hop
    memories := ⟨(k.get (·.mem)).trans hmem, (k.get (·.pres)).trans hpres, (k.get (·.ucode)).trans hucode⟩
    halts := fun h e hin => (hhalts h e hin).congr (k.regs _ (by
      have := e.isLt
      rintro (h | ⟨q, hq, h⟩) <;> simp only [ereg, slotBase, breg, preg, plotWin, Blk.base] at h <;> omega)) }

/-! ## DEVICE_SAFE -/

theorem fatalSafe_only {s : State} {c : Nat} {r : Rec} (hsafe : s.sieve.safe = none) (hrecs : s.sieve.recs = [(c, some r)])
    (htravel : s.sieve.travel = []) (hopen : r.open_ = true) (hreact : r.react = reSafe) (hcls : r.worstCls = 3) :
    fatalSafe s = some c := by
  simp [fatalSafe, recOf, SMap.get, hsafe, hrecs, htravel, hopen, hreact, hcls]

/-- A FATAL record brings the safe state at once, holds the power, and is done (R428, R465). -/
theorem deviceSafe_fatal {s : State} {c : Nat} (h : fatalSafe s = some c) (hr : (recOf s c).isSome = true)
    (hrun : s.sieve.running = none) : ∃ t, execDeviceSafe s = .next t ∧ InSafeState c s t ∧ PowerHeld s t ∧
      ∃ r, recOf t c = some r ∧ r.phase = .done := by
  obtain ⟨hrec, hrunning⟩ := enterSafe_record c true s hr
  have hsafe := enterSafe_safe c true s
  have hheld := enterSafe_fatal c s
  have hexec : ∀ r, recOf (enterSafe c true s) c = some r → execDeviceSafe s =
      .next (setRec c { r with phase := .done, tDone := some (enterSafe c true s).time.now } (enterSafe c true s)) := by
    intro r hr
    have hne : (enterSafe c true s).sieve.running ≠ some c := by
      rw [hrunning, hrun]
      exact (Option.some_ne_none c).symm
    unfold execDeviceSafe
    simp only [h, hr, if_neg hne]
  generalize enterSafe c true s = u at *
  obtain ⟨r, hr⟩ := Option.isSome_iff_exists.mp hrec
  have hf := setRec_frame c { r with phase := .done, tDone := some u.time.now } u
  exact ⟨_, hexec r hr, hsafe.records hf, hheld.keeps (hf.get (·.power.frozen)) fun a ha => hf.regs a fun h => ha (.inl h),
    _, recOf_setRec_same .., rfl⟩

/-- A DEVICE_SAFE that runs brings the safe state (R465). -/
theorem deviceSafe_runs {s : State} {c : Nat} {r : Rec} (hno : fatalSafe s = none) (hrun : s.sieve.running = some c)
    (hr : recOf s c = some r) (hreact : s.sieve.runReact = reSafe) (hphase : r.phase = .running) (hsafe : s.sieve.safe = none) :
    ∃ t, execDeviceSafe s = .next t ∧ InSafeState c s t ∧ t.power.frozen = s.power.frozen ∧
      ∃ r, recOf t c = some r ∧ r.phase = .acted := by
  obtain ⟨hrec, -⟩ := enterSafe_record c false s (by rw [hr]; rfl)
  have hexec : execDeviceSafe s = .next (acted c (enterSafe c false s)) := by
    simp [execDeviceSafe, hno, hrun, hr, hreact, hphase, hsafe]
  have hin := enterSafe_safe c false s
  have hfrozen := enterSafe_notFatal c s
  generalize enterSafe c false s = u at *
  have hf := acted_frame c u
  exact ⟨_, hexec, hin.records hf, (hf.get (·.power.frozen)).trans hfrozen, acted_recOf hrec⟩

end Sys2Proof.Machine
end

section
/-! SUPPORT. What work in the granary leaves of the engines' slots (R283 to R302). -/

namespace Sys2Proof.Machine

/-! ## What work in the granary leaves of the slots -/

/-- The engines, the memories of the slots, which plots are absent and that a collector holds a record are as before. -/
structure KeepsSlots (s t : State) : Prop where
  engines : t.engines = s.engines
  absent : ∀ q, (t.plot q).absent = (s.plot q).absent
  bytes : ∀ a, 0x4000000 ≤ a → t.byte a = s.byte a
  marks : ∀ a, 0x4000000 ≤ a → t.mark a = s.mark a
  recs : KeepsRecs s t

namespace KeepsSlots

theorem refl (s : State) : KeepsSlots s s := ⟨rfl, fun _ => rfl, fun _ _ => rfl, fun _ _ => rfl, .refl s⟩

theorem trans {s t u : State} (h : KeepsSlots s t) (k : KeepsSlots t u) : KeepsSlots s u :=
  ⟨k.engines.trans h.engines, fun q => (k.absent q).trans (h.absent q), fun a ha => (k.bytes a ha).trans (h.bytes a ha),
    fun a ha => (k.marks a ha).trans (h.marks a ha), h.recs.trans k.recs⟩

theorem after {s t u : State} (k : KeepsSlots t u) (h : KeepsSlots s t) : KeepsSlots s u := h.trans k

theorem ite {c : Prop} [Decidable c] {s t u : State} (h : KeepsSlots s t) (k : KeepsSlots s u) :
    KeepsSlots s (if c then t else u) := by
  split
  · exact h
  · exact k

/-- A choice between two steps that also answer something. -/
theorem ite_snd {α : Type} {c : Prop} [Decidable c] {s : State} {x y : α × State} (h : KeepsSlots s x.2) (k : KeepsSlots s y.2) :
    KeepsSlots s (if c then x else y).2 := by
  split
  · exact h
  · exact k

theorem foldl {β : Type} {f : State → β → State} (l : List β) (s : State) (h : ∀ b, b ∈ l → ∀ s, KeepsSlots s (f s b)) :
    KeepsSlots s (l.foldl f s) := foldl_keeps refl (fun h k => h.trans k) l s h

/-- A step that touches neither engines, plots, memories nor records. -/
theorem of_same {s t : State} (he : t.engines = s.engines) (hp : t.plots = s.plots) (hm : t.mem = s.mem)
    (hk : t.marks = s.marks) (hr : t.sieve.recs = s.sieve.recs) : KeepsSlots s t :=
  ⟨he, fun q => by rw [State.plot, hp]; rfl, fun a _ => by rw [State.byte, hm]; rfl, fun a _ => by rw [State.mark, hk]; rfl,
    .of_recs hr⟩

theorem of_records {s t : State} (h : Records s t) : KeepsSlots s t :=
  ⟨h.frame.get (·.engines), fun q => by rw [State.plot, h.frame.get (·.plots)]; rfl,
    fun a _ => by rw [State.byte, h.frame.get (·.mem)]; rfl, fun a _ => by rw [State.mark, h.frame.get (·.marks)]; rfl, h.recs⟩

theorem wr (s : State) (a : Nat) (v : Reg32) : KeepsSlots s (s.wr a v) := of_same rfl rfl rfl rfl rfl

theorem setFlag (s : State) (a i : Nat) (b : Bool) : KeepsSlots s (s.setFlag a i b) := wr ..

theorem satAdd (s : State) (a lo len n : Nat) : KeepsSlots s (s.satAdd a lo len n) := wr ..

theorem satInc (s : State) (a lo len : Nat) : KeepsSlots s (s.satInc a lo len) := wr ..

/-- A step that changes no byte or mark from the slots' addresses on, and neither engines, plots nor records. -/
theorem of_memory {s t : State} (he : t.engines = s.engines) (hp : t.plots = s.plots) (hr : t.sieve.recs = s.sieve.recs)
    (hm : ∀ a, 0x4000000 ≤ a → t.byte a = s.byte a) (hk : ∀ a, 0x4000000 ≤ a → t.mark a = s.mark a) : KeepsSlots s t :=
  ⟨he, fun q => by rw [State.plot, hp]; rfl, hm, hk, .of_recs hr⟩

theorem modPlot (p : Nat) (g : Plot → Plot) (s : State) (hg : ∀ x, (g x).absent = x.absent) : KeepsSlots s (s.modPlot p g) := by
  refine ⟨rfl, fun q => ?_, fun _ _ => rfl, fun _ _ => rfl, .of_recs rfl⟩
  by_cases h : q = p
  · rw [h, State.plot_modPlot_same, hg]
  · rw [State.plot_modPlot_ne _ h]

end KeepsSlots

/-! Queues -/

theorem noteWrite_keepsSlots (w : Nat) (f : Flit) (s : State) : KeepsSlots s (noteWrite w f s) := .of_same rfl rfl rfl rfl rfl

theorem countDiscard_keepsSlots (n : Nat) (s : State) : KeepsSlots s (countDiscard n s) := .wr ..

theorem stirDevice_keepsSlots (s : State) : KeepsSlots s (stirDevice s) := .setFlag ..

theorem dropWrite_keepsSlots {w : Nat} {f : Flit} {s t : State} (h : dropWrite w f s = some t) : KeepsSlots s t := by
  unfold dropWrite at h
  split at h
  · cases h
  · obtain rfl := Option.some.inj h
    have hn : KeepsSlots s (noteWrite w f (countDiscard 1 s)) := (countDiscard_keepsSlots 1 s).trans (noteWrite_keepsSlots ..)
    generalize noteWrite w f (countDiscard 1 s) = u at *
    exact .ite (hn.trans (.of_same rfl rfl rfl rfl rfl)) hn

theorem pushQ_keepsSlots (site : Nat) (toMesh : Bool) (chan : Nat) (f : Flit) (s : State) :
    KeepsSlots s (pushQ site toMesh chan f s) := by
  have hq (k : Nat) (fs : List Flit) (s : State) : KeepsSlots s (s.setQ k fs) := .of_same rfl rfl rfl rfl rfl
  have hs : KeepsSlots s (stir site s) := .after (stirDevice_keepsSlots _) (.setFlag ..)
  unfold pushQ
  dsimp only
  split
  · next h => exact dropWrite_keepsSlots h
  · exact .after (hq ..) (.after (noteWrite_keepsSlots ..) (.ite hs (stirDevice_keepsSlots s)))

theorem pushAll_keepsSlots (site chan : Nat) : ∀ (fs : List Flit) (s : State), KeepsSlots s (pushAll site chan fs s).2
  | [], s => .refl s
  | f :: fs, s => by
    unfold pushAll
    split
    · exact .after (pushAll_keepsSlots site chan fs _) (pushQ_keepsSlots ..)
    · exact .refl s

theorem setQuad_keepsSlots (q : Nat) (x : Quad) (s : State) : KeepsSlots s (setQuad q x s) := .of_same rfl rfl rfl rfl rfl

theorem drainTx_keepsSlots (q j : Nat) (s : State) : KeepsSlots s (drainTx q j s) := by
  unfold drainTx
  exact .after (setQuad_keepsSlots ..) (pushAll_keepsSlots ..)

/-- A detection other than LCK_STUCK. -/
theorem detect_keepsSlots {d : Detection} (hd : d.code ≠ 0x4E) (s : State) : KeepsSlots s (detect d s) :=
  .of_records (detect_records hd s)

theorem respond_keepsSlots (q : Nat) (g : BitVec 4 → List Flit) (s : State) : KeepsSlots s (respond q g s) := by
  unfold respond
  dsimp only
  split
  · exact detect_keepsSlots (show (0x42 : BitVec 8) ≠ 0x4E by decide) s
  · exact .after (drainTx_keepsSlots ..) (setQuad_keepsSlots ..)

/-! Granary words -/

theorem wbyte_lt (w : BitVec 23) : wbyte w + 8 ≤ 0x4000000 := by
  have := w.isLt
  simp only [wbyte]
  omega

theorem setPres_keepsSlots (w : BitVec 23) (v : BitVec 2) (s : State) : KeepsSlots s (setPres w v s) :=
  .of_same rfl rfl rfl rfl rfl

theorem setByte_keepsSlots {a : Nat} (ha : a < 0x4000000) (v : Byte) (s : State) : KeepsSlots s (s.setByte a v) :=
  .of_memory rfl rfl rfl (fun _ hb => State.byte_setByte_ne _ (by omega) _) fun _ _ => rfl

theorem storeNat_keepsSlots : ∀ (n a v : Nat) (s : State), a + n ≤ 0x4000000 → KeepsSlots s (s.storeNat a n v)
  | 0, _, _, s, _ => .refl s
  | n + 1, _, _, _, ha => .after (storeNat_keepsSlots n _ _ _ (by omega)) (setByte_keepsSlots (by omega) ..)

theorem store_keepsSlots {a : Nat} (ha : a + 8 ≤ 0x4000000) (v : Word) (s : State) : KeepsSlots s (s.store a 8 v) :=
  storeNat_keepsSlots 8 a v.toNat s ha

theorem setMark_keepsSlots {a : Nat} (ha : a < 0x4000000) (m : Mark) (s : State) : KeepsSlots s (s.setMark a m) :=
  .of_memory rfl rfl rfl (fun _ _ => rfl) fun _ hb => State.mark_setMark_ne _ (by omega) _

theorem writeWord_keepsSlots (w : BitVec 23) (v : Word) (p : BitVec 2) (s : State) : KeepsSlots s (writeWord w v p s) := by
  have hw := wbyte_lt w
  unfold writeWord
  exact .after (setPres_keepsSlots ..) (.after (setMark_keepsSlots (by omega) ..) (store_keepsSlots hw v s))

theorem portWrite_keepsSlots (w : BitVec 23) (mask : BitVec 8) (v : Word) (p : BitVec 2) (s : State) :
    KeepsSlots s (portWrite w mask v p s) := by
  have hw (x : PortWrite) (s : State) : KeepsSlots s (s.wrote0 x) := .of_same rfl rfl rfl rfl rfl
  unfold portWrite
  exact .ite (writeWord_keepsSlots ..) (.after (hw ..) (writeWord_keepsSlots ..))

theorem putPres_keepsSlots (w : BitVec 23) (p : BitVec 2) (s : State) : KeepsSlots s (putPres w p s) := by
  unfold putPres
  exact .ite (.refl s) (portWrite_keepsSlots ..)

theorem grnEcc_keepsSlots (uc : Bool) (w : BitVec 23) (s : State) : KeepsSlots s (grnEcc uc w s) := by
  unfold grnEcc countGrnEcc
  refine .after (.wr ..) (.after (.satInc ..) (detect_keepsSlots ?_ s))
  cases uc
  · show (0x48 : BitVec 8) ≠ 0x4E
    decide
  · show (0x49 : BitVec 8) ≠ 0x4E
    decide

theorem checkWord_keepsSlots (w : BitVec 23) (s : State) : KeepsSlots s (checkWord w s).2 := by
  unfold checkWord
  exact .ite_snd (grnEcc_keepsSlots ..) (.ite_snd (grnEcc_keepsSlots ..) (.refl s))

theorem offBy_keepsSlots (code : BitVec 16) (w : BitVec 23) (s : State) : KeepsSlots s (offBy code w s) := by
  unfold offBy
  exact .after (detect_keepsSlots (show (0x4B : BitVec 8) ≠ 0x4E by decide) _) (.satInc ..)

theorem draw_keepsSlots (s : State) : KeepsSlots s s.draw.2 := .of_same rfl rfl rfl rfl rfl

theorem takePort1_keepsSlots (rank : Nat) (w : BitVec 23) (s : State) : KeepsSlots s (takePort1 rank w s) := by
  unfold takePort1
  extract_lets u uses t d
  have ht : KeepsSlots s t := .of_same rfl rfl rfl rfl rfl
  have hd : KeepsSlots t d.2 := draw_keepsSlots t
  clear_value t d
  exact .ite (.ite (ht.trans (hd.trans (.satInc ..))) (ht.trans hd)) ht

theorem port1See_keepsSlots (rank : Nat) (code : BitVec 16) (w : BitVec 23) (s : State) :
    KeepsSlots s (port1See rank code w s) := by
  unfold port1See
  exact .ite (offBy_keepsSlots ..) (.after (checkWord_keepsSlots ..) (takePort1_keepsSlots ..))

theorem port1Read_keepsSlots (rank : Nat) (code : BitVec 16) (a n : Nat) (s : State) :
    KeepsSlots s (port1Read rank code a n s) := .foldl _ _ fun _ _ _ => port1See_keepsSlots ..

/-! The presence port -/

theorem loseFrom_keepsSlots (q j : Nat) (w : BitVec 23) (s : State) : KeepsSlots s (loseFrom q j w s) := by
  unfold loseFrom
  exact .ite (.refl s) (.satAdd ..)

theorem readFull_keepsSlots (op : BitVec 3) (w : BitVec 23) (s : State) : KeepsSlots s (readFull op w s).2 := by
  unfold readFull
  have hp := portWrite_keepsSlots w 0xFF 1 pFull s
  generalize portWrite w 0xFF 1 pFull s = t at hp ⊢
  exact .ite_snd (putPres_keepsSlots ..) (.ite_snd (.refl s) (.ite_snd hp (.refl s)))

theorem modDir_keepsSlots (q : Nat) (w : BitVec 23) (g : DirEntry → DirEntry) (s : State) : KeepsSlots s (modDir q w g s) :=
  setQuad_keepsSlots ..

theorem payAck_keepsSlots (q c : Nat) (due : Option (Nat × Flit)) (s : State) : KeepsSlots s (payAck q c due s).2 := by
  unfold payAck
  split
  · split
    · exact respond_keepsSlots ..
    · exact .refl s
  · exact .refl s

theorem releaseReaders_keepsSlots (q : Nat) (w : BitVec 23) : ∀ (fs : List Flit) (c : Nat) (due : Option (Nat × Flit))
    (s : State), KeepsSlots s (releaseReaders q w fs c due s).2.2
  | [], _, _, s => .refl s
  | f :: fs, c, due, s => by
    unfold releaseReaders
    split
    · exact .after (releaseReaders_keepsSlots q w fs _ _ _) (.after (modDir_keepsSlots ..) (.after (respond_keepsSlots ..)
        (.after (readFull_keepsSlots ..) (.after (loseFrom_keepsSlots ..) (payAck_keepsSlots ..)))))
    · exact .refl s

theorem release_keepsSlots (q : Nat) (w : BitVec 23) (c : Nat) (due : Option (Nat × Flit)) (s : State) :
    KeepsSlots s (release q w c due s).2.2 := by
  unfold release
  exact .after (setQuad_keepsSlots ..) (.after (.ite (putPres_keepsSlots ..) (.refl _)) (releaseReaders_keepsSlots ..))

theorem writeStore_keepsSlots (op : BitVec 3) (w : BitVec 23) (mask : BitVec 8) (v : Word) (s : State) :
    KeepsSlots s (writeStore op w mask v s).2 := by
  unfold writeStore
  extract_lets bad p t new
  have ht : KeepsSlots s t := .ite (grnEcc_keepsSlots ..) (.ite (grnEcc_keepsSlots ..) (.refl s))
  clear_value t
  exact .ite_snd (grnEcc_keepsSlots ..) (.ite_snd (ht.trans (.ite (putPres_keepsSlots ..) (.refl t)))
    (.ite_snd (ht.trans (portWrite_keepsSlots ..)) (ht.trans (portWrite_keepsSlots ..))))

theorem writeOp_keepsSlots (q : Nat) (op : BitVec 3) (w : BitVec 23) (mask : BitVec 8) (v : Word) (s : State) :
    KeepsSlots s (writeOp q op w mask v s) := by
  have hw := writeStore_keepsSlots op w mask v s
  unfold writeOp
  exact .ite (hw.trans (release_keepsSlots ..)) hw

theorem popRead_keepsSlots (op : BitVec 3) (w : BitVec 23) (s : State) : KeepsSlots s (popRead op w s) := by
  have hput (a : Nat) (v : Word) (s : State) : KeepsSlots s (s.wr64 a v) := (KeepsSlots.wr ..).trans (.wr ..)
  have hc := checkWord_keepsSlots w s
  unfold popRead
  dsimp only
  generalize checkWord w s = r at *
  split
  · exact hc
  · split
    · exact hc.trans (hput ..)
    · split
      · exact hc.trans (hput ..)
      · split
        · exact hc.trans ((readFull_keepsSlots ..).trans (hput ..))
        · exact hc

/-- The operation of the presence port (R288, R300). -/
theorem runPop_keepsSlots (o : PopOp) (s : State) : KeepsSlots s (runPop o s) := by
  have hprot (a : Asker) (w : BitVec 23) (s : State) : KeepsSlots s (protFault a w s) :=
    detect_keepsSlots (show (0x4A : BitVec 8) ≠ 0x4E by decide) s
  unfold runPop
  exact .after (.wr ..) (.ite (hprot ..) (.ite (offBy_keepsSlots ..)
    (.after (.ite (writeOp_keepsSlots ..) (popRead_keepsSlots ..)) (loseFrom_keepsSlots ..))))

theorem resumePop_keepsSlots (s : State) : KeepsSlots s (resumePop s) := by
  unfold resumePop
  split
  · exact .refl s
  · exact .ite (.refl s) (.after (runPop_keepsSlots ..) (.of_same rfl rfl rfl rfl rfl))

/-! Banks that wake and stripes that are borrowed -/

theorem setBank_keepsSlots (b : Nat) (v : BankState) (s : State) : KeepsSlots s (setBank b v s) := .of_same rfl rfl rfl rfl rfl

theorem raiseEvent_keepsSlots (n : Nat) (s : State) : KeepsSlots s (raiseEvent n s) := .of_records (raiseEvent_records n s)

theorem nextBank_keepsSlots (s : State) : KeepsSlots s (nextBank s) := by
  unfold nextBank
  split
  · exact .after (.ite (raiseEvent_keepsSlots ..) (.refl _)) (.setFlag ..)
  · split
    · split
      · exact setBank_keepsSlots ..
      · exact setBank_keepsSlots ..
      · exact .refl s
    · exact .refl s

/-- What a filter keeps reads as before. -/
theorem SMap.get_filter {β : Type} {q : Nat × β → Bool} {k : Nat} (h : ∀ v, q (k, v) = true) (d : β) : ∀ m : SMap β,
    SMap.get (m.filter q) k d = SMap.get m k d
  | [] => rfl
  | (i, v) :: m => by
    have ih := SMap.get_filter h d m
    rw [List.filter_cons]
    split
    · simp only [SMap.get, ih]
    · next hq =>
      have hne : k ≠ i := by
        rintro rfl
        exact hq (h v)
      rw [ih, SMap.get, if_neg hne]

/-- A bank that is cleared lies below the slots' addresses. -/
theorem clearBank_keepsSlots (b : Nat) (s : State) : KeepsSlots s (clearBank b s) := by
  unfold clearBank
  exact .of_memory rfl rfl rfl (fun a ha => SMap.get_filter (by simp [Nat.not_lt.mpr ha]) _ s.mem)
    fun a ha => SMap.get_filter (by simp [Nat.not_lt.mpr ha]) _ s.marks

theorem wakeBank_keepsSlots (b : Nat) (s : State) : KeepsSlots s (wakeBank b s) := by
  have hq (l : List Nat) (s : State) : KeepsSlots s { s with bankQ := l } := .of_same rfl rfl rfl rfl rfl
  unfold wakeBank
  split
  · exact .after (resumePop_keepsSlots _) (.after (nextBank_keepsSlots _) (.after (hq ..) (.after (setBank_keepsSlots ..)
      (.ite (clearBank_keepsSlots ..) (.refl s)))))
  · exact .refl s

/-- A stripe's bytes and words lie below the slots' addresses. -/
theorem restoreStripe_keepsSlots (q : Nat) (b : Borrow) (s : State) : KeepsSlots s (restoreStripe q b s) := by
  unfold restoreStripe
  extract_lets mine t
  have hmine (a : Nat) (h : mine a = true) : a < 0x4000000 := by
    simp only [mine, inStripe, Bool.and_eq_true, decide_eq_true_eq] at h
    exact h.1.1
  clear_value mine
  have hfilter : KeepsSlots s { s with
      mem := s.mem.filter (fun c => !mine c.1), pres := s.pres.filter (fun p => !mine (8 * p.1)) } := by
    refine .of_memory rfl rfl rfl (fun a ha => SMap.get_filter (fun v => ?_) _ s.mem) fun _ _ => rfl
    rw [Bool.not_eq_true', Bool.eq_false_iff]
    intro h
    have := hmine a h
    omega
  have ht : KeepsSlots s t := .after
    (.foldl _ _ fun c hc s => setByte_keepsSlots (hmine _ (List.mem_filter.mp hc).2) _ s) hfilter
  exact ht.trans (.foldl _ _ fun _ _ _ => .of_same rfl rfl rfl rfl rfl)

theorem endBorrow_keepsSlots (q : Nat) (s : State) : KeepsSlots s (endBorrow q s) := by
  unfold endBorrow
  refine .after (resumePop_keepsSlots _) (.after (.setFlag ..) (.after (setQuad_keepsSlots ..) ?_))
  split
  · exact restoreStripe_keepsSlots ..
  · exact .refl s

theorem awaitWord_keepsSlots (w : BitVec 23) (s : State) : KeepsSlots s (awaitWord w s) := by
  have hab (q : Nat) (s : State) : KeepsSlots s (abortBorrow q s) := .after (.satInc ..) (endBorrow_keepsSlots ..)
  unfold awaitWord
  exact .after (.ite (hab ..) (.refl _)) (.ite (wakeBank_keepsSlots ..) (.refl s))

/-! ## The overflow that a retirement purges -/

theorem seeRefusals_keepsSlots (p : Nat) (s : State) : KeepsSlots s (seeRefusals p s) := by
  have hal (s : State) : KeepsSlots s (alert p s) := .ite (raiseEvent_keepsSlots ..) (.refl s)
  unfold seeRefusals
  exact .after (.modPlot _ _ _ fun _ => rfl) (.ite (hal s) (.refl s))

theorem setSlotUsed_keepsSlots (p k : Nat) (b : Bool) (s : State) : KeepsSlots s (setSlotUsed p k b s) :=
  .modPlot _ _ _ fun _ => rfl

theorem dropLost_keepsSlots (p : PlotNo) (ks : List Nat) (s : State) : KeepsSlots s (dropLost p ks s) := by
  have hfree (k : Nat) (s : State) : KeepsSlots s (freeSlot p.val k s) :=
    .after (seeRefusals_keepsSlots ..) (setSlotUsed_keepsSlots ..)
  have hlost (a : Nat) (s : State) : KeepsSlots s (slotLost p a s) :=
    .after (.satInc ..) (detect_keepsSlots (show (0x22 : BitVec 8) ≠ 0x4E by decide) s)
  unfold dropLost
  refine .foldl _ _ fun k _ s => .ite ?_ (port1Read_keepsSlots ..)
  exact .after (hfree ..) (.after (hlost ..) (port1Read_keepsSlots ..))

theorem purgeIndex_keepsSlots (p : PlotNo) (i : BitVec 4) (s : State) : KeepsSlots s (purgeIndex p i s) := by
  unfold purgeIndex
  extract_lets used s1 s2 own ks units n s3
  have h1 : KeepsSlots s s1 := .foldl _ _ fun _ _ _ => awaitWord_keepsSlots ..
  have h2 : KeepsSlots s1 s2 := dropLost_keepsSlots ..
  have h3 : KeepsSlots s2 s3 := .foldl _ _ fun _ _ _ => setSlotUsed_keepsSlots ..
  clear_value s1 s2 s3 n
  exact .after (.satAdd ..) (.after (.modPlot _ _ _ fun _ => rfl) ((h1.trans h2).trans h3))

theorem dropFills_keepsSlots (p : PlotNo) (e : Nat) (eng : BitVec 10) (s : State) : KeepsSlots s (dropFills p e eng s) := by
  have hh (k : Nat) (v : Option (Nat × Nat)) (s : State) : KeepsSlots s (setHold k v s) := .of_same rfl rfl rfl rfl rfl
  unfold dropFills
  exact .after (.modPlot _ _ _ fun _ => rfl) (.ite (hh ..) (.refl s))

end Sys2Proof.Machine
end

section
/-! SUPPORT. The copy of a memory, word by word (R458). -/

namespace Sys2Proof.Machine

/-! ## Memories that are copied to the spare (R458) -/

/-- Bytes that are read together fill their width. -/
theorem State.bytesAt_lt (s : State) : ∀ (n a : Nat), s.bytesAt a n < 256 ^ n
  | 0, _ => by simp [State.bytesAt]
  | n + 1, a => by
    have h := State.bytesAt_lt s n (a + 1)
    have hb := (s.byte a).isLt
    rw [State.bytesAt, Nat.pow_succ]
    omega

/-- Byte `k` of bytes that are read together is the byte at its address. -/
theorem State.bytesAt_div (s : State) : ∀ (n a k : Nat), k < n → BitVec.ofNat 8 (s.bytesAt a n / 256 ^ k) = s.byte (a + k)
  | 0, _, _, h => absurd h (Nat.not_lt_zero _)
  | n + 1, a, 0, _ => by
    apply BitVec.eq_of_toNat_eq
    have hb := (s.byte a).isLt
    simp only [State.bytesAt, Nat.pow_zero, Nat.div_one, Nat.add_zero, BitVec.toNat_ofNat]
    omega
  | n + 1, a, k + 1, h => by
    have hb := (s.byte a).isLt
    have hdiv : s.bytesAt a (n + 1) / 256 ^ (k + 1) = s.bytesAt (a + 1) n / 256 ^ k := by
      rw [Nat.pow_succ, Nat.mul_comm, ← Nat.div_div_eq_div_mul, State.bytesAt]
      congr 1
      omega
    rw [hdiv, State.bytesAt_div s n (a + 1) k (by omega), Nat.add_right_comm, Nat.add_assoc]

/-- A word that is loaded and stored elsewhere is copied byte by byte. -/
theorem byte_store_load (s t : State) (a b k : Nat) (hk : k < 8) :
    (t.store b 8 (s.load a 8)).byte (b + k) = s.byte (a + k) := by
  have hlt : s.bytesAt a 8 < 2 ^ 64 := (s.bytesAt_lt 8 a).trans_eq (by norm_num)
  rw [State.store, State.byte_storeNat 8 _ _ _ _ hk, State.load, BitVec.toNat_ofNat, Nat.mod_eq_of_lt hlt,
    State.bytesAt_div _ _ _ _ hk]

/-- Engines, absent plots and the collectors that hold a record are as before. -/
structure KeepsEngines (s t : State) : Prop where
  engines : t.engines = s.engines
  absent : ∀ q, (t.plot q).absent = (s.plot q).absent
  recs : KeepsRecs s t

theorem KeepsEngines.refl (s : State) : KeepsEngines s s := ⟨rfl, fun _ => rfl, .refl s⟩

theorem KeepsEngines.trans {s t u : State} (h : KeepsEngines s t) (k : KeepsEngines t u) : KeepsEngines s u :=
  ⟨k.engines.trans h.engines, fun q => (k.absent q).trans (h.absent q), h.recs.trans k.recs⟩

theorem KeepsSlots.keepsEngines {s t : State} (h : KeepsSlots s t) : KeepsEngines s t := ⟨h.engines, h.absent, h.recs⟩

theorem KeepsEngines.of_same {s t : State} (he : t.engines = s.engines) (hp : t.plots = s.plots) (hs : t.sieve = s.sieve) :
    KeepsEngines s t := ⟨he, fun q => by rw [State.plot, hp]; rfl, .of_recs (by rw [hs])⟩

/-- A word that is read is checked: no byte changes, and no word becomes uncorrectable. -/
structure WordChecked (s t : State) : Prop where
  engines : KeepsEngines s t
  bytes : ∀ a, 0x4000000 ≤ a → t.byte a = s.byte a
  marks : ∀ a, 0x4000000 ≤ a → s.mark a ≠ .double → t.mark a ≠ .double

theorem KeepsSlots.wordChecked {s t : State} (h : KeepsSlots s t) : WordChecked s t :=
  ⟨h.keepsEngines, h.bytes, fun a ha hs => by rwa [h.marks a ha]⟩

/-- No word becomes uncorrectable by a mark that is clean. -/
theorem mark_setMark_clean {s : State} {a w : Nat} (h : s.mark a ≠ .double) : (s.setMark w .clean).mark a ≠ .double := by
  by_cases ha : a = w
  · rw [ha, State.mark_setMark_same]
    decide
  · rwa [State.mark_setMark_ne _ ha]

theorem memDetect_code (m : LocalMem) (e : EngNo) (off : Nat) (v : Word) :
    (memDetect m.ce e off v).code ≠ 0x4E ∧ (memDetect (m.ce + 1) e off v).code ≠ 0x4E := by
  cases m
  · exact ⟨(by decide : (0x05 : BitVec 8) ≠ 0x4E), (by decide : (0x06 : BitVec 8) ≠ 0x4E)⟩
  · exact ⟨(by decide : (0x03 : BitVec 8) ≠ 0x4E), (by decide : (0x04 : BitVec 8) ≠ 0x4E)⟩

theorem localCheck_word (m : LocalMem) (e : EngNo) (w : Nat) (s : State) :
    (localCheck m e [w] s).1 = (s.mark w == .double) ∧ WordChecked s (localCheck m e [w] s).2 := by
  simp only [localCheck]
  split
  · next h => exact ⟨by rw [h]; rfl, (KeepsSlots.refl s).wordChecked⟩
  · next h =>
    have hd := detect_keepsSlots (memDetect_code m e (w - m.base e) (s.load w 8)).1 s
    generalize detect _ s = u at *
    refine ⟨by rw [h]; rfl, hd.keepsEngines.trans (.of_same rfl rfl rfl), hd.bytes, fun a ha hs => ?_⟩
    exact mark_setMark_clean (by rwa [hd.marks a ha])
  · next h =>
    exact ⟨by rw [h]; rfl, (detect_keepsSlots (memDetect_code m e (w - m.base e) (s.load w 8)).2 s).wordChecked⟩

theorem store_keepsEngines (b n : Nat) (v : Word) (s : State) : KeepsEngines s (s.store b n v) := by
  have h := State.storeNat_frame n s b v.toNat
  unfold State.store
  generalize s.storeNat b n v.toNat = t at h ⊢
  exact .of_same (by rw [h]) (by rw [h]) (by rw [h])

theorem mark_store (s : State) (b n : Nat) (v : Word) (a : Nat) : (s.store b n v).mark a = s.mark a := by
  have h := State.storeNat_frame n s b v.toNat
  unfold State.store
  generalize s.storeNat b n v.toNat = t at h ⊢
  rw [h]
  rfl

/-- A word that is copied, whatever it holds, changes neither engines nor records. -/
theorem copyWord_keepsEngines (m : LocalMem) (e : EngNo) (spare : Nat) (s : State) (i : Nat) :
    KeepsEngines s (copyWord m e spare s i) := by
  obtain ⟨-, hc⟩ := localCheck_word m e (m.base e + 8 * i) s
  have hm (b : Nat) (v : Word) (k : Mark) (s : State) : KeepsEngines s ((s.store b 8 v).setMark b k) :=
    (store_keepsEngines ..).trans (.of_same rfl rfl rfl)
  unfold copyWord
  dsimp only
  split
  · exact hc.engines.trans (hm ..)
  · exact hc.engines.trans (hm ..)

/-- A range of words that are not uncorrectable has been copied: the bytes of the range are those of its source, other bytes
are as before, and no word has become uncorrectable. -/
structure Copied (src dst n : Nat) (s t : State) : Prop where
  copied : ∀ k, k < 8 * n → t.byte (dst + k) = s.byte (src + k)
  others : ∀ a, 0x4000000 ≤ a → (a < dst ∨ dst + 8 * n ≤ a) → t.byte a = s.byte a
  marks : ∀ a, 0x4000000 ≤ a → s.mark a ≠ .double → t.mark a ≠ .double

theorem copyWord_copies {m : LocalMem} {e : EngNo} {spare : Nat} {s : State} {i : Nat}
    (hmark : s.mark (m.base e + 8 * i) ≠ .double) :
    Copied (m.base e + 8 * i) (m.base spare + 8 * i) 1 s (copyWord m e spare s i) := by
  obtain ⟨hbad, hc⟩ := localCheck_word m e (m.base e + 8 * i) s
  have hgood : (localCheck m e [m.base e + 8 * i] s).1 = false := by
    rw [hbad]
    simpa using hmark
  unfold copyWord
  simp only [hgood, Bool.false_eq_true, if_false]
  generalize (localCheck m e [m.base e + 8 * i] s).2 = u at *
  refine ⟨fun k hk => ?_, fun a ha hout => ?_, fun a ha h => mark_setMark_clean ?_⟩
  · rw [State.byte_setMark, byte_store_load s u _ _ k (by omega)]
  · rw [State.byte_setMark, State.store, State.byte_storeNat_ne 8 _ _ _ _ (by omega), hc.bytes a ha]
  · rw [mark_store]
    exact hc.marks a ha h

theorem copyWords_keepEngines (m : LocalMem) (e : EngNo) (spare n : Nat) (s : State) :
    KeepsEngines s ((List.range n).foldl (copyWord m e spare) s) :=
  foldl_keeps KeepsEngines.refl (fun h k => h.trans k) _ s fun i _ s => copyWord_keepsEngines m e spare s i

/-- A memory without uncorrectable words is copied whole. -/
theorem copyWords_copy {m : LocalMem} {e : EngNo} {spare : Nat} {s : State} (hsrc : 0x4000000 ≤ m.base e) : ∀ n,
    m.base e + 8 * n ≤ m.base spare → (∀ i, i < n → s.mark (m.base e + 8 * i) ≠ .double) →
    Copied (m.base e) (m.base spare) n s ((List.range n).foldl (copyWord m e spare) s)
  | 0, _, _ => ⟨fun k hk => absurd hk (by omega), fun _ _ _ => rfl, fun _ _ h => h⟩
  | n + 1, hdis, hmark => by
    obtain ⟨hcopied, hothers, hmarks⟩ := copyWords_copy (spare := spare) hsrc n (by omega) fun i hi => hmark i (by omega)
    rw [List.range_succ, List.foldl_append]
    generalize (List.range n).foldl (copyWord m e spare) s = u at *
    obtain ⟨hcopied', hothers', hmarks'⟩ := copyWord_copies (m := m) (spare := spare) (i := n)
      (hmarks (m.base e + 8 * n) (by omega) (hmark n (by omega)))
    rw [List.foldl_cons, List.foldl_nil]
    refine ⟨fun k hk => ?_, fun a ha hout => ?_, fun a ha h => hmarks' a ha (hmarks a ha h)⟩
    · by_cases hkn : k < 8 * n
      · rw [hothers' _ (by omega) (by omega), hcopied k hkn]
      · have h := hcopied' (k - 8 * n) (by omega)
        rw [show m.base spare + 8 * n + (k - 8 * n) = m.base spare + k by omega,
          show m.base e + 8 * n + (k - 8 * n) = m.base e + k by omega] at h
        rw [h, hothers _ (by omega) (by omega)]
    · rw [hothers' a ha (by omega), hothers a ha (by omega)]

end Sys2Proof.Machine
end

section
/-! PROOFS. The retirement of an engine (R458, R463), for O59. -/

namespace Sys2Proof.Machine

/-! ## The retirement of a slot (R458, R463) -/

/-- The registers that the spare takes over from a slot. -/
def takeRegs (e spare : Nat) (s t : State) : State :=
  (sparedRegs.map (fun o => (o, s.rd (ereg e o)))).foldl (fun s r => s.wr (ereg spare r.1) r.2) t

theorem ereg_offset_inj {e o o' : Nat} (h : ereg e o = ereg e o') : o = o' := by
  simp only [ereg] at h
  omega

/-- Registers that are written one after the other, each once, hold what was written. -/
theorem rd_wrAll {e o : Nat} {v : Reg32} : ∀ (l : List (Nat × Reg32)) (t : State), (l.map (·.1)).Nodup → (o, v) ∈ l →
    (l.foldl (fun s r => s.wr (ereg e r.1) r.2) t).rd (ereg e o) = v
  | [], _, _, h => absurd h List.not_mem_nil
  | r :: l, t, hl, h => by
    obtain ⟨hr, hl⟩ := List.nodup_cons.mp hl
    obtain h | h := List.mem_cons.mp h
    · subst h
      have hf := Frame.foldl (blank := blankRegs) (F := (· ≠ ereg e o)) (f := fun s r => s.wr (ereg e r.1) r.2) l
        (t.wr (ereg e o) v) fun q hq s => Frame.wr (F := (· ≠ ereg e o)) (fun _ _ => rfl) s (fun he =>
          hr (List.mem_map.mpr ⟨q, hq, ereg_offset_inj he⟩)) q.2
      exact (hf.regs _ fun h => h rfl).trans (State.rd_wr_same ..)
    · exact rd_wrAll l _ hl h

theorem takeRegs_takes {e spare o : Nat} (ho : o ∈ sparedRegs) (s t : State) :
    (takeRegs e spare s t).rd (ereg spare o) = s.rd (ereg e o) := by
  refine rd_wrAll _ t ?_ (List.mem_map_of_mem ho)
  rw [List.map_map]
  exact (by decide : (sparedRegs.map id).Nodup)

theorem takeRegs_frame (e spare : Nat) (s t : State) : Frame blankRegs (fun _ => True) t (takeRegs e spare s t) :=
  .foldl _ t fun r _ t => Frame.wr (F := fun _ => True) (fun _ _ => rfl) t trivial r.2

/-- The register of a plot's slots after a retirement: the slot is out, the spare has taken its place, and the slot is marked
as failed. -/
def retiredReg (m : Reg32) (sl : Nat) : Reg32 :=
  putBit (putBit (putBit (put m 21 (BitVec.ofNat 5 sl)) 31 true) 30 false) sl true

theorem retiredReg_fields (m : Reg32) {sl : Nat} (h : sl < 16) : (bits (retiredReg m sl) 21 5).toNat = sl ∧
    bit (retiredReg m sl) 31 = true ∧ bit (retiredReg m sl) 30 = false ∧ bit (retiredReg m sl) sl = true := by
  unfold retiredReg
  refine ⟨?_, ?_, ?_, bit_putBit_same _ _ _ (by omega)⟩
  · rw [bits_putBit_out _ _ _ _ _ (by omega), bits_putBit_out _ _ _ _ _ (by omega), bits_putBit_out _ _ _ _ _ (by omega),
      bits_put_same _ _ _ (by omega), BitVec.toNat_ofNat]
    omega
  · rw [bit_putBit_ne _ _ (by omega), bit_putBit_ne _ _ (by omega), bit_putBit_same _ _ _ (by omega)]
  · rw [bit_putBit_ne _ _ (by omega), bit_putBit_same _ _ _ (by omega)]

/-- What a retirement has taken from a slot before its memories are copied: the slot is reset, and the tokens that it had
outside of it are purged. -/
theorem purgeSlot_keeps (p : PlotNo) (e : Nat) (eng : BitVec 10) (i : BitVec 4) (s : State) :
    KeepsSlots (resetSlot e s) (purgeIndex p i (dropFills p e eng (resetSlot e s))) :=
  (dropFills_keepsSlots ..).trans (purgeIndex_keepsSlots ..)

/-- Both memories of a slot that are copied to the spare. -/
def copySlot (e : EngNo) (spare : Nat) (s : State) : State :=
  (List.range 4096).foldl (copyWord .frame e spare) ((List.range 4096).foldl (copyWord .imem e spare) s)

theorem copySlot_keepsEngines (e : EngNo) (spare : Nat) (s : State) : KeepsEngines s (copySlot e spare s) :=
  (copyWords_keepEngines ..).trans (copyWords_keepEngines ..)

/-- The slot's base and its spare's. -/
theorem memBases {p sl : Nat} (hsl : sl < 16) : 0x4000000 ≤ imemBase (17 * p + sl) ∧
    frameBase (17 * p + sl) = imemBase (17 * p + sl) + 0x10000 ∧ frameBase (17 * p + 16) = imemBase (17 * p + 16) + 0x10000 ∧
    imemBase (17 * p + sl) + 0x40000 ≤ imemBase (17 * p + 16) := by
  refine ⟨?_, rfl, rfl, ?_⟩
  · simp only [imemBase, slotBase_eq p sl (by omega), plotWin]
    omega
  · simp only [imemBase, slotBase_eq p sl (by omega), slotBase_eq p 16 (by omega), plotWin]
    omega

/-- No word of a slot's memories is uncorrectable. -/
def SlotReadable (p sl : Nat) (s : State) : Prop :=
  ∀ i, i < 4096 → s.mark (imemBase (17 * p + sl) + 8 * i) ≠ .double ∧ s.mark (frameBase (17 * p + sl) + 8 * i) ≠ .double

/-- The spare's memories hold in the second state what the slot's held in the first. -/
def SpareHolds (p sl : Nat) (s t : State) : Prop :=
  ∀ i, i < 0x8000 → t.byte (imemBase (17 * p + 16) + i) = s.byte (imemBase (17 * p + sl) + i) ∧
    t.byte (frameBase (17 * p + 16) + i) = s.byte (frameBase (17 * p + sl) + i)

/-- The spare's memories hold what the slot's held, where no word of them is uncorrectable (R458). -/
theorem copySlot_copies {p sl : Nat} (hsl : sl < 16) {e : EngNo} (he : e.val = 17 * p + sl) {s : State}
    (h : SlotReadable p sl s) : SpareHolds p sl s (copySlot e (17 * p + 16) s) := by
  intro i hi
  obtain ⟨hlow, hf, hf', hdis⟩ := memBases (p := p) hsl
  have h1 := copyWords_copy (m := .imem) (e := e) (spare := 17 * p + 16) (s := s) (by rw [he]; exact hlow) 4096
    (by rw [he]; simp only [LocalMem.base]; omega) fun i hi => by rw [he]; exact (h i hi).1
  unfold copySlot
  generalize (List.range 4096).foldl (copyWord .imem e (17 * p + 16)) s = t at *
  have h2 := copyWords_copy (m := .frame) (e := e) (spare := 17 * p + 16) (s := t)
    (by rw [he]; simp only [LocalMem.base]; omega) 4096 (by rw [he]; simp only [LocalMem.base]; omega)
    fun i hi => by
      rw [he]
      exact h1.marks _ (by simp only [LocalMem.base]; omega) (h i hi).2
  rw [he] at h1 h2
  simp only [LocalMem.base] at h1 h2
  constructor
  · rw [h2.others _ (by omega) (by omega), h1.copied i (by omega)]
  · rw [h2.copied i (by omega), h1.others _ (by omega) (by omega)]

/-- A slot has been retired: it and the spare are at their reset values, the plot's register shows it, and the spare holds
the slot's memories and registers. -/
structure SlotRetired (p sl : Nat) (s t : State) : Prop where
  slot : t.eng (17 * p + sl) = Engine.reset
  spare : t.eng (17 * p + 16) = Engine.reset
  others : ∀ k, k ≠ 17 * p + sl → k ≠ 17 * p + 16 → t.eng k = s.eng k
  shown : ∃ m, t.rd (preg p 0) = retiredReg m sl
  absent : ∀ q, (t.plot q).absent = (s.plot q).absent
  copies : SlotReadable p sl s → SpareHolds p sl s t
  registers : ∀ o, o ∈ [0x10, 0x14, 0x80] → t.rd (ereg (17 * p + 16) o) = s.rd (ereg (17 * p + sl) o)

/-- The part of a retirement up to the copied memories. -/
def emptySlot (p : PlotNo) (sl : Nat) (s : State) : State :=
  copySlot ⟨(17 * p.val + sl) % 1088, Nat.mod_lt _ (by decide)⟩ (17 * p.val + 16)
    (purgeIndex p (bits (logicalD s (17 * p.val + sl)) 0 4)
      (dropFills p (17 * p.val + sl) (logicalD s (17 * p.val + sl)) (resetSlot (17 * p.val + sl) s)))

/-- The part of a retirement that hands the slot's place to the spare. -/
def placeSpare (p : PlotNo) (sl : Nat) (s t : State) : State :=
  let u := (takeRegs (17 * p.val + sl) (17 * p.val + 16) s (resetSlot (17 * p.val + 16) t)).setFlag (ereg (17 * p.val + 16) 4) 2
    (s.flag (ereg (17 * p.val + sl) 4) 2)
  u.wr (preg p.val 0) (retiredReg (u.rd (preg p.val 0)) sl)

/-- What a retirement tells the mailbox, the Dibber and the lock unit. -/
def tellRetired (p : PlotNo) (sl : Nat) (service : Bool) (s t : State) : State :=
  let l := logicalD s (17 * p.val + sl)
  let u := resetStrands (fun k => k == l) (pendOf s (17 * p.val + sl)) service
    (t.modPlot p.val (fun x => { x with notices := x.notices.filter (fun k => k.eng? != some l) }))
  sendReset (.eng (ownId u) l) service u

theorem retireSlot_eq (p : PlotNo) (sl : Nat) (service : Bool) (s : State) :
    (retireSlot p sl service s).2 = tellRetired p sl service s (placeSpare p sl s (emptySlot p sl s)) := by
  unfold retireSlot tellRetired placeSpare emptySlot copySlot takeRegs retiredReg
  dsimp only

theorem KeepsEngines.of_eng {s t : State} (h : KeepsEngines s t) (k : Nat) : t.eng k = s.eng k := by
  rw [State.eng, h.engines]
  rfl

/-- A slot that is reset keeps memories and records. -/
theorem resetSlot_keeps (e : Nat) (s : State) : (resetSlot e s).mem = s.mem ∧ (resetSlot e s).marks = s.marks ∧
    (resetSlot e s).sieve = s.sieve := by
  have h := resetSlot_frame e s
  exact ⟨h.get (·.mem), h.get (·.marks), h.get (·.sieve)⟩

/-- Where a retirement stands once the memories are copied. -/
structure SlotEmptied (p sl : Nat) (s t : State) : Prop where
  engines : ∀ k, t.eng k = if k = 17 * p + sl then Engine.reset else s.eng k
  absent : ∀ q, (t.plot q).absent = (s.plot q).absent
  copies : SlotReadable p sl s → SpareHolds p sl s t
  recs : KeepsRecs s t

theorem emptySlot_empties (p : PlotNo) {sl : Nat} (hsl : sl < 16) (s : State) : SlotEmptied p.val sl s (emptySlot p sl s) := by
  obtain ⟨hmem, hmarks, hsieve⟩ := resetSlot_keeps (17 * p.val + sl) s
  have hpres := resetSlot_presence (17 * p.val + sl) s
  have hsame := eng_resetSlot_same (17 * p.val + sl) s
  have hne (k : Nat) (h : k ≠ 17 * p.val + sl) := eng_resetSlot_ne h s
  have hp := purgeSlot_keeps p (17 * p.val + sl) (logicalD s (17 * p.val + sl)) (bits (logicalD s (17 * p.val + sl)) 0 4) s
  obtain ⟨hlow, hf, -, -⟩ := memBases (p := p.val) hsl
  unfold emptySlot
  generalize purgeIndex p _ _ = u at *
  generalize resetSlot (17 * p.val + sl) s = v at *
  have he : (17 * p.val + sl) % 1088 = 17 * p.val + sl := Nat.mod_eq_of_lt (by omega)
  have hc := copySlot_keepsEngines ⟨(17 * p.val + sl) % 1088, Nat.mod_lt _ (by decide)⟩ (17 * p.val + 16) u
  exact {
    engines := fun k => by
      rw [hc.of_eng, hp.keepsEngines.of_eng]
      split
      · next h => rw [h, hsame]
      · next h => exact hne k h
    absent := fun q => by rw [hc.absent, hp.absent, hpres.absent]
    copies := fun h i hi => by
      have hmark (a : Nat) (ha : 0x4000000 ≤ a) : u.mark a = s.mark a := by
        rw [hp.marks a ha, State.mark, hmarks]
        rfl
      have hbyte (a : Nat) (ha : 0x4000000 ≤ a) : u.byte a = s.byte a := by
        rw [hp.bytes a ha, State.byte, hmem]
        rfl
      obtain ⟨h1, h2⟩ := copySlot_copies (s := u) hsl (e := ⟨(17 * p.val + sl) % 1088, Nat.mod_lt _ (by decide)⟩) he
        (fun i hi => by
          rw [hmark _ (by omega), hmark _ (by omega)]
          exact h i hi) i hi
      rw [h1, h2, hbyte _ (by omega), hbyte _ (by omega)]
      exact ⟨rfl, rfl⟩
    recs := by
      have h1 : KeepsRecs s v := .of_recs (by rw [hsieve])
      exact (h1.trans hp.recs).trans hc.recs }

/-- The spare stands in a slot's place. -/
structure SparePlaced (p sl : Nat) (s t u : State) : Prop where
  engines : ∀ k, u.eng k = if k = 17 * p + 16 then Engine.reset else t.eng k
  presence : SamePresence t u
  mem : u.mem = t.mem
  sieve : u.sieve = t.sieve
  shown : ∃ m, u.rd (preg p 0) = retiredReg m sl
  registers : ∀ o, o ∈ [0x10, 0x14, 0x80] → u.rd (ereg (17 * p + 16) o) = s.rd (ereg (17 * p + sl) o)

theorem placeSpare_places (p : PlotNo) (sl : Nat) (s t : State) : SparePlaced p.val sl s t (placeSpare p sl s t) := by
  have h1 := resetSlot_frame (17 * p.val + 16) t
  have h1p := resetSlot_presence (17 * p.val + 16) t
  have hsame := eng_resetSlot_same (17 * p.val + 16) t
  have hne (k : Nat) (h : k ≠ 17 * p.val + 16) := eng_resetSlot_ne h t
  unfold placeSpare
  generalize resetSlot (17 * p.val + 16) t = u1 at *
  have h2 := takeRegs_frame (17 * p.val + sl) (17 * p.val + 16) s u1
  have hregs := fun o (ho : o ∈ sparedRegs) => takeRegs_takes (e := 17 * p.val + sl) (spare := 17 * p.val + 16) ho s u1
  generalize takeRegs (17 * p.val + sl) (17 * p.val + 16) s u1 = u2 at *
  have h3 : Frame blankRegs (fun a => a = ereg (17 * p.val + 16) 4 ∨ a = preg p.val 0) u2
      (u2.setFlag (ereg (17 * p.val + 16) 4) 2 (s.flag (ereg (17 * p.val + sl) 4) 2)) :=
    .wr (F := fun a => a = ereg (17 * p.val + 16) 4 ∨ a = preg p.val 0) (fun _ _ => rfl) u2 (.inl rfl) _
  extract_lets u3
  change Frame _ _ u2 u3 at h3
  clear_value u3
  have h4 : Frame blankRegs (fun a => a = ereg (17 * p.val + 16) 4 ∨ a = preg p.val 0) u3
      (u3.wr (preg p.val 0) (retiredReg (u3.rd (preg p.val 0)) sl)) :=
    .wr (F := fun a => a = ereg (17 * p.val + 16) 4 ∨ a = preg p.val 0) (fun _ _ => rfl) u3 (.inr rfl) _
  have hshown := State.rd_wr_same u3 (preg p.val 0) (retiredReg (u3.rd (preg p.val 0)) sl)
  generalize u3.wr (preg p.val 0) (retiredReg (u3.rd (preg p.val 0)) sl) = u4 at *
  have h34 := h3.trans h4
  exact {
    engines := fun k => by
      rw [State.eng, h34.get (·.engines), h2.get (·.engines)]
      split
      · next h => rw [h]; exact hsame
      · next h => exact hne k h
    presence := h1p.trans ((SamePresence.of_plots (h2.get (·.plots))).trans (.of_plots (h34.get (·.plots))))
    mem := (h34.get (·.mem)).trans ((h2.get (·.mem)).trans (h1.get (·.mem)))
    sieve := (h34.get (·.sieve)).trans ((h2.get (·.sieve)).trans (h1.get (·.sieve)))
    shown := ⟨_, hshown⟩
    registers := fun o ho => by
      have ho' : o < 0x8000 ∧ o ≠ 4 ∧ o ∈ sparedRegs := by
        simp only [List.mem_cons, List.not_mem_nil, or_false] at ho
        rcases ho with rfl | rfl | rfl <;> decide
      obtain ⟨hlt, h4, hin⟩ := ho'
      rw [h34.regs _ (not_or.mpr ⟨fun h => h4 (ereg_offset_inj h), ereg_ne_preg hlt (by decide)⟩), hregs o hin] }

/-- The state without what a retirement tells the units. -/
def blankTold (s : State) : State := { blankStrands s with plots := [] }

theorem tellRetired_frame (p : PlotNo) (sl : Nat) (service : Bool) (s t : State) :
    Frame blankTold strandReg t (tellRetired p sl service s t) ∧ SamePresence t (tellRetired p sl service s t) := by
  unfold tellRetired
  extract_lets l u
  have hm (g : Plot → Plot) : Frame blankTold strandReg t (t.modPlot p.val g) := .of_regs rfl rfl
  have h1 := hm fun x => { x with notices := x.notices.filter (fun k => k.eng? != some l) }
  have h1p : SamePresence t (t.modPlot p.val fun x => { x with notices := x.notices.filter (fun k => k.eng? != some l) }) :=
    .modPlot _ _ _ fun _ => ⟨rfl, rfl, rfl⟩
  have h2 : Frame blankStrands strandReg _ u := resetStrands_frame ..
  generalize t.modPlot p.val _ = w at *
  have h3 : Frame blankStrands strandReg u (sendReset (.eng (ownId u) l) service u) := sendReset_frame ..
  have h23 := h2.trans h3
  exact ⟨h1.trans (h23.mono fun _ h => h), h1p.trans (.of_plots (h23.get (·.plots)))⟩

theorem retireSlot_retires (p : PlotNo) {sl : Nat} (hsl : sl < 16) (service : Bool) (s : State) :
    SlotRetired p.val sl s (retireSlot p sl service s).2 ∧ KeepsRecs s (retireSlot p sl service s).2 := by
  rw [retireSlot_eq]
  have h1 := emptySlot_empties p hsl s
  generalize emptySlot p sl s = t at *
  have h2 := placeSpare_places p sl s t
  generalize placeSpare p sl s t = u at *
  obtain ⟨h3, h3p⟩ := tellRetired_frame p sl service s u
  generalize tellRetired p sl service s u = v at *
  have heng (k : Nat) : v.eng k = if k = 17 * p.val + 16 then Engine.reset else
      if k = 17 * p.val + sl then Engine.reset else s.eng k := by
    rw [State.eng, h3.get (·.engines), ← h1.engines k]
    exact h2.engines k
  have hstrand {a : Nat} (h : a < 0x0200000000) : ¬ strandReg a := by
    simp only [strandReg, breg, Blk.base]
    omega
  have hp := p.isLt
  refine ⟨?_, h1.recs.trans (.of_recs (by rw [h3.get (·.sieve), h2.sieve]))⟩
  exact {
    slot := by rw [heng, if_neg (by omega), if_pos rfl]
    spare := by rw [heng, if_pos rfl]
    others := fun k hk hk' => by rw [heng, if_neg hk', if_neg hk]
    shown := by
      obtain ⟨m, hm⟩ := h2.shown
      exact ⟨m, (h3.regs _ (hstrand (by simp only [preg, plotWin]; omega))).trans hm⟩
    absent := fun q => (h3p.absent q).trans ((h2.presence.absent q).trans (h1.absent q))
    copies := fun h i hi => by
      have hbyte (a : Nat) : v.byte a = t.byte a := by
        rw [State.byte, h3.get (·.mem), h2.mem]
        rfl
      rw [hbyte, hbyte]
      exact h1.copies h i hi
    registers := fun o ho => by
      have hlt : o ≤ 0x80 := by
        simp only [List.mem_cons, List.not_mem_nil, or_false] at ho
        omega
      rw [h3.regs _ (hstrand (by simp only [ereg, slotBase_eq p.val 16 (by decide), plotWin]; omega)), h2.registers o ho] }

/-- A retired slot stays so as records change. -/
theorem SlotRetired.records {p sl : Nat} {s t u : State} (h : SlotRetired p sl s t) (k : Frame blankRecs collectorReg t u) :
    SlotRetired p sl s u := by
  have heng (i : Nat) : u.eng i = t.eng i := by
    rw [State.eng, k.get (·.engines)]
    rfl
  have hbyte (a : Nat) : u.byte a = t.byte a := by
    rw [State.byte, k.get (·.mem)]
    rfl
  exact {
    slot := (heng _).trans h.slot
    spare := (heng _).trans h.spare
    others := fun i hi hi' => (heng i).trans (h.others i hi hi')
    shown := by
      obtain ⟨m, hm⟩ := h.shown
      exact ⟨m, (k.regs _ (not_collectorReg_preg0 p)).trans hm⟩
    absent := fun q => by
      rw [State.plot, k.get (·.plots)]
      exact h.absent q
    copies := fun hm i hi => by
      rw [hbyte, hbyte]
      exact h.copies hm i hi
    registers := fun o ho => by
      refine (k.regs _ ?_).trans (h.registers o ho)
      simp only [List.mem_cons, List.not_mem_nil, or_false] at ho
      rintro (h | ⟨q, hq, h⟩) <;> simp only [ereg, slotBase_eq p 16 (by decide), breg, preg, plotWin, Blk.base] at h <;> omega }

theorem addConseqs_record (c n : Nat) (s : State) (h : (recOf s c).isSome = true) :
    Frame blankRecs collectorReg s (addConseqs c n s) ∧ (recOf (addConseqs c n s) c).isSome = true := by
  obtain ⟨r, hr⟩ := Option.isSome_iff_exists.mp h
  unfold addConseqs
  rw [hr]
  exact ⟨setRec_frame .., by rw [recOf_setRec_same]; rfl⟩

/-- ENGINE_RETIRE retires the slot of the record that runs it, and counts what it lost (R458, R463). -/
theorem execEngineRetire_eq {s : State} {c : Nat} {r : Rec} {p : PlotNo} (h : runningAs s reRetire = some (c, r, p)) :
    execEngineRetire s = .next (acted c (addConseqs c (retireSlot p (recSlot r) s.sieve.service s).1
      (retireSlot p (recSlot r) s.sieve.service s).2)) := by simp only [execEngineRetire, h]

/-- The retirement of an engine (R458, R463). -/
theorem engineRetire_done {s : State} {c : Nat} {r : Rec} {p : PlotNo} (h : runningAs s reRetire = some (c, r, p))
    (hr : recOf s c = some r) (hsl : recSlot r < 16) : ∃ t, execEngineRetire s = .next t ∧
      (∃ r, recOf t c = some r ∧ r.phase = .acted) ∧ SlotRetired p.val (recSlot r) s t := by
  rw [execEngineRetire_eq h]
  obtain ⟨hret, hrecs⟩ := retireSlot_retires p hsl s.sieve.service s
  generalize retireSlot p (recSlot r) s.sieve.service s = u at *
  obtain ⟨hf, hrec⟩ := addConseqs_record c u.1 u.2 (hrecs.kept c (by rw [hr]; rfl))
  exact ⟨_, rfl, acted_recOf hrec, (hret.records hf).records (acted_frame ..)⟩

/-- What the plot's register shows after a retirement, and that the spare serves the slot's logical number (R458). -/
theorem SlotRetired.served {p sl : Nat} {s t : State} (h : SlotRetired p sl s t) (hsl : sl < 16) (hp : p < 64) :
    t.fld (preg p 0) 21 5 = sl ∧ t.flag (preg p 0) 31 = true ∧ t.flag (preg p 0) 30 = false ∧ t.flag (preg p 0) sl = true ∧
      ((s.plot p).absent = false → slotOf t (BitVec.ofNat 10 (16 * p + sl)) = some (17 * p + 16)) := by
  obtain ⟨m, hm⟩ := h.shown
  obtain ⟨hout, h31, h30, hmark⟩ := retiredReg_fields m hsl
  have hfld : t.fld (preg p 0) 21 5 = sl := by rw [State.fld, hm, hout]
  have hflag (i : Nat) : t.flag (preg p 0) i = bit (retiredReg m sl) i := by rw [State.flag, hm]
  refine ⟨hfld, by rw [hflag, h31], by rw [hflag, h30], by rw [hflag, hmark], fun ha => ?_⟩
  have hn : (BitVec.ofNat 10 (16 * p + sl)).toNat = 16 * p + sl := by
    rw [BitVec.toNat_ofNat]
    omega
  have hdiv : (16 * p + sl) / 16 = p := by omega
  have hmod : (16 * p + sl) % 16 = sl := by omega
  rw [slotOf, hn, hdiv, hmod, h.absent, ha, hflag, h31, outSlot, hfld]
  simp

end Sys2Proof.Machine
end

section
/-! PROOFS. The reactions: O59. -/

namespace Sys2Proof.Machine

/-! ## The reactions (O59) -/

/-- Settles O59: each reaction's command through the lemma that says what it leaves. -/
theorem sieveReactions : Obligations.SieveReactions := by
  unfold Obligations.SieveReactions
  intro s
  refine ⟨fun c cs r hrun hqueue hr => ⟨execReactionStart_waits, ?_, fun ht hsafe => ⟨fun hreact => ?_, fun p hp hab =>
    ⟨fun hreact hphys hsl hspare => ?_, fun hreact hres => ?_⟩⟩⟩, ?_, ?_, ?_, fun c r hr hsafe => ⟨?_, ?_⟩,
    fun c r hrun hr hphase hsev => ⟨?_, ?_, ?_, ?_⟩, ?_⟩
  · intro k x ht hsafe hk hx
    exact reactionStart_dropped hrun hqueue hr ht hsafe hk hx
  · obtain ⟨t, hexec, ⟨h1, h2, h3, h4, h5, h6, h7⟩, hplots, hmask⟩ := reactionStart_safe hrun hqueue hr ht hsafe hreact
    exact ⟨t, ⟨hexec, h1, h2, h3, h4, h5, h6, h7⟩, hplots, hmask⟩
  · obtain ⟨t, hexec, ⟨h1, h2, h3, h4, h5, h6, h7⟩, hmask⟩ :=
      reactionStart_retire hrun hqueue hr ht hsafe hp hab hreact hphys hsl hspare
    exact ⟨t, ⟨hexec, h1, h2, h3, h4, h5, h6, h7⟩, hmask⟩
  · obtain ⟨t, hexec, ⟨h1, h2, h3, h4, h5, h6, h7⟩, hmask⟩ :=
      reactionStart_reset hrun hqueue hr ht hsafe hp hab hreact hres
    exact ⟨t, ⟨hexec, h1, h2, h3, h4, h5, h6, h7⟩, hmask⟩
  · rintro c r p ⟨hrun, hr, hp, hreact, hphase⟩ hsl -
    obtain ⟨t, hexec, hacted, hret⟩ := engineRetire_done (runningAs_eq hrun hr hp hreact hphase) hr hsl
    obtain ⟨hout, h31, h30, hmark, hslot⟩ := hret.served hsl p.isLt
    exact ⟨t, hexec, hacted, hret.slot, hret.spare, hout, h31, h30, hmark, hslot, hret.copies, hret.registers, hret.others⟩
  · rintro c r p x hs ⟨hrun, hr, hp, hreact, hphase⟩ hx ho
    exact plotResetReaction_done hs (runningAs_eq hrun hr hp hreact hphase) hr hx ho
  · rintro c r p ⟨hrun, hr, hp, hreact, hphase⟩
    obtain ⟨t, hexec, hacted, hab, hpow, hres, ⟨h1, h2, h3, h4⟩, hrest⟩ :=
      plotQuarantine_done (runningAs_eq hrun hr hp hreact hphase) hr
    exact ⟨t, hexec, hacted, hab, hpow, hres, h1, h2, h3, h4, hrest⟩
  · intro hrecs htravel hopen hreact hcls hrun
    obtain ⟨t, hexec, ⟨h1, h2, h3, h4, h5, h6, h7, h8⟩, ⟨hfrozen, hshown, htrunc⟩, hdone⟩ :=
      deviceSafe_fatal (fatalSafe_only hsafe hrecs htravel hopen hreact hcls) (by rw [hr]; rfl) hrun
    exact ⟨t, ⟨hexec, h1, h2, h3, h4, h5, h6, h7, h8⟩, hfrozen, hshown,
      fun p hp hclk => ⟨(htrunc p hp hclk).1, (htrunc p hp hclk).2.1⟩, hdone⟩
  · intro hno hrun hreact hphase _
    obtain ⟨t, hexec, ⟨h1, h2, h3, h4, h5, h6, h7, h8⟩, hrest⟩ := deviceSafe_runs hno hrun hr hreact hphase hsafe
    exact ⟨t, ⟨hexec, h1, h2, h3, h4, h5, h6, h7, h8⟩, hrest⟩
  · intro hq
    obtain ⟨t, hexec, hshows, hrest⟩ := reactionComplete_queued hrun hr hphase hsev hq
    exact ⟨t, ⟨hexec, hshows⟩, hrest⟩
  · intro hq ha hflag hb _
    obtain ⟨t, hexec, hshows, hrest⟩ := reactionComplete_epoch hrun hr hphase hsev hq ha hflag hb
    exact ⟨t, ⟨hexec, hshows⟩, hrest⟩
  · intro hw
    obtain ⟨t, hexec, hshows, hrest⟩ := reactionComplete_keeps hrun hr hphase hsev hw
    exact ⟨t, ⟨hexec, hshows⟩, hrest⟩
  · intro hq hfrozen hoff
    obtain ⟨t, hexec, hshows, hrest⟩ := reactionComplete_dvfs hrun hr hphase hsev hq hfrozen hoff
    exact ⟨t, ⟨hexec, hshows⟩, hrest⟩
  · intro c k r x hrun hr hphase hsev hsafe hk hx
    exact reactionComplete_dropped hrun hr hphase hsev hsafe hk hx

end Sys2Proof.Machine
end

section
/-! SUPPORT. What keeps the stores in canonical form, store by store, and what a step that always answers a state keeps
(R22, R278). A lemma for an operation of the model follows its definition: one rule for each state it writes, the lets
named where a state is used twice. Where a definition takes the result of another apart, that operation is made a
variable first (`exists_eq`, with what it keeps in hand), since the kernel would otherwise evaluate it. -/

namespace Sys2Proof.Machine

variable {s t u : State}

/-! ## One store replaced -/

namespace State.stored

/-- The stores of one state in canonical form are those of every state that holds the same ones. -/
protected theorem of_same (h : s.stored) (hm : t.mem = s.mem) (hp : t.pres = s.pres) (hr : t.regs = s.regs)
    (he : t.dib.events = s.dib.events) (hl : t.lck.locks = s.lck.locks) (hd : t.dib.descs = s.dib.descs) : t.stored :=
      by
  simpa only [State.stored, hm, hp, hr, he, hl, hd] using h

protected theorem withMem (h : s.stored) {m : List Host.Cell} (hm : Memory.wf m = true) : { s with mem := m }.stored :=
    by
  obtain ⟨-, hpres, hregs, hevents, hlocks, hlockNos, hdescs, hdescNos⟩ := h
  exact ⟨hm, hpres, hregs, hevents, hlocks, hlockNos, hdescs, hdescNos⟩

protected theorem withPres (h : s.stored) {m : SMap (BitVec 2)} (hm : SMap.wf (fun _ => (0 : BitVec 2)) m = true) :
    { s with pres := m }.stored := by
  obtain ⟨hmem, -, hregs, hevents, hlocks, hlockNos, hdescs, hdescNos⟩ := h
  exact ⟨hmem, hm, hregs, hevents, hlocks, hlockNos, hdescs, hdescNos⟩

protected theorem withRegs (h : s.stored) {m : SMap Reg32} (hm : SMap.wf regReset m = true) :
    { s with regs := m }.stored := by
  obtain ⟨hmem, hpres, -, hevents, hlocks, hlockNos, hdescs, hdescNos⟩ := h
  exact ⟨hmem, hpres, hm, hevents, hlocks, hlockNos, hdescs, hdescNos⟩

protected theorem withEvents (h : s.stored) {m : SMap Event} (hm : SMap.wf (fun _ => Event.none) m = true) :
    { s with dib := { s.dib with events := m } }.stored := by
  obtain ⟨hmem, hpres, hregs, -, hlocks, hlockNos, hdescs, hdescNos⟩ := h
  exact ⟨hmem, hpres, hregs, hm, hlocks, hlockNos, hdescs, hdescNos⟩

end State.stored

/-- What is listed after a write was listed before, or is what was written. -/
theorem SMap.mem_of_mem_set {β : Type} [DecidableEq β] {k : Nat} {x d : β} {p : Nat × β} :
    ∀ {m : SMap β}, p ∈ SMap.set m k x d → p ∈ m ∨ p.1 = k := by
  have inserted : ∀ {m : SMap β}, p ∈ SMap.insert m k x → p ∈ m ∨ p.1 = k := by
    intro m
    induction m with
    | nil => simp +contextual [SMap.insert]
    | cons a m ih =>
      obtain ⟨i, v⟩ := a
      simp only [SMap.insert]
      split
      · rintro (_ | ⟨_, hp⟩)
        · exact .inr rfl
        · exact .inl (List.mem_cons_of_mem _ hp)
      · split
        · rintro (_ | ⟨_, hp⟩)
          · exact .inr rfl
          · exact .inl hp
        · rintro (_ | ⟨_, hp⟩)
          · exact .inl List.mem_cons_self
          · exact (ih hp).imp_left (List.mem_cons_of_mem _)
  intro m hp
  unfold SMap.set at hp
  split at hp
  · exact .inl (List.mem_of_mem_filter hp)
  · exact inserted hp

namespace State.stored

protected theorem wr {a v} (h : s.stored) : (s.wr a v).stored := by
  obtain ⟨-, -, hregs, -⟩ := id h
  exact h.withRegs (SMap.wf_set hregs a v)

protected theorem dropRegs {lo hi} (h : s.stored) : (dropRegs lo hi s).stored := by
  obtain ⟨-, -, hregs, -⟩ := id h
  exact h.withRegs (SMap.wf_dropRange hregs lo hi)

protected theorem setByte {a v} (h : s.stored) : (s.setByte a v).stored := by
  obtain ⟨hmem, -⟩ := id h
  exact h.withMem (SMap.wf_set hmem a v)

protected theorem setPres {w v} (h : s.stored) : (setPres w v s).stored := by
  obtain ⟨-, hpres, -⟩ := id h
  exact h.withPres (SMap.wf_presence hpres w.toNat v)

/-- A write of a descriptor that there is (R301). -/
protected theorem setDesc {d x} (hd : d < 16384) (h : s.stored) : (s.setDesc d x).stored := by
  obtain ⟨hmem, hpres, hregs, hevents, hlocks, hlockNos, hdescs, hdescNos⟩ := h
  refine ⟨hmem, hpres, hregs, hevents, hlocks, hlockNos, SMap.wf_set hdescs d x, fun p hp => ?_⟩
  obtain hp | rfl := SMap.mem_of_mem_set hp
  · exact hdescNos p hp
  · exact hd

/-- A write of a lock that there is (R333). -/
protected theorem setLock {n x} (hn : n < 4096) (h : s.stored) : (s.setLock n x).stored := by
  obtain ⟨hmem, hpres, hregs, hevents, hlocks, hlockNos, hdescs, hdescNos⟩ := h
  refine ⟨hmem, hpres, hregs, hevents, SMap.wf_set hlocks n x, fun p hp => ?_, hdescs, hdescNos⟩
  obtain hp | rfl := SMap.mem_of_mem_set hp
  · exact hlockNos p hp
  · exact hn

/-! ## What the stores are no part of -/

protected theorem withAppends {x} (h : s.stored) : { s with appends := x }.stored := h
protected theorem withArrivals {x} (h : s.stored) : { s with arrivals := x }.stored := h
protected theorem withAuditAt {x} (h : s.stored) : { s with auditAt := x }.stored := h
protected theorem withBankQ {x} (h : s.stored) : { s with bankQ := x }.stored := h
protected theorem withBankWait {x} (h : s.stored) : { s with bankWait := x }.stored := h
protected theorem withBanks {x} (h : s.stored) : { s with banks := x }.stored := h
protected theorem withCmd {x} (h : s.stored) : { s with cmd := x }.stored := h
protected theorem withDests {x} (h : s.stored) : { s with dests := x }.stored := h
protected theorem withDib {x : Dib} (he : x.events = s.dib.events) (hd : x.descs = s.dib.descs) (h : s.stored) :
    { s with dib := x }.stored :=
  h.of_same rfl rfl rfl he rfl hd
protected theorem withDropping {x} (h : s.stored) : { s with dropping := x }.stored := h
protected theorem withDroppingWleft {x y} (h : s.stored) : { s with dropping := x, wleft := y }.stored := h
protected theorem withEngines {x} (h : s.stored) : { s with engines := x }.stored := h
protected theorem withEvio {x} (h : s.stored) : { s with evio := x }.stored := h
protected theorem withEvioTapFaultN {x y z} (h : s.stored) : { s with evio := x, tap := y, faultN := z }.stored := h
protected theorem withFabric {x} (h : s.stored) : { s with fabric := x }.stored := h
protected theorem withFaultN {x} (h : s.stored) : { s with faultN := x }.stored := h
protected theorem withFlushing {x} (h : s.stored) : { s with flushing := x }.stored := h
protected theorem withFlushingDroppingAppends {x y z} (h : s.stored) :
    { s with flushing := x, dropping := y, appends := z }.stored := h
protected theorem withFree {x} (h : s.stored) : { s with free := x }.stored := h
protected theorem withHolds {x} (h : s.stored) : { s with holds := x }.stored := h
protected theorem withHost {x} (h : s.stored) : { s with host := x }.stored := h
protected theorem withImage {x} (h : s.stored) : { s with image := x }.stored := h
protected theorem withLatches {x} (h : s.stored) : { s with latches := x }.stored := h
protected theorem withLck {x : Lck} (hl : x.locks = s.lck.locks) (h : s.stored) : { s with lck := x }.stored :=
  h.of_same rfl rfl rfl rfl hl rfl
protected theorem withMarks {x} (h : s.stored) : { s with marks := x }.stored := h
protected theorem withMarksUcode {x y} (h : s.stored) : { s with marks := x, ucode := y }.stored := h
protected theorem withMcVersion {x} (h : s.stored) : { s with mcVersion := x }.stored := h
protected theorem withOpState {x} (h : s.stored) : { s with opState := x }.stored := h
protected theorem withOpStatePrevState {x y} (h : s.stored) : { s with opState := x, prevState := y }.stored := h
protected theorem withOwed {x} (h : s.stored) : { s with owed := x }.stored := h
protected theorem withPathAt {x} (h : s.stored) : { s with pathAt := x }.stored := h
protected theorem withPending {x} (h : s.stored) : { s with pending := x }.stored := h
protected theorem withPendingFree {x y} (h : s.stored) : { s with pending := x, free := y }.stored := h
protected theorem withPlots {x} (h : s.stored) : { s with plots := x }.stored := h
protected theorem withPop {x} (h : s.stored) : { s with pop := x }.stored := h
protected theorem withPort0 {x} (h : s.stored) : { s with port0 := x }.stored := h
protected theorem withPort1 {x} (h : s.stored) : { s with port1 := x }.stored := h
protected theorem withPower {x} (h : s.stored) : { s with power := x }.stored := h
protected theorem withPowerUpkeep {x y} (h : s.stored) : { s with power := x, upkeep := y }.stored := h
protected theorem withProfile {x} (h : s.stored) : { s with profile := x }.stored := h
protected theorem withPwrGood {x} (h : s.stored) : { s with pwrGood := x }.stored := h
protected theorem withQuads {x} (h : s.stored) : { s with quads := x }.stored := h
protected theorem withQueues {x} (h : s.stored) : { s with queues := x }.stored := h
protected theorem withRdata {x} (h : s.stored) : { s with rdata := x }.stored := h
protected theorem withReads {x} (h : s.stored) : { s with reads := x }.stored := h
protected theorem withRouters {x} (h : s.stored) : { s with routers := x }.stored := h
protected theorem withRpath {x} (h : s.stored) : { s with rpath := x }.stored := h
protected theorem withSieve {x} (h : s.stored) : { s with sieve := x }.stored := h
protected theorem withSmb {x} (h : s.stored) : { s with smb := x }.stored := h
protected theorem withStages {x} (h : s.stored) : { s with stages := x }.stored := h
protected theorem withTap {x} (h : s.stored) : { s with tap := x }.stored := h
protected theorem withTime {x} (h : s.stored) : { s with time := x }.stored := h
protected theorem withTx {x} (h : s.stored) : { s with tx := x }.stored := h
protected theorem withUpkeep {x} (h : s.stored) : { s with upkeep := x }.stored := h
protected theorem withWleft {x} (h : s.stored) : { s with wleft := x }.stored := h

/-! ## Cases and sequences of steps -/

protected theorem ite {c : Prop} [Decidable c] (ht : t.stored) (hu : u.stored) : (if c then t else u).stored := by
  split
  · exact ht
  · exact hu

protected theorem dite {c : Prop} [Decidable c] {f : c → State} {g : ¬ c → State} (hf : ∀ hc, (f hc).stored)
    (hg : ∀ hc, (g hc).stored) : (if hc : c then f hc else g hc).stored := by
  split
  · exact hf _
  · exact hg _

/-- An operation with a result beside the state, in two cases. -/
protected theorem ite_2 {α : Type} {c : Prop} [Decidable c] {p q : α × State} (hp : p.2.stored) (hq : q.2.stored) :
    (if c then p else q).2.stored := by
  split
  · exact hp
  · exact hq

protected theorem ite_2_2 {α β : Type} {c : Prop} [Decidable c] {p q : α × β × State} (hp : p.2.2.stored)
    (hq : q.2.2.stored) :
    (if c then p else q).2.2.stored := by
  split
  · exact hp
  · exact hq

/-- A sequence of steps of which each keeps the stores, where only the elements of the list matter. -/
protected theorem foldl_mem {β : Type} {f : State → β → State} {l : List β} (h : s.stored)
    (hf : ∀ s b, b ∈ l → s.stored → (f s b).stored) : (l.foldl f s).stored := by
  induction l generalizing s with
  | nil => exact h
  | cons b l ih => exact ih (hf s b List.mem_cons_self h) fun s b hb => hf s b (List.mem_cons_of_mem _ hb)

protected theorem foldl {β : Type} {f : State → β → State} {l : List β} (hf : ∀ s b, s.stored → (f s b).stored)
    (h : s.stored) : (l.foldl f s).stored := .foldl_mem h fun s b _ => hf s b

end State.stored

/-- A result that may be missing is a state with its stores in canonical form. -/
def StoredIn (o : Option State) : Prop := ∀ t, o = some t → t.stored

namespace StoredIn

protected theorem none : StoredIn none := fun _ h => nomatch h

protected theorem some (h : s.stored) : StoredIn (some s) := fun _ ht => Option.some.inj ht ▸ h

protected theorem ite {c : Prop} [Decidable c] {o p : Option State} (ho : StoredIn o) (hp : StoredIn p) :
    StoredIn (if c then o else p) := by
  split
  · exact ho
  · exact hp

protected theorem map {α : Type} {o : Option α} {f : α → State} (h : ∀ x, (f x).stored) : StoredIn (o.map f) := by
  intro t ht
  obtain ⟨x, -, rfl⟩ := Option.map_eq_some_iff.mp ht
  exact h x

end StoredIn

/-- A command that answers a next state, and whose next state has its stores in canonical form where the first one has.
  -/
def Answers (s : State) (o : Host.Outcome State Fault Refusal) : Prop := ∃ t, o = .next t ∧ (s.stored → t.stored)

namespace Answers

variable {o p : Host.Outcome State Fault Refusal}

protected theorem next (h : s.stored → t.stored) : Answers s (.next t) := ⟨t, rfl, h⟩

protected theorem ite {c : Prop} [Decidable c] (ho : Answers s o) (hp : Answers s p) : Answers s (if c then o else p) :=
    by
  split
  · exact ho
  · exact hp

/-- A command that begins in a state that another operation has left. -/
protected theorem after (h : s.stored → t.stored) (ho : Answers t o) : Answers s o := by
  obtain ⟨u, hu, hk⟩ := ho
  exact ⟨u, hu, fun hs => hk (h hs)⟩

end Answers

end Sys2Proof.Machine
end

section
/-! SUPPORT. What the register accesses keep (O3, O16). -/

namespace Sys2Proof.Machine

variable {s t u : State}

protected theorem State.stored.setFld {a lo len n} (h : s.stored) : (s.setFld a lo len n).stored := .wr h

protected theorem State.stored.setFlag {a i b} (h : s.stored) : (s.setFlag a i b).stored := .wr h

protected theorem State.stored.satAdd {a lo len n} (h : s.stored) : (s.satAdd a lo len n).stored := .setFld h

protected theorem State.stored.satInc {a lo len} (h : s.stored) : (s.satInc a lo len).stored := .satAdd h

protected theorem State.stored.wr64 {lo v} (h : s.stored) : (s.wr64 lo v).stored := .wr (.wr h)

protected theorem State.stored.inc64 {lo} (h : s.stored) : (s.inc64 lo).stored := .wr64 h

protected theorem State.stored.rsvd (h : s.stored) : (s.rsvd).stored := .satInc h

protected theorem State.stored.setEng {e x} (h : s.stored) : (s.setEng e x).stored := .withEngines h

protected theorem State.stored.modEng {e g} (h : s.stored) : (s.modEng e g).stored := .setEng h

protected theorem State.stored.setPlot {p x} (h : s.stored) : (s.setPlot p x).stored := .withPlots h

protected theorem State.stored.modPlot {p g} (h : s.stored) : (s.modPlot p g).stored := .setPlot h

protected theorem State.stored.setQ {k fs} (h : s.stored) : (s.setQ k fs).stored := .withQueues h

protected theorem State.stored.draw (h : s.stored) : (s.draw).2.stored := .withFree h

protected theorem State.stored.storeNat {n} (h : s.stored) {a v} : (s.storeNat a n v).stored := by
  induction n generalizing s a v with
  | zero => exact h
  | succ n ih => exact ih (.setByte h)

protected theorem State.stored.store {a n v} (h : s.stored) : (s.store a n v).stored := .storeNat h

protected theorem State.stored.setMark {a m} (h : s.stored) : (s.setMark a m).stored := .withMarks h

protected theorem State.stored.spoil {a} (h : s.stored) : (s.spoil a).stored := .setMark (.ite (.store (.draw h)) h)

protected theorem State.stored.upset {a x2} (h : s.stored) : (s.upset a x2).stored := by
  unfold State.upset
  split
  · exact h
  · exact .ite (.setMark h) (.spoil h)
  · exact .spoil h

end Sys2Proof.Machine
end

section
/-! SUPPORT. What a detection and a raised event keep (O3, O16). -/

namespace Sys2Proof.Machine

variable {s t u : State}

protected theorem State.stored.raiseEventAt {n t'} (h : s.stored) : (raiseEventAt n t' s).stored := by
  obtain ⟨-, -, -, hevents, -⟩ := id h
  exact .ite h (h.withEvents (SMap.wf_set hevents n _))

protected theorem State.stored.raiseEvent {n} (h : s.stored) : (raiseEvent n s).stored := .raiseEventAt h

protected theorem State.stored.raiseEngine {e} (h : s.stored) : (raiseEngine e s).stored := .raiseEvent h

protected theorem State.stored.latchRec {p r} (h : s.stored) : (latchRec p r s).stored :=
  .foldl (fun _ _ h => .wr h) h

protected theorem State.stored.setRec {c r} (h : s.stored) : (setRec c r s).stored := by
  unfold setRec
  dsimp only
  refine .ite ?_ ?_
  · refine .latchRec ?_
    split
    · exact .withSieve h
    · exact .withSieve h
  · split
    · exact .withSieve h
    · exact .withSieve h

protected theorem State.stored.addConseq {c} (h : s.stored) : (addConseq c s).stored := by
  unfold addConseq
  split
  · exact .setRec h
  · exact h

protected theorem State.stored.enqueue {c first} (h : s.stored) : (enqueue c first s).stored := .ite h (.withSieve h)

protected theorem State.stored.closeRec {c} (h : s.stored) : (closeRec c s).stored := by
  unfold closeRec
  dsimp only
  split
  · exact h
  · exact .withSieve (.setRec h)

protected theorem State.stored.dropReaction {safe c} (h : s.stored) : (dropReaction safe c s).stored :=
  .closeRec (.addConseq h)

protected theorem State.stored.requeue {c fatal} (h : s.stored) : (requeue c fatal s).stored := by
  unfold requeue
  dsimp only
  split
  · refine .ite ?_ (.ite (.enqueue (.withSieve h)) h)
    split
    · exact .ite h (.dropReaction h)
    · exact .enqueue (.setRec h)
  · exact h

protected theorem State.stored.openRecord {d c} (h : s.stored) : (openRecord d c s).stored := by
  unfold openRecord
  extract_lets code fr free s1 cls react no vld r _ s2 s3 s4
  have h1 : s1.stored := .ite (.draw h) h
  have h3 : s3.stored := .satInc (.withSieve h1)
  exact .setRec (.ite (.ite (.satInc (.setFlag h3)) (.setFlag h3)) h3)

protected theorem State.stored.mergeRecord {d c r} (h : s.stored) : (mergeRecord d c r s).stored := by
  unfold mergeRecord
  dsimp only
  split
  · exact .setRec h
  · exact .requeue (.raiseEvent (.setRec h))

protected theorem State.stored.detectAt {chan d} (h : s.stored) : (detectAt chan d s).stored := by
  unfold detectAt
  dsimp only
  refine .ite ?_ ?_
  · split
    · exact .addConseq h
    · exact h
  · split
    · exact .addConseq h
    · refine .ite (.satInc h) ?_
      split
      · exact .ite (.mergeRecord h) (.openRecord h)
      · exact .openRecord h

protected theorem State.stored.detect {d} (h : s.stored) : (detect d s).stored := .detectAt h

protected theorem State.stored.addMask {m col ends} (h : s.stored) : (addMask m col ends s).stored := .withSieve h

protected theorem State.stored.endMask {col} (h : s.stored) : (endMask col s).stored := .withSieve h

end Sys2Proof.Machine
end

section
/-! SUPPORT. What the shared operations keep (O3, O16). -/

namespace Sys2Proof.Machine

variable {s t u : State}

protected theorem State.stored.countUr (h : s.stored) : (countUr s).stored := .ite h (.satInc h)

protected theorem State.stored.lateItem (h : s.stored) : (lateItem s).stored := .raiseEvent (.satInc h)

protected theorem State.stored.modeSet {ep} (h : s.stored) : (modeSet s ep).2.stored := .ite_2 h (.lateItem h)

protected theorem State.stored.copyPages {p set} (h : s.stored) : (copyPages p set s).stored := .modPlot h

protected theorem State.stored.notify {p n} (h : s.stored) : (notify p n s).stored := .modPlot h

protected theorem State.stored.stirDevice (h : s.stored) : (stirDevice s).stored := .setFlag h

protected theorem State.stored.stir {p} (h : s.stored) : (stir p s).stored := .stirDevice (.setFlag h)

protected theorem State.stored.setCtx {p c v} (h : s.stored) : (setCtx p c v s).stored := .modPlot h

protected theorem State.stored.localCheck {m e ws} (h : s.stored) : (localCheck m e ws s).2.stored := by
  induction ws generalizing s with
  | nil => exact h
  | cons w ws ih =>
    unfold localCheck
    split
    · exact ih h
    · exact ih (.setMark (.detect h))
    · exact ih (.detect h)

protected theorem State.stored.localLoad {m e off n} (h : s.stored) : (localLoad m e off n s).2.stored :=
  .localCheck h

protected theorem State.stored.dropResv {e} (h : s.stored) : (dropResv e s).stored := .modEng h

protected theorem State.stored.breakResv {e off n} (h : s.stored) : (breakResv e off n s).stored := by
  unfold breakResv
  split
  · exact .ite (.dropResv h) h
  · exact h

protected theorem State.stored.localStore {m e off n v} (h : s.stored) : (localStore m e off n v s).stored := by
  unfold localStore
  dsimp only
  refine .ite ?_ (.store (.foldl (fun _ _ h => .setMark (.ite (.detect h) h)) (.ite (.breakResv h) h)))
  split
  · exact .detect (.ite (.breakResv h) h)
  · exact .ite (.breakResv h) h

protected theorem State.stored.raiseFpx {e o fl pend} (h : s.stored) : (raiseFpx e o fl pend s).stored := by
  unfold raiseFpx
  dsimp only
  refine .ite h ?_
  refine .ite (.wr h) ?_
  split
  · exact .wr (.wr (.wr (.wr h)))
  · exact .wr (.wr (.wr (.wr h)))
  · exact .wr h

protected theorem State.stored.deliverFpx {e ctxFree node ctx} (h : s.stored) :
    (deliverFpx e ctxFree node ctx s).stored :=
  .ite (.raiseEngine (.wr (.setFlag h))) h

end Sys2Proof.Machine
end

section
/-! SUPPORT. What the matching path keeps (O3, O16). -/

namespace Sys2Proof.Machine

variable {s t u : State}

protected theorem State.stored.spillUnits {e us} (h : s.stored) : (spillUnits e us s).stored :=
  .foldl (fun _ _ h => .wr64 (.modEng h)) h

protected theorem State.stored.alert {p} (h : s.stored) : (alert p s).stored := .ite (.raiseEvent h) h

protected theorem State.stored.seeRefusals {p} (h : s.stored) : (seeRefusals p s).stored :=
  .modPlot (.ite (.alert h) h)

protected theorem State.stored.raiseHwm {e} (h : s.stored) : (raiseHwm e s).stored := .ite (.setFld h) h

protected theorem State.stored.seeTotal {e before} (h : s.stored) : (seeTotal e before s).stored :=
  .seeRefusals (.ite (.raiseEvent (.modEng (.raiseHwm h))) (.raiseHwm h))

protected theorem State.stored.hashToken {e t'} (h : s.stored) : (hashToken e t' s).stored := by
  have hload {off} {s : State} (h : s.stored) : (localLoad .imem e off 8 s).2.stored := .localLoad h
  conv in hashToken => delta hashToken
  obtain ⟨load, hl⟩ := exists_eq (a' := @localLoad)
  rw [← hl] at hload ⊢
  dsimp only
  split
  · exact hload h
  · split
    · exact .ite_2 (hload (hload h)) (hload h)
    · split
      · exact .detect (.ite_2 (hload (hload h)) (hload h))
      · exact .ite (.detect (.ite_2 (hload (hload h)) (hload h))) (.modEng (.ite_2 (hload (hload h)) (hload h)))

protected theorem Answers.execTokenIn {e u} : Answers s (execTokenIn e u s) := by
  unfold execTokenIn
  dsimp only
  refine .ite (.next id) ?_
  split
  · exact .next id
  · split
    · exact .next fun h => .detect (.setEng (.upset h))
    · exact .next fun h => .hashToken (.setEng (.upset h))

protected theorem State.stored.cleanWay {e set w} (h : s.stored) : (cleanWay e set w s).stored :=
  .setMark (.setMark h)

protected theorem State.stored.readSet {e set f} (h : s.stored) : (readSet e set f s).stored := by
  unfold readSet
  dsimp only
  refine .foldl (fun _ _ h => ?_) h
  refine .ite (.cleanWay h) ?_
  split
  · exact h
  · exact .cleanWay (.detect h)
  · exact .seeRefusals (.modEng (.cleanWay (.detect h)))

protected theorem State.stored.fireSet {p eps} (h : s.stored) : (fireSet p eps s).2.stored := by
  unfold fireSet
  split
  · exact h
  · exact .ite_2 (.ite_2 h (.modeSet h)) h

protected theorem State.stored.makeFire {e h' l r iter pri eps} (h : s.stored) :
    (makeFire e h' l r iter pri eps s).stored :=
  .modEng (.ite (.satInc (.fireSet h)) (.fireSet h))

protected theorem State.stored.hashDone {e} (h : s.stored) : (hashDone e s).stored := .modEng h

protected theorem State.stored.matchBypass {e h'} (h : s.stored) : (matchBypass e h' s).stored := .makeFire h

protected theorem State.stored.p3Refused {e f set} (h : s.stored) : (p3Refused e f set s).stored :=
  .detect (.setFlag (.satInc h))

protected theorem StoredIn.storeNew {e set news own rank prot refusedBy} (hr : ∀ s, s.stored → (refusedBy s).stored)
    (h : s.stored) : StoredIn (storeNew e set news own rank prot refusedBy s) := by
  unfold storeNew
  dsimp only
  split
  · exact .some (hr _ h)
  · exact .ite .none (.some (.seeTotal (.spillUnits (.setEng (.foldl (fun _ _ h => .cleanWay h) h)))))

protected theorem StoredIn.storeBack {e set p c} (h : s.stored) : StoredIn (storeBack e set p c s) :=
  .storeNew (fun _ h => h) h

protected theorem StoredIn.matchDup {e k r} (h : s.stored) : StoredIn (matchDup e k r s) :=
  .ite (.storeBack (.detect (.setFlag (.satInc h)))) (.some (.detect (.setFlag (.satInc h))))

protected theorem State.stored.matchHit {e h' key r} (h : s.stored) : (matchHit e h' key r s).stored := by
  unfold matchHit
  extract_lets _ set x sticky s1 stored word _ wl wr
  have h1 : s1.stored := .modEng h
  have hword (port : Bool) {u : State} (hu : u.stored) : (word port u).2.stored := by
    refine .ite_2 hu ?_
    split
    · exact hu
    · exact .draw hu
  have hl : wl.2.stored := hword _ h1
  have hr : wr.2.stored := by
    refine .ite_2 hl ?_
    clear_value sticky
    split
    · exact hl
    · exact .ite_2 (hword _ hl) hl
  exact .ite (.detect (.setFlag h1)) (.seeTotal (.makeFire hr))

protected theorem State.stored.noteMixed {e key old new} (h : s.stored) : (noteMixed e key old new s).stored :=
  .ite h (.modEng h)

protected theorem State.stored.freshKey {e key} (h : s.stored) : (freshKey e key s).stored := .modEng h

protected theorem StoredIn.matchPartial {e k key r} (h : s.stored) : StoredIn (matchPartial e k key r s) := by
  unfold matchPartial
  dsimp only
  split
  · split
    · exact .storeBack (.p3Refused h)
    · exact .storeBack (.noteMixed h)
  · split
    · split
      · exact .ite (.some (.modEng (.noteMixed (.modEng h)))) (.some (.p3Refused h))
      · exact .storeNew (fun _ _ => .p3Refused h) (.noteMixed (.modEng h))
    · exact .some (.noteMixed (.modEng h))

protected theorem StoredIn.matchMiss {e k key} (h : s.stored) : StoredIn (matchMiss e k key s) :=
  .storeNew (fun _ h => .p3Refused h) (.freshKey h)

protected theorem StoredIn.matchSticky {e k key} (h : s.stored) : StoredIn (matchSticky e k key s) := by
  unfold matchSticky
  dsimp only
  split
  · exact .some (.modEng h)
  · exact .storeNew (fun _ h => .p3Refused h) h

protected theorem StoredIn.toMissPending {e k} (h : s.stored) : StoredIn (toMissPending e k s) := by
  unfold toMissPending
  dsimp only
  split
  · exact .none
  · exact .some (.modEng h)

protected theorem StoredIn.matchOutcome {e k sh} (h : s.stored) : StoredIn (matchOutcome e k sh s) := by
  unfold matchOutcome
  extract_lets _ x key port need ret found held s1
  have h1 : s1.stored := .ite h (.wr64 h)
  refine .ite .none (.ite (.some (.matchBypass h)) (.ite (.matchSticky h) (.ite ?_ (.ite (.some (.matchHit h1)) ?_))))
  · clear_value found
    split
    · exact .matchDup h1
    · exact .some h1
  · clear_value found
    split
    · exact .matchPartial h1
    · exact .ite (.toMissPending h1) (.matchMiss h1)

protected theorem Answers.execMatchToken {e u} : Answers s (execMatchToken e u s) := by
  unfold execMatchToken
  split
  · exact .next id
  · next k _ =>
    split
    · exact .next .hashDone
    · extract_lets set s1 s2
      have h1 (h : s.stored) : s1.stored := by
        dsimp only [s1]
        split
        · exact .upset h
        · exact h
      have h2 (h : s.stored) : s2.stored := .ite (h1 h) (.readSet (h1 h))
      split
      · exact .next h2
      · next t ht => exact .next fun h => .hashDone (StoredIn.matchOutcome (h2 h) t ht)

protected theorem Answers.execSpillDownSpill {e} : Answers s (execSpillDownSpill e s) := by
  unfold execSpillDownSpill
  dsimp only
  split
  · exact .next id
  · refine .ite (.next fun h => .modEng h) ?_
    split
    · exact .next fun h => .modEng h
    · split
      · exact .next fun h => .readSet h
      · exact .ite (.next fun h => .readSet h)
          (.next fun h => .seeRefusals
          (.ite (.modEng (.stir (.spillUnits (.setEng (.readSet h))))) (.stir (.spillUnits (.setEng (.readSet h))))))

protected theorem Answers.execRefillAnswer {e} : Answers s (execRefillAnswer e s) := by
  unfold execRefillAnswer
  dsimp only
  refine .ite (.next id) ?_
  split
  · split
    · exact .next fun h => .setEng h
    · exact .ite (.next fun h => .detect (.setEng h)) (.next fun h => .setEng h)
  · exact .next id

protected theorem Answers.execContextSweepVisit {e} : Answers s (execContextSweepVisit e s) := by
  unfold execContextSweepVisit
  dsimp only
  split
  · exact .next id
  · exact .next fun h => .seeRefusals (.satAdd (.setEng (.ite (.readSet h) h)))

protected theorem Answers.execContextReturn {p ctx} : Answers s (execContextReturn p ctx s) :=
  .ite (.next fun h => .setCtx h) (.next id)

protected theorem State.stored.cfgDrop {e} (h : s.stored) : (cfgDrop e s).stored := .setFlag h

protected theorem State.stored.answer {req v} (h : s.stored) : (answer req v s).stored := .withRdata h

protected theorem State.stored.debugSee {e set w} (h : s.stored) : (debugSee e set w s).stored := by
  unfold debugSee
  refine .ite h ?_
  split
  · exact h
  · exact .detect h
  · exact .detect h

protected theorem Answers.execMsDebugRead {req e off} : Answers s (execMsDebugRead req e off s) :=
  .ite (.next fun h => .countUr h) (.ite (.next fun h => .answer (.rsvd h)) (.next fun h => .answer (.debugSee h)))

protected theorem Answers.execMsDebugWrite {req e off v} : Answers s (execMsDebugWrite req e off v s) :=
  .ite (.next fun h => .countUr h) (.ite (.next fun h => .rsvd h)
    (.ite (.next fun h => .cfgDrop h)
    (.ite (.next fun h => .rsvd h) (.next fun h => .seeTotal (.cleanWay (.freshKey (.setEng h)))))))

protected theorem State.stored.setEngCtrl {e new} (h : s.stored) : (setEngCtrl e new s).stored := by
  unfold setEngCtrl
  dsimp only
  refine .ite (.wr h) ?_
  split
  · exact .notify (.wr h)
  · exact .wr h

protected theorem Answers.execEngCtrlWrite {req e v} : Answers s (execEngCtrlWrite req e v s) :=
  .ite (.next fun h => .countUr h) (.ite (.next fun h => .rsvd h) (.next fun h => .setEngCtrl h))

protected theorem Answers.execEngMatchCfgWrite {req e v} : Answers s (execEngMatchCfgWrite req e v s) :=
  .ite (.next fun h => .countUr h) (.ite (.next fun h => .rsvd h)
    (.ite (.next fun h => .wr h) (.next fun h => .cfgDrop h)))

protected theorem Answers.execEngArbWrite {req e v} : Answers s (execEngArbWrite req e v s) :=
  .ite (.next fun h => .countUr h) (.ite (.next fun h => .rsvd h)
    (.ite (.next fun h => .rsvd (.setFld h)) (.next fun h => .wr h)))

end Sys2Proof.Machine
end

section
/-! SUPPORT. What execution and issue keep (O3, O16). -/

namespace Sys2Proof.Machine

variable {s t u : State}

protected theorem State.stored.occupy {e strand opc c lam} (h : s.stored) : (occupy e strand opc c lam s).stored := by
  unfold occupy
  split
  · exact .modEng h
  · exact .modEng h
  · exact .modEng h
  · split
    · exact .modPlot h
    · exact h
  · exact h

protected theorem State.stored.pushWrite {e w} (h : s.stored) : (pushWrite e w s).stored := .modEng h

protected theorem State.stored.modStrand {e g} (h : s.stored) : (modStrand e g s).stored := .modEng h

protected theorem State.stored.writeResult {e i target v lam} (h : s.stored) :
    (writeResult e i target v lam s).stored :=
  .pushWrite h

protected theorem State.stored.writeD {e i v lam} (h : s.stored) : (writeD e i v lam s).stored := .writeResult h

protected theorem State.stored.saveCtx {d c} (h : s.stored) : (saveCtx d c s).stored :=
  .foldl (fun _ _ h => .setMark (.store h)) h

protected theorem State.stored.clearStrand {e} (h : s.stored) : (clearStrand e s).stored := .modEng h

protected theorem State.stored.leaveEngine {e why deadline g} (h : s.stored) :
    (leaveEngine e why deadline g s).stored :=
  .modEng (.modStrand (.dropResv h))

protected theorem State.stored.recordTrap {e cause desc pc addr} (h : s.stored) :
    (recordTrap e cause desc pc addr s).stored :=
  .wr64 (.wr (.wr h))

protected theorem State.stored.trapCtx {e cause pc addr g} (h : s.stored) : (trapCtx e cause pc addr g s).stored := by
  unfold trapCtx
  dsimp only
  split
  · exact h
  · exact .leaveEngine (.raiseEngine (.recordTrap h))

protected theorem State.stored.trapIssued {e at_ rep cause pc addr} (h : s.stored) :
    (trapIssued e at_ rep cause pc addr s).stored :=
  .ite (.trapCtx h) (.trapCtx h)

protected theorem State.stored.strandTrap {e i cause pc addr} (h : s.stored) :
    (strandTrap e i cause pc addr s).stored :=
  .trapIssued h

protected theorem State.stored.readTrap {e cause pc addr} (h : s.stored) : (readTrap e cause pc addr s).stored :=
  .trapCtx h

protected theorem State.stored.strandFenceDone {e} (h : s.stored) : (strandFenceDone e s).stored := by
  unfold strandFenceDone
  dsimp only
  split
  · exact h
  · exact .ite (.readTrap (.setFlag (.modStrand h))) (.modStrand h)

protected theorem State.stored.completeFences {e fuel} (h : s.stored) : (completeFences e fuel s).stored := by
  induction fuel generalizing s with
  | zero => exact h
  | succ fuel ih =>
    unfold completeFences
    dsimp only
    split
    · exact h
    · split
      · exact ih (.strandFenceDone (.setEng h))
      · refine ih (.modEng ?_)
        split
        · exact .deliverFpx (.setEng h)
        · exact .setEng h

protected theorem Answers.execGrnAckIntake {e} : Answers s (execGrnAckIntake e s) := by
  unfold execGrnAckIntake
  dsimp only
  split
  · exact .next id
  · exact .ite (.next fun h => .detect (.setEng h))
      (.ite (.next fun h => .detect (.setEng h)) (.next fun h => .completeFences (.modEng (.setEng h))))

protected theorem State.stored.fenceSlotStep {e} (h : s.stored) : (fenceSlotStep e s).stored := by
  unfold fenceSlotStep
  dsimp only
  split
  · split
    · exact .ite (.completeFences (.setEng h)) h
    · exact h
  · exact h

protected theorem State.stored.noteEvent {e} (h : s.stored) : (noteEvent e s).stored := by
  unfold noteEvent
  dsimp only
  split
  · exact .modEng h
  · exact h

protected theorem State.stored.fetchInst {e pc} (h : s.stored) : (fetchInst e pc s).2.stored := by
  have hload off : (localLoad .imem e off 8 s).2.stored := .localLoad h
  conv in fetchInst => delta fetchInst
  obtain ⟨load, hl⟩ := exists_eq (a' := @localLoad)
  rw [← hl] at hload ⊢
  dsimp only
  split
  · exact hload _
  · exact hload _

protected theorem State.stored.advance {e c} (h : s.stored) : (advance e c s).stored := by
  have hfetch pc : (fetchInst e pc s).2.stored := .fetchInst h
  conv in advance => delta advance
  obtain ⟨fetch, hf⟩ := exists_eq (a' := @fetchInst)
  rw [← hf] at hfetch ⊢
  dsimp only
  split
  · exact h
  · refine .ite h (.modEng ?_)
    split
    · exact hfetch _
    · exact h

protected theorem State.stored.dropNext {e c t'} (h : s.stored) : (dropNext e c t' s).2.stored := by
  have hfetch pc : (fetchInst e pc s).2.stored := .fetchInst h
  conv in dropNext => delta dropNext
  obtain ⟨fetch, hf⟩ := exists_eq (a' := @fetchInst)
  rw [← hf] at hfetch ⊢
  dsimp only
  split
  · exact hfetch _
  · exact h
  · exact h
  · exact h

protected theorem State.stored.issueRep {e t' i} (h : s.stored) : (issueRep e t' i s).stored :=
  .ite (.readTrap h) (.ite (.modEng (.dropNext h)) (.modStrand h))

protected theorem State.stored.issueStrand {e c t' i} (h : s.stored) : (issueStrand e c t' i s).stored :=
  .ite (.readTrap h) (.ite (.readTrap h) (.ite (.occupy (.modEng (.inc64 h))) (.modEng (.inc64 h))))

protected theorem State.stored.skipDone {e} (h : s.stored) : (skipDone e s).stored := .modStrand h

protected theorem State.stored.raiseDue {e c} (h : s.stored) : (raiseDue e c s).stored := by
  unfold raiseDue
  extract_lets rs s1 s2
  have h2 : s2.stored := .foldl (fun _ _ h => .raiseFpx h) (.modEng h)
  split
  · split
    · exact .ite h2 (.ite (.trapIssued h2) (.foldl (fun _ _ h => .pushWrite h) (.modStrand h2)))
    · exact h2
  · exact h2

protected theorem State.stored.issueFire {e c f x} (h : s.stored) : (issueFire e c f x s).stored :=
  .ite (.inc64 (.setEng h)) (.occupy (.inc64 (.setEng h)))

protected theorem Answers.execExecIssue {e} : Answers s (execExecIssue e s) := by
  unfold execExecIssue
  extract_lets c s1 s2 s3 has ch s4 s5
  refine .ite (.next id) (.next fun h => .noteEvent (.modEng (.advance ?_)))
  have h3 : s3.stored := .skipDone (.fenceSlotStep (.modEng (.raiseDue (.modEng h))))
  clear_value s3 has ch
  have h4 : s4.stored := by
    dsimp only [s4]
    split
    · exact .issueFire h3
    · exact .setEng h3
  clear_value s4
  dsimp only [s5]
  split
  · exact .ite (.issueRep h4) (.ite (.issueStrand h4) h4)
  · exact h4

protected theorem State.stored.emitProto {e k} (h : s.stored) : (emitProto e k s).stored := by
  unfold emitProto
  dsimp only
  refine .ite (.detect h) ?_
  split
  · exact .ite (.modEng (.modEng h)) (.modEng (.modEng h))
  · exact .foldl (fun _ _ h => .modEng h) (.modEng h)

protected theorem Answers.execEmitResult {e} : Answers s (execEmitResult e s) := by
  unfold execEmitResult
  dsimp only
  split
  · exact .next fun h => .modEng h
  · exact .next fun h => .modEng (.foldl (fun _ _ h => .emitProto h) (.modEng (.modEng h)))

end Sys2Proof.Machine
end

section
/-! SUPPORT. What the banks and ports keep (O3, O16). -/

namespace Sys2Proof.Machine

variable {s t u : State}

protected theorem State.stored.setQuad {q x} (h : s.stored) : (setQuad q x s).stored := .withQuads h

protected theorem State.stored.setBank {b v} (h : s.stored) : (setBank b v s).stored := .withBanks h

protected theorem State.stored.wantStripe {q} (h : s.stored) : (wantStripe q s).stored := .setQuad h

protected theorem State.stored.wantWords {ws} (h : s.stored) : (wantWords ws s).stored :=
  .foldl (fun _ _ h => .ite (.wantStripe h) h) h

protected theorem State.stored.offBy {code w} (h : s.stored) : (offBy code w s).stored := .detect (.satInc h)

protected theorem State.stored.countGrnEcc {uc w} (h : s.stored) : (countGrnEcc uc w s).stored := .wr (.satInc h)

protected theorem State.stored.grnEcc {uc w} (h : s.stored) : (grnEcc uc w s).stored := .countGrnEcc (.detect h)

protected theorem State.stored.checkWord {w} (h : s.stored) : (checkWord w s).2.stored :=
  .ite_2 (.grnEcc h) (.ite_2 (.grnEcc h) h)

protected theorem State.stored.writeWord {w v p} (h : s.stored) : (writeWord w v p s).stored :=
  .setPres (.setMark (.store h))

protected theorem State.stored.wrote0 {w} (h : s.stored) : (s.wrote0 w).stored := .withPort0 h

protected theorem State.stored.portWrite {w mask v p} (h : s.stored) : (portWrite w mask v p s).stored :=
  .ite (.writeWord h) (.wrote0 (.writeWord h))

protected theorem State.stored.putPres {w p} (h : s.stored) : (putPres w p s).stored := .ite h (.portWrite h)

protected theorem State.stored.takePort1 {rank w} (h : s.stored) : (takePort1 rank w s).stored :=
  .ite (.ite (.satInc (.draw (.withPort1 h))) (.draw (.withPort1 h))) (.withPort1 h)

protected theorem State.stored.collide {w} (h : s.stored) : (collide w s).stored :=
  .ite (.raiseEvent (.setFld (.satInc h))) (.setFld (.satInc h))

protected theorem State.stored.port1Write {rank code w mask v} (h : s.stored) :
    (port1Write rank code w mask v s).stored := by
  unfold port1Write
  extract_lets s1 s2 put
  have h1 : s1.stored := .takePort1 h
  have h2 : s2.stored := .ite (.grnEcc h1) h1
  have hput {s} (h : s.stored) : (put s).stored := .setMark (.store h)
  refine .ite (.offBy h) (.ite (.grnEcc (.takePort1 h)) ?_)
  split
  · exact hput h2
  · exact .ite (hput (.draw h2)) (.ite (.draw h2) (.ite (.collide (.draw h2)) (hput (.draw h2))))

protected theorem State.stored.port1Words {rank code a vs} (h : s.stored) : (port1Words rank code a vs s).stored :=
  .foldl (fun _ _ h => .port1Write h) h

protected theorem State.stored.port1See {rank code w} (h : s.stored) : (port1See rank code w s).stored :=
  .ite (.offBy h) (.checkWord (.takePort1 h))

protected theorem State.stored.port1Read {rank code a n} (h : s.stored) : (port1Read rank code a n s).stored :=
  .foldl (fun _ _ h => .port1See h) h

end Sys2Proof.Machine
end

section
/-! SUPPORT. What the overflow store and its sweeps keep (O3, O16). -/

namespace Sys2Proof.Machine

variable {s t u : State}

protected theorem State.stored.writeSlot {p a n} (h : s.stored) : (writeSlot p a n s).stored := .port1Words h

protected theorem State.stored.slotLost {p a} (h : s.stored) : (slotLost p a s).stored := .satInc (.detect h)

protected theorem State.stored.countPurged {p n} (h : s.stored) : (countPurged p n s).stored := .satAdd h

protected theorem State.stored.setSlotUsed {p k b} (h : s.stored) : (setSlotUsed p k b s).stored := .modPlot h

protected theorem StoredIn.placeUnit {p i x} (h : s.stored) : StoredIn (placeUnit p i x s) :=
  .map fun _ => .seeRefusals (.foldl (fun _ _ h => .setSlotUsed (.writeSlot h)) h)

protected theorem State.stored.wantPool {p prev} (h : s.stored) : (wantPool p prev s).stored := by
  unfold wantPool
  split
  · exact .wantWords h
  · exact h

protected theorem State.stored.linkPool {p j k} (h : s.stored) : (linkPool p j k s).stored := .port1Write h

protected theorem State.stored.relink {p old new} (h : s.stored) : (relink p old new s).stored :=
  .foldl (fun _ _ h => .ite h (.linkPool h)) h

protected theorem State.stored.writePool {p k f prev} (h : s.stored) : (writePool p k f prev s).stored := by
  unfold writePool
  dsimp only
  refine .modPlot ?_
  split
  · exact .linkPool (.port1Words h)
  · exact .port1Words h

protected theorem State.stored.takePool {p k} (h : s.stored) : (takePool p k s).2.stored := by
  unfold takePool
  extract_lets a u
  have hu : u.stored := .modPlot (.port1Read h)
  clear_value u
  exact .ite_2 (.slotLost hu) hu

protected theorem State.stored.emitHeld {e f} (h : s.stored) : (emitHeld e f s).stored :=
  .ite (.detect h) (.stir (.modEng h))

protected theorem State.stored.setWindow {p w} (h : s.stored) : (setWindow p w s).stored := .modPlot h

protected theorem StoredIn.releaseOne {p w} (h : s.stored) : StoredIn (releaseOne p w s) := by
  refine .map fun _ => ?_
  dsimp only
  split
  · exact .emitHeld (.takePool (.setWindow (.relink h)))
  · exact .takePool (.setWindow (.relink h))

protected theorem State.stored.wantReleases {p} (h : s.stored) : (wantReleases p s).stored := .wantWords h

protected theorem State.stored.keepIntake {p h' fs} (h : s.stored) : (keepIntake p h' fs s).stored := .modPlot h

protected theorem State.stored.drainIntake {p k fs} (h : s.stored) : (drainIntake p k fs s).stored := by
  induction fs generalizing s with
  | nil => exact .keepIntake h
  | cons f fs ih =>
    unfold drainIntake
    split
    · exact ih (.keepIntake (.emitHeld (.setWindow h)))
    · exact h

protected theorem StoredIn.poolIntake {p k} (h : s.stored) : StoredIn (poolIntake p k s) := by
  unfold poolIntake
  split
  · exact .none
  · refine .map fun _ => .keepIntake ?_
    split
    · exact .setWindow (.writePool h)
    · exact .modPlot (.writePool h)

protected theorem State.stored.releaseHeld {p} (h : s.stored) : (releaseHeld p s).stored :=
  .foldl (fun _ _ h => .drainIntake h) (.modPlot h)

protected theorem State.stored.seeWindows {p} (h : s.stored) : (seeWindows p s).stored := .modPlot (.ite (.alert h) h)

protected theorem State.stored.holdResult {p i ctx j fs} (h : s.stored) : (holdResult p i ctx j fs s).stored := by
  unfold holdResult
  split
  · exact h
  · exact .releaseHeld (.modPlot h)

protected theorem State.stored.countRefused {p pri} (h : s.stored) : (countRefused p pri s).stored :=
  .ite (.satInc h) h

protected theorem State.stored.requestCtx {e pri} (h : s.stored) : (requestCtx e pri s).2.stored := by
  unfold requestCtx
  dsimp only
  refine .ite_2 (.countRefused h) ?_
  split
  · exact .countRefused h
  · exact .ite (.setCtx h) (.setFld (.setCtx h))

protected theorem StoredIn.freeContext {e c} (h : s.stored) : StoredIn (freeContext e c s) :=
  .ite .none (.some (.foldl (fun _ _ h => .ite (.modEng h) h) (.modPlot (.setCtx h))))

end Sys2Proof.Machine
end

section
/-! SUPPORT. What the arithmetic nodes keep (O3, O16). -/

namespace Sys2Proof.Machine

variable {s t u : State}

protected theorem State.stored.nodeResult {e f toks fl lam} (h : s.stored) : (nodeResult e f toks fl lam s).stored :=
  .modEng h

protected theorem Answers.onFire {e opc g} (hg : ∀ f s, s.stored → (g f s).stored) : Answers s (onFire e opc g s) := by
  unfold onFire
  split
  · exact .next id
  · exact .ite (.next fun h => .ite (.nodeResult (.modEng h)) (hg _ _ (.modEng h))) (.next id)

protected theorem State.stored.nodeValue {e v f lam} (h : s.stored) : (nodeValue e v s f lam).stored := .nodeResult h

protected theorem Answers.nodeArith {e opc} : Answers s (nodeArith e opc s) := .onFire (fun _ _ h => .nodeResult h)

protected theorem Answers.execAdd {e} : Answers s (execAdd e s) := .nodeArith

protected theorem Answers.execSub {e} : Answers s (execSub e s) := .nodeArith

protected theorem Answers.execNeg {e} : Answers s (execNeg e s) := .nodeArith

protected theorem Answers.execMul {e} : Answers s (execMul e s) := .nodeArith

protected theorem Answers.execMulhs {e} : Answers s (execMulhs e s) := .nodeArith

protected theorem Answers.execMulhu {e} : Answers s (execMulhu e s) := .nodeArith

protected theorem Answers.execDivs {e} : Answers s (execDivs e s) := .nodeArith

protected theorem Answers.execDivu {e} : Answers s (execDivu e s) := .nodeArith

protected theorem Answers.execRems {e} : Answers s (execRems e s) := .nodeArith

protected theorem Answers.execRemu {e} : Answers s (execRemu e s) := .nodeArith

protected theorem Answers.execAbs {e} : Answers s (execAbs e s) := .nodeArith

protected theorem Answers.execMins {e} : Answers s (execMins e s) := .nodeArith

protected theorem Answers.execMaxs {e} : Answers s (execMaxs e s) := .nodeArith

protected theorem Answers.execMinu {e} : Answers s (execMinu e s) := .nodeArith

protected theorem Answers.execMaxu {e} : Answers s (execMaxu e s) := .nodeArith

protected theorem Answers.execAnd {e} : Answers s (execAnd e s) := .nodeArith

protected theorem Answers.execOr {e} : Answers s (execOr e s) := .nodeArith

protected theorem Answers.execXor {e} : Answers s (execXor e s) := .nodeArith

protected theorem Answers.execNot {e} : Answers s (execNot e s) := .nodeArith

protected theorem Answers.execShl {e} : Answers s (execShl e s) := .nodeArith

protected theorem Answers.execShr {e} : Answers s (execShr e s) := .nodeArith

protected theorem Answers.execSar {e} : Answers s (execSar e s) := .nodeArith

protected theorem Answers.execRol {e} : Answers s (execRol e s) := .nodeArith

protected theorem Answers.execAdds {e} : Answers s (execAdds e s) := .nodeArith

protected theorem Answers.execSubs {e} : Answers s (execSubs e s) := .nodeArith

protected theorem Answers.execClz {e} : Answers s (execClz e s) := .nodeArith

protected theorem Answers.execPopc {e} : Answers s (execPopc e s) := .nodeArith

protected theorem Answers.execSext {e} : Answers s (execSext e s) := .nodeArith

protected theorem Answers.execEq {e} : Answers s (execEq e s) := .nodeArith

protected theorem Answers.execNe {e} : Answers s (execNe e s) := .nodeArith

protected theorem Answers.execLts {e} : Answers s (execLts e s) := .nodeArith

protected theorem Answers.execLes {e} : Answers s (execLes e s) := .nodeArith

protected theorem Answers.execLtu {e} : Answers s (execLtu e s) := .nodeArith

protected theorem Answers.execLeu {e} : Answers s (execLeu e s) := .nodeArith

protected theorem Answers.execFadd {e} : Answers s (execFadd e s) := .nodeArith

protected theorem Answers.execFsub {e} : Answers s (execFsub e s) := .nodeArith

protected theorem Answers.execFmul {e} : Answers s (execFmul e s) := .nodeArith

protected theorem Answers.execFma {e} : Answers s (execFma e s) := .nodeArith

protected theorem Answers.execFdiv {e} : Answers s (execFdiv e s) := .nodeArith

protected theorem Answers.execFsqrt {e} : Answers s (execFsqrt e s) := .nodeArith

protected theorem Answers.execFmin {e} : Answers s (execFmin e s) := .nodeArith

protected theorem Answers.execFmax {e} : Answers s (execFmax e s) := .nodeArith

protected theorem Answers.execFeq {e} : Answers s (execFeq e s) := .nodeArith

protected theorem Answers.execFlt {e} : Answers s (execFlt e s) := .nodeArith

protected theorem Answers.execFle {e} : Answers s (execFle e s) := .nodeArith

protected theorem Answers.execFcvtsl {e} : Answers s (execFcvtsl e s) := .nodeArith

protected theorem Answers.execFcvtls {e} : Answers s (execFcvtls e s) := .nodeArith

protected theorem Answers.execFabs {e} : Answers s (execFabs e s) := .nodeArith

protected theorem Answers.execFneg {e} : Answers s (execFneg e s) := .nodeArith

protected theorem Answers.execDadd {e} : Answers s (execDadd e s) := .nodeArith

protected theorem Answers.execDsub {e} : Answers s (execDsub e s) := .nodeArith

protected theorem Answers.execDmul {e} : Answers s (execDmul e s) := .nodeArith

protected theorem Answers.execDfma {e} : Answers s (execDfma e s) := .nodeArith

protected theorem Answers.execDdiv {e} : Answers s (execDdiv e s) := .nodeArith

protected theorem Answers.execDsqrt {e} : Answers s (execDsqrt e s) := .nodeArith

protected theorem Answers.execDmin {e} : Answers s (execDmin e s) := .nodeArith

protected theorem Answers.execDmax {e} : Answers s (execDmax e s) := .nodeArith

protected theorem Answers.execDeq {e} : Answers s (execDeq e s) := .nodeArith

protected theorem Answers.execDlt {e} : Answers s (execDlt e s) := .nodeArith

protected theorem Answers.execDle {e} : Answers s (execDle e s) := .nodeArith

protected theorem Answers.execDcvtdl {e} : Answers s (execDcvtdl e s) := .nodeArith

protected theorem Answers.execDcvtld {e} : Answers s (execDcvtld e s) := .nodeArith

protected theorem Answers.execDcvtds {e} : Answers s (execDcvtds e s) := .nodeArith

protected theorem Answers.execDcvtsd {e} : Answers s (execDcvtsd e s) := .nodeArith

end Sys2Proof.Machine
end

section
/-! SUPPORT. What the other nodes keep (O3, O16). -/

namespace Sys2Proof.Machine

variable {s t u : State}

protected theorem Answers.execSteer {e} : Answers s (execSteer e s) := .onFire (fun _ _ h => .nodeResult h)

protected theorem Answers.execGate {e} : Answers s (execGate e s) := .onFire (fun _ _ h => .nodeResult h)

protected theorem Answers.execMerge {e} : Answers s (execMerge e s) := .onFire (fun _ _ h => .nodeValue h)

protected theorem Answers.execFan {e} : Answers s (execFan e s) := .onFire (fun _ _ h => .nodeValue h)

protected theorem Answers.execSink {e} : Answers s (execSink e s) := by
  unfold execSink
  split
  · exact .next id
  · exact .ite (.next fun h => .nodeResult (.modEng h)) (.next id)

protected theorem Answers.execCtxNew {e} : Answers s (execCtxNew e s) := by
  unfold execCtxNew
  dsimp only
  refine .onFire (fun _ _ h => ?_)
  split
  · exact .nodeResult (.requestCtx h)
  · exact .nodeResult (.requestCtx h)

protected theorem Answers.execCtxFree {e} : Answers s (execCtxFree e s) := by
  unfold execCtxFree
  dsimp only
  refine .onFire (fun _ _ h => ?_)
  split
  · next ht => exact .nodeValue ((StoredIn.freeContext (.deliverFpx h) _ ht))
  · exact .nodeResult (.detect (.deliverFpx h))

protected theorem Answers.execCtxGet {e} : Answers s (execCtxGet e s) := .onFire (fun _ _ h => .nodeValue h)

protected theorem Answers.execIterGet {e} : Answers s (execIterGet e s) := .onFire (fun _ _ h => .nodeValue h)

protected theorem Answers.execIterNext {e} : Answers s (execIterNext e s) := by
  unfold execIterNext
  dsimp only
  refine .ite (.next id) ?_
  refine .onFire (fun _ _ h => ?_)
  split
  · exact .ite (.nodeResult (.setWindow (.ite (.seeWindows (.modPlot h)) h)))
      (.nodeResult (.holdResult (.ite (.seeWindows (.modPlot h)) h)))
  · exact .nodeResult (.holdResult (.ite (.seeWindows (.modPlot h)) h))

protected theorem Answers.execIterReset {e} : Answers s (execIterReset e s) := .onFire (fun _ _ h => .nodeResult h)

protected theorem Answers.execIterDone {e} : Answers s (execIterDone e s) := by
  unfold execIterDone
  dsimp only
  refine .onFire (fun _ _ h => ?_)
  refine .nodeValue ?_
  split
  · exact .ite (.satInc h) (.releaseHeld (.setWindow h))
  · exact .satInc h

protected theorem Answers.execTagsend {e} : Answers s (execTagsend e s) := .onFire (fun _ _ h => .nodeResult h)

protected theorem Answers.execMktag {e} : Answers s (execMktag e s) := .onFire (fun _ _ h => .nodeValue h)

protected theorem State.stored.addressFault {e f a} (h : s.stored) : (addressFault e f a s).stored :=
  .nodeResult (.detect h)

protected theorem Answers.nodeRead {e opc op} : Answers s (nodeRead e opc op s) :=
  .onFire (fun _ _ h => .ite (.nodeResult h) (.addressFault h))

protected theorem Answers.execGld {e} : Answers s (execGld e s) := .nodeRead

protected theorem Answers.execGldt {e} : Answers s (execGldt e s) := .nodeRead

protected theorem Answers.execGpres {e} : Answers s (execGpres e s) := .nodeRead

protected theorem State.stored.countWrite {e} (h : s.stored) : (countWrite e s).stored := .modEng h

protected theorem Answers.nodeWrite {e opc op} : Answers s (nodeWrite e opc op s) :=
  .onFire (fun _ _ h => .ite (.countWrite (.nodeResult h)) (.addressFault h))

protected theorem Answers.execGst {e} : Answers s (execGst e s) := .nodeWrite

protected theorem Answers.execGstr {e} : Answers s (execGstr e s) := .nodeWrite

protected theorem Answers.execGclr {e} : Answers s (execGclr e s) := .nodeWrite

protected theorem Answers.execSend {e} : Answers s (execSend e s) :=
  .onFire (fun _ _ h => .ite (.nodeResult (.detect h)) (.nodeResult h))

protected theorem Answers.execBlk {e} : Answers s (execBlk e s) := .onFire (fun _ _ h => .nodeResult h)

protected theorem Answers.execFence {e} : Answers s (execFence e s) :=
  .onFire (fun _ _ h => .completeFences (.setEng h))

protected theorem Answers.execB64Grant {p} : Answers s (execB64Grant p s) := by
  unfold execB64Grant
  dsimp only
  split
  · exact .next fun h => .foldl (fun _ _ h => .ite h (.satInc h)) (.modPlot h)
  · exact .next fun h => .modPlot (.modEng (.foldl (fun _ _ h => .ite h (.satInc h)) (.modPlot h)))

end Sys2Proof.Machine
end

section
/-! SUPPORT. What an engine's registers keep (O3, O16). -/

namespace Sys2Proof.Machine

variable {s t u : State}

protected theorem State.stored.noteAccess {req} (h : s.stored) : (noteAccess req s).stored := .withPathAt h

protected theorem State.stored.plainWrite {a r v} (h : s.stored) : (plainWrite a r v s).stored :=
  .ite (.rsvd (.wr h)) (.wr h)

protected theorem State.stored.tableWrite {req a v} (h : s.stored) : (tableWrite req a v s).stored := by
  unfold tableWrite
  dsimp only
  split
  · exact .rsvd h
  · split
    · exact .plainWrite h
    · exact .ite (.withStages h) h
    · refine .ite ?_ h
      refine .withStages ?_
      refine .wr ?_
      split
      · exact .wr h
      · exact h

protected theorem State.stored.readEng {req e off} (h : s.stored) : (readEng req e off s).2.stored := by
  unfold readEng
  split
  · exact .rsvd h
  · split
    · exact h
    · exact .withLatches h
    · exact h

protected theorem State.stored.outcomeState {o} (h : s.stored) (ho : Answers s o) : (outcomeState s o).stored := by
  obtain ⟨t, rfl, ht⟩ := ho
  exact ht h

protected theorem State.stored.writeEng {req e off v} (h : s.stored) : (writeEng req e off v s).stored := by
  unfold writeEng
  refine .ite (.outcomeState h .execEngCtrlWrite) ?_
  refine .ite (.outcomeState h .execEngArbWrite) ?_
  refine .ite (.outcomeState h .execEngMatchCfgWrite) ?_
  split
  · exact .rsvd h
  · exact .ite h (.ite (.raiseHwm (.plainWrite h)) (.plainWrite h))

end Sys2Proof.Machine
end

section
/-! SUPPORT. What a strand's instructions keep (O3, O16). -/

namespace Sys2Proof.Machine

variable {s t u : State}

protected theorem Answers.onStrand {e p g} (hg : ∀ i s, s.stored → (g i s).stored) : Answers s (onStrand e p g s) := by
  unfold onStrand
  split
  · exact .next id
  · exact .ite (.next fun h => hg _ _ (.modEng h)) (.next id)

protected theorem State.stored.stayInExec {e i} (h : s.stored) : (stayInExec e i s).stored := .modEng h

protected theorem State.stored.usePort {e n} (h : s.stored) : (usePort e n s).stored := .modEng h

protected theorem State.stored.stallInExec {e i} (h : s.stored) : (stallInExec e i s).stored := .modEng h

protected theorem State.stored.strandFloat {e i r lam isFp more} (h : s.stored) :
    (strandFloat e i r lam isFp more s).stored :=
  .ite (.modStrand (.ite (.modStrand (.modEng h)) (.modEng h)))
    (.foldl (fun _ _ h => .pushWrite h) (.ite (.modStrand (.modEng h)) (.modEng h)))

protected theorem Answers.execOpr {e} : Answers s (execOpr e s) := .onStrand (fun _ _ h => .strandFloat h)

protected theorem Answers.execCmp {e} : Answers s (execCmp e s) := .onStrand (fun _ _ h => .writeResult h)

protected theorem Answers.execAddi {e} : Answers s (execAddi e s) := .onStrand (fun _ _ h => .writeD h)

protected theorem Answers.execAndi {e} : Answers s (execAndi e s) := .onStrand (fun _ _ h => .writeD h)

protected theorem Answers.execOri {e} : Answers s (execOri e s) := .onStrand (fun _ _ h => .writeD h)

protected theorem Answers.execXori {e} : Answers s (execXori e s) := .onStrand (fun _ _ h => .writeD h)

protected theorem Answers.execShi {e} : Answers s (execShi e s) := .onStrand (fun _ _ h => .writeD h)

protected theorem Answers.execMovw {e} : Answers s (execMovw e s) := .onStrand (fun _ _ h => .writeD h)

protected theorem Answers.execCmpi {e} : Answers s (execCmpi e s) := .onStrand (fun _ _ h => .writeResult h)

protected theorem State.stored.jumpTo {e i target extra} (h : s.stored) : (jumpTo e i target extra s).stored :=
  .modStrand h

protected theorem State.stored.countWrap {e} (h : s.stored) : (countWrap e s).stored := .satInc h

protected theorem StoredIn.pushRet {e rsx ret} (h : s.stored) : StoredIn (pushRet e rsx ret s) := by
  unfold pushRet
  split
  · exact .some h
  · exact .ite .none (.some (.ite (.countWrap (.modStrand h)) (.modStrand h)))

protected theorem State.stored.popRet {e rsx pc} (h : s.stored) (ht : popRet e rsx s = some (pc, t)) : t.stored := by
  unfold popRet at ht
  dsimp only at ht
  split at ht
  · obtain ⟨-, rfl⟩ := Prod.mk.inj (Option.some.inj ht)
    exact h
  · split at ht
    · cases ht
    · obtain ⟨-, rfl⟩ := Prod.mk.inj (Option.some.inj ht)
      exact .ite (.countWrap (.modStrand h)) (.modStrand h)

protected theorem Answers.execBc {e} : Answers s (execBc e s) := .onStrand (fun _ _ h => .ite (.jumpTo h) h)

protected theorem Answers.execJmp {e} : Answers s (execJmp e s) := .onStrand (fun _ _ h => .jumpTo h)

protected theorem State.stored.callTo {e i target} (h : s.stored) : (callTo e i target s).stored := by
  unfold callTo
  split
  · next ht => exact .jumpTo ((StoredIn.pushRet h _ ht))
  · exact .strandTrap h

protected theorem Answers.execCall {e} : Answers s (execCall e s) := .onStrand (fun _ _ h => .callTo h)

protected theorem Answers.execJr {e} : Answers s (execJr e s) :=
  .onStrand (fun _ _ h => .ite (.jumpTo h) (.strandTrap h))

protected theorem Answers.execCallr {e} : Answers s (execCallr e s) :=
  .onStrand (fun _ _ h => .ite (.callTo h) (.strandTrap h))

protected theorem Answers.execRet {e} : Answers s (execRet e s) := by
  refine .onStrand fun _ _ h => ?_
  split
  · next ht => exact .jumpTo (h.popRet ht)
  · exact .strandTrap h

protected theorem State.stored.postInc {e i n load} (h : s.stored) : (postInc e i n load s).stored :=
  .foldl (fun _ _ h => .pushWrite h) h

protected theorem State.stored.storeFirst {e k} (h : s.stored) : (storeFirst e k s).stored := .localStore h

protected theorem State.stored.storeRest {e k} (h : s.stored) : (storeRest e k s).stored := .localStore h

protected theorem State.stored.storeFrame {e k} (h : s.stored) : (storeFrame e k s).stored :=
  .ite (.storeRest (.ite h (.storeFirst h))) (.localStore h)

protected theorem State.stored.drainOldest {e} (h : s.stored) : (drainOldest e s).stored := by
  unfold drainOldest
  dsimp only
  split
  · exact h
  · split
    · exact .storeFrame (.setEng h)
    · exact .countWrite (.modEng (.setEng h))
    · exact .withRpath (.setEng h)
    · exact .ite (.writeEng (.writeEng (.setEng h))) (.writeEng (.setEng h))

protected theorem Answers.execStoreDrain {e} : Answers s (execStoreDrain e s) := by
  unfold execStoreDrain
  split
  · exact .next id
  · exact .ite (.next id) (.ite (.next fun h => .drainOldest h)
      (.ite (.next fun h => .modEng (.storeFirst h)) (.next fun h => .modEng (.drainOldest h))))

protected theorem State.stored.bufferStore {e k} (h : s.stored) : (bufferStore e k s).stored := .modEng h

protected theorem State.stored.waitLoad {e i} (h : s.stored) : (waitLoad e i s).stored :=
  .stayInExec (.ite h (.satInc h))

protected theorem State.stored.frameLoad {e i off n x k} (hk : ∀ i w n s, s.stored → (k i w n s).stored) (h : s.stored)
    :
    (frameLoad e i off n x k s).stored := by
  unfold frameLoad
  dsimp only
  refine .ite (.stallInExec h) ?_
  have hdrained {c : Prop} [Decidable c] : (if c then drainOldest e s else s).stored := .ite (.drainOldest h) h
  split
  · exact .ite (hk _ _ _ _ (.usePort hdrained)) (.waitLoad (.ite hdrained (.usePort hdrained)))
  · split
    · exact hk _ _ _ _ (.localLoad (.upset (.usePort hdrained)))
    · exact .strandTrap (.localLoad (.upset (.usePort hdrained)))

protected theorem State.stored.granaryRead {e i a n signed op} (h : s.stored) :
    (granaryRead e i a n signed op s).stored :=
  .modStrand (.modEng (.setEng h))

protected theorem State.stored.pathRead {e i a n signed} (h : s.stored) : (pathRead e i a n signed s).stored :=
  .modStrand (.withRpath h)

protected theorem State.stored.pathLoad {e i a n signed} (h : s.stored) : (pathLoad e i a n signed s).stored :=
  .ite (.stayInExec h) (.postInc (.pathRead h))

protected theorem State.stored.ownRegLoad {e off n} (h : s.stored) : (ownRegLoad e off n s).2.stored :=
  .ite_2 (.readEng (.readEng h)) (.readEng h)

protected theorem State.stored.loadInst {e signed u i} (h : s.stored) : (loadInst e signed u i s).stored := by
  unfold loadInst
  dsimp only
  split
  · exact .strandTrap h
  · exact .frameLoad (fun _ _ _ _ h => .ite (.modStrand (.postInc (.writeD h))) (.postInc (.writeD h))) h
  · refine .ite (.strandTrap h) ?_
    split
    · exact .postInc (.writeD (.modStrand (.localLoad (.upset h))))
    · exact .strandTrap (.localLoad (.upset h))
  · exact .ite (.strandTrap h) (.ite (.waitLoad h) (.postInc (.writeD (.ownRegLoad h))))
  · exact .ite (.strandTrap h) (.ite (.stayInExec h) (.postInc (.granaryRead h)))
  · exact .ite (.strandTrap h) (.pathLoad h)
  · exact .ite (.strandTrap h) (.pathLoad h)

protected theorem Answers.execLd {e u} : Answers s (execLd e u s) := .onStrand (fun _ _ h => .loadInst h)

protected theorem Answers.execLds {e u} : Answers s (execLds e u s) := .onStrand (fun _ _ h => .loadInst h)

protected theorem Answers.execSt {e} : Answers s (execSt e s) := by
  unfold execSt
  dsimp only
  refine .onStrand (fun _ _ h => ?_)
  split
  · exact .strandTrap h
  · exact .postInc (.bufferStore h)
  · exact .ite (.strandTrap h) (.postInc (.modEng (.localStore h)))
  · exact .ite (.strandTrap h) (.postInc (.bufferStore h))
  · exact .ite (.strandTrap h) (.postInc (.bufferStore h))
  · exact .ite (.strandTrap h) (.postInc (.bufferStore h))
  · exact .ite (.strandTrap h) (.postInc (.bufferStore h))

protected theorem Answers.execLadd {e u} : Answers s (execLadd e u s) := by
  unfold execLadd
  dsimp only
  refine .onStrand (fun _ _ h => ?_)
  split
  · exact .frameLoad (fun _ _ _ _ h => .postInc (.writeD h)) h
  · exact .strandTrap h

protected theorem Answers.execLfadd {e u} : Answers s (execLfadd e u s) := by
  unfold execLfadd
  dsimp only
  refine .onStrand (fun _ _ h => ?_)
  split
  · exact .frameLoad (fun _ _ _ _ h => .strandFloat h) h
  · exact .strandTrap h

protected theorem Answers.execLr {e u} : Answers s (execLr e u s) := by
  unfold execLr
  dsimp only
  refine .onStrand (fun _ _ h => ?_)
  split
  · exact .ite (.strandTrap h) (.frameLoad (fun _ _ _ _ h => .postInc (.writeD (.writeResult (.modEng h)))) h)
  · exact .strandTrap h

protected theorem Answers.execSc {e} : Answers s (execSc e s) := by
  unfold execSc
  dsimp only
  refine .onStrand (fun _ _ h => ?_)
  split
  · exact .ite (.strandTrap h) (.ite (.stayInExec h)
      (.ite (.stallInExec h)
      (.postInc (.writeD (.writeResult (.ite (.usePort (.localStore (.modEng h))) (.modEng h)))))))
  · exact .strandTrap h

protected theorem Answers.execTas {e u} : Answers s (execTas e u s) := by
  unfold execTas
  dsimp only
  refine .onStrand (fun _ _ h => ?_)
  split
  · refine .ite (.strandTrap h) ?_
    refine .ite (.stayInExec h) ?_
    refine .ite (.stallInExec h) ?_
    split
    · exact .postInc (.writeD (.localStore (.localLoad (.upset (.usePort h)))))
    · exact .strandTrap (.localLoad (.upset (.usePort h)))
  · exact .ite (.strandTrap h) (.ite (.stayInExec h) (.postInc (.granaryRead h)))
  · exact .strandTrap h

protected theorem Answers.gmemInst {e sz g} (hg : ∀ i a s, s.stored → (g i a s).stored) : Answers s
    (gmemInst e sz g s) := by
  refine .onStrand fun _ _ h => ?_
  split
  · exact .ite (.strandTrap h) (hg _ _ _ h)
  · exact .strandTrap h

protected theorem State.stored.gmemRead {e op i a} (h : s.stored) : (gmemRead e op i a s).stored :=
  .ite (.stayInExec h) (.postInc (.granaryRead h))

protected theorem Answers.execGmemTake {e} : Answers s (execGmemTake e s) := .gmemInst (fun _ _ _ h => .gmemRead h)

protected theorem Answers.execGmemQuery {e} : Answers s (execGmemQuery e s) := .gmemInst (fun _ _ _ h => .gmemRead h)

protected theorem Answers.execGmemStore {e} : Answers s (execGmemStore e s) :=
  .gmemInst (fun _ _ _ h => .postInc (.bufferStore h))

protected theorem Answers.execGmemClear {e} : Answers s (execGmemClear e s) :=
  .gmemInst (fun _ _ _ h => .postInc (.bufferStore h))

protected theorem State.stored.finishAccess {e a w poison} (h : s.stored) : (finishAccess e a w poison s).stored := by
  unfold finishAccess
  dsimp only
  refine .ite ?_ (.modStrand (.pushWrite h))
  refine .trapCtx ?_
  split
  · exact .modStrand h
  · exact h

protected theorem State.stored.finishPending {e m w poison} (h : s.stored) : (finishPending e m w poison s).stored := by
  unfold finishPending
  dsimp only
  refine .ite ?_ (.notify (.ite (.store (.modEng h)) (.store (.store (.modEng h)))))
  refine .notify ?_
  refine .raiseEngine ?_
  refine .recordTrap ?_
  split
  · exact .store (.store (.store (.store (.store (.modEng h)))))
  · exact .store (.store (.store (.store (.modEng h))))

protected theorem Answers.execStrandReply {e} : Answers s (execStrandReply e s) := by
  unfold execStrandReply
  dsimp only
  split
  · exact .next id
  · split
    · exact .next fun h => .finishAccess (.ite (.detect (.setEng h)) (.setEng h))
    · split
      · exact .next fun h => .finishPending (.ite (.detect (.setEng h)) (.setEng h))
      · exact .next fun h => .satInc (.setEng h)

protected theorem Answers.execRep {e} : Answers s (execRep e s) := by
  unfold execRep
  split
  · exact .ite (.next fun h => .issueRep h) (.next id)
  · exact .next id

protected theorem State.stored.leaveAt {e i why deadline g} (h : s.stored) : (leaveAt e i why deadline g s).stored :=
  .leaveEngine h

protected theorem Answers.execAwait {e} : Answers s (execAwait e s) := .onStrand (fun _ _ h => .leaveAt h)

protected theorem Answers.execYield {e} : Answers s (execYield e s) := .onStrand (fun _ _ h => .leaveAt h)

protected theorem Answers.execExit {e} : Answers s (execExit e s) := .onStrand (fun _ _ h => .leaveAt h)

protected theorem Answers.execTrap {e} : Answers s (execTrap e s) := .onStrand (fun _ _ h => .strandTrap h)

protected theorem State.stored.strandToken {e i k} (h : s.stored) : (strandToken e i k s).stored :=
  .ite (.strandTrap h) (.modEng h)

protected theorem Answers.execStrandSend {e} : Answers s (execStrandSend e s) :=
  .onStrand (fun _ _ h => .strandToken h)

protected theorem Answers.execBsend {e} : Answers s (execBsend e s) := .onStrand (fun _ _ h => .strandToken h)

protected theorem State.stored.sheafPayloads {e off n} (h : s.stored) : (sheafPayloads e off n s).2.2.stored := by
  induction n generalizing s off with
  | zero => exact h
  | succ n ih =>
    have hloads : (localLoad .frame e (off + 8) 8 (localLoad .frame e off 8 s).2).2.stored := .localLoad (.localLoad h)
    rw [sheafPayloads]
    obtain ⟨load, hl⟩ := exists_eq (a' := @localLoad)
    rw [← hl] at hloads ⊢
    exact ih hloads

protected theorem Answers.execShf {e} : Answers s (execShf e s) :=
  .onStrand (fun _ _ h => .ite (.strandTrap h)
    (.ite (.strandTrap h)
    (.ite (.strandTrap h)
    (.ite (.strandTrap h)
    (.ite (.stayInExec h)
    (.ite (.stallInExec h)
    (.ite (.strandTrap (.sheafPayloads (.usePort h)))
    (.modStrand (.ite (.countWrite (.modEng (.sheafPayloads (.usePort h))))
    (.modEng (.sheafPayloads (.usePort h))))))))))))

protected theorem Answers.execStrandFence {e} : Answers s (execStrandFence e s) :=
  .onStrand (fun _ _ h => .fenceSlotStep (.modStrand h))

protected theorem Answers.execSyncI {e} : Answers s (execSyncI e s) := .onStrand (fun _ _ h => .jumpTo h)

protected theorem Answers.execMff {e} : Answers s (execMff e s) := .onStrand (fun _ _ h => .writeD h)

protected theorem Answers.execMtf {e} : Answers s (execMtf e s) := .onStrand (fun _ _ h => .writeResult h)

protected theorem Answers.execMfc {e} : Answers s (execMfc e s) := .onStrand (fun _ _ h => .writeD h)

protected theorem Answers.execMtc {e} : Answers s (execMtc e s) := .onStrand (fun _ _ h => .writeResult h)

protected theorem Answers.execCtxn {e} : Answers s (execCtxn e s) := .onStrand (fun _ _ h => .writeD (.requestCtx h))

protected theorem Answers.execCtxf {e} : Answers s (execCtxf e s) := by
  unfold execCtxf
  refine .onStrand (fun _ _ h => ?_)
  refine .ite (.strandTrap (.setFlag h)) ?_
  split
  · next ht => exact .writeD ((StoredIn.freeContext h _ ht))
  · exact .writeD h

protected theorem State.stored.sheafWord {m e off v} (h : s.stored) : (sheafWord m e off v s).stored :=
  .ite (.localStore h) h

protected theorem State.stored.takeSheaf {e} (h : s.stored) : (takeSheaf e s).stored := by
  unfold takeSheaf
  dsimp only
  refine .ite h ?_
  split
  · exact .ite (.setEng h) (.ite (.detect (.setEng h)) (.ite (.detect (.setEng h)) (.modEng (.setEng h))))
  · exact h

protected theorem State.stored.writeSheaf {e} (h : s.stored) : (writeSheaf e s).stored := by
  unfold writeSheaf
  dsimp only
  split
  · exact h
  · exact .ite h (.ite (.setEng h) (.sheafWord (.sheafWord (.setEng h))))

protected theorem Answers.execSheafRspWrite {e} : Answers s (execSheafRspWrite e s) :=
  .next fun h => .writeSheaf (.takeSheaf h)

end Sys2Proof.Machine
end

section
/-! SUPPORT. What a microword keeps (O3, O16). -/

namespace Sys2Proof.Machine

variable {s t u : State}

protected theorem State.stored.ucodeEcc {code e w} (h : s.stored) : (ucodeEcc code e w s).stored := .detect h

protected theorem State.stored.readMicro {e w} (h : s.stored) : (readMicro e w s).2.stored := by
  unfold readMicro
  split
  · exact h
  · exact .ucodeEcc h
  · exact h

protected theorem State.stored.recordAbort {e cause strand upc} (h : s.stored) :
    (recordAbort e cause strand upc s).stored :=
  .wr h

protected theorem State.stored.freeSeq {e} (h : s.stored) : (freeSeq e s).stored := .modEng h

protected theorem State.stored.endRoutineBlock {e} (h : s.stored) : (endRoutineBlock e s).stored := .modStrand h

protected theorem State.stored.countLate {e r} (h : s.stored) : (countLate e r s).stored := .satAdd h

protected theorem State.stored.abortRoutine {e r cause addr} (h : s.stored) :
    (abortRoutine e r cause addr s).stored := by
  unfold abortRoutine
  extract_lets s1
  have hfree {b} : (freeSeq e (recordAbort e cause b r.upc s1)).stored := .freeSeq (.recordAbort (.countLate h))
  split
  · exact .ite (.ucodeEcc hfree) (.ite hfree (.detect hfree))
  · exact .strandTrap (.ite (.ucodeEcc (.endRoutineBlock hfree)) (.endRoutineBlock hfree))

protected theorem State.stored.strandSetW {e i v cost} (h : s.stored) : (strandSetW e i v cost s).stored :=
  .pushWrite h

protected theorem State.stored.microWrite {e r n v cost} (h : s.stored) : (microWrite e r n v cost s).2.stored := by
  unfold microWrite
  dsimp only
  split
  · exact h
  · split
    · exact h
    · split
      · exact h
      · exact .ite (.strandSetW h) (.ite (.strandSetW h) (.ite (.strandSetW h) h))

protected theorem State.stored.goOn {e r next cost} (h : s.stored) : (goOn e r next cost s).stored :=
  .ite (.abortRoutine h) (.ite (.abortRoutine h) (.modEng h))

protected theorem State.stored.seqNext {e r cost} (h : s.stored) : (seqNext e r cost s).stored := .goOn h

protected theorem State.stored.holdMicro {e r} (h : s.stored) : (holdMicro e r s).stored := .goOn h

protected theorem Answers.onMicro {e x kind g} (hg : ∀ r w s, s.stored → (g r w s).stored) :
    Answers s (onMicro e x kind g s) := by
  unfold onMicro
  split
  · exact .next id
  · exact .ite (.ite (.next fun h => .abortRoutine (.readMicro (.upset h)))
      (.next fun h => hg _ _ _ (.readMicro (.upset h))))
      (.next id)

protected theorem State.stored.microResult {e r n v cost} (h : s.stored) : (microResult e r n v cost s).stored :=
  .ite (.seqNext (.microWrite h)) (.abortRoutine h)

protected theorem Answers.execOper {e u} : Answers s (execOper e u s) := by
  unfold execOper
  dsimp only
  refine .onMicro (fun _ _ _ h => ?_)
  split
  · split
    · exact .ite (.abortRoutine h) (.microResult h)
    · exact .abortRoutine h
  · exact .abortRoutine h

protected theorem Answers.execLit {e u} : Answers s (execLit e u s) := by
  unfold execLit
  dsimp only
  refine .onMicro (fun _ _ _ h => ?_)
  split
  · exact .ite (.abortRoutine h) (.microResult h)
  · exact .abortRoutine h

protected theorem Answers.execMicroJmp {e u} : Answers s (execMicroJmp e u s) := by
  unfold execMicroJmp
  refine .onMicro (fun _ _ _ h => ?_)
  split
  · exact .ite (.goOn h) (.abortRoutine h)
  · exact .abortRoutine h

protected theorem Answers.execMicroCall {e u} : Answers s (execMicroCall e u s) := by
  unfold execMicroCall
  refine .onMicro (fun _ _ _ h => ?_)
  split
  · exact .ite (.abortRoutine h) (.goOn h)
  · exact .abortRoutine h

protected theorem Answers.execMicroRet {e u} : Answers s (execMicroRet e u s) := by
  unfold execMicroRet
  refine .onMicro (fun _ _ _ h => ?_)
  refine .ite (.abortRoutine h) ?_
  split
  · exact .abortRoutine h
  · exact .goOn h

protected theorem State.stored.microRaise {e r fl lam} (h : s.stored) : (microRaise e r fl lam s).stored := .modEng h

protected theorem Answers.execMicroFma {e u} : Answers s (execMicroFma e u s) := by
  unfold execMicroFma
  dsimp only
  refine .onMicro (fun _ _ _ h => ?_)
  split
  · exact .ite (.abortRoutine h) (.ite (.abortRoutine h) (.microResult (.microRaise h)))
  · exact .abortRoutine h

protected theorem Answers.execMicroMul {e u} : Answers s (execMicroMul e u s) := by
  unfold execMicroMul
  dsimp only
  refine .onMicro (fun _ _ _ h => ?_)
  split
  · exact .ite (.abortRoutine h) (.ite (.holdMicro h) (.microResult h))
  · exact .abortRoutine h

protected theorem Answers.execMicroDiv {e u} : Answers s (execMicroDiv e u s) := by
  unfold execMicroDiv
  dsimp only
  refine .onMicro (fun _ _ _ h => ?_)
  split
  · exact .ite (.abortRoutine h) (.ite (.abortRoutine h) (.microResult (.microRaise (.modEng h))))
  · exact .abortRoutine h

protected theorem State.stored.microFrame {e r a g} (hg : ∀ n s, s.stored → (g n s).stored) (h : s.stored) :
    (microFrame e r a g s).stored :=
  .ite (.abortRoutine h) (.ite (.holdMicro h) (hg _ _ (.usePort h)))

protected theorem Answers.execLdf {e u} : Answers s (execLdf e u s) := by
  unfold execLdf
  dsimp only
  refine .onMicro (fun _ _ _ h => ?_)
  split
  · refine .ite (.abortRoutine h) ?_
    refine .microFrame (fun _ _ h => ?_) h
    split
    · exact .microResult (.localLoad h)
    · exact .abortRoutine (.localLoad h)
  · exact .abortRoutine h

protected theorem Answers.execStf {e u} : Answers s (execStf e u s) := by
  unfold execStf
  refine .onMicro (fun _ _ _ h => ?_)
  split
  · exact .ite (.abortRoutine h) (.microFrame (fun _ _ h => .seqNext (.localStore h)) h)
  · exact .abortRoutine h

protected theorem Answers.execPoll {e u} : Answers s (execPoll e u s) := by
  unfold execPoll
  dsimp only
  refine .onMicro (fun _ _ _ h => ?_)
  refine .ite (.abortRoutine h) ?_
  refine .ite (.seqNext h) ?_
  split
  · exact .ite (.abortRoutine h) (.modEng (.satInc (.countLate h)))
  · exact .jumpTo (.endRoutineBlock (.freeSeq (.satInc (.countLate h))))

protected theorem Answers.execMicroEnd {e u} : Answers s (execMicroEnd e u s) := by
  unfold execMicroEnd
  dsimp only
  refine .onMicro (fun _ _ _ h => ?_)
  refine .ite (.abortRoutine h) ?_
  split
  · exact .modEng (.freeSeq (.countLate h))
  · exact .modStrand (.ite (.strandSetW (.freeSeq (.countLate h))) (.freeSeq (.countLate h)))

protected theorem Answers.execCustomerNode {e} : Answers s (execCustomerNode e s) := by
  unfold execCustomerNode
  dsimp only
  split
  · exact .next id
  · exact .ite (.next id) (.ite (.next fun h => .nodeResult (.modEng h)) (.next fun h => .modEng (.modEng h)))

protected theorem Answers.execCustomerInstr {e} : Answers s (execCustomerInstr e s) :=
  .ite (.next id) (.onStrand (fun _ _ h => .modStrand (.modEng h)))

protected theorem Answers.execRoutineResume {e} : Answers s (execRoutineResume e s) := by
  unfold execRoutineResume
  dsimp only
  split
  · exact .next id
  · exact .ite (.next fun h => .setEng h) (.next id)

protected theorem Answers.execUcodeWindowRead {req e off u} : Answers s (execUcodeWindowRead req e off u s) :=
  .ite (.next fun h => .countUr h) (.ite (.next fun h => .answer (.rsvd h))
    (.next fun h => .answer (.ite (.ucodeEcc (.readMicro (.upset h))) (.readMicro (.upset h)))))

end Sys2Proof.Machine
end

section
/-! SUPPORT. What the mesh keeps (O3, O16). -/

namespace Sys2Proof.Machine

variable {s t u : State}

protected theorem State.stored.lookupDraw (h : s.stored) : (lookupDraw s).stored := .ite (.draw h) h

protected theorem State.stored.countDiscard {n} (h : s.stored) : (countDiscard n s).stored := .satAdd h

protected theorem State.stored.noteRead {w} (h : s.stored) : (s.noteRead w).stored := .withReads h

protected theorem State.stored.noteWrite {w f} (h : s.stored) : (noteWrite w f s).stored := .withWleft h

protected theorem StoredIn.dropWrite {w f} (h : s.stored) : StoredIn (dropWrite w f s) := by
  have hnote : (noteWrite w f (countDiscard 1 s)).stored := .noteWrite (.countDiscard h)
  exact .ite .none (.some (.ite (.withDropping hnote) hnote))

protected theorem State.stored.pushQ {site toMesh chan f} (h : s.stored) : (pushQ site toMesh chan f s).stored := by
  unfold pushQ
  dsimp only
  split
  · next ht => exact (StoredIn.dropWrite h _ ht)
  · exact .setQ (.noteWrite (.ite (.stir h) (.stirDevice h)))

protected theorem State.stored.setHold {k v} (h : s.stored) : (setHold k v s).stored := .withHolds h

protected theorem State.stored.passHold {k who f} (h : s.stored) : (passHold k who f s).stored := by
  unfold passHold
  split
  · exact .setHold h
  · exact .ite h (.setHold h)

protected theorem State.stored.setRq {k hs} (h : s.stored) : (setRq k hs s).stored := .withRouters h

protected theorem State.stored.arrive {k dest f} (h : s.stored) : (arrive k dest f s).stored := by
  unfold arrive
  dsimp only
  split
  · next ht => exact (StoredIn.dropWrite h _ ht)
  · exact .setRq (.withArrivals (.noteWrite (.stirDevice h)))

protected theorem State.stored.countEcc {uc} (h : s.stored) : (countEcc uc s).stored := .satInc h

protected theorem State.stored.toBlock {site f} (h : s.stored) : (toBlock site f s).stored :=
  .ite (.detect h) (.ite (.detect h) (.ite (.withDib rfl rfl h) (.ite (.withLck rfl h) (.withEvio h))))

protected theorem State.stored.setLink {n x} (h : s.stored) : (setLink n x s).stored := .withFabric h

protected theorem State.stored.modLink {n g} (h : s.stored) : (modLink n g s).stored := .setLink h

protected theorem State.stored.returnCredit {site chan toMesh} (h : s.stored) :
    (returnCredit site chan toMesh s).stored :=
  .ite (.modLink h) h

protected theorem State.stored.setQuadRq {q j fs} (h : s.stored) : (setQuadRq q j fs s).stored := .setQuad h

protected theorem State.stored.pushAll {site chan fs} (h : s.stored) : (pushAll site chan fs s).2.stored := by
  induction fs generalizing s with
  | nil => exact h
  | cons f fs ih => exact .ite_2 (ih (.pushQ h)) h

protected theorem State.stored.drainTx {q j} (h : s.stored) : (drainTx q j s).stored := .setQuad (.pushAll h)

protected theorem State.stored.drainBlock {site} (h : s.stored) : (drainBlock site s).stored := .withTx (.pushAll h)

protected theorem State.stored.blockSend {site f} (h : s.stored) : (blockSend site f s).stored :=
  .drainBlock (.withTx (.stirDevice h))

protected theorem State.stored.toQuad {q j f} (h : s.stored) : (toQuad q j f s).stored := .setQuadRq h

protected theorem State.stored.deliverFlit {site chan toMesh dest f} (h : s.stored) :
    (deliverFlit site chan toMesh dest f s).stored :=
  .ite (.arrive h) (.ite (.modPlot h) (.ite (.toBlock h) (.toQuad h)))

protected theorem State.stored.topUp {site toMesh chan} (h : s.stored) : (topUp site toMesh chan s).stored :=
  .ite h (.countDiscard (.setQ (.withAppends h)))

protected theorem State.stored.seeLinkOff (h : s.stored) : (seeLinkOff s).stored :=
  .ite h (.foldl (fun _ _ h => .setFlag h) (.withPower h))

protected theorem State.stored.endFlush {k} (h : s.stored) : (endFlush k s).stored :=
  .ite (.seeLinkOff (.withFlushing h)) h

protected theorem State.stored.drainWriter {site toMesh chan} (h : s.stored) :
    (drainWriter site toMesh chan s).stored :=
  .ite (.drainTx h) (.ite (.drainBlock h) h)

protected theorem State.stored.siteDetect {site chan toMesh plotCode devCode f} (h : s.stored) :
    (siteDetect site chan toMesh plotCode devCode f s).stored :=
  .dite (fun _ => .detectAt h) (fun _ => .detectAt h)

protected theorem State.stored.afterRead {site toMesh chan} (h : s.stored) : (afterRead site toMesh chan s).stored :=
  .endFlush (.topUp h)

protected theorem State.stored.takeHead {site chan toMesh f} (h : s.stored) : (takeHead site chan toMesh f s).stored :=
    by
  unfold takeHead
  dsimp only
  refine .ite (.passHold (.siteDetect h)) ?_
  refine .ite ?_ (.passHold (.deliverFlit h))
  split
  · exact .passHold (.deliverFlit h)
  · exact .passHold (.detect (.satInc h))

protected theorem State.stored.payOwed {site chan toMesh} (h : s.stored) : (payOwed site chan toMesh s).stored := by
  unfold payOwed
  dsimp only
  split
  · exact .deliverFlit (.passHold (.withOwed h))
  · exact .withOwed h

protected theorem State.stored.followHead {site chan toMesh d n g} (h : s.stored) :
    (followHead site chan toMesh d n g s).stored := by
  unfold followHead
  dsimp only
  split
  · exact .ite (.deliverFlit (.siteDetect h)) (.deliverFlit h)
  · exact .ite (.deliverFlit (.siteDetect h)) (.deliverFlit h)
  · exact .deliverFlit h

protected theorem State.stored.cutSheaf {site chan toMesh d n f} (h : s.stored) :
    (cutSheaf site chan toMesh d n f s).stored :=
  .ite (.setHold h) (.withOwed (.siteDetect h))

protected theorem State.stored.moveFlit {q upset f fs} (h : s.stored) : (moveFlit q upset f fs s).stored := by
  unfold moveFlit
  extract_lets site chan k hold s1 s2 g found s3
  have h2 : s2.stored := .drainWriter (.lookupDraw (.returnCredit (.afterRead (.noteRead (.setQ h)))))
  clear_value hold found
  have h3 : s3.stored := by
    dsimp only [s3]
    split
    · exact h2
    · exact .countEcc (.siteDetect h2)
    · exact .countEcc (.siteDetect h2)
  clear_value s3
  split
  · exact .takeHead h3
  · exact .takeHead h3
  · exact .passHold h3
  · exact .ite (.passHold h3) (.followHead (.passHold h3))

protected theorem Answers.execQueueTransfer {q upset} : Answers s (execQueueTransfer q upset s) := by
  unfold execQueueTransfer
  dsimp only
  refine .ite (.next id) ?_
  refine .ite (.next fun h => .ite (.payOwed h) h) ?_
  split
  · exact .next fun h => .drainWriter (.endFlush h)
  · refine .ite (.next id) ?_
    split
    · exact .ite (.next fun h => .cutSheaf h) (.next fun h => .moveFlit h)
    · exact .next fun h => .moveFlit h

protected theorem State.stored.flushQueue {site toMesh chan writerReset} (h : s.stored) :
    (flushQueue site toMesh chan writerReset s).stored :=
  .afterRead (.ite (.withFlushing h) (.withFlushingDroppingAppends h))

protected theorem Answers.execQueueFlush {q} : Answers s (execQueueFlush q s) :=
  .ite (.next id) (.next fun h => .flushQueue h)

protected theorem State.stored.recordReset {q n} (h : s.stored) : (recordReset q n s).stored :=
  .addMask (.detect (.ite (.raiseEvent (.wr (.satInc h))) (.wr (.satInc h))))

protected theorem State.stored.resetSides {w n} (h : s.stored) : (resetSides w n s).stored :=
  .ite (.ite h (.withDropping h)) (.countDiscard (.withOwed (.ite h (.withDropping h))))

protected theorem State.stored.emptyQueue {site toMesh chan} (h : s.stored) :
    (emptyQueue site toMesh chan s).stored := by
  unfold emptyQueue
  extract_lets k fs _ s1 s2 s3
  have h3 : s3.stored :=
    .withAppends (.foldl (fun _ _ h => .returnCredit h) (.countDiscard (.withReads (.setQ h))))
  clear_value s3
  refine .endFlush ?_
  split
  · exact .ite (.resetSides (.setHold h3)) (.resetSides h3)
  · exact .resetSides h3

protected theorem State.stored.emptyRegQueue {site out ks} (h : s.stored) : (emptyRegQueue site out ks s).2.stored := by
  induction ks generalizing s with
  | nil => exact h
  | cons k ks ih =>
    have hrest := ih (.ite_2 (.draw h) h : (if standsAt site out k then s.draw else ((0 : Word), s)).2.stored)
    exact .ite_2 hrest (.countDiscard hrest)

protected theorem Answers.execQueueReset {c} : Answers s (execQueueReset c s) :=
  .ite (.next id) (.ite (.ite (.next id) (.next fun h => .recordReset
    (.resetSides (.setRq (.countDiscard (.withReads h))))))
    (.ite (.ite (.next id) (.next fun h => .recordReset (.withRpath (.ite_2 (.emptyRegQueue h) h))))
    (.ite (.next id) (.next fun h => .recordReset (.emptyQueue h)))))

protected theorem State.stored.popFifo {p a} (h : s.stored) : (popFifo p a s).stored :=
  .ite (.ite (.setRq (.noteRead h)) (.withDests (.setRq (.noteRead h)))) (.withOwed h)

protected theorem State.stored.waitFifo {p a} (h : s.stored) : (waitFifo p a s).stored := .ite (.setRq h) h

protected theorem State.stored.countWait {w} (h : s.stored) : (countWait w s).stored :=
  .ite (.ite (.raiseEvent (.satInc (.ite (.setFld h) h))) (.satInc (.ite (.setFld h) h))) (.ite (.setFld h) h)

protected theorem State.stored.countLink {p out chan} (h : s.stored) : (countLink p out chan s).stored :=
  .ite (.inc64 h) h

protected theorem State.stored.tokenAbsent {p f} (h : s.stored) : (tokenAbsent p f s).stored :=
  .dite (fun _ => .detect h) (fun _ => h)

protected theorem Answers.execRouterFlit {p out} : Answers s (execRouterFlit p out s) := by
  unfold execRouterFlit
  extract_lets best s1
  have h1 (h : s.stored) : s1.stored := .foldl (fun _ _ h => .ite h (.waitFifo h)) h
  clear_value s1 best
  split
  · exact .next h1
  · extract_lets s2 f held s3 s4
    have h3 (h : s.stored) : s3.stored := .passHold (.popFifo (h1 h))
    have h4 (h : s.stored) : s4.stored := .countLink (.ite (.countWait (h3 h)) (h3 h))
    refine .ite (.ite (.next fun h => ?_) (.next fun h => .pushQ (h4 h)))
      (.ite (.next fun h => .pushQ (h4 h)) (.next fun h => .arrive (h4 h)))
    split
    · next ht => exact StoredIn.dropWrite (h4 h) _ ht
    · exact .ite (h4 h) (.tokenAbsent (h4 h))

protected theorem Answers.execMeshLinkselWrite {req v} : Answers s (execMeshLinkselWrite req v s) := by
  unfold execMeshLinkselWrite
  refine .ite (.next fun h => .countUr h) ?_
  refine .ite (.next id) ?_
  split
  · exact .next fun h => .wr64 (.plainWrite h)
  · exact .next fun h => .rsvd h

protected theorem State.stored.endDeposit {p} (h : s.stored) : (endDeposit p s).stored :=
  .ite (.seeRefusals (.modPlot h)) h

protected theorem State.stored.dropHead {p h'} (h : s.stored) : (dropHead p h' s).stored :=
  .ite (.modEng h) (.ite (.endDeposit (.modPlot h)) (.modPlot h))

protected theorem State.stored.toSlotIntake {e inp chan f} (h : s.stored) : (toSlotIntake e inp chan f s).stored :=
  .modEng h

protected theorem State.stored.depositToken {p f} (h : s.stored) : (depositToken p f s).stored := by
  unfold depositToken
  dsimp only
  split
  · exact h
  · exact .satInc (.modPlot (.writePool h))

protected theorem State.stored.crossHead {p h'} (h : s.stored) : (crossHead p h' s).stored :=
  .ite (.depositToken (.passHold (.dropHead h)))
    (.ite (.pushQ (.passHold (.dropHead h))) (.toSlotIntake (.passHold (.dropHead h))))

/-- What the first of a list gives that gives anything. -/
protected theorem StoredIn.findSome? {α : Type} {l : List α} {f : α → Option State} (hf : ∀ x, StoredIn (f x)) :
    StoredIn (l.findSome? f) := by
  intro t ht
  obtain ⟨x, -, hx⟩ := List.exists_of_findSome?_eq_some ht
  exact hf x t hx

protected theorem State.stored.transferHeld {p} (h : s.stored) : (transferHeld p s).stored := by
  have hwanted {l : List HoldIn} : (l.foldl (fun s k => wantPool p (lastSlot s p k) s) s).stored :=
    .foldl (fun _ _ h => .wantPool h) h
  unfold transferHeld
  dsimp only
  refine .ite h ?_
  split
  · next ht => exact StoredIn.findSome? (fun _ => .poolIntake h) _ ht
  · refine .ite hwanted ?_
    split
    · next ht => exact StoredIn.findSome? (fun _ => .releaseOne hwanted) _ ht
    · exact .wantReleases hwanted

protected theorem Answers.execCrossbarTransfer {p} : Answers s (execCrossbarTransfer p s) := by
  unfold execCrossbarTransfer
  extract_lets s1 hs s2 s3
  refine .next fun h => .modPlot ?_
  have h2 : s2.stored := .foldl (fun _ _ h => by
    split
    · exact .crossHead h
    · exact h) (.wantPool (.releaseHeld h))
  exact .ite h2 (.transferHeld h2)

end Sys2Proof.Machine
end

section
/-! SUPPORT. What the pruner's functions and the audit keep (O3, O16). -/

namespace Sys2Proof.Machine

variable {s t u : State}

protected theorem Answers.execSpillDrain {p} : Answers s (execSpillDrain p s) := by
  have hplace {i w} {s x : State} (h : s.stored) (hx : placeUnit p i w s = some x) : x.stored :=
    StoredIn.placeUnit h x hx
  conv in execSpillDrain => delta execSpillDrain
  obtain ⟨place, hp⟩ := exists_eq (a' := @placeUnit)
  rw [← hp] at hplace ⊢
  dsimp only
  refine .ite (.next id) (.ite (.next fun h => .wantWords h) ?_)
  split
  · next ht =>
    obtain ⟨w, -, hw⟩ := List.exists_of_findSome?_eq_some ht
    obtain ⟨x, hx, he⟩ := Option.map_eq_some_iff.mp hw
    obtain ⟨-, rfl⟩ := Prod.mk.inj he
    exact .next fun h => .modPlot (.stir (hplace h hx))
  · split
    · exact .next id
    · split
      · exact .next id
      · refine .ite (.next fun h => .wantWords h) ?_
        split
        · next ht => exact .next fun h => hplace (.stir (.modEng h)) ht
        · exact .next fun h => .modPlot (.satInc (.stir (.modEng h)))

protected theorem State.stored.freeSlot {p k} (h : s.stored) : (freeSlot p k s).stored :=
  .seeRefusals (.setSlotUsed h)

protected theorem State.stored.dropLost {p ks} (h : s.stored) : (dropLost p ks s).stored :=
  .foldl (fun _ _ h => .ite (.freeSlot (.slotLost (.port1Read h))) (.port1Read h)) h

protected theorem Answers.execRefillLookup {e u} : Answers s (execRefillLookup e u s) := by
  unfold execRefillLookup
  dsimp only
  split
  · refine .ite (.next fun h => .wantWords h) ?_
    refine .next fun h => ?_
    refine .modEng ?_
    refine .modPlot ?_
    refine .foldl (fun _ _ h => .freeSlot h) ?_
    refine .dropLost ?_
    split
    · exact .upset h
    · exact h
  · exact .next id

protected theorem State.stored.purgePool {p ks} (h : s.stored) : (purgePool p ks s).stored :=
  .countPurged (.modPlot h)

protected theorem State.stored.freeWindow {p c} (h : s.stored) : (freeWindow p c s).stored := by
  unfold freeWindow
  dsimp only
  split
  · exact h
  · refine .releaseHeld ?_
    refine .seeWindows ?_
    split
    · split
      · exact .modPlot (.modPlot (.purgePool h))
      · exact .modPlot (.purgePool h)
    · exact .modPlot (.relink (.relink (.modPlot (.purgePool h))))

protected theorem Answers.execWindowEntryFree {p} : Answers s (execWindowEntryFree p s) := by
  unfold execWindowEntryFree
  split
  · exact .ite (.next fun h => .wantWords h) (.next fun h => .freeWindow h)
  · exact .next id

protected theorem Answers.execDepositModeEnter {p} : Answers s (execDepositModeEnter p s) :=
  .ite (.next id) (.next fun h => .seeRefusals (.alert (.modPlot h)))

protected theorem Answers.execDepositMove {p} : Answers s (execDepositMove p s) := by
  unfold execDepositMove
  dsimp only
  refine .ite (.next id) ?_
  split
  · exact .next fun h => .endDeposit h
  · exact .ite (.next id) (.ite (.next fun h => .wantWords h) (.next fun h => .depositToken (.dropHead h)))

protected theorem State.stored.popDeposit {p} (h : s.stored) : (popDeposit p s).stored := .endDeposit (.modPlot h)

protected theorem Answers.execReinject {p} : Answers s (execReinject p s) := by
  unfold execReinject
  dsimp only
  split
  · exact .next fun h => .endDeposit h
  · refine .ite (.next id) ?_
    refine .ite (.next fun h => .wantWords h) ?_
    refine .ite (.next fun h => .popDeposit (.takePool h)) ?_
    split
    · exact .ite (.next fun h => .popDeposit (.modPlot (.takePool h))) (.next id)
    · exact .next fun h => .popDeposit (.takePool h)

protected theorem State.stored.dropLostDeposits {p} (h : s.stored) : (dropLostDeposits p s).stored :=
  .foldl (fun _ _ h => .ite (.relink (.modPlot (.takePool h))) (.port1Read h)) h

protected theorem Answers.execOverflowPurge {p} : Answers s (execOverflowPurge p s) := by
  unfold execOverflowPurge
  dsimp only
  split
  · exact .next id
  · exact .ite (.next id) (.ite (.next fun h => .wantWords h)
      (.next fun h => .seeRefusals
      (.freeWindow (.endDeposit
      (.modPlot (.relink (.purgePool
      (.relink (.purgePool
      (.countPurged (.countPurged
      (.countPurged (.foldl (fun _ _ h => .setSlotUsed h) (.dropLostDeposits (.dropLost h)))))))))))))))

protected theorem Answers.execPlotQuiescent {p} : Answers s (execPlotQuiescent p s) :=
  .ite (.next id) (.next fun h => .ite (.raiseEvent (.setFlag h)) (.setFlag h))

protected theorem Answers.execDeviceQuiescent : Answers s (execDeviceQuiescent s) :=
  .ite (.next id) (.next fun h => .raiseEvent (.setFlag h))

protected theorem State.stored.logRecord {type phys a b} (h : s.stored) : (logRecord type phys a b s).stored :=
  .ite h (.wr (.port1Words (.ite_2 (.draw h) h)))

protected theorem State.stored.reportEngine {e} (h : s.stored) : (reportEngine e s).stored := by
  unfold reportEngine
  dsimp only
  refine .foldl (fun _ _ h => .logRecord (.dite (fun _ => .debugSee h) (fun _ => h))) ?_
  refine .foldl (fun _ _ h => .logRecord h) ?_
  refine .foldl (fun _ _ h => .logRecord h) ?_
  split
  · exact .logRecord (.logRecord h)
  · exact .logRecord h

protected theorem State.stored.auditEngine {passes e} {r : State × Bool} (h : r.1.stored) :
    (auditEngine passes r e).1.stored := by
  unfold auditEngine
  dsimp only
  split
  · exact h
  · split
    · exact .setEng h
    · split
      · exact h
      · split
        · exact .reportEngine (.modEng (.setEng h))
        · exact .setEng h

/-- Every descriptor that is listed is one of the 16,384 (R301). -/
protected theorem State.stored.descNo (h : s.stored) : ∀ d, d ∈ s.dib.descs.map (·.1) → d < 16384 := by
  obtain ⟨-, -, -, -, -, -, -, hnos⟩ := h
  intro d hd
  obtain ⟨p, hp, rfl⟩ := List.mem_map.mp hd
  exact hnos p hp

protected theorem State.stored.auditDesc {passes d} {r : State × Bool} (hd : d < 16384) (h : r.1.stored) :
    (auditDesc passes r d).1.stored := by
  unfold auditDesc
  dsimp only
  split
  · exact h
  · split
    · exact .logRecord (.setDesc hd h)
    · exact .setDesc hd h

protected theorem State.stored.auditQuad {passes q} {r : State × Bool} (h : r.1.stored) :
    (auditQuad passes r q).1.stored := by
  refine List.foldlRecOn (motive := fun r : State × Bool => r.1.stored) _ _ h fun _ hr _ _ => ?_
  exact .logRecord hr

protected theorem Answers.execAuditPass : Answers s (execAuditPass s) := by
  have hengine {passes e} {r : State × Bool} (h : r.1.stored) : (auditEngine passes r e).1.stored := .auditEngine h
  conv in execAuditPass => delta execAuditPass
  obtain ⟨audit, ha⟩ := exists_eq (a' := @auditEngine)
  rw [← ha] at hengine ⊢
  extract_lets c period s1 s2 passes engines descs quads n s3
  refine .ite (.next id) (.ite (.next fun h => .wantWords h) (.next fun h => ?_))
  have h2 : s2.stored := .setFld (.withAuditAt h)
  have hengines : engines.1.stored :=
    List.foldlRecOn (motive := fun r : State × Bool => r.1.stored) _ _ h2 fun _ hr _ _ => hengine hr
  have hdescs : descs.1.stored := List.foldlRecOn (motive := fun r : State × Bool => r.1.stored) _ _ hengines
    fun _ hr d hd => .auditDesc (hengines.descNo d hd) hr
  have hquads : quads.1.stored :=
    List.foldlRecOn (motive := fun r : State × Bool => r.1.stored) _ _ hdescs fun _ hr _ _ => .auditQuad hr
  exact .ite (.raiseEvent (.setFld hquads)) (.setFld hquads)

protected theorem Answers.execPrunerExhausted {p} : Answers s (execPrunerExhausted p s) :=
  .ite (.next id) (.ite (.next fun h => .wantWords h) (.next fun h => .logRecord (.raiseEvent (.setFlag (.detect h)))))

protected theorem State.stored.writeOvf {p r v} (h : s.stored) : (writeOvf p r v s).stored :=
  .ite (.setFlag h) (.ite (.rsvd h) (.seeRefusals (.plainWrite h)))

end Sys2Proof.Machine
end

section
/-! SUPPORT. What the granary keeps (O3, O16). -/

namespace Sys2Proof.Machine

variable {s t u : State}

protected theorem State.stored.protFault {a w} (h : s.stored) : (protFault a w s).stored := .detect h

protected theorem State.stored.offFault {a w} (h : s.stored) : (offFault a w s).stored := .offBy h

protected theorem State.stored.respond {q g} (h : s.stored) : (respond q g s).stored := by
  unfold respond
  dsimp only
  split
  · exact .detect h
  · exact .drainTx (.setQuad h)

protected theorem State.stored.loseFrom {q j w} (h : s.stored) : (loseFrom q j w s).stored := .ite h (.satAdd h)

protected theorem Answers.execGrnEccWriteback {waddr} : Answers s (execGrnEccWriteback waddr s) :=
  .ite (.next id) (.ite (.next fun h => .wantWords h)
    (.ite (.next fun h => .setMark h) (.ite (.next id) (.next fun h => .satInc h))))

protected theorem State.stored.writeRing {code q k f} (h : s.stored) : (writeRing code q k f s).stored :=
  .port1Words h

protected theorem State.stored.modDir {q w g} (h : s.stored) : (modDir q w g s).stored := .setQuad h

protected theorem State.stored.park {q w f} (h : s.stored) : (park q w f s).stored :=
  .ite (.setQuad (.putPres h)) (.ite (.modDir (.setQuad (.writeRing (.putPres h))))
    (.ite (.raiseEvent (.satInc (.detect h))) (.satInc (.detect h))))

protected theorem State.stored.readFull {op w} (h : s.stored) : (readFull op w s).2.stored := by
  unfold readFull
  dsimp only
  split_ifs
  · exact .putPres h
  · exact h
  · dsimp only
    exact .portWrite h
  · exact h

protected theorem State.stored.serveRead {q f} (h : s.stored) : (serveRead q f s).stored :=
  .ite (.respond (.draw (.checkWord h))) (.ite (.respond (.checkWord h))
    (.ite (.respond (.readFull (.checkWord h))) (.park (.checkWord h))))

protected theorem State.stored.readRequest {q f} (h : s.stored) : (readRequest q f s).stored :=
  .ite (.respond (.offFault h)) (.serveRead h)

protected theorem State.stored.payAck {q c due} (h : s.stored) : (payAck q c due s).2.stored := by
  unfold payAck
  split
  · exact .ite_2 (.respond h) h
  · exact h

protected theorem State.stored.releaseReaders {q w fs} (h : s.stored) {c due} :
    (releaseReaders q w fs c due s).2.2.stored := by
  induction fs generalizing s c due with
  | nil => exact h
  | cons f fs ih => exact .ite_2_2 (ih (.modDir (.respond (.readFull (.loseFrom (.payAck h)))))) h

protected theorem State.stored.release {q w c due} (h : s.stored) : (release q w c due s).2.2.stored :=
  .setQuad (.ite (.putPres (.releaseReaders h)) (.releaseReaders h))

protected theorem State.stored.releaseAll {q ws} (h : s.stored) {c due} : (releaseAll q ws c due s).stored := by
  induction ws generalizing s c due with
  | nil =>
    unfold releaseAll
    split
    · exact .respond h
    · exact h
  | cons w ws ih => exact ih (.release h)

protected theorem State.stored.writeStore {op w mask v} (h : s.stored) : (writeStore op w mask v s).2.stored :=
  .ite_2 (.grnEcc h) (.ite_2 (.ite (.putPres (.ite (.grnEcc h) (.ite (.grnEcc h) h)))
    (.ite (.grnEcc h) (.ite (.grnEcc h) h)))
    (.ite_2 (.portWrite (.ite (.grnEcc h) (.ite (.grnEcc h) h))) (.portWrite (.ite (.grnEcc h) (.ite (.grnEcc h) h)))))

protected theorem State.stored.writeOp {q op w mask v} (h : s.stored) : (writeOp q op w mask v s).stored :=
  .ite (.release (.writeStore h)) (.writeStore h)

protected theorem State.stored.grnMalformed {q j f} (h : s.stored) : (grnMalformed q j f s).stored := .detect h

protected theorem State.stored.refuse {q f w} (h : s.stored) : (refuse q f w s).stored :=
  .ite (.respond (.protFault h)) (.ite (.respond (.protFault h)) (.respond (.protFault h)))

protected theorem StoredIn.intakeStops {q j f body} (h : s.stored) : StoredIn (intakeStops q j f body s) :=
  .ite (.some h) (.ite (.some (.detect h)) (.ite (.some (.grnMalformed h)) (.map fun _ => .refuse h)))

protected theorem Answers.onRequest {q j u fits g} (hg : ∀ f body s, s.stored → (g f body s).stored) :
    Answers s (onRequest q j u fits g s) := by
  unfold onRequest
  dsimp only
  split
  · refine .ite (.next fun h => .drainTx h) (.ite (.next fun h => .drainTx h) ?_)
    split
    · next ht => exact .next fun h => StoredIn.intakeStops (.setQuadRq (.drainTx h)) _ ht
    · exact .ite (.next fun h => .wantWords (.drainTx h)) (.next fun h => hg _ _ _ (.upset (.setQuadRq (.drainTx h))))
  · exact .next fun h => .drainTx h

protected theorem State.stored.onRead {q j f} (h : s.stored) : (onRead q j f s).stored := .readRequest (.loseFrom h)

protected theorem Answers.execGrnRead {q j u} : Answers s (execGrnRead q j u s) :=
  .onRequest (fun _ _ _ h => .onRead h)

protected theorem Answers.execGrnTake {q j u} : Answers s (execGrnTake q j u s) :=
  .onRequest (fun _ _ _ h => .onRead h)

protected theorem Answers.execPres {q j u} : Answers s (execPres q j u s) := .onRequest (fun _ _ _ h => .onRead h)

protected theorem Answers.execGrnTas {q j u} : Answers s (execGrnTas q j u s) := .onRequest (fun _ _ _ h => .onRead h)

protected theorem State.stored.writeRequest {q j f} (h : s.stored) : (writeRequest q j f s).stored :=
  .ite (.respond (.offFault h)) (.writeOp (.respond (.loseFrom h)))

protected theorem Answers.execKeep {q j u} : Answers s (execKeep q j u s) :=
  .onRequest (fun _ _ _ h => .writeRequest h)

protected theorem Answers.execFill {q j u} : Answers s (execFill q j u s) :=
  .onRequest (fun _ _ _ h => .writeRequest h)

protected theorem Answers.execClear {q j u} : Answers s (execClear q j u s) :=
  .onRequest (fun _ _ _ h => .writeRequest h)

protected theorem State.stored.sheafWrite {q j a op ws} (h : s.stored) {c} : (sheafWrite q j a op ws c s).2.stored := by
  induction ws generalizing s c with
  | nil => exact h
  | cons w ws ih => exact ih (.ite_2 (.offFault h) (.writeStore (.loseFrom h)))

protected theorem Answers.execSheafReq {q j u} : Answers s (execSheafReq q j u s) :=
  .onRequest (fun _ _ _ h => .releaseAll (.sheafWrite h))

protected theorem State.stored.blockWords {q j a ws} (h : s.stored) : (blockWords q j a ws s).2.stored := by
  induction ws generalizing s with
  | nil => exact h
  | cons w ws ih =>
    have hchecked : (checkWord w (loseFrom q (j + 1) w s)).2.stored := .checkWord (.loseFrom h)
    exact .ite_2 (ih (.offFault h)) (ih (.ite (.draw hchecked) hchecked))

protected theorem Answers.execBlkRead {q j u} : Answers s (execBlkRead q j u s) :=
  .onRequest (fun _ _ _ h => .respond (.blockWords h))

protected theorem State.stored.present {q f} (h : s.stored) : (present q f s).stored := by
  unfold present
  dsimp only
  split
  · split
    · next ht => exact (StoredIn.intakeStops h _ ht)
    · exact .ite (.readRequest (.loseFrom h)) (.grnMalformed h)
  · split
    · next ht => exact (StoredIn.intakeStops (.countEcc (.detect h)) _ ht)
    · exact .ite (.readRequest (.loseFrom (.countEcc (.detect h)))) (.grnMalformed (.countEcc (.detect h)))
  · exact .countEcc (.detect h)

protected theorem State.stored.replayEach {q ks} (h : s.stored) : (replayEach q ks s).stored := by
  induction ks generalizing s with
  | nil => exact h
  | cons k ks ih => exact ih (.ite (.port1Read h) (.present (.port1Read h)))

protected theorem Answers.execDeferredReplayPass {q} : Answers s (execDeferredReplayPass q s) :=
  .ite (.next id) (.ite (.next fun h => .wantWords h) (.next fun h => .replayEach (.setQuad h)))

protected theorem State.stored.popRead {op w} (h : s.stored) : (popRead op w s).stored :=
  .ite (.checkWord h) (.ite (.wr64 (.checkWord h))
    (.ite (.wr64 (.checkWord h)) (.ite (.wr64 (.readFull (.checkWord h))) (.checkWord h))))

protected theorem State.stored.runPop {o} (h : s.stored) : (runPop o s).stored :=
  .wr (.ite (.protFault h) (.ite (.offFault h) (.ite (.writeOp (.loseFrom h)) (.popRead (.loseFrom h)))))

protected theorem State.stored.resumePop (h : s.stored) : (resumePop s).stored := by
  unfold resumePop
  split
  · exact h
  · exact .ite h (.runPop (.withPop h))

protected theorem Answers.execPresencePortGo {req v u} : Answers s (execPresencePortGo req v u s) :=
  .ite (.next fun h => .countUr h) (.ite (.next id)
    (.ite (.next fun h => .wr (.ite h (.rsvd h)))
    (.ite (.next fun h => .setFlag (.wr (.ite h (.rsvd h))))
    (.next fun h => .resumePop (.wantWords (.withPop (.upset (.wr (.ite h (.rsvd h))))))))))

protected theorem State.stored.nextBank (h : s.stored) : (nextBank s).stored := by
  unfold nextBank
  dsimp only
  split
  · exact .ite (.raiseEvent (.setFlag h)) (.setFlag h)
  · refine .ite ?_ h
    split
    · exact .setBank h
    · exact .setBank h
    · exact h

protected theorem State.stored.startBanks (h : s.stored) : (startBanks s).stored := by
  unfold startBanks
  extract_lets bs s1
  have h1 : s1.stored := .withBankWait h
  clear_value s1
  exact .ite h1 (.nextBank (.withBankQ (.setFlag h1)))

protected theorem Answers.execBankRequest {req k v} : Answers s (execBankRequest req k v s) := by
  unfold execBankRequest
  dsimp only
  refine .ite (.next fun h => .countUr h) ?_
  refine .ite (.next id) ?_
  split
  · exact .next fun h => .rsvd h
  · exact .ite (.next fun h => .setFlag h) (.next fun h => .ite (.withBankWait (.plainWrite h))
      (.startBanks (.plainWrite h)))

protected theorem State.stored.clearBank {b} (h : s.stored) : (clearBank b s).stored := by
  obtain ⟨hmem, hpres, -⟩ := id h
  exact (h.withMem (Memory.wf_filter hmem _)).withPres (SMap.wf_filter hpres)

protected theorem State.stored.wakeBank {b} (h : s.stored) : (wakeBank b s).stored := by
  unfold wakeBank
  dsimp only
  split
  · exact .resumePop (.nextBank (.withBankQ (.setBank (.ite (.clearBank h) h))))
  · exact h

protected theorem Answers.execBankWakeComplete {b} : Answers s (execBankWakeComplete b s) :=
  .next fun h => .wakeBank h

protected theorem State.stored.restoreStripe {q b} (h : s.stored) : (restoreStripe q b s).stored := by
  obtain ⟨hmem, hpres, -⟩ := id h
  refine .foldl (fun s p hs => ?_) (.foldl (fun _ _ h => .setByte h)
    ((h.withMem (Memory.wf_filter hmem _)).withPres (SMap.wf_filter hpres)))
  obtain ⟨-, hpres', -⟩ := id hs
  exact hs.withPres (SMap.wf_set hpres' p.1 p.2)

protected theorem State.stored.endBorrow {q} (h : s.stored) : (endBorrow q s).stored := by
  unfold endBorrow
  dsimp only
  refine .resumePop ?_
  refine .setFlag ?_
  refine .setQuad ?_
  split
  · exact .restoreStripe h
  · exact h

protected theorem State.stored.abortBorrow {q} (h : s.stored) : (abortBorrow q s).stored := .satInc (.endBorrow h)

protected theorem State.stored.quadOff {q} (h : s.stored) : (quadOff q s).stored :=
  .ite h (.foldl (fun _ _ h => .flushQueue (.flushQueue h)) h)

protected theorem Answers.execBankSleep {b} : Answers s (execBankSleep b s) := by
  unfold execBankSleep
  dsimp only
  split
  · exact .next id
  · refine .ite (.next id) ?_
    refine .ite ?_ ?_
    · refine .next fun h => ?_
      refine .nextBank ?_
      refine .ite ?_ ?_
      · refine .raiseEvent ?_
        refine .setFld ?_
        refine .setFlag ?_
        refine .withBankQ ?_
        split
        · exact .ite (.abortBorrow h) h
        · exact h
      · refine .setFld ?_
        refine .setFlag ?_
        refine .withBankQ ?_
        split
        · exact .ite (.abortBorrow h) h
        · exact h
    · refine .next fun h => ?_
      refine .nextBank ?_
      refine .quadOff ?_
      refine .setBank ?_
      refine .ite ?_ ?_
      · refine .clearBank ?_
        refine .withBankQ ?_
        split
        · exact .ite (.abortBorrow h) h
        · exact h
      · refine .withBankQ ?_
        split
        · exact .ite (.abortBorrow h) h
        · exact h

protected theorem State.stored.awaitWord {w} (h : s.stored) : (awaitWord w s).stored :=
  .ite (.abortBorrow (.ite (.wakeBank h) h)) (.ite (.wakeBank h) h)

protected theorem State.stored.peekWord {a w} (h : s.stored) : (peekWord a w s).2.stored := by
  unfold peekWord
  extract_lets c
  have hc : c.2.stored := .checkWord (.loseFrom (.awaitWord h))
  clear_value c
  exact .ite_2 (.protFault h) (.ite_2 (.offFault h) hc)

protected theorem State.stored.portOp {a op w mask v} (h : s.stored) : (portOp a op w mask v s).stored :=
  .ite (.protFault h) (.ite (.offFault h) (.writeOp (.loseFrom (.awaitWord h))))

protected theorem State.stored.keepWord {a w mask v} (h : s.stored) : (keepWord a w mask v s).stored := .portOp h

protected theorem Answers.execPeek {req addr len u} : Answers s (execPeek req addr len u s) :=
  .ite (.next fun h => .countUr h) (.ite (.next id)
    (.ite (.next fun h => .wantWords h) (.next fun h => .answer (.peekWord (.upset h)))))

end Sys2Proof.Machine
end

section
/-! SUPPORT. What the DIBBER's functions keep (O3, O16). -/

namespace Sys2Proof.Machine

variable {s t u : State}

protected theorem State.stored.sendVector {v} (h : s.stored) : (sendVector v s).stored := .withHost h

protected theorem State.stored.passVector {v} (h : s.stored) : (passVector v s).stored :=
  .ite (.satInc h) (.ite (.sendVector h) (.withHost (.satInc h)))

protected theorem State.stored.modDesc {d g} (h : s.stored) : (modDesc d g s).stored := .setDesc (BitVec.isLt _) h

protected theorem State.stored.setReady {p l} (h : s.stored) : (setReady p l s).stored := .withDib rfl rfl h

protected theorem State.stored.unready {d} (h : s.stored) : (unready d s).stored := .setReady h

protected theorem State.stored.makeReady {d head} (h : s.stored) : (makeReady d head s).stored :=
  .setReady (.stirDevice (.unready (.modDesc h)))

protected theorem State.stored.disarm {d} (h : s.stored) : (disarm d s).stored := .modDesc (.withDib rfl rfl h)

protected theorem State.stored.wakeLost {overs} (h : s.stored) : (wakeLost overs s).stored := .raiseEvent (.satInc h)

protected theorem State.stored.countRefuse (h : s.stored) : (countRefuse s).stored := .satInc h

protected theorem State.stored.wakeDesc {d v} (h : s.stored) : (wakeDesc d v s).stored := by
  unfold wakeDesc
  dsimp only
  split
  · exact .wakeLost h
  · exact .wakeLost (.modDesc h)
  · exact .makeReady (.modDesc h)
  · exact .makeReady (.modDesc (.disarm h))
  · exact .modDesc (.ite (.wakeLost (.modDesc h)) h)

protected theorem State.stored.dibSend {kind tag data} (h : s.stored) : (dibSend kind tag data s).stored :=
  .blockSend (.withDib rfl rfl h)

protected theorem State.stored.sendDispatch {d e recalling thenTo} (h : s.stored) :
    (sendDispatch d e recalling thenTo s).stored :=
  .dibSend (.withDib rfl rfl h)

protected theorem State.stored.dispatchTo {d e} (h : s.stored) : (dispatchTo d e s).stored :=
  .sendDispatch (.unready (.modDesc h))

protected theorem State.stored.stopOrder {d e} (h : s.stored) : (stopOrder d e s).stored := .modEng h

protected theorem State.stored.recallFrom {d e} (h : s.stored) : (recallFrom d e s).stored := .ite (.sendDispatch h) h

protected theorem State.stored.priorityUpdate {d e p} (h : s.stored) : (priorityUpdate d e p s).stored := .modEng h

protected theorem State.stored.recompute {d} (h : s.stored) : (recompute d s).stored := by
  unfold recompute
  dsimp only
  split
  · exact .makeReady (.modDesc h)
  · split
    · exact .priorityUpdate (.modDesc h)
    · exact .modDesc h
  · exact .priorityUpdate (.modDesc h)
  · exact .modDesc h

protected theorem Answers.onNotice {p} {g : Notice → Option (State → State)}
    (hg : ∀ n f, g n = some f → ∀ s : State, s.stored → (f s).stored) : Answers s (onNotice p g s) := by
  unfold onNotice
  split
  · exact .next id
  · split
    · next f hf => exact .next fun h => hg _ f hf _ (.modPlot h)
    · exact .next id

protected theorem State.stored.clearOutst {f} (h : s.stored) : (clearOutst f s).stored := .withDib rfl rfl h

protected theorem State.stored.setRun {e v} (h : s.stored) : (setRun e v s).stored := .withDib rfl rfl h

protected theorem State.stored.setSby {e v} (h : s.stored) : (setSby e v s).stored := .withDib rfl rfl h

protected theorem State.stored.leaveSby {e d} (h : s.stored) : (leaveSby e d s).stored := .ite (.setSby h) h

protected theorem Answers.execNoticeRun {p} : Answers s (execNoticeRun p s) := by
  refine .onNotice fun n f hf s h => ?_
  cases n with
  | run d e =>
    obtain rfl := Option.some.inj hf
    beta_reduce
    extract_lets x ok s1 s2
    have h1 : s1.stored := .setRun (.leaveSby (.clearOutst h))
    have h2 : s2.stored := .modDesc (.ite h1 (.unready h1))
    exact .ite h2 (.stopOrder h2)
  | _ => cases hf

protected theorem Answers.execLoaded {p} : Answers s (execLoaded p s) := by
  refine .onNotice fun n f hf s h => ?_
  cases n with
  | loaded d e =>
    obtain rfl := Option.some.inj hf
    exact .ite (.setSby (.clearOutst h)) (.recallFrom (.setSby (.clearOutst h)))
  | _ => cases hf

protected theorem State.stored.endStop {d} (h : s.stored) : (endStop d s).stored :=
  .ite (.makeReady (.modDesc (.modDesc h))) (.modDesc h)

protected theorem Answers.execRecalled {p} : Answers s (execRecalled p s) := by
  refine .onNotice fun n f hf s h => ?_
  cases n with
  | recalled d e =>
    obtain rfl := Option.some.inj hf
    have hleft : (leaveSby e d (clearOutst (fun o => o.eng == e && o.desc == d) s)).stored := .leaveSby (.clearOutst h)
    refine .ite (.endStop hleft) (.ite hleft ?_)
    split
    · exact .ite (.dispatchTo (.makeReady hleft)) (.makeReady hleft)
    · exact .makeReady hleft
  | _ => cases hf

protected theorem State.stored.expire {d} (h : s.stored) : (expire d s).stored := .makeReady (.modDesc h)

protected theorem State.stored.leaveAwait {d deadline} (h : s.stored) : (leaveAwait d deadline s).stored :=
  .ite (.makeReady (.modDesc h)) (.ite (.expire h)
    (.ite (.expire (.raiseEvent (.satInc h))) (.ite (.modDesc h) (.withDib rfl rfl (.modDesc h)))))

protected theorem Answers.execLeave {p} : Answers s (execLeave p s) := by
  refine .onNotice fun n f hf s h => ?_
  cases n with
  | leave d why dl =>
    obtain rfl := Option.some.inj hf
    have hleft {c : Prop} [Decidable c] {e} : (if c then setRun e none s else s).stored := .ite (.setRun h) h
    refine .ite hleft (.ite (.endStop (.modDesc hleft)) ?_)
    cases why with
    | preempt | quantum | yield | stop => exact .makeReady (.modDesc hleft)
    | trap => exact .modDesc (.modDesc hleft)
    | exit => exact .ite (.wakeLost (.modDesc (.modDesc hleft))) (.modDesc (.modDesc hleft))
    | await => exact .leaveAwait (.modDesc hleft)
  | _ => cases hf

protected theorem Answers.execAccessDone {p} : Answers s (execAccessDone p s) := by
  refine .onNotice fun n f hf s h => ?_
  cases n with
  | accessDone d poison =>
    obtain rfl := Option.some.inj hf
    exact .ite (.modDesc h) (.modDesc (.disarm (.unready (.modDesc h))))
  | _ => cases hf

protected theorem Answers.execHalt {p} : Answers s (execHalt p s) := by
  refine .onNotice fun n f hf s h => ?_
  cases n with
  | halt e v =>
    obtain rfl := Option.some.inj hf
    beta_reduce
    extract_lets _ s1 s2
    have h1 : s1.stored := .withDib rfl rfl h
    have h2 : s2.stored := by
      clear_value s1
      dsimp only [s2]
      split
      · exact .recallFrom h1
      · exact h1
    refine .ite ?_ h1
    clear_value s2
    split
    · exact .stopOrder h2
    · exact h2
  | _ => cases hf

/-- A function of the Dibber that is taken leaves the direct path, the Dibber's own wakes or the intake. -/
protected theorem State.stored.nextFn {fn r} (h : s.stored) (ht : nextFn s fn = some (r, t)) : t.stored := by
  unfold nextFn at ht
  dsimp only at ht
  split at ht
  · obtain ⟨-, rfl⟩ := Prod.mk.inj (Option.some.inj ht)
    exact h
  · split at ht
    · obtain ⟨-, rfl⟩ := Prod.mk.inj (Option.some.inj ht)
      exact h
    · split at ht
      · obtain ⟨-, rfl⟩ := Prod.mk.inj (Option.some.inj ht)
        exact h
      · split at ht
        · split at ht
          · obtain ⟨-, rfl⟩ := Prod.mk.inj (Option.some.inj ht)
            exact h
          · cases ht
        · cases ht

protected theorem State.stored.finishCmd {refused res} (h : s.stored) : (finishCmd refused res s).stored := by
  unfold finishCmd
  dsimp only
  split
  · exact .wr64 (.setFlag (.setFlag (.setFlag h)))
  · exact .setFlag (.setFlag (.setFlag h))

protected theorem State.stored.replyDib {w v ctxIter} (h : s.stored) : (replyDib w v ctxIter s).stored :=
  .ite (.dibSend h) (.ite (.withDib rfl rfl h) h)

protected theorem State.stored.finishFn {r refused res} (h : s.stored) : (finishFn r refused res s).stored := by
  unfold finishFn
  dsimp only
  split
  · exact .finishCmd (.ite (.countRefuse h) h)
  · split
    · exact .replyDib (.ite (.countRefuse h) h)
    · exact .ite (.countRefuse h) h
  · exact .ite (.countRefuse h) h

protected theorem Answers.onFunction {fn follow ok g} (hg : ∀ r d s, s.stored → (g r d s).stored) :
    Answers s (onFunction fn follow ok g s) := by
  unfold onFunction
  refine .ite (.next id) ?_
  split
  · exact .next id
  · next ht =>
    exact .ite (.next fun h => .finishFn (hg _ _ _ (h.nextFn ht))) (.next fun h => .finishFn (h.nextFn ht))

protected theorem Answers.execWake : Answers s (execWake s) := .onFunction (fun _ _ _ h => .wakeDesc h)

protected theorem Answers.execCancel : Answers s (execCancel s) := by
  unfold execCancel
  dsimp only
  refine .onFunction (fun _ _ _ h => ?_)
  refine .ite ?_ (.ite (.stopOrder (.modDesc (.disarm (.unready h)))) (.modDesc (.disarm (.unready h))))
  split
  · exact .recallFrom (.modDesc (.disarm (.unready h)))
  · exact .modDesc (.disarm (.unready h))

protected theorem Answers.execResume : Answers s (execResume s) :=
  .onFunction (fun _ _ _ h => .ite (.modDesc h) (.makeReady (.modDesc h)))

protected theorem Answers.execDibInit : Answers s (execDibInit s) :=
  .onFunction (fun _ _ _ h => .setDesc (BitVec.isLt _) h)

protected theorem Answers.execRelease : Answers s (execRelease s) := .onFunction (fun _ _ _ h => .modDesc h)

protected theorem Answers.execSetpri : Answers s (execSetpri s) :=
  .onFunction (fun _ _ _ h => .ite h (.recompute (.modDesc h)))

protected theorem Answers.execSetaff : Answers s (execSetaff s) := by
  unfold execSetaff
  dsimp only
  refine .onFunction (fun _ _ _ h => ?_)
  split
  · exact .ite (.modDesc h) (.recallFrom (.modDesc h))
  · exact .ite (.modDesc h) (.stopOrder (.modDesc h))
  · exact .modDesc h

protected theorem Answers.execMigrate : Answers s (execMigrate s) := by
  refine .onFunction fun r d s h => ?_
  extract_lets t x p s1 _ s2 _ s3
  have h3 : s3.stored := .withDib rfl rfl (.setDesc (BitVec.isLt _) (.setDesc (BitVec.isLt _) h))
  exact .ite h3 (.ite (.setReady h3) (.makeReady (.unready h3)))

protected theorem Answers.execMigrateCopyDone : Answers s (execMigrateCopyDone s) := by
  unfold execMigrateCopyDone
  dsimp only
  split
  · exact .next id
  · exact .next fun h => .raiseEvent (.modDesc (.foldl (fun _ _ h => .setMark (.store h)) (.withDib rfl rfl h)))

protected theorem Answers.onQuery {fn g} : Answers s (onQuery fn g s) := by
  unfold onQuery
  refine .ite (.next id) ?_
  split
  · exact .next id
  · next ht => exact .next fun h => .finishFn (h.nextFn ht)

protected theorem Answers.execQuery : Answers s (execQuery s) := .onQuery

protected theorem Answers.execFindfree : Answers s (execFindfree s) := .onQuery

protected theorem Answers.execRaise : Answers s (execRaise s) := .onFunction (fun _ _ _ h => .raiseEvent h)

protected theorem Answers.execInheritanceUpdate : Answers s (execInheritanceUpdate s) := by
  unfold execInheritanceUpdate
  dsimp only
  split
  · exact .ite (.next fun h => .withLck rfl h) (.next fun h => .recompute (.setDesc (BitVec.isLt _) (.withLck rfl h)))
  · exact .next id

protected theorem Answers.execSelectDispatch {p} : Answers s (execSelectDispatch p s) := by
  unfold execSelectDispatch
  refine .ite (.next id) ?_
  split
  · exact .next id
  · exact .next fun h => .sendDispatch h
  · exact .next fun h => .dispatchTo h

protected theorem State.stored.loadStandby {e d v} (h : s.stored) : (loadStandby e d v s).stored :=
  .notify (.modEng h)

protected theorem Answers.execDispatch {e} : Answers s (execDispatch e s) := by
  unfold execDispatch
  dsimp only
  split
  · exact .next id
  · refine .ite (.next fun h => .detect (.setEng h)) ?_
    refine .ite (.next fun h => .detect (.setEng h)) ?_
    split
    · exact .ite (.next fun h => .setEng h) (.next fun h => .loadStandby (.setEng h))
    · exact .ite (.next fun h => .notify (.modEng (.setEng h)))
        (.next fun h => .loadStandby (.notify (.modEng (.setEng h))))

protected theorem State.stored.startStandby {e} (h : s.stored) : (startStandby e s).stored := by
  unfold startStandby
  dsimp only
  split
  · exact h
  · exact .notify (.setEng h)

protected theorem Answers.execSwitchStart {e} : Answers s (execSwitchStart e s) := by
  unfold execSwitchStart
  dsimp only
  refine .ite (.next id) ?_
  split
  · exact .next .startStandby
  · refine .ite (.next id) ?_
    split
    · exact .ite (.next id) (.next fun h => .satInc (.modStrand h))
    · refine .next fun h => .notify (.modEng (.startStandby (.clearStrand (.ite ?_ (.saveCtx ?_)))))
      · split
        · exact .modEng h
        · exact h
      · split
        · exact .modEng h
        · exact h

protected theorem Answers.execQuantumExpiry {e} : Answers s (execQuantumExpiry e s) := by
  unfold execQuantumExpiry
  dsimp only
  split
  · exact .ite (.next fun h => .modStrand h) (.next id)
  · exact .next id

protected theorem Answers.execDeadlineExpiry : Answers s (execDeadlineExpiry s) := by
  unfold execDeadlineExpiry
  split
  · exact .ite (.next fun h => .expire (.disarm h)) (.next id)
  · exact .next id

protected theorem Answers.execEventServe : Answers s (execEventServe s) := by
  unfold execEventServe
  dsimp only
  split
  · exact .next id
  · next n _ =>
    have hserved (p : BitVec 11) (h : s.stored) : { s with dib := { s.dib with
        events := SMap.set s.dib.events n Event.none Event.none, evPtr := p } }.stored := by
      obtain ⟨-, -, -, hevents, -⟩ := id h
      exact h.withEvents (SMap.wf_set hevents n Event.none)
    exact .ite (.next fun h => hserved _ h) (.next fun h =>
      .ite (.passVector (.ite (.wakeDesc (hserved _ h)) (hserved _ h))) (.ite (.wakeDesc (hserved _ h)) (hserved _ h)))

protected theorem Answers.execDibCmdGo {req v} : Answers s (execDibCmdGo req v s) := by
  unfold execDibCmdGo
  dsimp only
  refine .ite (.next fun h => .countUr h) ?_
  refine .ite (.next id) ?_
  refine .ite (.next fun h => .setFlag h) ?_
  split
  · exact .next fun h => .rsvd h
  · exact .ite (.next fun h => .plainWrite h)
      (.ite (.next fun h => .finishCmd (.countRefuse (.plainWrite h))) (.next fun h => .setFlag (.plainWrite h)))

protected theorem Answers.execDibSwevWrite {req v} : Answers s (execDibSwevWrite req v s) :=
  .ite (.next fun h => .countUr h) (.ite (.next id) (.next fun h => .foldl (fun _ _ h => .ite (.raiseEvent h) h) h))

protected theorem Answers.execEvpendClear {req k v} : Answers s (execEvpendClear req k v s) := by
  refine .ite (.next fun h => .countUr h) (.ite (.next id) (.next fun h => ?_))
  obtain ⟨-, -, -, hevents, -⟩ := id h
  exact h.withEvents (SMap.wf_filter hevents)

end Sys2Proof.Machine
end

section
/-! SUPPORT. What EVIO keeps (O3, O16). -/

namespace Sys2Proof.Machine

variable {s t u : State}

protected theorem State.stored.evioSend {kind tag data} (h : s.stored) : (evioSend kind tag data s).stored :=
  .blockSend (.withEvio h)

protected theorem State.stored.replyEvio {w v ctxIter} (h : s.stored) : (replyEvio w v ctxIter s).stored :=
  .ite (.evioSend h) (.ite (.evioSend h) h)

protected theorem Answers.onEvio {fn g} (hg : ∀ f s, s.stored → (g f s).stored) : Answers s (onEvio fn g s) := by
  unfold onEvio
  split
  · exact .next id
  · exact .ite (.next id) (.next fun h => hg _ _ h)

protected theorem State.stored.setOut {n v} (h : s.stored) : (setOut n v s).stored := .withEvio h

protected theorem State.stored.setSchedules {n l} (h : s.stored) : (setSchedules n l s).stored := .withEvio h

protected theorem State.stored.schedule {level f} (h : s.stored) : (schedule level f s).stored :=
  .ite (.satInc h) (.ite (.satInc (.modeSet h))
    (.ite (.detect (.modeSet h))
    (.ite (.raiseEvent (.satInc (.setSchedules (.modeSet h)))) (.setSchedules (.modeSet h)))))

protected theorem Answers.execOutHigh : Answers s (execOutHigh s) := .onEvio (fun _ _ h => .schedule h)

protected theorem Answers.execOutLow : Answers s (execOutLow s) := .onEvio (fun _ _ h => .schedule h)

protected theorem Answers.execOutFlush : Answers s (execOutFlush s) := .onEvio (fun _ _ h => .setSchedules h)

protected theorem Answers.execScheduleApply {n} : Answers s (execScheduleApply n s) := by
  unfold execScheduleApply
  dsimp only
  split
  · exact .next id
  · exact .next fun h => .setOut (.setSchedules h)

protected theorem State.stored.setTimer {t' x} (h : s.stored) : (setTimer t' x s).stored := .withEvio h

protected theorem State.stored.expireTimer {t' x} (h : s.stored) : (expireTimer t' x s).stored :=
  .raiseEvent (.setTimer h)

protected theorem Answers.execTmrAt : Answers s (execTmrAt s) :=
  .onEvio (fun _ _ h => .ite (.expireTimer h) (.setTimer h))

protected theorem Answers.execTmrEvery : Answers s (execTmrEvery s) :=
  .onEvio (fun _ _ h => .ite (.expireTimer h) (.setTimer h))

protected theorem Answers.execTmrStop : Answers s (execTmrStop s) := .onEvio (fun _ _ h => .setTimer h)

protected theorem Answers.execTimerExpiry {t'} : Answers s (execTimerExpiry t' s) :=
  .ite (.next fun h => .expireTimer h) (.next id)

protected theorem Answers.execTime : Answers s (execTime s) := .onEvio (fun _ _ h => .replyEvio h)

protected theorem State.stored.setFilter {n x} (h : s.stored) : (setFilter n x s).stored :=
  .ite (.withEvio h) (.withEvio h)

protected theorem Answers.execStamp : Answers s (execStamp s) := .onEvio (fun _ _ h => .replyEvio h)

protected theorem State.stored.recount {n} (h : s.stored) : (recount n s).stored := .setFilter h

protected theorem Answers.execEvinEdge {n} : Answers s (execEvinEdge n s) :=
  .ite (.next id) (.next fun h => .ite (.raiseEventAt (.setFilter h)) (.setFilter h))

protected theorem Answers.execEvinGlitch {n} : Answers s (execEvinGlitch n s) :=
  .next fun h => .ite (.satInc (.recount h)) h

protected theorem Answers.execEvinCfgWrite {req n v} : Answers s (execEvinCfgWrite req n v s) := by
  unfold execEvinCfgWrite
  refine .ite (.next fun h => .countUr h) ?_
  refine .ite (.next id) ?_
  split
  · exact .next fun h => .rsvd h
  · exact .next fun h => .recount (.plainWrite h)

protected theorem State.stored.setRate {r} (h : s.stored) : (setRate r s).stored := .wr h

protected theorem State.stored.setLocked {b} (h : s.stored) : (setLocked b s).stored :=
  .ite h (.raiseEvent (.setFlag h))

protected theorem State.stored.setPpsOk {b} (h : s.stored) : (setPpsOk b s).stored :=
  .ite (.setLocked (.ite h (.raiseEvent (.setFlag h)))) (.ite h (.raiseEvent (.setFlag h)))

protected theorem Answers.execPpsEdge : Answers s (execPpsEdge s) :=
  .ite (.next id) (.ite (.next fun h => .setFilter h) (.next fun h => .setPpsOk (.withEvio (.setRate (.setFilter h)))))

protected theorem Answers.execPpsLoss : Answers s (execPpsLoss s) := .ite (.next fun h => .setPpsOk h) (.next id)

end Sys2Proof.Machine
end

section
/-! SUPPORT. What a cycle keeps (O3, O16). -/

namespace Sys2Proof.Machine

variable {s t u : State}

protected theorem State.stored.tick (h : s.stored) : (tick s).stored := .ite h (.withTime h)

end Sys2Proof.Machine
end

section
/-! SUPPORT. What the lock functions keep (O3, O16). -/

namespace Sys2Proof.Machine

variable {s t u : State}

protected theorem State.stored.passLock {n f} (h : s.stored) : (passLock n f s).2.stored := .setLock (BitVec.isLt _) h

protected theorem State.stored.pushInh {d v} (h : s.stored) : (pushInh d v s).stored := .withLck rfl h

protected theorem State.stored.syncInh (h : t.stored) : (syncInh s t).stored :=
  .ite h (.foldl (fun _ _ h => .ite h (.pushInh h)) h)

protected theorem State.stored.groupEvents (h : u.stored) : (groupEvents s t u).stored :=
  .foldl (fun _ _ h => .raiseEvent h) h

protected theorem State.stored.lckSend {kind tag data} (h : s.stored) : (lckSend kind tag data s).stored :=
  .ite (.detect h) (.blockSend (.withLck rfl h))

protected theorem State.stored.sendReply {r} (h : s.stored) : (sendReply s r).stored :=
  .ite (.lckSend h) (.ite (.withLck rfl h) (.lckSend h))

protected theorem State.stored.endUpdate {r : List LockReply × State} (h : r.2.stored) : (endUpdate s t r).stored :=
  .groupEvents (.foldl (fun _ _ h => .sendReply h) (.syncInh h))

/-- Every lock that is listed is one of the 4,096 (R333). -/
protected theorem State.stored.lockNo (h : s.stored) : ∀ n, n ∈ s.lck.locks.map (·.1) → n < 4096 := by
  obtain ⟨-, -, -, -, -, hnos, -⟩ := h
  intro n hn
  obtain ⟨p, hp, rfl⟩ := List.mem_map.mp hn
  exact hnos p hp

protected theorem State.stored.purgeWaiters {m} (h : s.stored) : (purgeWaiters m s).stored := by
  have hlocks := h.foldl_mem (f := fun s n => s.setLock n
      { s.lock n with waiters := (s.lock n).waiters.filter (fun w => !m.names w.who) })
    fun s n hn h' => .setLock (h.lockNo n hn) h'
  exact .ite hlocks (.satAdd hlocks)

protected theorem State.stored.abandonLocks {ns rs} (h : s.stored) : (abandonLocks ns rs s).2.stored := by
  induction ns generalizing s rs with
  | nil => exact h
  | cons n ns ih => exact ih (.passLock (.satInc h))

protected theorem State.stored.stickLocks {ns : List Nat} (hns : ∀ n, n ∈ ns → n < 4096) (h : s.stored) :
    (stickLocks ns s).stored := by
  cases ns with
  | nil => exact h
  | cons n ns => exact .raiseEvent (.detect (h.foldl_mem fun _ n hn h => .setLock (hns n hn) h))

protected theorem State.stored.noticeStep (h : s.stored) : (noticeStep s).2.stored := by
  unfold noticeStep
  split
  · exact h
  · next m ms _ =>
    have hpurged : (purgeWaiters m { s with lck := { s.lck with notices := ms } }).stored := .purgeWaiters h
    refine .ite_2 (.stickLocks (fun n hn => hpurged.lockNo n ?_) hpurged) (.abandonLocks hpurged)
    exact (List.map_subset _ (List.filter_subset_self _)) hn

protected theorem State.stored.finishLckCmd {n code} (h : s.stored) : (finishLckCmd n code s).stored :=
  .wr (.setFlag (.setFlag h))

/-- A lock function that is taken leaves the intake. -/
protected theorem State.stored.nextLock {fn r} (h : s.stored) (ht : nextLock s fn = some (r, t)) : t.stored := by
  unfold nextLock at ht
  dsimp only at ht
  split at ht
  · split at ht
    · obtain ⟨-, rfl⟩ := Prod.mk.inj (Option.some.inj ht)
      exact h
    · cases ht
  · split at ht
    · cases ht
    · split at ht
      · cases ht
      · obtain ⟨-, rfl⟩ := Prod.mk.inj (Option.some.inj ht)
        exact h

protected theorem Answers.onLock {fn port g} (hg : ∀ r x s, s.stored → (g r x s).2.2.stored) :
    Answers s (onLock fn port g s) := by
  unfold onLock
  refine .ite (.next id) ?_
  split
  · exact .next id
  · next r s₁ hr =>
    extract_lets n mid x res own t
    have hn (h : s.stored) : mid.stored := (h.nextLock hr).noticeStep
    have ht (h : s.stored) : t.stored := .endUpdate (.ite_2_2 (hn h) (.ite_2_2 (.satInc (hn h)) (hg _ _ _ (hn h))))
    exact .ite (.next fun h => .finishLckCmd (ht h)) (.next ht)

protected theorem State.stored.grant {r x} (h : s.stored) : (grant r x s).2.2.stored := .setLock (BitVec.isLt _) h

protected theorem State.stored.queueUp {r watch x} (h : s.stored) : (queueUp r watch x s).2.2.stored :=
  .ite_2_2 (.satInc h) (.setLock (BitVec.isLt _) h)

protected theorem Answers.execAcquire : Answers s (execAcquire s) :=
  .onLock (fun _ _ _ h => .ite_2_2 (.grant h) (.ite_2_2 h (.queueUp h)))

protected theorem Answers.execLockTry : Answers s (execLockTry s) :=
  .onLock (fun _ _ _ h => .ite_2_2 (.grant h) (.ite_2_2 h h))

protected theorem Answers.execLockWait : Answers s (execLockWait s) :=
  .onLock (fun _ _ _ h => .ite_2_2 h (.queueUp h))

protected theorem Answers.execLockRelease : Answers s (execLockRelease s) :=
  .onLock (fun _ _ _ h => .ite_2_2 (.passLock h) (.satInc h))

protected theorem Answers.execWithdraw : Answers s (execWithdraw s) :=
  .onLock (fun _ _ _ h => .ite_2_2 (.setLock (BitVec.isLt _) h) h)

protected theorem State.stored.forceStep {n} (h : s.stored) : (forceStep n s).2.2.stored :=
  .ite_2_2 h (.passLock (.satInc h))

protected theorem State.stored.submitForce {n} (h : s.stored) : (submitForce n s).stored :=
  .withLck rfl (.setFld (.setFld h))

protected theorem State.stored.forceLock {n} (h : s.stored) : (forceLock n s).2.stored :=
  .finishLckCmd (.endUpdate (.forceStep (.noticeStep (.submitForce h))))

protected theorem Answers.execForce {lock} : Answers s (execForce lock s) :=
  .ite (.next id) (.ite (.onLock (fun _ _ _ h => .forceStep h))
    (.ite (.next fun h => .setFlag h) (.next fun h => .forceLock h)))

protected theorem Answers.execLckCmdGo {req v} : Answers s (execLckCmdGo req v s) := by
  unfold execLckCmdGo
  dsimp only
  refine .ite (.next fun h => .countUr h) ?_
  refine .ite (.next fun h => .setFlag h) ?_
  split
  · exact .next fun h => .rsvd h
  · exact .ite (.next fun h => .plainWrite h)
      (.ite (.next fun h => .setFlag (.withLck rfl (.plainWrite h)))
      (.next fun h => .finishLckCmd (.withLck rfl (.plainWrite h))))

protected theorem Answers.execResetNotice : Answers s (execResetNotice s) :=
  .ite (.next id) (.next fun h => .endUpdate (.noticeStep h))

protected theorem State.stored.sendReset {o service} (h : s.stored) : (sendReset o service s).stored := .withLck rfl h

protected theorem Answers.execInhDisable {req} : Answers s (execInhDisable req s) :=
  .ite (.next fun h => .countUr h) (.ite (.next fun h => .setFlag h)
    (.next fun h => .foldl (fun _ _ h => .pushInh h) (.setFlag h)))

end Sys2Proof.Machine
end

section
/-! SUPPORT. What the resets keep (O3, O16). -/

namespace Sys2Proof.Machine

variable {s t u : State}

protected theorem State.stored.resetSlot {e} (h : s.stored) : (resetSlot e s).stored :=
  .modPlot (.setEng (.dropRegs (.dropRegs h)))

protected theorem State.stored.loseDesc {d service} (h : s.stored) : (loseDesc d service s).stored :=
  .sendReset (.modDesc h)

protected theorem State.stored.cancelLost {d service} (h : s.stored) : (cancelLost d service s).stored :=
  .loseDesc (.modDesc (.disarm (.unready h)))

protected theorem State.stored.resetDesc {engs service d} (h : s.stored) : (resetDesc engs service s d).stored :=
  .ite (.cancelLost h) (.ite (.makeReady h) h)

protected theorem State.stored.resetStrands {engs pend service} (h : s.stored) :
    (resetStrands engs pend service s).stored :=
  .withDib rfl rfl (.foldl (fun _ _ h => .ite h (.loseDesc h)) (.foldl (fun _ _ h => .resetDesc h) h))

protected theorem State.stored.beginPlotReset {p by_} (h : s.stored) : (beginPlotReset p by_ s).stored :=
  .foldl (fun _ _ h => .flushQueue (.flushQueue h)) (.modPlot h)

protected theorem State.stored.abandonRead {p chan} (h : s.stored) : (abandonRead p chan s).stored := by
  unfold abandonRead
  dsimp only
  split
  · exact .ite (.setHold h) (.setHold (.withOwed h))
  · exact h

protected theorem State.stored.clearPlot {p} (h : s.stored) : (clearPlot p s).stored :=
  .copyPages (.copyPages (.setPlot (.dropRegs
    (.dropRegs (.foldl (fun _ _ h => .foldl (fun _ _ h => .setHold h) h)
    (.foldl (fun _ _ h => .resetSlot h)
    (.foldl (fun _ _ h => .abandonRead (.withDroppingWleft (.emptyQueue h))) h)))))))

protected theorem State.stored.resetOwners {p service} (h : s.stored) : (resetOwners p service s).stored :=
  .foldl (fun _ _ h => .sendReset h) h

protected theorem State.stored.seeTblock (h : s.stored) : (seeTblock s).stored := .ite h (.setFlag h)

protected theorem State.stored.seeWaiting (h : s.stored) : (seeWaiting s).stored := .ite (.withUpkeep h) h

protected theorem State.stored.dropWaiting {p} (h : s.stored) : (dropWaiting p s).stored :=
  .seeWaiting (.withUpkeep h)

protected theorem State.stored.finishPlotReset {p} (h : s.stored) : (finishPlotReset p s).stored := by
  unfold finishPlotReset
  dsimp only
  split
  · exact h
  · exact .seeTblock (.dropWaiting (.resetOwners (.stirDevice (.resetStrands (.clearPlot h)))))

protected theorem State.stored.seeCap (h : s.stored) : (seeCap s).stored := .ite h (.raiseEvent (.setFlag h))

protected theorem State.stored.quarantinePlot {p service} (h : s.stored) : (quarantinePlot p service s).stored :=
  .seeTblock (.dropWaiting (.seeCap (.modPlot
    (.setFld (.setFlag (.setFlag
    (.setFld (.setFlag (.setFlag
    (.resetOwners (.resetStrands
    (.foldl (fun _ _ h => .cancelLost h) (.foldl (fun _ _ h => .emptyQueue h) (.clearPlot h))))))))))))))

protected theorem State.stored.copyWord {m e spare i} (h : s.stored) : (copyWord m e spare s i).stored :=
  .ite (.setMark (.store (.localCheck h))) (.setMark (.store (.localCheck h)))

protected theorem State.stored.dropFills {p e eng} (h : s.stored) : (dropFills p e eng s).stored :=
  .modPlot (.ite (.setHold h) h)

protected theorem State.stored.purgeIndex {p i} (h : s.stored) : (purgeIndex p i s).stored :=
  .countPurged (.modPlot (.foldl (fun _ _ h => .setSlotUsed h) (.dropLost (.foldl (fun _ _ h => .awaitWord h) h))))

protected theorem State.stored.retireSlot {p sl service} (h : s.stored) : (retireSlot p sl service s).2.stored :=
  .sendReset (.resetStrands
    (.modPlot (.wr (.setFlag
    (.foldl (fun _ _ h => .wr h)
    (.resetSlot (.foldl (fun _ _ h => .copyWord h)
    (.foldl (fun _ _ h => .copyWord h) (.purgeIndex (.dropFills (.resetSlot h)))))))))))

protected theorem State.stored.deviceReset {cause rootSel testMode} (h : s.stored) :
    (deviceReset cause rootSel testMode s).stored := by
  obtain ⟨hmem, hpres, hregs, -⟩ := h
  exact .setFld (.setFlag (.wr (.wr (.setFlag (.foldl (fun _ _ h => .noteAccess h) (.foldl (fun _ _ h => .modLink h)
    (((State.stored_reset.withMem (Memory.wf_filter hmem _)).withPres hpres).withRegs (SMap.wf_filter hregs))))))))

protected theorem State.stored.powerOff : (powerOff s).stored := State.stored_reset

end Sys2Proof.Machine
end

section
/-! SUPPORT. What the sieve's reactions keep (O3, O16). -/

namespace Sys2Proof.Machine

variable {s t u : State}

protected theorem Answers.execFaultDetect {d} : Answers s (execFaultDetect d s) :=
  .ite (.next id) (.next fun h => .detect h)

protected theorem State.stored.setHist {i r} (h : s.stored) : (setHist i r s).stored := .withSieve h

protected theorem State.stored.loseRecord (h : s.stored) : (loseRecord s).stored := .raiseEvent (.setFlag (.satInc h))

protected theorem State.stored.writeHist {c r} (h : s.stored) : (writeHist c r s).stored := by
  unfold writeHist
  dsimp only
  refine .ite (.setRec (.setFld h)) ?_
  refine .ite ?_ (.loseRecord h)
  split
  · exact .setRec h
  · exact .loseRecord h

protected theorem Answers.execRecordArrival : Answers s (execRecordArrival s) := by
  unfold execRecordArrival
  split
  · exact .next id
  · extract_lets _ s1
    split
    · exact .next fun h => .withSieve h
    · extract_lets s2 s3
      have h3 (h : s.stored) : s3.stored := .ite (.writeHist (.withSieve h)) (.raiseEvent (.writeHist (.withSieve h)))
      refine .ite (.next h3) ?_
      split
      · exact .ite (.next h3) (.next fun h => .dropReaction (h3 h))
      · exact .next fun h => .requeue (h3 h)

protected theorem Answers.execRecordClose {i} : Answers s (execRecordClose i s) := by
  unfold execRecordClose
  split
  · exact .next id
  · exact .ite (.next id) (.ite (.next id) (.ite (.ite (.next fun h => .closeRec h) (.next id))
      (.ite (.next fun h => .closeRec h) (.next id))))

protected theorem State.stored.settle {c r react} (h : s.stored) : (settle c r react s).stored := .setRec h

protected theorem State.stored.startReaction {c r react} (h : s.stored) : (startReaction c r react s).stored := by
  unfold startReaction
  dsimp only
  split
  · split
    · exact .addMask (.setRec (.withSieve h))
    · exact .setRec (.withSieve h)
  · refine .ite ?_ ?_
    · refine .beginPlotReset ?_
      split
      · exact .addMask (.setRec (.withSieve h))
      · exact .setRec (.withSieve h)
    · split
      · exact .addMask (.setRec (.withSieve h))
      · exact .setRec (.withSieve h)

protected theorem State.stored.beginReaction {c r} (h : s.stored) : (beginReaction c r s).stored := by
  unfold beginReaction
  dsimp only
  split
  · exact .startReaction h
  · exact .ite (.startReaction h) (.ite (.settle h)
      (.ite (.ite (.settle h)
      (.ite (.ite (.settle (.setFlag (.setFlag h))) (.settle h))
      (.ite (.startReaction h) (.startReaction (.raiseEvent h))))) (.startReaction h)))

protected theorem State.stored.keepLinks (h : s.stored) : (keepLinks s).stored :=
  .foldl (fun _ _ h => .setFlag h) (.withPower h)

protected theorem State.stored.freezePower (h : s.stored) : (freezePower s).stored :=
  .foldl (fun _ _ h => .ite (.setFlag (.setFlag h)) h) (.withPower h)

protected theorem State.stored.startEpoch (h : s.stored) : (startEpoch s).stored :=
  .seeWaiting (.withUpkeep (.foldl (fun _ _ h => .copyPages h) (.setFlag (.setFlag h))))

protected theorem State.stored.acted {c} (h : s.stored) : (acted c s).stored := by
  unfold acted
  split
  · exact .setRec h
  · exact h

protected theorem State.stored.addConseqs {c n} (h : s.stored) : (addConseqs c n s).stored := by
  unfold addConseqs
  split
  · exact .setRec h
  · exact h

protected theorem Answers.execEngineRetire : Answers s (execEngineRetire s) := by
  unfold execEngineRetire
  dsimp only
  split
  · exact .next id
  · exact .next fun h => .acted (.addConseqs (.retireSlot h))

protected theorem Answers.execPlotResetReaction : Answers s (execPlotResetReaction s) := by
  unfold execPlotResetReaction
  split
  · exact .next id
  · split
    · exact .ite (.next id) (.next fun h => .acted (.finishPlotReset h))
    · exact .next fun h => .acted h

protected theorem Answers.execPlotQuarantine : Answers s (execPlotQuarantine s) := by
  unfold execPlotQuarantine
  split
  · exact .next id
  · exact .next fun h => .acted (.quarantinePlot h)

protected theorem State.stored.sendNotice {reason} (h : s.stored) : (sendNotice reason s).stored :=
  .ite h (.foldl (fun _ _ h => .ite (.modLink h) h) (.withFabric h))

protected theorem State.stored.haltEngine {e} (h : s.stored) : (haltEngine s e).stored := by
  unfold haltEngine
  dsimp only
  refine .ite h ?_
  split
  · exact .ite (.setFlag (.setFlag h)) (.notify (.setFlag (.setFlag h)))
  · exact .setFlag (.setFlag h)

protected theorem State.stored.releaseLink {n} (h : s.stored) : (releaseLink s n).stored :=
  .ite (.modLink (.setFld h)) h

protected theorem State.stored.enterSafe {c fatal} (h : s.stored) : (enterSafe c fatal s).stored := by
  unfold enterSafe
  extract_lets scan s1 _ _ s2 s3 s4 s5 q _ s6 s7 s8
  have h2 : s2.stored := .withEvioTapFaultN (.foldl (fun _ _ h => .setOut h) h)
  have h3 : s3.stored := .ite (.freezePower h2) h2
  have h4 : s4.stored := .ite (.foldl (fun _ _ h => .releaseLink h) h3) h3
  have h5 : s5.stored := .ite (.setFlag h4) h4
  have h8 : s8.stored := .sendNotice (.foldl (fun _ _ h => .dropReaction h) (.withSieve h5))
  exact .ite (.foldl (fun _ _ h => .haltEngine h) h8) h8

protected theorem Answers.execDeviceSafe : Answers s (execDeviceSafe s) := by
  unfold execDeviceSafe
  dsimp only
  split
  · split
    · exact .next fun h => .enterSafe h
    · exact .ite (.next fun h => .ite (.acted (.enterSafe h)) (.enterSafe h)) (.next fun h => .setRec (.enterSafe h))
  · split
    · exact .next id
    · split
      · exact .next id
      · exact .ite (.next fun h => .acted (.enterSafe h)) (.next id)

protected theorem State.stored.afterReset (h : s.stored) : (afterReset s).stored := by
  unfold afterReset
  dsimp only
  refine .ite ?_ ?_
  · refine .withOpState ?_
    split
    · exact .withCmd h
    · exact h
  · split
    · exact .withCmd h
    · exact h

protected theorem State.stored.sieveDrop (h : s.stored) : (sieveDrop s).stored := .setFlag h

protected theorem Answers.execSieveHistPop {req v} : Answers s (execSieveHistPop req v s) := by
  unfold execSieveHistPop
  dsimp only
  refine .ite (.next fun h => .countUr h) ?_
  refine .ite (.next fun h => .sieveDrop h) ?_
  refine .ite (.next id) ?_
  split
  · exact .next fun h => .sieveDrop h
  · exact .ite (.next fun h => .sieveDrop h) (.next fun h => .setFld (.setFld (.setHist h)))

protected theorem Answers.execSwSafe {req v} : Answers s (execSwSafe req v s) :=
  .ite (.next fun h => .countUr h) (.ite (.next fun h => .sieveDrop h)
    (.next fun h => .ite (.detect (.setFlag h)) (.setFlag h)))

protected theorem State.stored.emptyFifo {site} (h : s.stored) : (emptyFifo site s).2.stored :=
  .ite_2 (.withDib rfl rfl h) (.ite_2 (.withLck rfl h)
    (.ite_2 (.withLck rfl h) (.ite_2 (.setQuad h) (.ite_2 (.withDib rfl rfl h) (.satAdd (.setFld (.withSieve h)))))))

protected theorem State.stored.firstRecord {site} (h : t.stored) : (firstRecord site s t).stored := .ite h h

protected theorem Answers.execFifoPtr {site} : Answers s (execFifoPtr site s) :=
  .next fun h => .firstRecord (.detect (.satAdd (.setFld (.satInc (.emptyFifo h)))))

protected theorem Answers.execMcWdog : Answers s (execMcWdog s) := .ite (.next id) (.next fun h => .detect h)

end Sys2Proof.Machine
end

section
/-! SUPPORT. What the RUNNER links keep (O3, O16). -/

namespace Sys2Proof.Machine

variable {s t u : State}

protected theorem State.stored.leaveActive {n} (h : s.stored) : (leaveActive n s).stored :=
  .ite (.setLocked (.modLink h)) (.modLink h)

protected theorem State.stored.breakPart {n k} (h : s.stored) : (breakPart n s k).stored :=
  .foldl (fun _ _ h => .pushQ h) h

protected theorem State.stored.linkFails {n} (h : s.stored) : (linkFails n s).stored :=
  .modLink (.satAdd (.foldl (fun _ _ h => .breakPart h) h))

protected theorem State.stored.seeSignal {n dst} (h : s.stored) : (seeSignal n dst s).stored :=
  .ite (.setFld (.draw h)) h

protected theorem State.stored.enterLink {n dst} (h : s.stored) : (enterLink n dst s).stored := by
  unfold enterLink
  extract_lets was s1 s2 s3 s4 s5 s6
  have h3 : s3.stored := .modLink (.setFld (.seeSignal (.ite (.leaveActive h) h)))
  have h4 : s4.stored := .ite (.modLink h3) h3
  have h5 : s5.stored := .ite (.satInc h4) h4
  have h6 : s6.stored := .ite (.linkFails (.satInc h5)) h5
  exact .ite (.raiseEvent h6) h6

protected theorem State.stored.tryTrain {n} (h : s.stored) : (tryTrain n s).stored := .ite (.enterLink h) h

protected theorem Answers.execLinkDetect {n} : Answers s (execLinkDetect n s) :=
  .ite (.next fun h => .enterLink (.setFld h)) (.next id)

protected theorem State.stored.takePeer {n p} (h : s.stored) : (takePeer n p s).stored := .wr64 (.setFld (.setFld h))

protected theorem Answers.execLinkTrainStep {n peer} : Answers s (execLinkTrainStep n peer s) :=
  .ite (.next id) (.ite (.next fun h => .enterLink h)
    (.ite (.next fun h => .enterLink h)
    (.ite (.next fun h => .enterLink (.modLink (.takePeer h)))
    (.ite (.next fun h => .enterLink (.modLink h)) (.next id)))))

protected theorem Answers.execLinkStateTimeout {n} : Answers s (execLinkStateTimeout n s) := by
  unfold execLinkStateTimeout
  split
  · exact .ite (.next fun h => .enterLink h) (.next id)
  · exact .next id

protected theorem Answers.execLinkDownRestart {n} : Answers s (execLinkDownRestart n s) :=
  .ite (.next fun h => .enterLink h) (.next id)

protected theorem State.stored.retrain {n} (h : s.stored) : (retrain n s).stored := .ite (.enterLink h) h

protected theorem Answers.execLinkRetrain {n} : Answers s (execLinkRetrain n s) := .next fun h => .retrain h

protected theorem Answers.execRunCtlWrite {req n v} : Answers s (execRunCtlWrite req n v s) :=
  .ite (.next fun h => .countUr h) (.ite (.next fun h => .rsvd h)
    (.ite (.next fun h => .ite (.setFld h) (.enterLink (.setFld h)))
    (.next fun h => .ite (.retrain (.tryTrain (.setFld h))) (.tryTrain (.setFld h)))))

protected theorem State.stored.copyTable {a old} (h : s.stored) : (copyTable a old s).stored := .withFabric (.draw h)

protected theorem Answers.execRunRtWrite {req k v} : Answers s (execRunRtWrite req k v s) := by
  unfold execRunRtWrite
  dsimp only
  refine .ite (.next fun h => .countUr h) ?_
  refine .ite (.next fun h => .rsvd h) ?_
  split
  · exact .next fun h => .plainWrite (.copyTable h)
  · exact .next fun h => .rsvd h

protected theorem State.stored.newSource (h : s.stored) : (newSource s).stored := .setLocked (.withFabric h)

protected theorem State.stored.writeRun {req off v} (h : s.stored) : (writeRun req off v s).stored := by
  unfold writeRun
  dsimp only
  refine .ite (.outcomeState h .execRunCtlWrite) ?_
  split
  · exact .rsvd h
  · exact .ite (.rsvd h) (.ite (.ite (.setFld h) (.rsvd h))
      (.ite (.outcomeState h .execRunRtWrite)
      (.ite (.ite (.plainWrite h) (.newSource (.plainWrite h))) (.ite (.plainWrite h) h))))

protected theorem State.stored.badRx {n} (h : s.stored) : (badRx n s).stored := .modLink (.satInc h)

protected theorem State.stored.receive {n f y g} (hg : ∀ s, s.stored → (g s).stored) (h : s.stored) :
    (receive n f y g s).stored :=
  .ite h (.ite (.badRx h) (.ite h (.ite (hg _ (.modLink h))
    (.ite (hg _ (.setLink (.modLink h))) (.ite (.setLink (.modLink h)) (.modLink h))))))

protected theorem Answers.execBadFrame {n} : Answers s (execBadFrame n s) := .ite (.next fun h => .badRx h) (.next id)

protected theorem Answers.execIdleFrame {n frame} : Answers s (execIdleFrame n frame s) :=
  .next fun h => .receive (fun _ h => .setFld (.modLink h)) h

protected theorem Answers.execFlitFrame {n frame} : Answers s (execFlitFrame n frame s) := by
  unfold execFlitFrame
  dsimp only
  refine .next fun h => ?_
  refine .receive (fun _ h => ?_) h
  split
  · exact .returnCredit (.detect (.inc64 h))
  · exact .ite (.returnCredit (.pushQ (.modLink (.inc64 h)))) (.pushQ (.modLink (.inc64 h)))

protected theorem State.stored.replayAll {n} (h : s.stored) : (replayAll n s).stored :=
  .ite (.retrain (.modLink (.satInc h))) (.modLink (.satInc h))

protected theorem Answers.execNak {n frame} : Answers s (execNak n frame s) :=
  .next fun h => .receive (fun _ h => .replayAll h) h

protected theorem Answers.execReplayTimeout {n} : Answers s (execReplayTimeout n s) :=
  .ite (.next fun h => .replayAll h) (.next id)

protected theorem State.stored.emitFrame {n t' seq ackv p} (h : s.stored) : (emitFrame n t' seq ackv p s).stored :=
  .setLink h

protected theorem State.stored.emitNew {n t' p} (h : s.stored) : (emitNew n t' p s).stored := by
  unfold emitNew
  extract_lets x s1
  have h1 : s1.stored := .emitFrame h
  clear_value s1
  exact .modLink h1

protected theorem State.stored.dropTx {n chan} (h : s.stored) : (dropTx n chan s).stored :=
  .ite (.afterRead (.setHold (.withOwed h))) (.afterRead (.setHold (.setQ h)))

protected theorem State.stored.dropRests {n} (h : s.stored) : (dropRests n s).stored :=
  .foldl (fun _ _ h => .ite (.dropTx h) h) h

protected theorem State.stored.txCheck {n f} (h : s.stored) : (txCheck n f s).stored := by
  unfold txCheck
  dsimp only
  split
  · exact h
  · exact .countEcc (.detect h)
  · exact .countEcc (.detect h)

protected theorem State.stored.farFlit {n f} (h : s.stored) : (farFlit n f s).stored := .detect h

protected theorem StoredIn.unsendable {n chan} (h : s.stored) : StoredIn (unsendable n chan s) := by
  unfold unsendable
  dsimp only
  split
  · split
    · exact .some (.dropTx (.txCheck h))
    · exact .ite (.some (.dropTx (.farFlit (.txCheck h)))) .none
  · exact .none

protected theorem State.stored.dropHeads {n fuel} (h : s.stored) : (dropHeads n fuel s).stored := by
  induction fuel generalizing s with
  | zero => exact h
  | succ fuel ih =>
    unfold dropHeads
    dsimp only
    split
    · split
      · next t ht => exact ih (StoredIn.unsendable (.dropRests h) t ht)
      · exact .dropRests h
    · exact .dropRests h

protected theorem State.stored.sendFlit {n chan} (h : s.stored) : (sendFlit n chan s).stored := by
  unfold sendFlit
  dsimp only
  refine .ite ?_ ?_
  · split
    · exact .inc64 (.modLink (.emitNew (.passHold (.withOwed h))))
    · exact .withOwed h
  · split
    · exact h
    · exact .inc64 (.modLink (.emitNew (.afterRead
        (.ite (.farFlit (.passHold (.txCheck (.noteRead (.setQ h))))) (.passHold (.txCheck (.noteRead (.setQ h))))))))

protected theorem State.stored.linkDrop {n} (h : s.stored) : (linkDrop n s).stored := by
  unfold linkDrop
  dsimp only
  split
  · exact .dropRests h
  · exact .detect (.dropTx (.satInc (.dropRests h)))

protected theorem State.stored.dropQueued {n} (h : s.stored) : (dropQueued n s).stored :=
  .foldl (fun _ _ h => .ite h (.dropTx h)) h

protected theorem Answers.execFrameSlot {n} : Answers s (execFrameSlot n s) := by
  unfold execFrameSlot
  extract_lets k st diverged s1 x
  have h1 (h : s.stored) : s1.stored := .ite (.dropQueued h) h
  refine .ite (.next id) (.ite (.next fun h => .linkDrop h) ?_)
  clear_value s1
  split
  · exact .next fun h => .modLink (.emitFrame (h1 h))
  · exact .next fun h => .modLink (.emitFrame (h1 h))
  · exact .next fun h => .modLink (.emitFrame (.ite (.withFabric (h1 h)) (h1 h)))
  · split
    · exact .next fun h => .modLink (.emitNew (h1 h))
    · exact .next fun h => .modLink (.emitNew (h1 h))
    · have h2 (h : s.stored) : (if diverged then s1 else dropHeads k 48 (lookupDraw s1)).stored :=
        .ite (h1 h) (.dropHeads (.lookupDraw (h1 h)))
      split
      · exact .ite (.next fun h => .sendFlit (h2 h)) (.next fun h => .emitFrame (h2 h))
      · exact .next fun h => .emitFrame (h2 h)

protected theorem State.stored.countFmt {n} (h : s.stored) : (countFmt n s).stored := .satInc h

protected theorem State.stored.sendMgmt {n p} (h : s.stored) : (sendMgmt n p s).stored := .modLink h

protected theorem State.stored.mgRespond {p status} (h : s.stored) : (mgRespond p status s).stored := .sendMgmt h

protected theorem State.stored.receiveMgmt {n f which g} (hg : ∀ p s, s.stored → (g p s).stored) (h : s.stored) :
    (receiveMgmt n f which g s).stored :=
  .ite h (.receive (fun _ h => hg _ _ (.modLink h)) h)

protected theorem Answers.execProbe {n frame} : Answers s (execProbe n frame s) :=
  .next fun h => .receiveMgmt (fun _ _ h => .mgRespond h) h

protected theorem State.stored.readRun {req off} (h : s.stored) : (readRun req off s).2.stored := by
  unfold readRun
  refine .ite_2 (.rsvd h) ?_
  split
  · exact .rsvd h
  · split
    · exact h
    · exact .withLatches h
    · exact h

protected theorem Answers.execRd {n frame} : Answers s (execRd n frame s) := by
  unfold execRd
  dsimp only
  refine .next fun h => ?_
  refine .receiveMgmt (fun _ _ h => ?_) h
  split
  · exact .mgRespond (.readRun h)
  · exact .mgRespond (.readRun h)

protected theorem Answers.execWr {n frame} : Answers s (execWr n frame s) :=
  .next fun h => .receiveMgmt (fun _ _ h => .ite (.mgRespond h)
    (.ite (.mgRespond (.rsvd h)) (.mgRespond (.writeRun h)))) h

protected theorem Answers.execImg {n frame} : Answers s (execImg n frame s) :=
  .next fun h => .receiveMgmt (fun _ _ h => .ite (.countFmt h) (.ite h (.wr (.writeOp h)))) h

protected theorem State.stored.endRequest {r} (h : s.stored) : (endRequest r s).stored :=
  .ite (.raiseEvent (.withFabric h)) (.withFabric h)

protected theorem State.stored.takeResponse {p} (h : s.stored) : (takeResponse p s).stored := .ite h (.endRequest h)

protected theorem Answers.execMgmtForward {n frame} : Answers s (execMgmtForward n frame s) :=
  .next fun h => .receiveMgmt (fun _ _ h => .ite (.countFmt h)
    (.ite (.ite (.countFmt h) (.ite (.sendMgmt h) (.ite h (.mgRespond h))))
    (.ite (.ite (.takeResponse h) (.countFmt h)) (.sendMgmt h)))) h

protected theorem Answers.execMgmtTimeout : Answers s (execMgmtTimeout s) := by
  unfold execMgmtTimeout
  split
  · exact .next id
  · exact .next fun h => .endRequest h

protected theorem State.stored.recordNotice {n reason odev} (h : s.stored) : (recordNotice n reason odev s).stored :=
  .wr h

protected theorem Answers.execNotice {n frame} : Answers s (execNotice n frame s) :=
  .next fun h => .receive (fun _ h => .ite (.modLink h)
    (.ite (.foldl (fun _ _ h => .ite (.modLink h) h)
    (.withLck rfl (.raiseEvent (.recordNotice (.withFabric (.modLink h))))))
    (.withLck rfl (.raiseEvent (.recordNotice (.withFabric (.modLink h))))))) h

protected theorem State.stored.takeAnswer {plock t2 t3} (h : s.stored) : (takeAnswer plock t2 t3 s).stored := by
  unfold takeAnswer
  extract_lets t1 t4 delay offset _ s1 s2 locked _ s3 lim good _ s4
  have h2 : s2.stored := .wr (.wr (.withFabric h))
  have h3 : s3.stored := .ite (.withTime h2) (.setRate h2)
  have h4 : s4.stored := .withFabric h3
  exact .ite (.setLocked h4) (.ite (.setLocked h4) h4)

protected theorem Answers.execTsync {n frame} : Answers s (execTsync n frame s) :=
  .next fun h => .receive (fun _ h => .ite (.modLink h) (.ite (.takeAnswer h) h)) h

protected theorem State.stored.missExchange (h : s.stored) : (missExchange s).stored :=
  .ite h (.ite (.setLocked (.withFabric (.satInc h))) (.withFabric (.satInc h)))

protected theorem Answers.execTsyncExchange : Answers s (execTsyncExchange s) :=
  .ite (.next id) (.ite (.next fun h => .modLink (.withFabric (.missExchange h)))
    (.next fun h => .withFabric (.missExchange h)))

protected theorem State.stored.checkEye {n} (h : s.stored) : (checkEye s n).stored :=
  .ite h (.ite (.retrain (.setFld (.satInc (.modLink h)))) (.modLink h))

protected theorem Answers.execLinkEyeCheck {eyes} : Answers s (execLinkEyeCheck eyes s) :=
  .ite (.next id) (.next fun h => .withUpkeep (.foldl (fun _ _ h => .checkEye h) (.foldl (fun _ _ h => .wr h) h)))

protected theorem State.stored.pwrDrop (h : s.stored) : (pwrDrop s).stored := .setFlag h

protected theorem State.stored.flushLink {n} (h : s.stored) : (flushLink n s).stored :=
  .foldl (fun _ _ h => .flushQueue h) (.foldl (fun _ _ h => .flushQueue h) (.withFlushing h))

protected theorem State.stored.requestLink {v n} (h : s.stored) : (requestLink v s n).stored := by
  unfold requestLink
  extract_lets a l s1 _ s2 _ up s3 down
  have h2 : s2.stored := .withPower (.setFlag h)
  have h3 : s3.stored := .setFlag h
  clear_value s2 s3
  exact .ite (.ite h2 (.withPower h2)) (.ite h (.ite (.flushLink (.withPower h3)) (.setFld (.satInc h))))

protected theorem State.stored.requestLinks {v} (h : s.stored) : (requestLinks v s).stored :=
  .foldl (fun _ _ h => .requestLink h) h

protected theorem Answers.execPdreqLinkWrite {req v} : Answers s (execPdreqLinkWrite req v s) :=
  .ite (.next fun h => .countUr h) (.ite (.next id)
    (.ite (.next fun h => .pwrDrop h)
    (.ite (.next id) (.ite (.next fun h => .withPower h) (.next fun h => .requestLinks h)))))

protected theorem Answers.execPdLinkPowerOn {n} : Answers s (execPdLinkPowerOn n s) :=
  .ite (.next id) (.next fun h => .tryTrain (.setFlag (.withPower h)))

end Sys2Proof.Machine
end

section
/-! SUPPORT. What the power commands keep (O3, O16). -/

namespace Sys2Proof.Machine

variable {s t u : State}

protected theorem State.stored.measureVin {mv} (h : s.stored) : (measureVin mv s).stored := .setFlag (.wr h)

protected theorem Answers.execVinRise {mv} : Answers s (execVinRise mv s) :=
  .ite (.next id) (.next fun h => .withPwrGood (.measureVin h))

protected theorem Answers.execPowerGood {rootSel testMode} : Answers s (execPowerGood rootSel testMode s) := by
  refine .ite (.next id) (.next fun h => .setFlag (.wr ?_))
  obtain ⟨-, -, hregs, -⟩ := h
  exact State.stored_reset.withRegs (SMap.wf_filter hregs)

protected theorem Answers.execResetN {rootSel testMode} : Answers s (execResetN rootSel testMode s) :=
  .ite (.next id) (.next fun h => .deviceReset h)

protected theorem Answers.execVinLoss {mv} : Answers s (execVinLoss mv s) :=
  .ite (.next id) (.next fun h => .detect (.withPower (.measureVin h)))

protected theorem Answers.execPowerStop {mv} : Answers s (execPowerStop mv s) :=
  .ite (.next fun _ => .powerOff) (.next id)

protected theorem Answers.execOverVoltageStop {mv} : Answers s (execOverVoltageStop mv s) :=
  .ite (.next fun _ => .powerOff) (.next id)

protected theorem State.stored.seeSlew {p run} (h : s.stored) : (seeSlew p run s).stored := .setFlag h

protected theorem State.stored.markMoved {p} (h : s.stored) : (markMoved p s).stored := .withUpkeep h

protected theorem State.stored.setCur {p k} (h : s.stored) : (setCur p k s).stored := by
  unfold setCur
  extract_lets s1 _ s2
  have h2 : s2.stored := .withUpkeep (.setFld h)
  clear_value s2
  exact .ite (.raiseEvent (.withPower h2)) h2

protected theorem State.stored.doDvfs {p} (h : s.stored) : (doDvfs p s).stored := by
  unfold doDvfs
  dsimp only
  refine .seeSlew ?_
  split
  · exact .ite (.markMoved h) h
  · exact .setFld (.ite (.markMoved h) h)
  · exact .setFlag (.setFld (.ite (.markMoved h) h))
  · exact .setCur (.ite (.markMoved h) h)

protected theorem State.stored.truncDvfs {p} (h : s.stored) : (truncDvfs s p).stored := .ite (.setFlag (.setFlag h)) h

protected theorem Answers.execDvfsStep {p} : Answers s (execDvfsStep p s) :=
  .ite (.next id) (.ite (.next fun h => .truncDvfs h) (.ite (.next id) (.next fun h => .doDvfs h)))

protected theorem Answers.execLdoSettled {p} : Answers s (execLdoSettled p s) :=
  .ite (.next id) (.next fun h => .ite (.truncDvfs (.setFlag (.ite (.markMoved h) h)))
    (.seeSlew (.setFlag (.ite (.markMoved h) h))))

protected theorem Answers.execPpllUnlock {p} : Answers s (execPpllUnlock p s) :=
  .ite (.next id) (.next fun h => .detect (.satInc (.setFlag (.setFlag (.markMoved (.setCur h))))))

protected theorem Answers.execPpllRelock {p} : Answers s (execPpllRelock p s) :=
  .ite (.next id) (.next fun h => .seeSlew (.markMoved (.setFlag h)))

protected theorem State.stored.clkDrop (h : s.stored) : (clkDrop s).stored := .setFlag h

protected theorem State.stored.startDvfs {p} (h : s.stored) : (startDvfs s p).stored :=
  .ite (.markMoved (.setFlag h)) h

protected theorem State.stored.resumeWaiting (h : s.stored) : (resumeWaiting s).stored := by
  unfold resumeWaiting
  dsimp only
  refine .ite h ?_
  refine .foldl (fun _ _ h => .startDvfs h) ?_
  refine .ite ?_ ?_
  · refine .startBanks ?_
    split
    · exact .requestLinks (.withPower (.ite (.startEpoch h) h))
    · exact .ite (.startEpoch h) h
  · split
    · exact .requestLinks (.withPower (.ite (.startEpoch h) h))
    · exact .ite (.startEpoch h) h

protected theorem Answers.execReactionStart : Answers s (execReactionStart s) := by
  unfold execReactionStart
  dsimp only
  refine .ite (.next id) ?_
  split
  · exact .next id
  · split
    · exact .next fun h => .withSieve h
    · exact .next fun h => .ite (.withSieve h) (.dropReaction (.withSieve h))
    · exact .next fun h => .resumeWaiting (.beginReaction
        (.foldl (fun _ _ h => .truncDvfs h) (.keepLinks (.withSieve h))))

protected theorem Answers.execReactionComplete : Answers s (execReactionComplete s) := by
  unfold execReactionComplete
  split
  · exact .next id
  · split
    · exact .next fun h => .withSieve h
    · extract_lets ran s1 s2 r' _ s3
      have h1 (h : s.stored) : s1.stored := .endMask h
      have h3 (h : s.stored) : s3.stored := .setRec (.withSieve (.ite (h1 h) (.afterReset (h1 h))))
      clear_value s3
      refine .ite (.next id) (.ite ?_ (.next fun h => .resumeWaiting (h3 h)))
      split
      · exact .next fun h => .beginReaction (h3 h)
      · exact .next fun h => .ite (h3 h) (.dropReaction (h3 h))

protected theorem State.stored.fieldWrite {a v} (h : s.stored) : (fieldWrite a v s).stored := by
  unfold fieldWrite
  split
  · exact .plainWrite h
  · exact h

protected theorem Answers.execClkPlotReqWrite {req p v} : Answers s (execClkPlotReqWrite req p v s) :=
  .ite (.next fun h => .countUr h) (.ite (.next id)
    (.ite (.next fun h => .clkDrop h)
    (.next fun h => .startDvfs (.seeCap (.ite (.withPower (.fieldWrite h)) (.fieldWrite h))))))

protected theorem Answers.execCeilingEval {watts} : Answers s (execCeilingEval watts s) := by
  unfold execCeilingEval
  extract_lets w s1 l spare old c lowered s2 stuck overs _ s3 s4 _ s5 s6
  have h1 (h : s.stored) : s1.stored := .wr h
  have h4 (h : s.stored) : s4.stored := .setFlag (.withPower (.setFlag (.setFld (h1 h))))
  have h6 (h : s.stored) : s6.stored := .seeCap (.ite (.detect (h4 h)) (h4 h))
  exact .ite (.next id) (.ite (.next fun h => .ite (.setFld (h1 h)) (h1 h))
    (.next fun h => .ite (h6 h) (.foldl (fun _ _ h => .startDvfs h) (h6 h))))

protected theorem Answers.execVotePass {u} : Answers s (execVotePass u s) := by
  unfold execVotePass
  split
  · exact .next id
  · extract_lets n d s1 fr s2 _ s3 s4 s5 s6
    refine .ite (.next id) (.ite (.next fun h => .detect (.setFld (.satInc h))) (.next fun h => .detect ?_))
    have h2 : s2.stored := by
      dsimp only [s2]
      split
      · exact .wr (.draw h)
      · exact .draw h
    have h3 : s3.stored := .withSieve h2
    have h4 : s4.stored := .ite (.foldl (fun _ _ h => .haltEngine h) h3) h3
    have h5 : s5.stored := .ite (.foldl (fun _ _ h => .setOut h) h4) h4
    exact .ite (.foldl (fun _ _ h => .startDvfs h) (.seeCap (.setFld h5))) h5

protected theorem Answers.execThermalSample {tj tcase} : Answers s (execThermalSample tj tcase s) :=
  .ite (.next id) (.next fun h => .ite (.detect (.withPower (.ite (.raiseEvent (.setFlag (.wr h))) (.setFlag (.wr h)))))
    (.withPower (.ite (.raiseEvent (.setFlag (.wr h))) (.setFlag (.wr h)))))

protected theorem Answers.execVinLowChange {mv} : Answers s (execVinLowChange mv s) :=
  .ite (.next id) (.next fun h => .measureVin (.withPower h))

protected theorem State.stored.loseLock (h : s.stored) : (loseLock s).stored := .setFlag (.ite (.withTime h) h)

protected theorem Answers.execPowerDetectorFault {d} : Answers s (execPowerDetectorFault d s) := by
  unfold execPowerDetectorFault
  dsimp only
  refine .ite (.next id) ?_
  split
  · split
    · exact .next id
    · exact .ite (.next id) (.next fun h => .detect h)
  · exact .ite (.next id) (.next fun h => .detect h)
  · exact .next fun h => .detect (.setFlag h)
  · exact .ite (.next id) (.next fun h => .detect (.loseLock h))

end Sys2Proof.Machine
end

section
/-! SUPPORT. What the upkeep keeps (O3, O16). -/

namespace Sys2Proof.Machine

variable {s t u : State}

protected theorem State.stored.upkDrop (h : s.stored) : (upkDrop s).stored := .setFlag h

protected theorem State.stored.setAbove {p n} (h : s.stored) : (setAbove p n s).stored := .withUpkeep h

protected theorem State.stored.setTrim {p t'} (h : s.stored) : (setTrim p t' s).stored :=
  .ite (.satInc (.wr h)) (.ite (.satInc (.wr h)) (.wr h))

protected theorem State.stored.seeLimit {p m low} (h : s.stored) : (seeLimit p m low s).2.stored :=
  .ite (.raiseEvent (.setFlag h)) (.setFlag h)

protected theorem State.stored.raiseTrim {p n may} (h : s.stored) : (raiseTrim p n may s).stored :=
  .ite (.setTrim h) h

protected theorem State.stored.calPlot {p m} (h : s.stored) : (calPlot p m s).stored :=
  .ite (.detect (.setAbove (.raiseTrim (.seeLimit h))))
    (.ite (.setAbove (.raiseTrim (.seeLimit h)))
    (.ite (.ite (.setAbove (.setTrim (.seeLimit h))) (.setAbove (.seeLimit h))) (.setAbove (.seeLimit h))))

protected theorem State.stored.calSample {run ms p} (h : s.stored) : (calSample run ms s p).stored := by
  unfold calSample
  dsimp only
  refine .ite h ?_
  split
  · exact .ite (.setAbove (.setFlag h)) (.setFlag h)
  · exact .ite (.setFld (.setFlag h)) (.ite (.setAbove (.setFld (.setFlag h))) (.calPlot (.setFld (.setFlag h))))

protected theorem Answers.execCalEval {margins} : Answers s (execCalEval margins s) :=
  .ite (.next id) (.next fun h => .withUpkeep (.foldl (fun _ _ h => .calSample h) h))

protected theorem State.stored.countScrub {uc} (h : s.stored) : (countScrub uc s).stored := .satInc h

protected theorem State.stored.upsetAll {ups} (h : s.stored) : (upsetAll ups s).stored := by
  unfold upsetAll
  refine .foldl (fun _ _ h => ?_) h
  split
  · exact .upset h
  · exact h

protected theorem State.stored.scrubLocal {m e w} (h : s.stored) : (scrubLocal m e w s).stored :=
  .ite (.localCheck h) (.countScrub (.localCheck h))

protected theorem State.stored.scrubSet {e set} (h : s.stored) : (scrubSet e set s).stored :=
  .readSet (.foldl (fun _ _ h => .countScrub h) h)

protected theorem State.stored.scrubMicro {e a} (h : s.stored) : (scrubMicro e a s).stored := by
  unfold scrubMicro
  dsimp only
  split
  · exact h
  · exact .countScrub (.setMark (.ucodeEcc h))
  · exact .countScrub (.ucodeEcc h)

protected theorem State.stored.scrubCtx {p off a} (h : s.stored) : (scrubCtx p off a s).stored := by
  unfold scrubCtx
  dsimp only
  split
  · exact h
  · exact .countScrub (.setMark (.detect h))
  · exact .countScrub (.detect h)

protected theorem State.stored.scrubWord {i a} (h : s.stored) : (scrubWord i s a).stored := by
  unfold scrubWord
  dsimp only
  split
  · exact .ite (.dite (fun _ => .ite (.scrubLocal h) h) (fun _ => h)) h
  · exact .ite (.dite (fun _ => .ite (.scrubLocal h) h) (fun _ => h)) h
  · exact .ite (.dite (fun _ => .ite (.scrubSet h) h) (fun _ => h)) h
  · exact .ite (.dite (fun _ => .ite (.scrubMicro h) h) (fun _ => h)) h
  · exact .dite (fun _ => .ite (.scrubCtx h) h) (fun _ => h)
  · exact h

protected theorem Answers.execScrubTick {ups} : Answers s (execScrubTick ups s) :=
  .ite (.next fun h => .upsetAll h) (.next fun h => .ite
    (.setFld (.withUpkeep (.foldl (fun _ _ h => .scrubWord h) (.upsetAll h))))
    (.withUpkeep (.foldl (fun _ _ h => .scrubWord h) (.upsetAll h))))

protected theorem State.stored.scrubGranary {w} (h : s.stored) : (scrubGranary s w).stored :=
  .ite h (.ite (.countScrub (.checkWord h)) (.ite (.countScrub (.setMark (.checkWord h))) (.checkWord h)))

protected theorem State.stored.seePass (h : s.stored) : (seePass s).stored :=
  .ite (.ite (.withUpkeep (.satInc (.raiseEvent (.setFld (.withUpkeep h))))) (.raiseEvent (.setFld (.withUpkeep h)))) h

protected theorem State.stored.beginPass (h : s.stored) : (beginPass s).stored := .ite (.withUpkeep h) h

protected theorem State.stored.scrubDeferred {u} (h : s.stored) : (scrubDeferred s u).stored := by
  unfold scrubDeferred
  dsimp only
  split
  · exact h
  · exact .countScrub (.countGrnEcc (.detect (.draw (.draw h))))

protected theorem Answers.execScrubBurst {q ups deferred} : Answers s (execScrubBurst q ups deferred s) := by
  unfold execScrubBurst
  extract_lets s1 s2 k _ s3 s4 _ s5
  have h1 (h : s.stored) : s1.stored := .upsetAll h
  have h2 (h : s.stored) : s2.stored := .beginPass (.foldl (fun _ _ h => .scrubDeferred h) (h1 h))
  have h5 (h : s.stored) : s5.stored := .withUpkeep (.foldl (fun _ _ h => .scrubGranary h) (.takePort1 (h2 h)))
  clear_value s1 s2 s5
  exact .ite (.next h1) (.ite (.ite (.next h2) (.next fun h => .seePass (.withUpkeep (h2 h))))
    (.next fun h => .ite (.seePass (.withUpkeep (h5 h))) (h5 h)))

protected theorem Answers.execBorrowStart {q} : Answers s (execBorrowStart q s) := by
  unfold execBorrowStart
  dsimp only
  refine .ite (.next id) ?_
  split
  · exact .next id
  · exact .ite (.next fun h => .foldl (fun _ _ h => .scrubGranary h) (.setFld (.setFld (.setQuad h))))
      (.next fun h => .setFlag (.setQuad (.foldl (fun _ _ h => .scrubGranary h) (.setFld (.setFld (.setQuad h))))))

protected theorem State.stored.endMarch {q b fails} (h : s.stored) : (endMarch q b fails s).stored := by
  unfold endMarch
  dsimp only
  split
  · exact h
  · exact .raiseEvent (.detect (.wr h))

protected theorem Answers.execBorrowComplete {q fails} : Answers s (execBorrowComplete q fails s) := by
  unfold execBorrowComplete
  split
  · exact .next id
  · exact .next fun h => .ite h (.endMarch (.endBorrow h))

protected theorem Answers.execBorrowAbort {q a} : Answers s (execBorrowAbort q a s) := by
  unfold execBorrowAbort
  dsimp only
  split
  · exact .next id
  · exact .ite (.next id) (.next fun h => .setFld (.endMarch (.abortBorrow h)))

protected theorem Answers.execEpochAdvance {req v} : Answers s (execEpochAdvance req v s) :=
  .ite (.next fun h => .countUr h) (.ite (.next fun h => .upkDrop h)
    (.ite (.next fun h => .upkDrop h)
    (.ite (.next fun h => .wr h) (.ite (.next fun h => .withUpkeep (.wr h)) (.next fun h => .startEpoch (.wr h))))))

protected theorem Answers.execEpochSwitch {p} : Answers s (execEpochSwitch p s) :=
  .ite (.next id) (.next fun h => .dropWaiting (.modPlot h))

protected theorem Answers.execEpochRetire : Answers s (execEpochRetire s) := by
  unfold execEpochRetire
  dsimp only
  split
  · exact .next id
  · exact .ite (.next id) (.next fun h => .raiseEvent (.withUpkeep (.setFlag h)))

protected theorem Answers.execEpochTimeout {p} : Answers s (execEpochTimeout p s) := by
  unfold execEpochTimeout
  dsimp only
  split
  · exact .next id
  · exact .ite (.next id) (.next fun h => .dropWaiting (.detect (.setFlag (.setFld (.setFlag (.modPlot h))))))

protected theorem State.stored.calCtlWrite {v} (h : s.stored) : (calCtlWrite v s).stored :=
  .ite (.rsvd (.wr h)) (.wr h)

end Sys2Proof.Machine
end

section
/-! SUPPORT. What a register read and write keep (O3, O16). -/

namespace Sys2Proof.Machine

variable {s t u : State}

protected theorem State.stored.readBlock {req b off} (h : s.stored) : (readBlock req b off s).2.stored := by
  unfold readBlock
  split
  · exact .rsvd h
  · split
    · exact h
    · exact .withLatches h
    · exact h

/-- What the access of a command that answers leaves (R22). -/
protected theorem State.stored.answered {req o} (h : s.stored) (ho : Answers s o) : (answered req s o).2.stored :=
  .outcomeState h ho

protected theorem State.stored.read32 {req a} (h : s.stored) : (read32 req a s).2.stored := by
  unfold read32
  dsimp only
  refine .ite_2 (.rsvd h) ?_
  split
  · exact .readEng h
  · exact .answered h .execMsDebugRead
  · exact .answered h .execUcodeWindowRead
  · split
    · exact h
    · exact .rsvd h
  · exact .readBlock h
  · exact .rsvd h

protected theorem State.stored.dropAt {b off drop} (hdrop : ∀ s, s.stored → (drop s).stored) (h : s.stored) :
    (dropAt b off drop s).stored :=
  .ite (hdrop s h) (.rsvd h)

protected theorem State.stored.ignoreAt {b off} (h : s.stored) : (ignoreAt b off s).stored := .ite h (.rsvd h)

protected theorem State.stored.writeDib {req off v} (h : s.stored) : (writeDib req off v s).stored :=
  .ite (.outcomeState h .execDibCmdGo) (.ite (.outcomeState h .execDibSwevWrite)
    (.ite (.outcomeState h .execEvpendClear) (.ite (.setFlag h) (.tableWrite h))))

protected theorem State.stored.writeLck {req off v} (h : s.stored) : (writeLck req off v s).stored :=
  .ite (.dropAt (fun _ h => .setFlag h) h) (.ite (.outcomeState h .execLckCmdGo)
    (.ite (.outcomeState h .execInhDisable) (.tableWrite h)))

protected theorem State.stored.writeReact {k v} (h : s.stored) : (writeReact k v s).stored :=
  .ite (.rsvd (.wr h)) (.wr h)

protected theorem State.stored.writeSieve {req off v} (h : s.stored) : (writeSieve req off v s).stored :=
  .ite (.dropAt (fun _ h => .sieveDrop h) h) (.ite (.outcomeState h .execSieveHistPop)
    (.ite (.outcomeState h .execSwSafe) (.ite (.writeReact h) (.tableWrite h))))

protected theorem State.stored.writePwr {req off v} (h : s.stored) : (writePwr req off v s).stored :=
  .ite (.dropAt (fun _ h => .pwrDrop h) h) (.ite (.outcomeState h .execPdreqLinkWrite) (.tableWrite h))

protected theorem State.stored.writeClk {req off v} (h : s.stored) : (writeClk req off v s).stored :=
  .ite (.dropAt (fun _ h => .clkDrop h) h) (.ite (.outcomeState h .execClkPlotReqWrite) (.tableWrite h))

protected theorem State.stored.writeUpk {req off v} (h : s.stored) : (writeUpk req off v s).stored :=
  .ite (.dropAt (fun _ h => .upkDrop h) h) (.ite (.outcomeState h .execEpochAdvance)
    (.ite (.calCtlWrite h) (.ite (.dropAt (fun _ h => .upkDrop h) h) (.tableWrite h))))

protected theorem State.stored.writeGrn {req off v} (h : s.stored) : (writeGrn req off v s).stored :=
  .ite (.outcomeState h .execPresencePortGo) (.ite (.outcomeState h .execBankRequest)
    (.ite (.dropAt (fun _ h => .setFlag h) h)
    (.ite (.setFlag (.tableWrite h)) (.ite (.setQuad (.tableWrite h)) (.tableWrite h)))))

protected theorem State.stored.writeEvio {req off v} (h : s.stored) : (writeEvio req off v s).stored :=
  .ite (.outcomeState h .execEvinCfgWrite) (.ignoreAt h)

protected theorem State.stored.writeBlock {req b off v} (h : s.stored) : (writeBlock req b off v s).stored := by
  unfold writeBlock
  split
  · exact .writeDib h
  · exact .writeLck h
  · exact .writeSieve h
  · exact .writePwr h
  · exact .writeClk h
  · exact .writeUpk h
  · exact .writeGrn h
  · exact .ite (.outcomeState h .execMeshLinkselWrite) (.tableWrite h)
  · exact .writeRun h
  · exact .writeEvio h
  · exact .ignoreAt h
  · exact .ignoreAt h
  · exact h

protected theorem State.stored.writeCollector {req p v} (h : s.stored) : (writeCollector req p v s).stored :=
  .ite (.sieveDrop h) (.ite (.ite (.setFlag h) h) (.setFld (.setFlag (.ite (.setFlag h) h))))

protected theorem State.stored.writePlot {req p off v} (h : s.stored) : (writePlot req p off v s).stored := by
  unfold writePlot
  dsimp only
  split
  · exact .rsvd h
  · exact .ite (.writeOvf h) (.ite (.writeCollector h)
      (.ite (.sieveDrop h) (.ite (.plainWrite h) (.ite (.seeRefusals (.plainWrite h)) (.plainWrite h)))))

protected theorem State.stored.write32 {req a v} (h : s.stored) : (write32 req a v s).stored := by
  unfold write32
  dsimp only
  refine .ite (.rsvd h) ?_
  split
  · exact .writeEng h
  · exact .outcomeState h .execMsDebugWrite
  · exact .cfgDrop h
  · exact .writePlot h
  · exact .writeBlock h
  · exact .rsvd h

protected theorem State.stored.readRegs {rd as} (hrd : ∀ a s, s.stored → (rd a s).2.stored) (h : s.stored) :
    (readRegs rd as s).2.stored := by
  induction as generalizing s with
  | nil => exact h
  | cons a as ih => exact ih (hrd a s h)

protected theorem State.stored.readBytes {rd a n} (hrd : ∀ a s, s.stored → (rd a s).2.stored) (h : s.stored) :
    (readBytes rd a n s).2.stored :=
  .readRegs hrd h

protected theorem State.stored.writeBytes {wr a n v} (hwr : ∀ a v s, s.stored → (wr a v s).stored) (h : s.stored) :
    (writeBytes wr a n v s).stored :=
  .foldl (fun _ _ h => .ite (hwr _ _ _ h) (.rsvd h)) h

protected theorem State.stored.writeCtx {p off n v} (h : s.stored) : (writeCtx p off n v s).stored :=
  .ite (.ite (.setMark (.store h)) (.store h)) (.setFlag h)

protected theorem State.stored.peekWords {k ws} (h : s.stored) : (peekWords k ws s).2.2.stored := by
  induction ws generalizing s with
  | nil => exact h
  | cons w ws ih => exact ih (.peekWord h)

protected theorem State.stored.readCore {req a n} (h : s.stored) : (readCore req a n s).2.stored := by
  unfold readCore
  dsimp only
  refine .ite_2 h ?_
  split
  · exact .peekWords h
  · exact .ite_2 (.rsvd h) (.localLoad h)
  · exact .ite_2 (.rsvd h) (.localLoad h)
  · exact .ite_2 (.rsvd h) h
  · exact .ite_2 (.readBytes (fun _ _ h => .read32 h) h) (.rsvd h)
  · exact .readBytes (fun _ _ h => .read32 h) h

protected theorem State.stored.keepBytes {k a bs} (h : s.stored) : (keepBytes k a bs s).stored :=
  .foldl (fun _ _ h => .ite h (.keepWord h)) h

protected theorem State.stored.writeCore {req a n v} (h : s.stored) : (writeCore req a n v s).stored := by
  unfold writeCore
  dsimp only
  refine .ite h ?_
  split
  · exact .keepBytes h
  · exact .ite (.rsvd h) (.localStore h)
  · exact .ite (.rsvd h) (.localStore h)
  · exact .ite (.rsvd h) (.writeCtx h)
  · exact .ite (.rsvd h) (.cfgDrop h)
  · exact .writeBytes (fun _ _ _ h => .write32 h) h

protected theorem State.stored.endPathRead {e d a v bad} (h : s.stored) : (endPathRead e d a v bad s).stored := by
  unfold endPathRead
  dsimp only
  split
  · exact .finishAccess h
  · split
    · exact .finishPending h
    · exact h

protected theorem State.stored.recordTimeout {a} (h : s.stored) : (recordTimeout a s).stored :=
  .detect (.setFld (.satInc h))

protected theorem Answers.execRpathTimeout {req addr} : Answers s (execRpathTimeout req addr s) := by
  unfold execRpathTimeout
  dsimp only
  refine .ite (.next id) ?_
  split
  · split
    · exact .next id
    · refine .ite (.next id) ?_
      refine .next fun h => ?_
      split
      · exact .endPathRead (.recordTimeout (.withRpath h))
      · exact .recordTimeout (.withRpath h)
  · exact .next id
  · exact .ite (.next id) (.next fun h => .ite (.answer (.withSmb (.noteAccess (.recordTimeout h))))
      (.answer (.noteAccess (.recordTimeout h))))

end Sys2Proof.Machine
end

section
/-! SUPPORT. What the boot steps keep (O3, O16). -/

namespace Sys2Proof.Machine

variable {s t u : State}

protected theorem State.stored.setStep {n} (h : s.stored) : (setStep n s).stored := .setFld h

protected theorem State.stored.endCommand {code res} (h : s.stored) : (endCommand code res s).stored :=
  .raiseEvent (.withCmd (.wr (.wr h)))

protected theorem State.stored.failStart {code detail} (h : s.stored) : (failStart code detail s).stored :=
  .withCmd (.wr (.setFld (.setFld h)))

protected theorem State.stored.failImage {code detail} (h : s.stored) : (failImage code detail s).stored :=
  .endCommand (.setStep (.setFld (.setFld h)))

protected theorem State.stored.testRecord {p} (h : s.stored) : (testRecord p s).stored := .detect h

protected theorem State.stored.fixSlots {es p} (h : s.stored) : (fixSlots es s p).stored :=
  .ite h (.testRecord (.ite (.quarantinePlot (.wr h)) (.wr h)))

protected theorem State.stored.readWords {ws} (h : s.stored) : (readWords ws s).2.stored := by
  induction ws generalizing s with
  | nil => exact h
  | cons w ws ih => exact ih (.peekWord h)

protected theorem State.stored.readImage {a n} (h : s.stored) : (readImage a n s).2.stored := .readWords h

protected theorem State.stored.andThen {α β : Type} {r : Load α} {g : α → State → Load β} (h : r.2.stored)
    (hg : ∀ x s, s.stored → (g x s).2.stored) : (andThen r g).2.stored := by
  unfold andThen
  split
  · exact hg _ _ h
  · exact h

protected theorem State.stored.eachSection {g ks} (hg : ∀ k s, s.stored → (g k s).2.stored) (h : s.stored) :
    (eachSection g ks s).2.stored := by
  induction ks generalizing s with
  | nil => exact h
  | cons k ks ih => exact .andThen (hg k s h) fun _ _ h => ih h

protected theorem State.stored.loadHeader (h : s.stored) : (loadHeader s).2.stored := by
  unfold loadHeader
  dsimp only
  refine .ite_2 (.readImage h) ?_
  refine .ite_2 (.readImage h) ?_
  refine .ite_2 (.readImage (.readImage h)) ?_
  refine .ite_2 (.readImage (.readImage h)) ?_
  split
  · exact .readImage (.readImage h)
  · exact .ite_2 (.readImage (.readImage h)) (.ite_2 (.readImage (.readImage h))
      (.ite_2 (.readImage (.readImage h)) (.readImage (.readImage h))))

protected theorem State.stored.sectionData {k} (h : s.stored) : (sectionData k s).2.stored :=
  .ite_2 (.readImage h) (.readImage h)

protected theorem State.stored.loadMcfw (h : s.stored) : (loadMcfw s).2.stored := by
  unfold loadMcfw
  split
  · exact h
  · exact .andThen (.sectionData h) (fun _ _ h => .ite_2 (.withMcVersion h) h)

protected theorem State.stored.broadcast {vendor customer version upsets} (h : s.stored) :
    (broadcast vendor customer version upsets s).stored :=
  .foldl (fun _ _ h => .wr (.setMark h)) (.foldl (fun _ _ h => .foldl (fun _ _ h => .wr h) (.wr h))
    (.foldl (fun _ _ h => .ite (.rsvd h) h) (.withMarksUcode h)))

protected theorem State.stored.customerData (h : s.stored) : (customerData s).2.stored := by
  unfold customerData
  split
  · exact h
  · exact .andThen (.sectionData h) (fun _ _ h => h)

protected theorem State.stored.loadUcode {r} (h : s.stored) : (loadUcode r s).2.stored := by
  unfold loadUcode
  split
  · exact h
  · refine .andThen (.sectionData h) fun v s h => .ite_2 h (.andThen (.customerData h) fun c s h => ?_)
    split
    · exact h
    · exact .foldl (fun _ _ h => .fixSlots h) (.wr64 (.wr (.broadcast h)))

protected theorem State.stored.skipSection (h : s.stored) : (skipSection s).2.stored := .satInc h

protected theorem State.stored.fillBytes {a bs} (h : s.stored) : (fillBytes a bs s).stored := by
  fun_induction fillBytes a bs s with
  | case1 a b0 b1 b2 b3 b4 b5 b6 b7 rest s ih => exact ih (.setMark (.store h))
  | case2 => exact h

protected theorem State.stored.loadEngines {imem k d} (h : s.stored) : (loadEngines imem k d s).2.stored := by
  unfold loadEngines
  extract_lets t eng bcast start known base
  refine .ite_2 h (.ite_2 ?_ ?_)
  · dsimp only
    exact .foldl (fun _ _ h => .fillBytes h) h
  · split
    · exact .skipSection h
    · dsimp only
      exact .fillBytes h

protected theorem State.stored.loadContext {d b} (hd : d < 16384) (h : s.stored) : (loadContext d b s).stored :=
  .setDesc hd (.fillBytes h)

protected theorem State.stored.loadContexts {k d} (h : s.stored) : (loadContexts k d s).2.stored := by
  unfold loadContexts
  dsimp only
  split
  · exact h
  · next hfits =>
    push Not at hfits
    obtain ⟨hfirst, -, hlast, -⟩ := hfits
    refine .ite_2 (.skipSection h) (h.foldl_mem fun _ j hj h => .loadContext ?_ h)
    have := List.mem_range.mp hj
    omega

protected theorem State.stored.mcWrite {op w v} (h : s.stored) : (mcWrite op w v s).stored := .portOp h

protected theorem State.stored.mcWrites {op} : ∀ {w bs s}, s.stored → (mcWrites op w bs s).stored := by
  intro w bs s h
  fun_induction mcWrites op w bs s with
  | case1 w b0 b1 b2 b3 b4 b5 b6 b7 rest s ih => exact ih (.mcWrite h)
  | case2 => exact h

protected theorem State.stored.loadGranary {k d} (h : s.stored) : (loadGranary k d s).2.stored :=
  .ite_2 h (.mcWrites h)

protected theorem State.stored.loadSection {k} (h : s.stored) : (loadSection k s).2.stored :=
  .ite_2 h (.andThen (.sectionData h) (fun _ _ h => .ite_2 (.loadEngines h)
    (.ite_2 (.loadEngines h) (.ite_2 (.loadContexts h) (.loadGranary h)))))

protected theorem State.stored.commitProfile (h : s.stored) : (commitProfile s).stored := by
  unfold commitProfile
  extract_lets q s1 s2 s3 s4 s5 grp s6 s7 s8 bs
  have h5 : s5.stored := .wr (.dropRegs (.dropRegs (.dropRegs (.withProfile h))))
  have h8 : s8.stored := .foldl (fun _ _ h => .dropRegs h)
      (.foldl (fun _ _ h => .wr h) (.foldl (fun _ _ h => .wr h) h5))
  clear_value s8
  exact .ite h8 (.nextBank (.withBankQ (.setFlag h8)))

protected theorem State.stored.configEntries {i n d} (h : s.stored) : (configEntries i n d s).2.stored := by
  induction n generalizing s d with
  | zero => exact h
  | succ n ih => exact .ite_2 h (ih (.writeCore h))

protected theorem State.stored.loadConfig {k} (h : s.stored) : (loadConfig k s).2.stored :=
  .ite_2 h (.andThen (.sectionData h) (fun _ _ h => .configEntries h))

protected theorem State.stored.startEngines (h : s.stored) : (startEngines s).stored :=
  .endCommand (.setStep (.withOpStatePrevState (.wr64 (.foldl (fun _ _ h => .ite h (.setEngCtrl h)) h))))

protected theorem State.stored.imageStep {n r} (h : s.stored) : (imageStep n r s).2.stored := by
  unfold imageStep
  split_ifs
  · exact .andThen (.loadHeader h) fun _ _ h => .withImage h
  · exact .loadMcfw h
  · exact .loadUcode h
  · exact .eachSection (fun _ _ h => .loadSection h) h
  · dsimp only
    exact .commitProfile h
  · exact .eachSection (fun _ _ h => .loadConfig h) h
  · exact h

protected theorem State.stored.imageSteps {r ns} (h : s.stored) : (imageSteps r ns s).2.stored := by
  induction ns generalizing s with
  | nil => exact h
  | cons n ns ih => exact .ite_2 (.setStep h) (.andThen (.imageStep (.setStep h)) fun _ _ h => ih h)

protected theorem State.stored.runImage {r} (h : s.stored) : (runImage r s).stored := by
  have hrun : (imageSteps r [5, 6, 7, 8, 9, 10, 11] (s.wr bootReg 0)).2.stored := .imageSteps (.wr h)
  unfold runImage
  split
  · next heq =>
    rw [heq] at hrun
    exact .startEngines hrun
  · next heq =>
    rw [heq] at hrun
    exact .failImage hrun

protected theorem State.stored.sampleLands {v} (h : s.stored) : (sampleLands v s).stored := .withEvio h

protected theorem State.stored.resetLink {down} (h : s.stored) : (resetLink down s).stored := by
  unfold resetLink
  extract_lets st s1 s2 s3 _ s4 s5 s6 d
  have h5 : s5.stored := .satInc (.sendReset (.withHost (.wr (.dropRegs (.dropRegs h)))))
  have h6 : s6.stored := by
    clear_value s5
    dsimp only [s6]
    split
    · exact .ite (.endCommand h5) (.withCmd h5)
    · exact h5
  clear_value s6
  exact .ite h6 (.setFld (.setFld (.setFlag (.draw h6))))

protected theorem State.stored.takeLands (h : s.stored) : (takeLands s).stored :=
  .resetLink (.foldl (fun _ _ h => .ite h (.enterLink h)) h)

protected theorem State.stored.seeScan {was} (h : s.stored) : (seeScan was s).stored :=
  .ite (.takeLands h) (.ite (.foldl (fun _ _ h => .tryTrain h) h) h)

protected theorem State.stored.clearGranary (h : s.stored) : (clearGranary s).stored := by
  obtain ⟨hmem, -⟩ := id h
  exact (h.withMem (Memory.wf_filter hmem _)).withPres rfl

protected theorem State.stored.reachWait (h : s.stored) : (reachWait s).stored :=
  .ite (.endCommand (.setStep h)) (.setFlag (.setStep h))

protected theorem State.stored.plotDown {p} (h : s.stored) : (plotDown s p).stored :=
  .modPlot (.setFld (.setFld (.setFlag h)))

protected theorem State.stored.domainsUp {n} (h : s.stored) : (domainsUp n s).stored :=
  .foldl (fun _ _ h => .plotDown h) (.wr h)

protected theorem State.stored.endRow1 (h : s.stored) : (endRow1 s).stored := .withTime h

protected theorem State.stored.startStep {n r} (h : s.stored) : (startStep n r s).stored :=
  .ite (.ite (.failStart (.domainsUp (.setFlag h))) (.setStep (.sampleLands (.setFlag (.withFaultN (.endRow1 h))))))
    (.ite (.ite (.failStart h) (.setStep (.setFld h)))
    (.ite (.ite (.failStart h) (.setStep (.clearGranary h))) (.reachWait (.foldl (fun _ _ h => .fixSlots h) h))))

protected theorem Answers.execBootStepComplete {r} : Answers s (execBootStepComplete r s) :=
  .next fun h => .ite (.seeScan (.startStep h)) h

protected theorem State.stored.freeDomains (h : s.stored) : (freeDomains s).stored :=
  .ite (.domainsUp (.draw h)) (.sampleLands (.draw (.draw (.domainsUp (.draw h)))))

protected theorem Answers.execBootStepTimeout : Answers s (execBootStepTimeout s) :=
  .next fun h => .ite (.seeScan (.failStart (.ite (.freeDomains (.endRow1 h)) h))) h

protected theorem Answers.execFabricBootStart {r} : Answers s (execFabricBootStart r s) :=
  .ite (.next id) (.ite (.next fun h => .readImage (.withFabric h))
    (.next fun h => .seeScan (.runImage (.setFld (.readImage (.withFabric h))))))

end Sys2Proof.Machine
end

section
/-! SUPPORT. What the host's commands keep (O3, O16). -/

namespace Sys2Proof.Machine

variable {s t u : State}

protected theorem Answers.asHost {g} (hg : ∀ s, s.stored → (g s).stored) : Answers s (asHost g s) :=
  .next fun h => .ite (hg _ h) (.countUr h)

protected theorem Answers.execHostLinkReset {down} : Answers s (execHostLinkReset down s) :=
  .ite (.next id) (.next fun h => .resetLink h)

protected theorem State.stored.phyTrains (h : s.stored) : (phyTrains s).2.stored := .ite_2 h (.ite_2 h (.draw h))

protected theorem Answers.execHostLinkUp {width speed} : Answers s (execHostLinkUp width speed s) :=
  .ite (.next id) (.next fun h => .ite (.setFld (.setFld (.setFlag (.phyTrains h)))) (.phyTrains h))

protected theorem Answers.execD3hotEntry : Answers s (execD3hotEntry s) :=
  .ite (.next id) (.next fun h => .withHost h)

protected theorem State.stored.sendPending {vs} (h : s.stored) : (sendPending vs s).stored := by
  induction vs generalizing s with
  | nil => exact h
  | cons v vs ih => exact ih (.ite (.sendVector h) h)

protected theorem Answers.execMsixPendingSend : Answers s (execMsixPendingSend s) := .next fun h => .sendPending h

protected theorem State.stored.ringDoorbell {d v} (h : s.stored) : (ringDoorbell d v s).stored := .raiseEvent (.wr h)

protected theorem Answers.execHostDb {d v} : Answers s (execHostDb d v s) := .asHost (fun _ h => .ringDoorbell h)

protected theorem State.stored.bar2 {off n wr} (h : s.stored) : (bar2 off n wr s).stored := by
  unfold bar2
  dsimp only
  split
  · exact .keepBytes h
  · exact .withHost (.peekWords h)

protected theorem Answers.execBar2Access {off len wr} : Answers s (execBar2Access off len wr s) :=
  .ite (.next id) (.ite (.next fun h => .wantWords h) (.asHost (fun _ h => .bar2 h)))

protected theorem State.stored.portReject (h : s.stored) : (portReject s).stored := .setFlag (.satInc h)

protected theorem State.stored.startCommand {opc work} (hwork : ∀ c s, s.stored → (work c s).stored) (h : s.stored) :
    (startCommand opc work s).stored := by
  have hbusy (b : Bool) : ((((s.setFld (breg .bar4 0) 0 8 opc.toNat).setFld portReg 0 8 opc.toNat).setFld portReg 8 8
      0).setFlag
      portReg 31 b).stored := .setFlag (.setFld (.setFld (.setFld h)))
  unfold startCommand
  dsimp only
  split
  · exact .portReject h
  · split
    · exact .endCommand (.setFld (.setFld (.setFld h)))
    · exact hwork _ _ (hbusy true)

protected theorem State.stored.workVerify {r x1} (h : s.stored) : (workVerify r x1 s).stored := .runImage h

protected theorem State.stored.workPlotReset {c} (h : s.stored) : (workPlotReset c s).stored := .beginPlotReset h

protected theorem State.stored.workClear {x0} (h : s.stored) : (workClear x0 s).stored :=
  .foldl (fun _ _ h => .ite (.abortBorrow h) h) h

protected theorem State.stored.workSelfTest {c} (h : s.stored) : (workSelfTest c s).stored :=
  .ite (.workClear (.dropRegs (.withOpStatePrevState h))) (.withOpStatePrevState h)

protected theorem State.stored.workService {x0} (h : s.stored) : (workService x0 s).stored :=
  .endCommand (.withOpState h)

protected theorem State.stored.flushNotices (h : s.stored) : (flushNotices s).stored :=
  .foldl (fun _ _ h => .ite (.foldl (fun _ _ h => .emitNew h) h) h) h

protected theorem State.stored.workReset {rootSel testMode x2} (h : s.stored) :
    (workReset rootSel testMode x2 s).stored :=
  .foldl (fun _ _ h => .ite (.modLink h) h) (.deviceReset (.flushNotices (.sendNotice h)))

protected theorem State.stored.workDump {c} (h : s.stored) : (workDump c s).stored := .endCommand (.keepBytes h)

protected theorem State.stored.freeOutside (h : s.stored) : (freeOutside s).2.stored := by
  unfold freeOutside
  extract_lets d pick slots bad entries
  have hslots {s : State} (h : s.stored) : (slots s).2.stored :=
    List.foldlRecOn (motive := fun k : List EngNo × State => k.2.stored) _ _ h fun _ hk _ _ => .draw hk
  clear_value slots
  have hentries : entries.2.stored :=
    List.foldlRecOn (motive := fun k : List (EngNo × BitVec 4) × State => k.2.stored) _ _ (hslots (.draw h))
      fun _ hk _ _ => hslots hk
  clear_value entries
  exact hentries

protected theorem State.stored.workOf {c} (h : s.stored) : (workOf c s).stored :=
  .ite (.workVerify (.freeOutside h)) (.ite (.workPlotReset h)
    (.ite (.workClear h)
    (.ite (.workSelfTest h) (.ite (.workService h) (.ite (.workReset (.freeOutside h)) (.ite (.workDump h) h))))))

protected theorem Answers.execLoadImage : Answers s (execLoadImage s) :=
  .asHost (fun _ h => .startCommand (fun _ _ h => h) h)

protected theorem Answers.execVerifyAndStart {r} : Answers s (execVerifyAndStart r s) :=
  .asHost (fun _ h => .startCommand (fun _ _ h => .workVerify h) h)

protected theorem Answers.execPlotReset : Answers s (execPlotReset s) :=
  .asHost (fun _ h => .startCommand (fun _ _ h => .workPlotReset h) h)

protected theorem Answers.execGranaryClear : Answers s (execGranaryClear s) :=
  .asHost (fun _ h => .startCommand (fun _ _ h => .workClear h) h)

protected theorem Answers.execSelfTest : Answers s (execSelfTest s) :=
  .asHost (fun _ h => .startCommand (fun _ _ h => .workSelfTest h) h)

protected theorem Answers.execSetService : Answers s (execSetService s) :=
  .asHost (fun _ h => .startCommand (fun _ _ h => .workService h) h)

protected theorem Answers.execDeviceReset {rootSel testMode} : Answers s (execDeviceReset rootSel testMode s) :=
  .asHost (fun _ h => .startCommand (fun _ _ h => .workReset h) h)

protected theorem Answers.execPlotDump : Answers s (execPlotDump s) :=
  .asHost (fun _ h => .startCommand (fun _ _ h => .workDump h) h)

protected theorem State.stored.orderAbort {v} (h : s.stored) : (orderAbort v s).stored := by
  unfold orderAbort
  split
  · exact .ite (.withCmd h) h
  · exact h

protected theorem Answers.execHostCmdAbort {v} : Answers s (execHostCmdAbort v s) :=
  .asHost (fun _ h => .orderAbort h)

protected theorem Answers.execLoadImageComplete {how data} : Answers s (execLoadImageComplete how data s) := by
  unfold execLoadImageComplete
  dsimp only
  split
  · exact .next id
  · split
    · exact .next fun h => .ite (.endCommand (.keepBytes h)) (.keepBytes h)
    · exact .next fun h => .endCommand (.satInc (.keepBytes h))
    · exact .next fun h => .ite (.endCommand (.keepBytes h)) (.keepBytes h)

protected theorem Answers.execPlotResetComplete {p} : Answers s (execPlotResetComplete p s) := by
  unfold execPlotResetComplete
  dsimp only
  split
  · exact .next id
  · exact .ite (.next id) (.ite (.next fun h => .endCommand
      (.afterReset (.ite (.beginPlotReset (.finishPlotReset h)) (.finishPlotReset h))))
      (.next fun h => .ite (.beginPlotReset (.finishPlotReset h)) (.finishPlotReset h)))

protected theorem State.stored.checkClear {hit} (h : s.stored) : (checkClear hit s).2.stored :=
  .foldl (fun _ _ h => .checkWord h) h

protected theorem State.stored.meetClear {hit xs} (h : s.stored) : (meetClear hit xs s).2.stored := by
  induction xs generalizing s with
  | nil => exact h
  | cons x xs ih =>
    exact .ite_2 (ih h) (.ite_2 (.draw (ih h))
      (.ite_2 (.draw (ih h)) (.ite_2 (.collide (.draw (ih h))) (.draw (ih h)))))

protected theorem State.stored.clearUnits {first units} (h : s.stored) : (clearUnits first units s).stored := by
  unfold clearUnits
  extract_lets met c hit s1
  have h1 : s1.stored := .checkClear (.meetClear h)
  clear_value s1
  obtain ⟨hmem, hpres, -⟩ := id h1
  exact (h1.withMem (Memory.wf_filter hmem _)).withPres (SMap.wf_filter hpres)

protected theorem Answers.execGranaryClearComplete {units} : Answers s (execGranaryClearComplete units s) := by
  unfold execGranaryClearComplete
  dsimp only
  split
  · exact .next id
  · exact .next fun h => .endCommand (.clearUnits h)

protected theorem State.stored.testPlot {es p} (h : s.stored) : (testPlot es s p).stored := by
  unfold testPlot
  extract_lets s1 m bad new s2
  have h1 : s1.stored := .finishPlotReset (.ite (.beginPlotReset h) h)
  clear_value s1 new
  have h2 : s2.stored := by
    dsimp only [s2]
    split
    · exact h1
    · exact .ite (.setFlag (.setFlag h1)) (.ite (.retireSlot h1) (.quarantinePlot (.setFlag h1)))
    · exact .quarantinePlot (.foldl (fun _ _ h => .setFlag h) h1)
  exact .ite h2 (.testRecord h2)

protected theorem State.stored.failBank {b} (h : s.stored) : (failBank s b).stored := .detect (.setFlag h)

protected theorem State.stored.leaveTest {tested dirty} (h : s.stored) : (leaveTest tested dirty s).stored :=
  .ite (.foldl (fun _ _ h => .haltEngine h) (.setStep (.withOpState h))) (.withOpState h)

protected theorem Answers.execSelfTestComplete {plots failedSlots failedBanks} : Answers s
    (execSelfTestComplete plots failedSlots failedBanks s) := by
  unfold execSelfTestComplete
  dsimp only
  split
  · exact .next id
  · exact .next fun h => .endCommand (.leaveTest
      (.ite (.clearGranary (.foldl (fun _ _ h => .failBank h) (.foldl (fun _ _ h => .testPlot h) h)))
      (.foldl (fun _ _ h => .testPlot h) h)))

protected theorem State.stored.endMailbox {r : MbxResult} (h : r.2.2.stored) : (endMailbox r).stored :=
  .raiseEvent (.setFlag (.setFld (.setFlag (.foldl (fun _ _ h => .wr h) h))))

protected theorem State.stored.mbxReject (h : s.stored) : (mbxReject s).stored := .setFlag h

protected theorem State.stored.mbxVersion (h : s.stored) : (mbxVersion s).2.2.stored := h

protected theorem State.stored.mbxPost (h : s.stored) : (mbxPost s).2.2.stored :=
  .ite_2_2 h (.ite_2_2 h (.ite_2_2 h (.ite (.sendMgmt (.ite h (.withFabric h)))
    (.ite (.ite h (.withFabric h)) (.takeResponse (.ite h (.withFabric h)))))))

protected theorem State.stored.mbxGet (h : s.stored) : (mbxGet s).2.2.stored := by
  unfold mbxGet
  dsimp only
  split
  · exact h
  · exact .withFabric h

protected theorem State.stored.mbxForce (h : s.stored) : (mbxForce s).2.2.stored := .forceLock h

protected theorem Answers.onMailbox {req wait g} (hg : ∀ s, s.stored → (g s).2.2.stored) : Answers s
    (onMailbox req wait g s) :=
  .ite (.next fun h => .ite h (.endMailbox (hg _ h)))
    (.asHost fun _ h => .ite (.mbxReject h) (.ite (.setFlag (.setFld h)) (.endMailbox (hg _ (.setFld h)))))

protected theorem Answers.execVersion : Answers s (execVersion s) := .onMailbox (fun _ h => .mbxVersion h)

protected theorem Answers.execMgmtPost : Answers s (execMgmtPost s) := .onMailbox (fun _ h => .mbxPost h)

protected theorem Answers.execMgmtGet : Answers s (execMgmtGet s) := .onMailbox (fun _ h => .mbxGet h)

protected theorem Answers.execLockForce : Answers s (execLockForce s) := .onMailbox (fun _ h => .mbxForce h)

protected theorem State.stored.writeBar4 {off v} (h : s.stored) : (writeBar4 off v s).stored :=
  .ite (.portReject h) (.ite (.ite (.startCommand (fun _ _ h => .workOf h) h) (.setFld h))
    (.ite (.orderAbort h) (.ite (.ringDoorbell h) (.tableWrite h))))

protected theorem State.stored.writeMc {off v} (h : s.stored) : (writeMc off v s).stored := by
  unfold writeMc
  extract_lets a s1
  have h1 : s1.stored := .tableWrite h
  exact .ite (.mbxReject (.tableWrite h)) (.ite (.mbxReject h) (.ite h1 (.ite (.setFlag h1) (.endMailbox h1))))

protected theorem State.stored.writeAny {req a n v} (h : s.stored) : (writeAny req a n v s).stored := by
  unfold writeAny
  dsimp only
  split
  · refine .ite ?_ h
    refine .writeBytes (fun _ _ _ h => ?_) h
    split
    · exact .writeBar4 h
    · exact .writeMc h
    · exact .rsvd h
  · refine .ite ?_ (.rsvd h)
    refine .writeBytes (fun _ _ _ h => ?_) h
    split
    · exact .writeBar4 h
    · exact .writeMc h
    · exact .rsvd h
  · exact .writeCore h

protected theorem State.stored.serveAccess {req a n wr} (h : s.stored) : (serveAccess req a n wr s).stored := by
  have hnoted : (match place a with
      | .granary _ => s
      | .block .bar4 _ => s
      | _ => noteAccess req s).stored := by
    split
    · exact h
    · exact h
    · exact .noteAccess h
  unfold serveAccess
  dsimp only
  split
  · exact .writeAny hnoted
  · exact .ite (.answer hnoted) (.answer (.readCore hnoted))

protected theorem State.stored.readPath {p a n} (h : s.stored) : (readPath p a n s).2.stored := by
  unfold readPath
  dsimp only
  refine .ite_2 (.readCore h) ?_
  split
  · exact .localLoad h
  · exact .localLoad h
  · exact .readCore h

protected theorem State.stored.servePlot {p a wr} (h : s.stored) : (servePlot p a wr s).stored := by
  unfold servePlot
  dsimp only
  split
  · exact h
  · split
    · exact .writeAny (.withRpath h)
    · split
      · exact .endPathRead (.readPath (.withRpath h))
      · exact .readPath (.withRpath h)

protected theorem State.stored.testAccess {req wr} (h : s.stored) : (testAccess req wr s).stored := by
  unfold testAccess
  dsimp only
  split
  · exact .noteAccess h
  · exact .answer (.draw (.noteAccess h))

end Sys2Proof.Machine
end

section
/-! SUPPORT. What the pins and the TAP keep (O3, O16). -/

namespace Sys2Proof.Machine

variable {s t u : State}

protected theorem Answers.execSmbAddr {addr pecOk} : Answers s (execSmbAddr addr pecOk s) :=
  .ite (.next id) (.ite (.next fun h => .withSmb h) (.next fun h => .withSmb h))

protected theorem Answers.execSmbRead : Answers s (execSmbRead s) :=
  .ite (.next id) (.next fun h => .ite (.withSmb (.serveAccess h)) (.serveAccess h))

protected theorem Answers.execSmbStatus : Answers s (execSmbStatus s) :=
  .ite (.next id) (.next fun h => .answer (.withSmb h))

protected theorem State.stored.setScan {i} (h : s.stored) : (setScan i s).stored := .seeScan (.withTap h)

protected theorem State.stored.loadScan {c} (h : s.stored) : (loadScan c s).stored := .setScan (.withTap h)

protected theorem State.stored.scanCells {tdi lands} (h : s.stored) : (scanCells tdi lands s).stored := .withTap h

protected theorem State.stored.extestWith {c x} (h : s.stored) : (extestWith c x s).stored := by
  unfold extestWith
  dsimp only
  split
  · exact .loadScan h
  · exact .ite (.scanCells (.loadScan h)) (.withTap (.loadScan h))

protected theorem Answers.execTapReset : Answers s (execTapReset s) := .next fun h => .setScan h

protected theorem Answers.execExtest {x} : Answers s (execExtest x s) := .next fun h => .extestWith h

protected theorem Answers.execSamplePreload {tdi lands} : Answers s (execSamplePreload tdi lands s) :=
  .next fun h => .scanCells (.loadScan h)

protected theorem Answers.execIdcode : Answers s (execIdcode s) := .next fun h => .withTap (.loadScan h)

protected theorem Answers.execHighz : Answers s (execHighz s) := .next fun h => .loadScan h

protected theorem Answers.execClamp : Answers s (execClamp s) := .next fun h => .loadScan h

protected theorem Answers.execExtestPulse {x} : Answers s (execExtestPulse x s) := .next fun h => .extestWith h

protected theorem Answers.execExtestTrain {x} : Answers s (execExtestTrain x s) := .next fun h => .extestWith h

protected theorem Answers.execBypass : Answers s (execBypass s) := .next fun h => .loadScan h

end Sys2Proof.Machine
end

section
/-! PROOFS. Where a command stops, and what every step keeps (O3, O16). -/

namespace Sys2Proof.Machine

variable {s t : State}

/-- Whether a command is a register access, which alone may stop (R22, R470). -/
def isAccess : Instr → Bool
  | .registerWrite .. | .registerPathAccess .. => true
  | _ => false

/-- Every command but a register access completes (95_what_each_step_holds). -/
theorem Answers.exec : ∀ c : Instr, isAccess c = false → Answers s (exec c s)
  | .powerGood .., _ => .execPowerGood
  | .resetN .., _ => .execResetN
  | .vinRise .., _ => .execVinRise
  | .vinLoss .., _ => .execVinLoss
  | .powerStop .., _ => .execPowerStop
  | .overVoltageStop .., _ => .execOverVoltageStop
  | .bootStepComplete .., _ => .execBootStepComplete
  | .bootStepTimeout, _ => .execBootStepTimeout
  | .fabricBootStart .., _ => .execFabricBootStart
  | .loadImage, _ => .execLoadImage
  | .loadImageComplete .., _ => .execLoadImageComplete
  | .verifyAndStart .., _ => .execVerifyAndStart
  | .plotReset, _ => .execPlotReset
  | .plotResetComplete .., _ => .execPlotResetComplete
  | .granaryClear, _ => .execGranaryClear
  | .granaryClearComplete .., _ => .execGranaryClearComplete
  | .selfTest, _ => .execSelfTest
  | .selfTestComplete .., _ => .execSelfTestComplete
  | .setService, _ => .execSetService
  | .deviceReset .., _ => .execDeviceReset
  | .plotDump, _ => .execPlotDump
  | .hostCmdAbort .., _ => .execHostCmdAbort
  | .hostLinkReset .., _ => .execHostLinkReset
  | .bar2Access .., _ => .execBar2Access
  | .hostDb .., _ => .execHostDb
  | .msixPendingSend, _ => .execMsixPendingSend
  | .version, _ => .execVersion
  | .mgmtPost, _ => .execMgmtPost
  | .mgmtGet, _ => .execMgmtGet
  | .lockForce, _ => .execLockForce
  | .mgmtTimeout, _ => .execMgmtTimeout
  | .rpathTimeout .., _ => .execRpathTimeout
  | .tokenIn .., _ => .execTokenIn
  | .matchToken .., _ => .execMatchToken
  | .spillDownSpill .., _ => .execSpillDownSpill
  | .spillDrain .., _ => .execSpillDrain
  | .refillLookup .., _ => .execRefillLookup
  | .refillAnswer .., _ => .execRefillAnswer
  | .contextSweepVisit .., _ => .execContextSweepVisit
  | .overflowPurge .., _ => .execOverflowPurge
  | .contextReturn .., _ => .execContextReturn
  | .msDebugRead .., _ => .execMsDebugRead
  | .msDebugWrite .., _ => .execMsDebugWrite
  | .engCtrlWrite .., _ => .execEngCtrlWrite
  | .engMatchCfgWrite .., _ => .execEngMatchCfgWrite
  | .engArbWrite .., _ => .execEngArbWrite
  | .execIssue .., _ => .execExecIssue
  | .emitResult .., _ => .execEmitResult
  | .crossbarTransfer .., _ => .execCrossbarTransfer
  | .grnAckIntake .., _ => .execGrnAckIntake
  | .sheafRspWrite .., _ => .execSheafRspWrite
  | .strandReply .., _ => .execStrandReply
  | .add .., _ => .execAdd
  | .sub .., _ => .execSub
  | .neg .., _ => .execNeg
  | .mul .., _ => .execMul
  | .mulhs .., _ => .execMulhs
  | .mulhu .., _ => .execMulhu
  | .divs .., _ => .execDivs
  | .divu .., _ => .execDivu
  | .rems .., _ => .execRems
  | .remu .., _ => .execRemu
  | .abs .., _ => .execAbs
  | .mins .., _ => .execMins
  | .maxs .., _ => .execMaxs
  | .minu .., _ => .execMinu
  | .maxu .., _ => .execMaxu
  | .and .., _ => .execAnd
  | .or .., _ => .execOr
  | .xor .., _ => .execXor
  | .not .., _ => .execNot
  | .shl .., _ => .execShl
  | .shr .., _ => .execShr
  | .sar .., _ => .execSar
  | .rol .., _ => .execRol
  | .adds .., _ => .execAdds
  | .subs .., _ => .execSubs
  | .clz .., _ => .execClz
  | .popc .., _ => .execPopc
  | .sext .., _ => .execSext
  | .eq .., _ => .execEq
  | .ne .., _ => .execNe
  | .lts .., _ => .execLts
  | .les .., _ => .execLes
  | .ltu .., _ => .execLtu
  | .leu .., _ => .execLeu
  | .fadd .., _ => .execFadd
  | .fsub .., _ => .execFsub
  | .fmul .., _ => .execFmul
  | .fma .., _ => .execFma
  | .fdiv .., _ => .execFdiv
  | .fsqrt .., _ => .execFsqrt
  | .fmin .., _ => .execFmin
  | .fmax .., _ => .execFmax
  | .feq .., _ => .execFeq
  | .flt .., _ => .execFlt
  | .fle .., _ => .execFle
  | .fcvtsl .., _ => .execFcvtsl
  | .fcvtls .., _ => .execFcvtls
  | .fabs .., _ => .execFabs
  | .fneg .., _ => .execFneg
  | .dadd .., _ => .execDadd
  | .dsub .., _ => .execDsub
  | .dmul .., _ => .execDmul
  | .dfma .., _ => .execDfma
  | .ddiv .., _ => .execDdiv
  | .dsqrt .., _ => .execDsqrt
  | .dmin .., _ => .execDmin
  | .dmax .., _ => .execDmax
  | .deq .., _ => .execDeq
  | .dlt .., _ => .execDlt
  | .dle .., _ => .execDle
  | .dcvtdl .., _ => .execDcvtdl
  | .dcvtld .., _ => .execDcvtld
  | .dcvtds .., _ => .execDcvtds
  | .dcvtsd .., _ => .execDcvtsd
  | .b64Grant .., _ => .execB64Grant
  | .steer .., _ => .execSteer
  | .gate .., _ => .execGate
  | .merge .., _ => .execMerge
  | .fan .., _ => .execFan
  | .sink .., _ => .execSink
  | .ctxNew .., _ => .execCtxNew
  | .ctxFree .., _ => .execCtxFree
  | .ctxGet .., _ => .execCtxGet
  | .iterGet .., _ => .execIterGet
  | .iterNext .., _ => .execIterNext
  | .iterReset .., _ => .execIterReset
  | .iterDone .., _ => .execIterDone
  | .tagsend .., _ => .execTagsend
  | .mktag .., _ => .execMktag
  | .gld .., _ => .execGld
  | .gldt .., _ => .execGldt
  | .gpres .., _ => .execGpres
  | .gst .., _ => .execGst
  | .gstr .., _ => .execGstr
  | .gclr .., _ => .execGclr
  | .send .., _ => .execSend
  | .blk .., _ => .execBlk
  | .fence .., _ => .execFence
  | .customerNode .., _ => .execCustomerNode
  | .opr .., _ => .execOpr
  | .cmp .., _ => .execCmp
  | .addi .., _ => .execAddi
  | .andi .., _ => .execAndi
  | .ori .., _ => .execOri
  | .xori .., _ => .execXori
  | .shi .., _ => .execShi
  | .movw .., _ => .execMovw
  | .cmpi .., _ => .execCmpi
  | .bc .., _ => .execBc
  | .jmp .., _ => .execJmp
  | .call .., _ => .execCall
  | .jr .., _ => .execJr
  | .callr .., _ => .execCallr
  | .ret .., _ => .execRet
  | .ld .., _ => .execLd
  | .lds .., _ => .execLds
  | .st .., _ => .execSt
  | .ladd .., _ => .execLadd
  | .lfadd .., _ => .execLfadd
  | .lr .., _ => .execLr
  | .sc .., _ => .execSc
  | .tas .., _ => .execTas
  | .gmemTake .., _ => .execGmemTake
  | .gmemQuery .., _ => .execGmemQuery
  | .gmemStore .., _ => .execGmemStore
  | .gmemClear .., _ => .execGmemClear
  | .rep .., _ => .execRep
  | .await .., _ => .execAwait
  | .strandSend .., _ => .execStrandSend
  | .bsend .., _ => .execBsend
  | .shf .., _ => .execShf
  | .strandFence .., _ => .execStrandFence
  | .syncI .., _ => .execSyncI
  | .mff .., _ => .execMff
  | .mtf .., _ => .execMtf
  | .mfc .., _ => .execMfc
  | .mtc .., _ => .execMtc
  | .trap .., _ => .execTrap
  | .yield .., _ => .execYield
  | .exit .., _ => .execExit
  | .ctxn .., _ => .execCtxn
  | .ctxf .., _ => .execCtxf
  | .customerInstr .., _ => .execCustomerInstr
  | .storeDrain .., _ => .execStoreDrain
  | .oper .., _ => .execOper
  | .lit .., _ => .execLit
  | .microJmp .., _ => .execMicroJmp
  | .microCall .., _ => .execMicroCall
  | .microRet .., _ => .execMicroRet
  | .microFma .., _ => .execMicroFma
  | .microMul .., _ => .execMicroMul
  | .microDiv .., _ => .execMicroDiv
  | .ldf .., _ => .execLdf
  | .stf .., _ => .execStf
  | .poll .., _ => .execPoll
  | .microEnd .., _ => .execMicroEnd
  | .routineResume .., _ => .execRoutineResume
  | .ucodeWindowRead .., _ => .execUcodeWindowRead
  | .depositModeEnter .., _ => .execDepositModeEnter
  | .depositMove .., _ => .execDepositMove
  | .reinject .., _ => .execReinject
  | .windowEntryFree .., _ => .execWindowEntryFree
  | .plotQuiescent .., _ => .execPlotQuiescent
  | .deviceQuiescent, _ => .execDeviceQuiescent
  | .auditPass, _ => .execAuditPass
  | .prunerExhausted .., _ => .execPrunerExhausted
  | .routerFlit .., _ => .execRouterFlit
  | .queueTransfer .., _ => .execQueueTransfer
  | .queueFlush .., _ => .execQueueFlush
  | .queueReset .., _ => .execQueueReset
  | .meshLinkselWrite .., _ => .execMeshLinkselWrite
  | .grnRead .., _ => .execGrnRead
  | .grnTake .., _ => .execGrnTake
  | .pres .., _ => .execPres
  | .grnTas .., _ => .execGrnTas
  | .peek .., _ => .execPeek
  | .keep .., _ => .execKeep
  | .fill .., _ => .execFill
  | .clear .., _ => .execClear
  | .sheafReq .., _ => .execSheafReq
  | .blkRead .., _ => .execBlkRead
  | .deferredReplayPass .., _ => .execDeferredReplayPass
  | .grnEccWriteback .., _ => .execGrnEccWriteback
  | .presencePortGo .., _ => .execPresencePortGo
  | .bankRequest .., _ => .execBankRequest
  | .bankWakeComplete .., _ => .execBankWakeComplete
  | .bankSleep .., _ => .execBankSleep
  | .noticeRun .., _ => .execNoticeRun
  | .loaded .., _ => .execLoaded
  | .recalled .., _ => .execRecalled
  | .leave .., _ => .execLeave
  | .accessDone .., _ => .execAccessDone
  | .halt .., _ => .execHalt
  | .wake, _ => .execWake
  | .cancel, _ => .execCancel
  | .resume, _ => .execResume
  | .dibInit, _ => .execDibInit
  | .release, _ => .execRelease
  | .setpri, _ => .execSetpri
  | .setaff, _ => .execSetaff
  | .migrate, _ => .execMigrate
  | .migrateCopyDone, _ => .execMigrateCopyDone
  | .query, _ => .execQuery
  | .findfree, _ => .execFindfree
  | .raise, _ => .execRaise
  | .inheritanceUpdate, _ => .execInheritanceUpdate
  | .selectDispatch .., _ => .execSelectDispatch
  | .dispatch .., _ => .execDispatch
  | .switchStart .., _ => .execSwitchStart
  | .quantumExpiry .., _ => .execQuantumExpiry
  | .deadlineExpiry, _ => .execDeadlineExpiry
  | .eventServe, _ => .execEventServe
  | .dibCmdGo .., _ => .execDibCmdGo
  | .dibSwevWrite .., _ => .execDibSwevWrite
  | .evpendClear .., _ => .execEvpendClear
  | .outHigh, _ => .execOutHigh
  | .outLow, _ => .execOutLow
  | .outFlush, _ => .execOutFlush
  | .tmrAt, _ => .execTmrAt
  | .tmrEvery, _ => .execTmrEvery
  | .tmrStop, _ => .execTmrStop
  | .time, _ => .execTime
  | .stamp, _ => .execStamp
  | .timerExpiry .., _ => .execTimerExpiry
  | .scheduleApply .., _ => .execScheduleApply
  | .evinEdge .., _ => .execEvinEdge
  | .evinCfgWrite .., _ => .execEvinCfgWrite
  | .ppsEdge, _ => .execPpsEdge
  | .ppsLoss, _ => .execPpsLoss
  | .acquire, _ => .execAcquire
  | .lockTry, _ => .execLockTry
  | .lockWait, _ => .execLockWait
  | .lockRelease, _ => .execLockRelease
  | .withdraw, _ => .execWithdraw
  | .force .., _ => .execForce
  | .lckCmdGo .., _ => .execLckCmdGo
  | .resetNotice, _ => .execResetNotice
  | .inhDisable .., _ => .execInhDisable
  | .linkDetect .., _ => .execLinkDetect
  | .linkTrainStep .., _ => .execLinkTrainStep
  | .linkStateTimeout .., _ => .execLinkStateTimeout
  | .linkDownRestart .., _ => .execLinkDownRestart
  | .linkRetrain .., _ => .execLinkRetrain
  | .runCtlWrite .., _ => .execRunCtlWrite
  | .frameSlot .., _ => .execFrameSlot
  | .idleFrame .., _ => .execIdleFrame
  | .flitFrame .., _ => .execFlitFrame
  | .nak .., _ => .execNak
  | .badFrame .., _ => .execBadFrame
  | .replayTimeout .., _ => .execReplayTimeout
  | .tsync .., _ => .execTsync
  | .tsyncExchange, _ => .execTsyncExchange
  | .probe .., _ => .execProbe
  | .rd .., _ => .execRd
  | .wr .., _ => .execWr
  | .img .., _ => .execImg
  | .mgmtForward .., _ => .execMgmtForward
  | .notice .., _ => .execNotice
  | .runRtWrite .., _ => .execRunRtWrite
  | .linkEyeCheck .., _ => .execLinkEyeCheck
  | .pdreqLinkWrite .., _ => .execPdreqLinkWrite
  | .clkPlotReqWrite .., _ => .execClkPlotReqWrite
  | .dvfsStep .., _ => .execDvfsStep
  | .ldoSettled .., _ => .execLdoSettled
  | .ppllUnlock .., _ => .execPpllUnlock
  | .ppllRelock .., _ => .execPpllRelock
  | .ceilingEval .., _ => .execCeilingEval
  | .thermalSample .., _ => .execThermalSample
  | .vinLowChange .., _ => .execVinLowChange
  | .powerDetectorFault .., _ => .execPowerDetectorFault
  | .calEval .., _ => .execCalEval
  | .scrubTick .., _ => .execScrubTick
  | .scrubBurst .., _ => .execScrubBurst
  | .borrowStart .., _ => .execBorrowStart
  | .borrowComplete .., _ => .execBorrowComplete
  | .borrowAbort .., _ => .execBorrowAbort
  | .epochAdvance .., _ => .execEpochAdvance
  | .epochSwitch .., _ => .execEpochSwitch
  | .epochRetire, _ => .execEpochRetire
  | .epochTimeout .., _ => .execEpochTimeout
  | .faultDetect .., _ => .execFaultDetect
  | .recordArrival, _ => .execRecordArrival
  | .recordClose .., _ => .execRecordClose
  | .reactionStart, _ => .execReactionStart
  | .engineRetire, _ => .execEngineRetire
  | .plotResetReaction, _ => .execPlotResetReaction
  | .plotQuarantine, _ => .execPlotQuarantine
  | .deviceSafe, _ => .execDeviceSafe
  | .reactionComplete, _ => .execReactionComplete
  | .sieveHistPop .., _ => .execSieveHistPop
  | .swSafe .., _ => .execSwSafe
  | .votePass .., _ => .execVotePass
  | .fifoPtr .., _ => .execFifoPtr
  | .mcWdog, _ => .execMcWdog
  | .smbAddr .., _ => .execSmbAddr
  | .smbRead, _ => .execSmbRead
  | .smbStatus, _ => .execSmbStatus
  | .tapReset, _ => .execTapReset
  | .extest .., _ => .execExtest
  | .samplePreload .., _ => .execSamplePreload
  | .idcode, _ => .execIdcode
  | .highz, _ => .execHighz
  | .clamp, _ => .execClamp
  | .extestPulse .., _ => .execExtestPulse
  | .extestTrain .., _ => .execExtestTrain
  | .bypass, _ => .execBypass
  | .hostLinkUp .., _ => .execHostLinkUp
  | .d3hotEntry, _ => .execD3hotEntry
  | .pdLinkPowerOn .., _ => .execPdLinkPowerOn
  | .evinGlitch .., _ => .execEvinGlitch

/-- A register access completes, or its address is one that R22 does not map. -/
theorem access_answers_or_stops {req addr n wr} :
    Answers s (access req addr n wr s) ∨ access req addr n wr s = .fault (.unmappedAddress addr) := by
  unfold access
  dsimp only
  split
  · exact .inl (.next fun h => .servePlot h)
  · split
    · exact .inl (.next id)
    · split
      · exact .inl (.next fun h => .ite (.serveAccess h) h)
      · split
        · exact .inl (.next fun h => .countUr h)
        · split
          · exact .inl (.next fun h => .ite (.rsvd (.countUr h)) h)
          · split
            · split
              · exact .inl (.next fun h => .serveAccess h)
              · split
                · exact .inl (.next fun h => .serveAccess h)
                · exact .inr rfl
            · exact .inl (.next fun h => .ite (.testAccess h) (.serveAccess h))
            · exact .inl (.ite (.next id) (.ite (.next fun h => .serveAccess h) (.next fun h => .wantWords h)))
            · exact .inl (.next fun h => .serveAccess h)

/-- Every command completes, or is a register access whose address R22 does not map. -/
theorem exec_answers_or_stops (c : Instr) :
    Answers s (exec c s) ∨ ∃ addr, exec c s = .fault (.unmappedAddress addr) := by
  cases hc : isAccess c with
  | false => exact .inl (.exec c hc)
  | true =>
    unfold isAccess at hc
    split at hc
    · exact access_answers_or_stops.imp_right fun h => ⟨_, h⟩
    · exact access_answers_or_stops.imp_right fun h => ⟨_, h⟩
    · cases hc

/-- Settles O3: every command keeps the stores, command by command, and so does a cycle. -/
theorem storesStayCanonical : Obligations.StoresStayCanonical := by
  intro s t h hstep
  unfold step at hstep
  split at hstep
  · exact Host.Outcome.next.inj hstep ▸ .tick h
  · next c cs _ =>
    obtain ⟨u, hu, hstored⟩ | ⟨_, hfault⟩ := exec_answers_or_stops (s := { s with pending := cs }) c
    · obtain rfl := Host.Outcome.next.inj (hu.symm.trans hstep)
      exact hstored h
    · cases hfault.symm.trans hstep

/-! ## Where the MC's accesses stop -/

section

variable {addr : BitVec 40} {n : Nat} {wr : Option Word} (hon : s.opState ≠ .off) (hpos : 0 < n) (hmax : n ≤ 8)
include hon hpos hmax

/-- The MC's access to an address that R22 does not map (R470). -/
theorem access_mc_unmapped (ha : place addr.toNat = .unmapped) :
    access .mc addr n wr s = .fault (.unmappedAddress addr) := by
  have hn : n ≠ 0 := by omega
  have hn8 : ¬ 8 < n := by omega
  simp [access, ha, hon, hn, hn8]

/-- The MC's access to the TEST block in test mode (assumption log 146). -/
theorem access_mc_test (ha : place addr.toNat = .test) (htest : s.testMode = true) :
    access .mc addr n wr s = .next (testAccess .mc wr s) := by
  have hn : n ≠ 0 := by omega
  have hn8 : ¬ 8 < n := by omega
  simp [access, ha, hon, hn, hn8, htest]

end

theorem testAccess_write (v : Word) : testAccess .mc (some v) s =
    { s with pathAt := (testAccess .mc (some v) s).pathAt } := rfl

theorem testAccess_read : testAccess .mc none s =
    { s with pathAt := (testAccess .mc none s).pathAt, rdata := (testAccess .mc none s).rdata, free := s.free + 1 } :=
      rfl

theorem rdata_testAccess_read : SMap.get (testAccess .mc none s).rdata (reqKey .mc) 0 = Config.freeValue s.free :=
  SMap.get_set_same ..

/-- Settles O16: an access by the MC stops where R22 maps nothing, and nothing else does. -/
theorem whereCommandsStop : Obligations.WhereCommandsStop := by
  refine ⟨fun s addr n v wr hon hpos hmax => ⟨fun ha => ?_, fun ha htest => ?_⟩, fun c s => ⟨?_, ?_, ?_⟩⟩
  · exact ⟨access_mc_unmapped hon hpos hmax ha, access_mc_unmapped hon hpos hmax ha⟩
  · exact ⟨⟨_, access_mc_test hon hpos hmax ha htest, testAccess_write v⟩,
      ⟨_, access_mc_test hon hpos hmax ha htest, rdata_testAccess_read, testAccess_read⟩⟩
  · split
    · trivial
    · trivial
    · next hwrite hpath =>
      have hc : isAccess c = false := by
        unfold isAccess
        split
        · exact (hwrite _ _ _ _ rfl).elim
        · exact (hpath _ _ _ _ rfl).elim
        · rfl
      obtain ⟨t, ht, -⟩ := Answers.exec (s := s) c hc
      exact ⟨t, ht⟩
  · intro r hr
    obtain ⟨t, ht, -⟩ | ⟨_, hfault⟩ := exec_answers_or_stops (s := s) c
    · cases ht.symm.trans hr
    · cases hfault.symm.trans hr
  · intro f hf
    obtain ⟨t, ht, -⟩ | ⟨addr, hfault⟩ := exec_answers_or_stops (s := s) c
    · cases ht.symm.trans hf
    · exact ⟨addr, Host.Outcome.fault.inj (hf.symm.trans hfault)⟩

end Sys2Proof.Machine
end

section
/-! PROOFS. EVIO's reply and the device's quiescence: O49 fails. -/

namespace Sys2Proof.Machine

/-- A TIME token whose reply is an OPERAND for an engine of the own device (R315, R327). -/
def timeToken : Flit := mkToken kBlock 3 false 0 0x0000400000000000 0x4000000000000000

/-- The first state with MESH_PRN_QUIET.DQUIET set and a TIME token at the head of EVIO's intake. -/
def quietTime : State :=
  { State.reset.setFlag (breg .mesh 0x4008) 16 true with evio := { State.reset.evio with intake := [timeToken] } }

theorem quietTime_head : EvioHead quietTime 0x10 timeToken [] := ⟨rfl, by decide +kernel, rfl⟩

theorem quietTime_takes : QueueTakes quietTime (qkey siteEvio true chCtl) (qcap siteEvio chCtl) 1 :=
  ⟨by decide +kernel, rfl, rfl⟩

theorem quietTime_quiet : quietTime.flag (breg .mesh 0x4008) 16 = true :=
  State.flag_setFlag_same State.reset (breg .mesh 0x4008) 16 true (by decide)

/-- The reply of TIME enters a queue of the mesh, so the device is no longer quiescent. -/
theorem time_quietTime_stirs : (match exec .time quietTime with
    | .next t => t.flag (breg .mesh 0x4008) 16
    | _ => true) = false := by decide +kernel

/-- Refutes O49: the reply of TIME that joins EVIO's queue clears MESH_PRN_QUIET.DQUIET, so the registers do not stay as
they were, as the clause of TIME and STAMP would have it. -/
theorem not_evioFunctions : ¬ Obligations.EvioFunctions := by
  intro h
  obtain ⟨-, -, -, -, -, hreply, -⟩ := h quietTime timeToken []
  obtain ⟨t, ht, -, -, hframe⟩ := hreply (.time, 0x10, quietTime.evio.intakeAt) List.mem_cons_self quietTime_head
    (by decide +kernel) quietTime_takes
  have hregs := congrArg State.regs hframe
  have hkept : t.flag (breg .mesh 0x4008) 16 = quietTime.flag (breg .mesh 0x4008) 16 := by
    simp only [State.flag, State.rd]
    rw [hregs]
  have hstirred := time_quietTime_stirs
  rw [show exec .time quietTime = .next t from ht] at hstirred
  exact absurd (hstirred.symm.trans (hkept.trans quietTime_quiet)) (by decide)

end Sys2Proof.Machine
end

section
/-! SUPPORT. Events, LOCKED and PPS_OK, and the filters of the inputs: what a change of one leaves as it was (R324, R380,
R382, R479). -/

namespace Sys2Proof.Machine

/-! ## Events -/

theorem raiseEventAt_frame (n : Nat) (at_ : BitVec 64) (s : State) :
    raiseEventAt n at_ s = { s with dib := { s.dib with events := (raiseEventAt n at_ s).dib.events } } := by
  unfold raiseEventAt
  dsimp only
  split <;> rfl

/-- A raise changes its own event source (R324). -/
theorem eventRaised_raiseEventAt (n : Nat) (at_ : BitVec 64) (s : State) : EventRaised n at_ s (raiseEventAt n at_ s) := by
  unfold EventRaised eventAfter raiseEventAt
  cases hr : (routeOf s n).str || (routeOf s n).msi with
  | true =>
    refine ⟨?_, fun k hk => ?_⟩
    · simp only [hr, Bool.not_true, Bool.false_eq_true, if_false, if_true]
      exact SMap.get_set_same ..
    · simp only [hr, Bool.not_true, Bool.false_eq_true, if_false]
      exact SMap.get_set_ne _ hk ..
  | false => simp [hr]

/-- A route is a register of the Dibber, read under a profile. -/
theorem routeOf_congr {s u : State} (hr : u.regs = s.regs) (hp : u.profile = s.profile) (n : Nat) :
    routeOf u n = routeOf s n := by
  unfold routeOf State.rd
  rw [hr, hp]

/-- A raise depends on the registers and the events alone (R324). -/
theorem EventRaised.of_same {n : Nat} {at_ : BitVec 64} {s u t : State} (h : EventRaised n at_ u t) (hr : u.regs = s.regs)
    (hp : u.profile = s.profile) (hd : u.dib = s.dib) : EventRaised n at_ s t := by
  simpa only [EventRaised, eventAfter, routeOf_congr hr hp, hd] using h

/-- The state without its registers and its pending events. -/
def blankStatus (s : State) : State := { s with regs := [], dib := { s.dib with events := [] } }

theorem wr_status {F : Nat → Prop} (s : State) {a : Nat} (ha : F a) (v : Reg32) : Frame blankStatus F s (s.wr a v) :=
  .wr (fun _ _ => rfl) s ha v

theorem raiseEvent_status (n : Nat) (F : Nat → Prop) (s : State) : Frame blankStatus F s (raiseEvent n s) :=
  (raiseEvent_frame n F s).mono fun _ h => h

/-! ## LOCKED and PPS_OK (R380, R382) -/

/-- RUN_TSSTAT alone. -/
abbrev isTsstat (a : Nat) : Prop := a = breg .run 0x24

theorem setLocked_status (b : Bool) (s : State) : Frame blankStatus isTsstat s (setLocked b s) :=
  .ite (.refl ..) ((wr_status (F := isTsstat) s rfl _).trans (raiseEvent_status ..))

/-- The step of PPS_OK, which LOCKED may follow. -/
def markPpsOk (b : Bool) (s : State) : State :=
  if s.flag (breg .run 0x24) 30 = b then s else raiseEvent 1941 (s.setFlag (breg .run 0x24) 30 b)

theorem setPpsOk_eq (b : Bool) (s : State) :
    setPpsOk b s = if timeSource (markPpsOk b s) = 1 then setLocked b (markPpsOk b s) else markPpsOk b s := rfl

theorem markPpsOk_status (b : Bool) (s : State) : Frame blankStatus isTsstat s (markPpsOk b s) :=
  .ite (.refl ..) ((wr_status (F := isTsstat) s rfl _).trans (raiseEvent_status ..))

theorem setPpsOk_status (b : Bool) (s : State) : Frame blankStatus isTsstat s (setPpsOk b s) :=
  (markPpsOk_status b s).trans (.ite (setLocked_status ..) (.refl ..))

@[simp] theorem rd_raiseEvent (n : Nat) (s : State) (a : Nat) : (raiseEvent n s).rd a = s.rd a :=
  (raiseEvent_status n (fun _ => False) s).regs a id

@[simp] theorem flag_setLocked (b : Bool) (s : State) : (setLocked b s).flag (breg .run 0x24) 31 = b := by
  unfold setLocked
  split
  · assumption
  · rw [State.flag_congr (rd_raiseEvent ..), State.flag_setFlag_same _ _ _ _ (by decide)]

/-- LOCKED is one bit of RUN_TSSTAT. -/
theorem flag_setLocked_ne {i : Nat} (hi : i ≠ 31) (b : Bool) (s : State) :
    (setLocked b s).flag (breg .run 0x24) i = s.flag (breg .run 0x24) i := by
  unfold setLocked
  split
  · rfl
  · rw [State.flag_congr (rd_raiseEvent ..), State.flag_setFlag_ne _ _ _ hi]

theorem fld_setLocked_low {len : Nat} (h : len ≤ 31) (b : Bool) (s : State) :
    (setLocked b s).fld (breg .run 0x24) 0 len = s.fld (breg .run 0x24) 0 len := by
  unfold setLocked
  split
  · rfl
  · rw [State.fld_congr (rd_raiseEvent ..), State.fld_setFlag_out _ _ _ _ _ _ (by omega)]

theorem flag_markPpsOk (b : Bool) (s : State) : (markPpsOk b s).flag (breg .run 0x24) 30 = b := by
  unfold markPpsOk
  split
  · assumption
  · rw [State.flag_congr (rd_raiseEvent ..), State.flag_setFlag_same _ _ _ _ (by decide)]

theorem flag_setPpsOk (b : Bool) (s : State) : (setPpsOk b s).flag (breg .run 0x24) 30 = b := by
  rw [setPpsOk_eq]
  split
  · rw [flag_setLocked_ne (by decide), flag_markPpsOk]
  · exact flag_markPpsOk ..

/-- The time source is no part of RUN_TSSTAT. -/
theorem timeSource_congr {s t : State} (h : t.rd (breg .run 0x20) = s.rd (breg .run 0x20)) : timeSource t = timeSource s :=
  State.fld_congr h ..

/-- With PPS_IN as the time source LOCKED follows PPS_OK (R382). -/
theorem locked_setPpsOk {b : Bool} {s : State} (h : timeSource s = 1) : (setPpsOk b s).flag (breg .run 0x24) 31 = b := by
  have hsrc : timeSource (markPpsOk b s) = 1 :=
    (timeSource_congr ((markPpsOk_status b s).regs _ (by simp [breg]))).trans h
  rw [setPpsOk_eq, if_pos hsrc, flag_setLocked]

/-! ## Filters (R479, R480) -/

theorem filterOf_setFilter (n m : Nat) (x : Filter) (s : State) :
    filterOf (setFilter n x s) m = if m = n then x else filterOf s m := by
  unfold filterOf setFilter
  by_cases hn : n = 64
  · by_cases hm : m = 64
    · simp [hn, hm]
    · simp [hn, hm]
  · by_cases hm : m = 64
    · simp [hn, hm, Ne.symm hn]
    · by_cases hmn : m = n
      · simp [hn, hmn]
      · simp [hn, hm, hmn]

theorem filterOf_setFilter_same (n : Nat) (x : Filter) (s : State) : filterOf (setFilter n x s) n = x := by
  simp [filterOf_setFilter]

theorem filterOf_setFilter_ne {n m : Nat} (h : m ≠ n) (x : Filter) (s : State) :
    filterOf (setFilter n x s) m = filterOf s m := by
  simp [filterOf_setFilter, h]

/-- A filter is part of EVIO alone. -/
theorem filterOf_congr {s t : State} (h : t.evio = s.evio) (n : Nat) : filterOf t n = filterOf s n := by
  simp only [filterOf, h]

/-- A filter of an input that is no PPS_IN. -/
theorem setFilter_input {n : Nat} (h : n < 64) (x : Filter) (s : State) :
    setFilter n x s = { s with evio := { s.evio with inputs := SMap.set s.evio.inputs n x Filter.reset } } :=
  if_neg (by omega)

@[simp] theorem setFilter_regs (n : Nat) (x : Filter) (s : State) : (setFilter n x s).regs = s.regs := by
  unfold setFilter; split <;> rfl
@[simp] theorem setFilter_profile (n : Nat) (x : Filter) (s : State) : (setFilter n x s).profile = s.profile := by
  unfold setFilter; split <;> rfl
@[simp] theorem setFilter_dib (n : Nat) (x : Filter) (s : State) : (setFilter n x s).dib = s.dib := by
  unfold setFilter; split <;> rfl
@[simp] theorem setFilter_time (n : Nat) (x : Filter) (s : State) : (setFilter n x s).time = s.time := by
  unfold setFilter; split <;> rfl
@[simp] theorem rd_setFilter (n : Nat) (x : Filter) (s : State) (a : Nat) : (setFilter n x s).rd a = s.rd a := by
  simp [State.rd]

end Sys2Proof.Machine
end

section
/-! PROOFS. The time base, the inputs and the exchange with the parent: O50. -/

namespace Sys2Proof.Machine

/-! ## The time base (R26, R379) -/

theorem clampRate_eq (r : Int) : clampRate r = max (-200000) (min 200000 r) := by
  unfold clampRate
  split
  · omega
  · split <;> omega

/-- With no command waiting a powered device takes a cycle (R26). -/
theorem step_of_idle {s : State} (hp : s.pending = []) (hon : s.opState ≠ .off) :
    step s = .next { s with time := nextTime s } := by
  simp [step, hp, tick, hon]

theorem nextTime_stopped {s : State} (h : s.time.started = false) : nextTime s = s.time := by simp [nextTime, h]

theorem nextTime_unlocked {s : State} (h : s.time.started = true) (hl : s.flag (breg .clk 0) 1 = false) :
    nextTime s = { s.time with now := s.time.now + 10 } := by simp [nextTime, h, hl]

/-- With PLL_M locked the accumulator carries whole nanoseconds into the time base (R379). -/
theorem nextTime_locked {s : State} (h : s.time.started = true) (hl : s.flag (breg .clk 0) 1 = true) :
    ∃ k : Int, (nextTime s).now = s.time.now + BitVec.ofInt 64 k ∧
      1000000000 * k + (nextTime s).frac =
        s.time.frac + 1000000000 + max (-200000) (min 200000 (s.rd (breg .run 0x30)).toInt) ∧
      (nextTime s).frac < 1000000000 := by
  have hn : nextTime s = { s.time with
      now := s.time.now + BitVec.ofInt 64 (((s.time.frac : Int) + 1000000000 + tbRate s) / 1000000000)
      frac := (((s.time.frac : Int) + 1000000000 + tbRate s) % 1000000000).toNat } := by
    simp [nextTime, h, hl]
  rw [hn, ← clampRate_eq]
  change ∃ k : Int, _ ∧ _ = (s.time.frac : Int) + 1000000000 + tbRate s ∧ _
  generalize (s.time.frac : Int) + 1000000000 + tbRate s = f
  exact ⟨f / 1000000000, rfl, by simp only; omega, by simp only; omega⟩

/-! ## Inputs (R479, R480) -/

/-- The count of an input restarts at the next sample; its level and its stamp stay. -/
theorem filterOf_recount (n m : Nat) (s : State) :
    filterOf (recount n s) m = if m = n then { filterOf s n with since := nextSample s } else filterOf s m :=
  filterOf_setFilter ..

/-- An input whose level flips after F samples, and whose edge EDGE selects or not. -/
theorem execEvinEdge_of_counted {s : State} {n : Fin 64} (h : counted s n.val = true) :
    execEvinEdge n s =
      let hit := s.flag (breg .evio (0x100 + 4 * n.val)) (if (filterOf s n.val).level = true then 9 else 8)
      let c := changed s n.val hit
      .next (if hit then raiseEventAt (1344 + n.val) c.2 (setFilter n.val c.1 s) else setFilter n.val c.1 s) := by
  have hlevel : (if (!(filterOf s n.val).level) = true then 8 else 9) = (if (filterOf s n.val).level = true then 9 else 8) := by
    cases (filterOf s n.val).level <;> rfl
  simp only [execEvinEdge, h, hlevel, Bool.not_true, Bool.false_eq_true, if_false]

/-- An edge of an input: the filtered level flips, and an edge that EDGE selects raises the input's event with the time
of its first sample (R479). -/
theorem evinEdge_flips {s : State} {n : Fin 64} (h : counted s n.val = true) :
    let x := filterOf s n.val
    let hit := s.flag (breg .evio (0x100 + 4 * n.val)) (if x.level = true then 9 else 8)
    let first := sampleBack s (filtOf s n.val - 1)
    ∃ t, exec (.evinEdge n) s = .next t ∧
      filterOf t n.val = { level := !x.level, since := nextSample s, stamp := if hit = true then first else x.stamp } ∧
      (∀ m, m ≠ n.val → filterOf t m = filterOf s m) ∧
      (hit = true → EventRaised (1344 + n.val) first s t) ∧ (hit = false → t.dib = s.dib) ∧
      t = { s with evio := { s.evio with inputs := t.evio.inputs }, dib := { s.dib with events := t.dib.events } } := by
  intro x hit first
  have hset := setFilter_input n.isLt (changed s n.val hit).1 s
  have hn := filterOf_setFilter_same n.val (changed s n.val hit).1 s
  have hne {m : Nat} (hm : m ≠ n.val) := filterOf_setFilter_ne hm (changed s n.val hit).1 s
  have hexec : execEvinEdge n s = .next (if hit then raiseEventAt (1344 + n.val) first (setFilter n.val (changed s n.val hit).1 s)
      else setFilter n.val (changed s n.val hit).1 s) := execEvinEdge_of_counted h
  cases hhit : hit with
  | true =>
    rw [hhit] at hexec hset hn hne
    have hev := raiseEventAt_frame (1344 + n.val) first (setFilter n.val (changed s n.val true).1 s)
    refine ⟨_, hexec, (filterOf_congr (congrArg State.evio hev) _).trans hn,
      fun m hm => (filterOf_congr (congrArg State.evio hev) m).trans (hne hm),
      fun _ => (eventRaised_raiseEventAt ..).of_same (setFilter_regs ..) (setFilter_profile ..) (setFilter_dib ..), nofun, ?_⟩
    change raiseEventAt _ _ _ = _
    rw [hev, hset]
    rfl
  | false =>
    rw [hhit] at hexec hset hn hne
    refine ⟨_, hexec, hn, fun m hm => hne hm, nofun, fun _ => setFilter_dib .., ?_⟩
    change setFilter _ _ _ = _
    rw [hset]
    rfl

/-- A glitch while the lands are sampled: the count restarts and GLITCH counts (R479). -/
theorem evinGlitch_recounts {s : State} (n : Fin 65) (h : sampling s = true) :
    let a := if n.val = 64 then breg .evio 0x20 else breg .evio (0x100 + 4 * n.val)
    ∃ t, exec (.evinGlitch n) s = .next t ∧ filterOf t n.val = { filterOf s n.val with since := nextSample s } ∧
      (∀ m, m ≠ n.val → filterOf t m = filterOf s m) ∧ RegsBut [a] s t ∧
      t.fld a 16 16 = min 65535 (s.fld a 16 16 + 1) ∧ t.fld a 0 16 = s.fld a 0 16 ∧ t.dib = s.dib := by
  intro a
  have hexec : execEvinGlitch n s = .next ((recount n.val s).satInc a 16 16) := by
    simp only [execEvinGlitch, h, if_true, a, apply_ite (breg .evio)]
  have hfld (lo len : Nat) : (recount n.val s).fld a lo len = s.fld a lo len := State.fld_congr (rd_setFilter ..) ..
  refine ⟨_, hexec, ?_, fun m hm => ?_, fun b hb => ?_, ?_, ?_, ?_⟩
  · exact (filterOf_recount n.val n.val s).trans (if_pos rfl)
  · exact (filterOf_recount n.val m s).trans (if_neg hm)
  · exact (State.rd_satInc_ne _ (by simpa using hb) ..).trans (rd_setFilter ..)
  · exact (State.fld_satInc_same _ _ _ _ (by decide)).trans (congrArg (fun k => min 65535 (k + 1)) (hfld ..))
  · exact (State.fld_setFld_disjoint _ _ _ _ _ _ _ (by decide)).trans (hfld ..)
  · exact setFilter_dib ..

/-- The fields of EVIO_IN_n_CFG. -/
def evinCfgFields : List RField :=
  [⟨"GLITCH", 31, 16, .ro, 0x0, .any⟩, ⟨"EDGE", 9, 8, .rw, 0x0, .any⟩, ⟨"FILT", 7, 0, .rw, 0x10, .not 0⟩]

/-- EVIO_IN_n_CFG stands in every profile. -/
theorem findRow_evinCfg (q : Profile) (n : Fin 64) :
    ∃ r i, findRow q .evio (0x100 + 4 * n.val) = some (r, i) ∧ r.fields = evinCfgFields := by
  have hfound : ∀ n : Fin 64, (findRow q .evio (0x100 + 4 * n.val)).map (·.1.fields) = some evinCfgFields := by
    cases q <;> decide +kernel
  obtain ⟨⟨r, i⟩, hr, hf⟩ := Option.map_eq_some_iff.mp (hfound n)
  exact ⟨r, i, hr, hf⟩

/-- FILT and EDGE take the written bits, GLITCH stays. -/
theorem writeFields_evinCfg (old : Reg32) {v : Reg32} (h : bits v 0 8 ≠ 0) :
    writeFields evinCfgFields old v = (put (put old 8 (bits v 8 2)) 0 (bits v 0 8), false) := by
  have hn : (bits v 0 8).toNat ≠ 0 := fun h0 => h (BitVec.eq_of_toNat_eq h0)
  simp [evinCfgFields, writeFields, writeField, RField.len, Allowed.admits, hn]

theorem plainWrite_evinCfg {a : Nat} {r : RRow} (hr : r.fields = evinCfgFields) {v : Reg32} (h : bits v 0 8 ≠ 0) (s : State) :
    plainWrite a r v s = s.wr a (put (put (s.rd a) 8 (bits v 8 2)) 0 (bits v 0 8)) := by
  simp [plainWrite, hr, writeFields_evinCfg _ h]

/-- A write of EVIO_IN_n_CFG sets EDGE and FILT and restarts the count (R480, R483). -/
theorem evinCfgWrite_recounts {s : State} (n : Fin 64) {req : Requester} {v : Reg32} (hreq : unserved req s = false)
    (hin : outsider req = false) (hon : s.opState ≠ .off) (hv : bits v 0 8 ≠ 0) :
    let a := breg .evio (0x100 + 4 * n.val)
    ∃ t, exec (.evinCfgWrite req n v) s = .next t ∧ RegsBut [a] s t ∧ t.fld a 0 10 = (bits v 0 10).toNat ∧
      t.fld a 16 16 = s.fld a 16 16 ∧ filterOf t n.val = { filterOf s n.val with since := nextSample s } ∧
      (∀ m, m ≠ n.val → filterOf t m = filterOf s m) ∧ t.dib = s.dib := by
  intro a
  obtain ⟨r, i, hrow, hfields⟩ := findRow_evinCfg s.profile n
  have hexec : execEvinCfgWrite req n v s =
      .next (recount n.val (s.wr a (put (put (s.rd a) 8 (bits v 8 2)) 0 (bits v 0 8)))) := by
    simp [execEvinCfgWrite, hreq, hin, hon, hrow, plainWrite_evinCfg hfields hv, a]
  have hne : breg .clk 0 ≠ a := by simp only [a, breg, Blk.base]; omega
  have hsample (w : Reg32) : nextSample (s.wr a w) = nextSample s := by
    have hlocked : pllmLocked (s.wr a w) = pllmLocked s := State.flag_congr (State.rd_wr_ne s hne w) 1
    simp only [nextSample, hlocked, State.wr_time]
  refine ⟨_, hexec, fun b hb => ?_, ?_, ?_, ?_, fun m hm => ?_, ?_⟩
  · exact (rd_setFilter ..).trans (State.rd_wr_ne s (by simpa using hb) _)
  · have hbits : bits (put (put (s.rd a) 8 (bits v 8 2)) 0 (bits v 0 8)) 0 10 = bits v 0 10 := by
      ext i hi
      simp only [← BitVec.getLsbD_eq_getElem, getLsbD_bits, getLsbD_put]
      have h32 : i < 32 := by omega
      obtain h8 | h8 := Nat.lt_or_ge i 8
      · simp [h8, hi, h32]
      · have h2 : i - 8 < 2 := by omega
        have hsum : 8 + (i - 8) = i := by omega
        simp [h8, hi, h32, h2, hsum, Nat.not_lt.mpr h8]
    exact (State.fld_congr (rd_setFilter ..) ..).trans (by rw [State.fld, State.rd_wr_same, hbits])
  · have hbits : bits (put (put (s.rd a) 8 (bits v 8 2)) 0 (bits v 0 8)) 16 16 = bits (s.rd a) 16 16 :=
      (bits_put_disjoint _ _ _ _ _ (by decide)).trans (bits_put_disjoint _ _ _ _ _ (by decide))
    exact (State.fld_congr (rd_setFilter ..) ..).trans (by rw [State.fld, State.rd_wr_same, hbits, State.fld])
  · exact (filterOf_recount ..).trans ((if_pos rfl).trans (by rw [hsample]; rfl))
  · exact (filterOf_recount ..).trans (if_neg hm)
  · exact setFilter_dib ..

/-! ## The PPS input (R380) -/

theorem ppsError_congr {s t : State} (h : t.rd (breg .run 0x34) = s.rd (breg .run 0x34)) (x : BitVec 64) :
    ppsError t x = ppsError s x := by
  simp only [ppsError, State.fld_congr h]

/-- The state with the filter of PPS_IN flipped by an edge of the selected kind (R479). -/
def ppsFlipped (s : State) : State := setFilter 64 (changed s 64 true).1 s

/-- The state with the rate set for the time of the edge's first sample, which is kept (R380). -/
def ppsRated (s : State) : State :=
  let first := sampleBack s (filtOf s 64 - 1)
  let t := setRate (Int.tdiv (-(ppsError (ppsFlipped s) first)) 8) (ppsFlipped s)
  { t with evio := { t.evio with ppsAt := first } }

theorem rd_ppsRated {s : State} {a : Nat} (ha : a ≠ breg .run 0x30) : (ppsRated s).rd a = s.rd a :=
  (State.rd_wr_ne (ppsFlipped s) ha _).trans (rd_setFilter ..)

theorem rate_ppsRated (s : State) : (ppsRated s).rd (breg .run 0x30) =
    BitVec.ofInt 32 (max (-200000) (min 200000 (Int.tdiv (-(ppsError s (sampleBack s (filtOf s 64 - 1)))) 8))) := by
  have herror (x : BitVec 64) : ppsError (ppsFlipped s) x = ppsError s x := ppsError_congr (rd_setFilter ..) x
  rw [← clampRate_eq, ← herror]
  exact State.rd_wr_same ..

theorem execPpsEdge_of_selected {s : State} (h : counted s 64 = true)
    (hkind : s.flag (breg .run 0x34) 1 = s.evio.pps.level) (hen : s.flag (breg .run 0x34) 0 = true) (hsrc : timeSource s = 1) :
    execPpsEdge s = .next (setPpsOk true (ppsRated s)) := by
  have hsrc' : timeSource (setFilter 64 (changed s 64 true).1 s) = 1 := (timeSource_congr (rd_setFilter ..)).trans hsrc
  have hbit0 : bit (s.rd (breg .run 0x34)) 0 = true := hen
  have hhit : ((!(filterOf s 64).level) != bit (s.rd (breg .run 0x34)) 1) = true := by
    rw [show bit (s.rd (breg .run 0x34)) 1 = s.evio.pps.level from hkind, show filterOf s 64 = s.evio.pps from if_pos rfl]
    cases s.evio.pps.level <;> rfl
  simp only [execPpsEdge, h, hhit, hbit0]
  rw [if_neg (by decide), if_neg (by simpa using hsrc')]
  rfl

/-- An edge of PPS_IN of the selected kind sets the rate, takes the time of its first sample and marks PPS_OK (R380). -/
theorem ppsEdge_sets_rate {s : State} (h : counted s 64 = true) (hkind : s.flag (breg .run 0x34) 1 = s.evio.pps.level)
    (hen : s.flag (breg .run 0x34) 0 = true) (hsrc : timeSource s = 1) :
    let x := s.evio.pps
    let first := sampleBack s (filtOf s 64 - 1)
    ∃ t, exec .ppsEdge s = .next t ∧ t.evio.pps = { level := !x.level, since := nextSample s, stamp := first } ∧
      t.evio.ppsAt = first ∧ t.evio.inputs = s.evio.inputs ∧ t.flag (breg .run 0x24) 30 = true ∧
      t.flag (breg .run 0x24) 31 = true ∧
      t.rd (breg .run 0x30) = BitVec.ofInt 32 (max (-200000) (min 200000 (Int.tdiv (-(ppsError s first)) 8))) ∧
      RegsBut [breg .run 0x24, breg .run 0x30] s t ∧ t.time = s.time := by
  intro x first
  have hok := setPpsOk_status true (ppsRated s)
  have hevio : (setPpsOk true (ppsRated s)).evio = (ppsRated s).evio := hok.get (·.evio)
  have hsrc' : timeSource (ppsRated s) = 1 := (timeSource_congr (rd_ppsRated (by simp [breg]))).trans hsrc
  refine ⟨_, execPpsEdge_of_selected h hkind hen hsrc, ?_, ?_, ?_, flag_setPpsOk .., locked_setPpsOk hsrc', ?_,
    fun a ha => ?_, hok.get (·.time)⟩
  · rw [hevio]; rfl
  · rw [hevio]; rfl
  · rw [hevio]; rfl
  · rw [hok.regs _ (by simp [breg]), rate_ppsRated]
  · simp only [List.mem_cons, List.not_mem_nil, or_false, not_or] at ha
    obtain ⟨hstat, hrate⟩ := ha
    exact (hok.regs _ hstat).trans (rd_ppsRated hrate)

/-- 1.5 s with no edge clear PPS_OK (R380). -/
theorem ppsLoss_clears {s : State} (hok : s.flag (breg .run 0x24) 30 = true)
    (hlate : s.evio.ppsAt.toNat + 1500000000 ≤ now s) :
    ∃ t, exec .ppsLoss s = .next t ∧ t.flag (breg .run 0x24) 30 = false ∧
      (timeSource s = 1 → t.flag (breg .run 0x24) 31 = false) ∧ RegsBut [breg .run 0x24] s t ∧ t.evio = s.evio ∧
      t.time = s.time := by
  have hexec : execPpsLoss s = .next (setPpsOk false s) := if_pos ⟨hok, hlate⟩
  have hframe := setPpsOk_status false s
  exact ⟨_, hexec, flag_setPpsOk .., locked_setPpsOk, fun a ha => hframe.regs a (by simpa using ha), hframe.get (·.evio),
    hframe.get (·.time)⟩

end Sys2Proof.Machine
end

section
/-! PROOFS. The exchange with the parent: O50. -/

namespace Sys2Proof.Machine

/-! ## Frames of the exchange (R356, R381) -/

theorem link_setLink_same (n : Nat) (x : Link) (s : State) : link (setLink n x s) n = x := SMap.get_set_same ..

theorem link_setLink_ne {n m : Nat} (h : m ≠ n) (x : Link) (s : State) : link (setLink n x s) m = link s m :=
  SMap.get_set_ne _ h ..

/-- A link is part of the fabric alone. -/
theorem link_congr {s t : State} (h : t.fabric = s.fabric) (n : Nat) : link t n = link s n := by simp only [link, h]

theorem modLink_eq (n : Nat) (g : Link → Link) (s : State) : modLink n g s = setLink n (g (link s n)) s := rfl

/-- A good TSYNC frame on an active link is acknowledged and acts; it has no number (R358, R361). -/
theorem receive_tsync {s : State} {n : LinkNo} {f : BitVec 256} (h : FrameIn s n f 3) (g : State → State) :
    receive n.val f ftTsync g s = g (setLink n.val (frameApplied s n f) s) := by
  obtain ⟨hon, hactive, hgood, htype⟩ := h
  simp [receive, hon, hactive, lsActive, hgood, htype, ftTsync, sequenced, ftFlit, ftMgmt, ftNotice, modLink_eq, frameApplied]

theorem clamp31_eq (v : Int) : clamp31 v = max (-(2 ^ 31 - 1)) (min (2 ^ 31 - 1) v) := by
  unfold clamp31
  split
  · omega
  · split <;> omega

/-! ## The answer of the parent (R381, R382) -/

/-- The time base stepped forward by an offset, or the rate that cancels it set (R382). -/
def followOffset (o : Int) (s : State) : State :=
  if !s.flag (breg .run 0x24) 31 ∧ 1000 ≤ o then
    { s with time := { s.time with now := s.time.now + BitVec.ofInt 64 o } }
  else setRate (Int.tdiv (o * 1000000) (8 * (syncPeriod s : Int))) s

theorem rd_followOffset {a : Nat} (h : a ≠ breg .run 0x30) (o : Int) (s : State) : (followOffset o s).rd a = s.rd a := by
  unfold followOffset
  split
  · rfl
  · exact State.rd_wr_ne _ h _

theorem followOffset_fabric (o : Int) (s : State) : (followOffset o s).fabric = s.fabric := by
  unfold followOffset
  split <;> rfl

/-- Behind by 1,000 ns or more while not LOCKED, the time base steps forward and the rate stays. -/
theorem followOffset_steps {o : Int} {s : State} (hl : s.flag (breg .run 0x24) 31 = false) (ho : 1000 ≤ o) :
    followOffset o s = { s with time := { s.time with now := s.time.now + BitVec.ofInt 64 o } } :=
  if_pos ⟨by simp [hl], ho⟩

theorem followOffset_rates {o : Int} {s : State} (h : s.flag (breg .run 0x24) 31 = true ∨ o < 1000) :
    followOffset o s = setRate (Int.tdiv (o * 1000000) (8 * (syncPeriod s : Int))) s := by
  refine if_neg ?_
  rintro ⟨hl, ho⟩
  obtain h | h := h
  · simp [h] at hl
  · omega

section
variable (plock : Bool) (t2 t3 : BitVec 48) (s : State)

/-- The delay that the child finds from the four times of an exchange (R381). -/
def answerDelay : Int := (diff48 (bits s.time.now 0 48) (bits s.fabric.t1 0 48) - diff48 t3 t2) / 2

/-- The offset that it finds (R381). -/
def answerOffset : Int := diff48 t2 (bits s.fabric.t1 0 48) - answerDelay t2 t3 s

/-- The state with the exchange closed and its offset and delay shown (R381). -/
def answerShown : State :=
  ({ s with fabric := { s.fabric with waiting := false, missed := 0 } }.wr (breg .run 0x28)
    (BitVec.ofInt 32 (clamp31 (answerOffset t2 t3 s)))).wr (breg .run 0x2C) (BitVec.ofInt 32 (answerDelay t2 t3 s))

/-- The state with the offset followed. -/
def answerApplied : State := followOffset (answerOffset t2 t3 s) (answerShown t2 t3 s)

/-- The good answers in a row (R382). -/
def answerGood : Nat :=
  if (answerOffset t2 t3 s).natAbs ≤ (answerApplied t2 t3 s).fld (breg .run 0x20) 0 8 ∧ plock then
    (answerApplied t2 t3 s).fabric.good + 1
  else 0

/-- The state with them counted. -/
def answerCounted : State :=
  { answerApplied t2 t3 s with fabric := { (answerApplied t2 t3 s).fabric with good := answerGood plock t2 t3 s } }

theorem takeAnswer_eq : takeAnswer plock t2 t3 s =
    if 8 ≤ answerGood plock t2 t3 s then setLocked true (answerCounted plock t2 t3 s)
    else if 8 * (answerApplied t2 t3 s).fld (breg .run 0x20) 0 8 < (answerOffset t2 t3 s).natAbs then
      setLocked false (answerCounted plock t2 t3 s)
    else answerCounted plock t2 t3 s := rfl

variable {t2 t3 s} in
/-- The offset and the delay are shown and no other register changes. -/
theorem rd_answerShown {a : Nat} (h28 : a ≠ breg .run 0x28) (h2C : a ≠ breg .run 0x2C) : (answerShown t2 t3 s).rd a = s.rd a :=
  (State.rd_wr_ne _ h2C _).trans (State.rd_wr_ne _ h28 _)

theorem rd_answerShown_offset : (answerShown t2 t3 s).rd (breg .run 0x28) = BitVec.ofInt 32 (clamp31 (answerOffset t2 t3 s)) :=
  (State.rd_wr_ne _ (by simp [breg]) _).trans (State.rd_wr_same ..)

theorem rd_answerShown_delay : (answerShown t2 t3 s).rd (breg .run 0x2C) = BitVec.ofInt 32 (answerDelay t2 t3 s) :=
  State.rd_wr_same ..

variable {t2 t3 s} in
/-- Only the rate may change next. -/
theorem rd_answerApplied {a : Nat} (h : a ≠ breg .run 0x30) : (answerApplied t2 t3 s).rd a = (answerShown t2 t3 s).rd a :=
  rd_followOffset h ..

theorem answerApplied_fabric : (answerApplied t2 t3 s).fabric = { s.fabric with waiting := false, missed := 0 } :=
  followOffset_fabric ..

theorem locked_answerShown : (answerShown t2 t3 s).flag (breg .run 0x24) 31 = s.flag (breg .run 0x24) 31 :=
  State.flag_congr (rd_answerShown (by simp [breg]) (by simp [breg])) _

variable {t2 t3 s} in
theorem answerApplied_steps (hl : s.flag (breg .run 0x24) 31 = false) (ho : 1000 ≤ answerOffset t2 t3 s) :
    (answerApplied t2 t3 s).time = { s.time with now := s.time.now + BitVec.ofInt 64 (answerOffset t2 t3 s) } ∧
      (answerApplied t2 t3 s).rd (breg .run 0x30) = s.rd (breg .run 0x30) := by
  rw [answerApplied, followOffset_steps ((locked_answerShown ..).trans hl) ho]
  exact ⟨rfl, rd_answerShown (by simp [breg]) (by simp [breg])⟩

variable {t2 t3 s} in
theorem answerApplied_rates (h : s.flag (breg .run 0x24) 31 = true ∨ answerOffset t2 t3 s < 1000) :
    (answerApplied t2 t3 s).time = s.time ∧ (answerApplied t2 t3 s).rd (breg .run 0x30) = BitVec.ofInt 32
      (max (-200000) (min 200000 (Int.tdiv (answerOffset t2 t3 s * 1000000) (8 * (syncPeriod s : Int))))) := by
  have hp : syncPeriod (answerShown t2 t3 s) = syncPeriod s :=
    State.fld_congr (rd_answerShown (by simp [breg]) (by simp [breg])) ..
  rw [answerApplied, followOffset_rates (h.imp_left (locked_answerShown ..).trans), hp, ← clampRate_eq]
  exact ⟨rfl, State.rd_wr_same ..⟩

/-- The limit is no register of the answer. -/
theorem fld_answerApplied_limit : (answerApplied t2 t3 s).fld (breg .run 0x20) 0 8 = s.fld (breg .run 0x20) 0 8 :=
  State.fld_congr ((rd_answerApplied (by simp [breg])).trans (rd_answerShown (by simp [breg]) (by simp [breg]))) ..

theorem answerGood_eq : answerGood plock t2 t3 s =
    if (answerOffset t2 t3 s).natAbs ≤ s.fld (breg .run 0x20) 0 8 ∧ plock = true then s.fabric.good + 1 else 0 := by
  simp only [answerGood, fld_answerApplied_limit, answerApplied_fabric]

theorem takeAnswer_status : Frame blankStatus isTsstat (answerCounted plock t2 t3 s) (takeAnswer plock t2 t3 s) := by
  rw [takeAnswer_eq]
  exact .ite (setLocked_status ..) (.ite (setLocked_status ..) (.refl ..))

variable {plock t2 t3 s} in
/-- The eighth good answer in a row locks (R382). -/
theorem locked_takeAnswer (h : 8 ≤ answerGood plock t2 t3 s) : (takeAnswer plock t2 t3 s).flag (breg .run 0x24) 31 = true := by
  rw [takeAnswer_eq, if_pos h, flag_setLocked]

variable {plock t2 t3 s} in
/-- An offset over eight times the limit unlocks (R382). -/
theorem unlocked_takeAnswer (h : 8 * s.fld (breg .run 0x20) 0 8 < (answerOffset t2 t3 s).natAbs) :
    (takeAnswer plock t2 t3 s).flag (breg .run 0x24) 31 = false := by
  have hgood : ¬ 8 ≤ answerGood plock t2 t3 s := by
    rw [answerGood_eq, if_neg (by omega)]
    decide
  rw [takeAnswer_eq, if_neg hgood, fld_answerApplied_limit, if_pos h, flag_setLocked]

end

/-- A request is answered with its arrival time (R381). -/
theorem tsync_request {s : State} {n : LinkNo} {f : BitVec 256} (h : FrameIn s n f 3) (ht : bits (frPayload f) 158 2 = 1) :
    ∃ t, exec (.tsync n f) s = .next t ∧ OnlyLink n [] s t ∧
      link t n.val = { frameApplied s n f with tsyncTx := (frameApplied s n f).tsyncTx ++
        [{ tt := 2, tid := bits (frPayload f) 144 8, t2 := bits s.time.now 0 48 }] } := by
  have hexec : execTsync n f s = .next (modLink n.val (fun x => { x with
      tsyncTx := x.tsyncTx ++ [{ tt := 2, tid := bits (frPayload f) 144 8, t2 := bits s.time.now 0 48 }] })
      (setLink n.val (frameApplied s n f) s)) := by
    simp only [execTsync, receive_tsync h, ht, if_true]
    rfl
  refine ⟨_, hexec, ⟨rfl, fun k hk => ?_, fun _ _ => rfl⟩, ?_⟩
  · rw [modLink_eq, link_setLink_ne hk, link_setLink_ne hk]
  · rw [modLink_eq, link_setLink_same, link_setLink_same]

/-- The parent's answer to the exchange under way (R381, R382). -/
theorem tsync_answer {s : State} {n : LinkNo} {f : BitVec 256} (h : FrameIn s n f 3) (ht : bits (frPayload f) 158 2 = 2)
    (hsrc : timeSource s = 2) (hpar : parentLink s = n.val) (hw : s.fabric.waiting = true)
    (hid : s.fabric.tid = bits (frPayload f) 144 8) :
    exec (.tsync n f) s = .next (takeAnswer (bit (frPayload f) 157) (bits (frPayload f) 96 48) (bits (frPayload f) 48 48)
      (setLink n.val (frameApplied s n f) s)) := by
  have hsrc' : timeSource (setLink n.val (frameApplied s n f) s) = 2 := hsrc
  have hpar' : parentLink (setLink n.val (frameApplied s n f) s) = n.val := hpar
  have hw' : (setLink n.val (frameApplied s n f) s).fabric.waiting = true := hw
  have hid' : (setLink n.val (frameApplied s n f) s).fabric.tid = bits (frPayload f) 144 8 := hid
  change execTsync n f s = _
  simp only [execTsync, receive_tsync h, ht, hsrc', hpar', hw', hid']
  rfl

/-! ## The request of the child (R381, R382) -/

/-- The state with an unanswered exchange counted. -/
def missCounted (s : State) : State :=
  { s.satInc (breg .run 0x24) 0 16 with
    fabric := { s.fabric with waiting := false, missed := s.fabric.missed + 1, good := 0 } }

theorem missExchange_idle {s : State} (h : s.fabric.waiting = false) : missExchange s = s := by simp [missExchange, h]

theorem missExchange_waiting {s : State} (h : s.fabric.waiting = true) :
    missExchange s = if 4 ≤ s.fabric.missed + 1 then setLocked false (missCounted s) else missCounted s := by
  unfold missExchange
  rw [h]
  rfl

/-- An exchange that had no answer changes the fabric and RUN_TSSTAT. -/
theorem missExchange_frame (s : State) :
    (missExchange s).time = s.time ∧ (∀ a, a ≠ breg .run 0x24 → (missExchange s).rd a = s.rd a) ∧
      (missExchange s).fabric.links = s.fabric.links ∧ (missExchange s).fabric.tid = s.fabric.tid := by
  cases hw : s.fabric.waiting with
  | false => simp [missExchange_idle hw]
  | true =>
    have hf : Frame blankStatus isTsstat (missCounted s) (missExchange s) := by
      rw [missExchange_waiting hw]
      exact .ite (setLocked_status ..) (.refl ..)
    exact ⟨hf.get (·.time), fun a ha => (hf.regs a ha).trans (State.rd_satInc_ne s ha ..), hf.get (·.fabric.links),
      hf.get (·.fabric.tid)⟩

/-- It is counted, and the fourth in a row unlocks. -/
theorem missExchange_counts {s : State} (h : s.fabric.waiting = true) :
    (missExchange s).fabric.missed = s.fabric.missed + 1 ∧
      (missExchange s).fld (breg .run 0x24) 0 16 = min 65535 (s.fld (breg .run 0x24) 0 16 + 1) ∧
      (4 ≤ s.fabric.missed + 1 → (missExchange s).flag (breg .run 0x24) 31 = false) := by
  have hcount : (missCounted s).fld (breg .run 0x24) 0 16 = min 65535 (s.fld (breg .run 0x24) 0 16 + 1) :=
    State.fld_satInc_same _ _ _ _ (by decide)
  rw [missExchange_waiting h]
  split
  · exact ⟨(setLocked_status ..).get (·.fabric.missed), (fld_setLocked_low (by decide) ..).trans hcount,
      fun _ => flag_setLocked ..⟩
  · next hfew => exact ⟨rfl, hcount, fun h4 => absurd h4 hfew⟩

/-- The state with the next exchange open. -/
def openExchange (s : State) : State :=
  { s with fabric := { s.fabric with tid := s.fabric.tid + 1, waiting := true, exchAt := s.time.now } }

/-- Every PERIOD the child closes the exchange that had no answer, opens the next and queues its request. -/
theorem execTsyncExchange_due {s : State} (hsrc : timeSource s = 2) (hon : s.opState ≠ .off)
    (hdue : s.fabric.exchAt.toNat + 1000 * syncPeriod s ≤ now s) (hup : linkState s (parentLink s) = 5) :
    execTsyncExchange s = .next (modLink (parentLink s) (fun x => { x with
      tsyncTx := x.tsyncTx ++ [{ tt := 1, tid := s.fabric.tid + 1, t2 := 0 }] }) (openExchange (missExchange s))) := by
  obtain ⟨-, hrd, -, htid⟩ := missExchange_frame s
  have hpar : parentLink (openExchange (missExchange s)) = parentLink s :=
    State.fld_congr (hrd _ (by simp [breg])) ..
  have hstate : linkState (openExchange (missExchange s)) (parentLink s) = lsActive :=
    (State.fld_congr (hrd (rlink (parentLink s) 4) (by simp only [rlink, breg]; omega)) ..).trans hup
  have hdue' : ¬ (timeSource s ≠ 2 ∨ s.opState = .off ∨ now s < s.fabric.exchAt.toNat + 1000 * syncPeriod s) := by
    simp only [hsrc, hon, ne_eq, not_true_eq_false, false_or]
    omega
  rw [← htid]
  unfold execTsyncExchange
  rw [if_neg hdue']
  change (if linkState (openExchange (missExchange s)) (parentLink (openExchange (missExchange s))) = lsActive then
    Host.Outcome.next (modLink (parentLink (openExchange (missExchange s))) _ (openExchange (missExchange s))) else _) = _
  rw [hpar, if_pos hstate]

/-- What the parent's answer leaves: offset, delay, time base, rate, the count of good answers and LOCKED (R381, R382). -/
theorem takeAnswer_takes (plock : Bool) (t2 t3 : BitVec 48) (s : State) :
    let t := takeAnswer plock t2 t3 s
    let delay := answerDelay t2 t3 s
    let offset := answerOffset t2 t3 s
    let lim := s.fld (breg .run 0x20) 0 8
    let good := offset.natAbs ≤ lim ∧ plock = true
    t.fabric.links = s.fabric.links ∧ t.fabric.waiting = false ∧ t.fabric.missed = 0 ∧
      t.rd (breg .run 0x28) = BitVec.ofInt 32 (max (-(2 ^ 31 - 1)) (min (2 ^ 31 - 1) offset)) ∧
      t.rd (breg .run 0x2C) = BitVec.ofInt 32 delay ∧
      RegsBut [breg .run 0x24, breg .run 0x28, breg .run 0x2C, breg .run 0x30] s t ∧
      (s.flag (breg .run 0x24) 31 = false → 1000 ≤ offset →
        t.time = { s.time with now := s.time.now + BitVec.ofInt 64 offset } ∧ t.rd (breg .run 0x30) = s.rd (breg .run 0x30)) ∧
      ((s.flag (breg .run 0x24) 31 = true ∨ offset < 1000) → t.time = s.time ∧ t.rd (breg .run 0x30) =
        BitVec.ofInt 32 (max (-200000) (min 200000 (Int.tdiv (offset * 1000000) (8 * (syncPeriod s : Int)))))) ∧
      (good → t.fabric.good = s.fabric.good + 1) ∧ (¬ good → t.fabric.good = 0) ∧
      (good → 7 ≤ s.fabric.good → t.flag (breg .run 0x24) 31 = true) ∧
      (8 * lim < offset.natAbs → t.flag (breg .run 0x24) 31 = false) := by
  intro t delay offset lim good
  have hstat : Frame blankStatus isTsstat (answerCounted plock t2 t3 s) t := takeAnswer_status ..
  have hfabric : t.fabric = { s.fabric with waiting := false, missed := 0, good := answerGood plock t2 t3 s } := by
    rw [hstat.get (·.fabric)]
    simp only [answerCounted, answerApplied_fabric]
  have hrd {a : Nat} (ha : a ≠ breg .run 0x24) : t.rd a = (answerApplied t2 t3 s).rd a := hstat.regs a ha
  have htime : t.time = (answerApplied t2 t3 s).time := hstat.get (·.time)
  have hgood (hg : good) : answerGood plock t2 t3 s = s.fabric.good + 1 := (answerGood_eq ..).trans (if_pos hg)
  refine ⟨by rw [hfabric], by rw [hfabric], by rw [hfabric], ?_, ?_, fun a ha => ?_, fun hl ho => ?_, fun h => ?_, fun hg => ?_,
    fun hg => ?_, fun hg h7 => ?_, unlocked_takeAnswer⟩
  · rw [hrd (by simp [breg]), rd_answerApplied (by simp [breg]), rd_answerShown_offset, clamp31_eq]
  · rw [hrd (by simp [breg]), rd_answerApplied (by simp [breg]), rd_answerShown_delay]
  · simp only [List.mem_cons, List.not_mem_nil, or_false, not_or] at ha
    obtain ⟨h24, h28, h2C, h30⟩ := ha
    rw [hrd h24, rd_answerApplied h30, rd_answerShown h28 h2C]
  · rw [htime, hrd (by simp [breg])]
    exact answerApplied_steps hl ho
  · rw [htime, hrd (by simp [breg])]
    exact answerApplied_rates h
  · rw [hfabric, ← hgood hg]
  · rw [hfabric]
    exact (answerGood_eq ..).trans (if_neg hg)
  · exact locked_takeAnswer (by rw [hgood hg]; omega)

/-- The next exchange: its request joins those of the parent's link, and one that had no answer is counted (R381, R382). -/
theorem tsyncExchange_requests {s : State} (hsrc : timeSource s = 2) (hon : s.opState ≠ .off)
    (hdue : s.fabric.exchAt.toNat + 1000 * syncPeriod s ≤ now s) (hup : linkState s (parentLink s) = 5) :
    let k := parentLink s
    ∃ t, exec .tsyncExchange s = .next t ∧ t.fabric.tid = s.fabric.tid + 1 ∧ t.fabric.waiting = true ∧
      t.fabric.exchAt = s.time.now ∧
      link t k = { link s k with tsyncTx := (link s k).tsyncTx ++ [{ tt := 1, tid := s.fabric.tid + 1, t2 := 0 }] } ∧
      (s.fabric.waiting = false → t.regs = s.regs ∧ t.fabric.missed = s.fabric.missed) ∧
      (s.fabric.waiting = true → t.fabric.missed = s.fabric.missed + 1 ∧
        t.fld (breg .run 0x24) 0 16 = min 65535 (s.fld (breg .run 0x24) 0 16 + 1) ∧
        (4 ≤ s.fabric.missed + 1 → t.flag (breg .run 0x24) 31 = false)) := by
  obtain ⟨htime, -, hlinks, htid⟩ := missExchange_frame s
  refine ⟨_, execTsyncExchange_due hsrc hon hdue hup, congrArg (· + 1) htid, rfl, congrArg TimeBase.now htime, ?_,
    fun hw => ?_, fun hw => missExchange_counts hw⟩
  · have hlink : link (openExchange (missExchange s)) (parentLink s) = link s (parentLink s) := by
      simp only [link, openExchange, hlinks]
    rw [modLink_eq, link_setLink_same, hlink]
  · rw [missExchange_idle hw]
    exact ⟨rfl, rfl⟩

/-- Settles O50, clause by clause: the cycle, the inputs, PPS_IN, and the exchange with the parent. -/
theorem inputsAndTime : Obligations.InputsAndTime := by
  intro s
  refine ⟨fun hp hon => ?_, fun n h => evinEdge_flips h, fun n h => ?_, fun n h => evinGlitch_recounts n h,
    fun n req v hreq hin hon hv => evinCfgWrite_recounts n hreq hin hon hv,
    fun h hkind hen hsrc => ppsEdge_sets_rate h hkind hen hsrc, fun hok hlate => ppsLoss_clears hok hlate,
    fun n f hf => ⟨tsync_request hf, fun ht hsrc hpar hw hid => ?_⟩,
    fun hsrc hon hdue hup => tsyncExchange_requests hsrc hon hdue hup⟩
  · exact ⟨_, step_of_idle hp hon, rfl, fun h => by rw [nextTime_stopped h], nextTime_unlocked, nextTime_locked⟩
  · exact congrArg Host.Outcome.next (by simp [h])
  · have htaken := tsync_answer hf ht hsrc hpar hw hid
    obtain ⟨hlinks, hrest⟩ := takeAnswer_takes (bit (frPayload f) 157) (bits (frPayload f) 96 48) (bits (frPayload f) 48 48)
      (setLink n.val (frameApplied s n f) s)
    refine ⟨_, htaken, ?_, hrest⟩
    rw [link, hlinks]
    exact link_setLink_same ..

end Sys2Proof.Machine
end

section
/-! SUPPORT. What a detection leaves of the engines, the plots, the memories and the registers of the engines, and the
steps that change one engine and no memory (R453, R456). -/

namespace Sys2Proof.Machine

/-! ## Detections -/

/-- What is no part of the registers, the Dibber, the Sieve or the counter of free values is the same after a report. -/
theorem Reports.get {α : Type} {s t : State} (h : Reports s t) (g : State → α)
    (hg : ∀ s r d v n, g { s with regs := r, dib := d, sieve := v, free := n } = g s := by intros; rfl) : g t = g s := by
  rw [h.frame, hg]

@[simp] theorem detect_engines (d : Detection) (s : State) : (detect d s).engines = s.engines := (detect_reports d s).get (·.engines)
@[simp] theorem detect_mem (d : Detection) (s : State) : (detect d s).mem = s.mem := (detect_reports d s).get (·.mem)
@[simp] theorem detect_pres (d : Detection) (s : State) : (detect d s).pres = s.pres := (detect_reports d s).get (·.pres)
@[simp] theorem detect_ucode (d : Detection) (s : State) : (detect d s).ucode = s.ucode := (detect_reports d s).get (·.ucode)
@[simp] theorem detect_marks (d : Detection) (s : State) : (detect d s).marks = s.marks := (detect_reports d s).get (·.marks)
@[simp] theorem eng_detect (d : Detection) (s : State) (k : Nat) : (detect d s).eng k = s.eng k := (detect_reports d s).get (·.eng k)

/-- No register of an engine's slot is one that a detection can write. -/
theorem not_collectorReg_ereg {e o : Nat} (ho : o < 0x8000) (he : e < 1088) : ¬ collectorReg (ereg e o) := by
  have := Nat.mod_lt e (y := 17) (by decide)
  rintro (⟨h, -⟩ | ⟨p, -, h, h'⟩)
  · simp only [ereg, slotBase, plotWin, breg, Blk.base] at h
    omega
  · simp only [ereg, slotBase, plotWin, preg] at h h'
    omega

/-- A detection leaves the registers of every engine's slot (R453, R455). -/
theorem rd_detect_ereg {d : Detection} (hd : d.code ≠ 0x4E) (e : EngNo) {o : Nat} (ho : o < 0x8000) (s : State) :
    (detect d s).rd (ereg e.val o) = s.rd (ereg e.val o) :=
  (detect_records hd s).frame.regs _ (not_collectorReg_ereg ho e.isLt)

/-- A detection after a change of what records do not show opens the record that it would have opened before. -/
theorem detect_opens_after {d : Detection} {s u : State} (h : CollectorFree d s) (hs : u.sieve = s.sieve := by rfl)
    (hr : reactOf u d.code.toNat = reactOf s d.code.toNat := by rfl) (ho : u.opState = s.opState := by rfl)
    (ht : u.time = s.time := by rfl) : RecordOpened d s (detect d u) :=
  (detect_opens (h.of_same hs)).of_same hs hr ho ht rfl

/-! ## Steps of one engine -/

/-- What the memories hold and every engine but one are as before. -/
structure KeepsOthers (e : Nat) (s t : State) : Prop where
  mem : SameMemories s t
  eng : ∀ k, k ≠ e → t.eng k = s.eng k

theorem KeepsOthers.of_same {e : Nat} {s t : State} (hm : t.mem = s.mem) (hp : t.pres = s.pres) (hu : t.ucode = s.ucode)
    (he : t.engines = s.engines) : KeepsOthers e s t :=
  ⟨⟨hm, hp, hu⟩, fun k _ => by simp only [State.eng, he]⟩

theorem KeepsOthers.refl (e : Nat) (s : State) : KeepsOthers e s s := .of_same rfl rfl rfl rfl

theorem KeepsOthers.trans {e : Nat} {s t u : State} (h : KeepsOthers e s t) (k : KeepsOthers e t u) : KeepsOthers e s u := by
  obtain ⟨⟨hm, hp, hu⟩, he⟩ := h
  obtain ⟨⟨km, kp, ku⟩, ke⟩ := k
  exact ⟨⟨km.trans hm, kp.trans hp, ku.trans hu⟩, fun n hn => (ke n hn).trans (he n hn)⟩

/-- Two steps one after the other, the later one first. -/
theorem KeepsOthers.after {e : Nat} {s t u : State} (k : KeepsOthers e t u) (h : KeepsOthers e s t) : KeepsOthers e s u := h.trans k

theorem KeepsOthers.setEng (e : Nat) (x : Engine) (s : State) : KeepsOthers e s (s.setEng e x) :=
  ⟨⟨rfl, rfl, rfl⟩, fun _ h => State.eng_setEng_ne s h x⟩

theorem KeepsOthers.modEng (e : Nat) (g : Engine → Engine) (s : State) : KeepsOthers e s (s.modEng e g) := .setEng ..

theorem KeepsOthers.detect (e : Nat) (d : Detection) (s : State) : KeepsOthers e s (detect d s) :=
  .of_same (detect_mem d s) (detect_pres d s) (detect_ucode d s) (detect_engines d s)

theorem KeepsOthers.ite {c : Prop} [Decidable c] {e : Nat} {s t u : State} (h : KeepsOthers e s t) (k : KeepsOthers e s u) :
    KeepsOthers e s (if c then t else u) := by
  split
  · exact h
  · exact k

theorem KeepsOthers.foldl {β : Type} {e : Nat} {f : State → β → State} (h : ∀ s b, KeepsOthers e s (f s b)) (l : List β)
    (s : State) : KeepsOthers e s (l.foldl f s) :=
  foldl_keeps (KeepsOthers.refl e) (fun h k => h.trans k) l s fun b _ s => h s b

end Sys2Proof.Machine
end

section
/-! PROOFS. IN and HASH (R55 to R59): O18 and O19. -/

namespace Sys2Proof.Machine

/-! ## Clean words of the local memories (R298) -/

theorem imemBase_aligned (e : Nat) : imemBase e % 8 = 0 := by
  simp only [imemBase, slotBase, plotWin]
  omega

/-- The protected words that eight aligned bytes touch are the one that they are. -/
theorem wordsOf_aligned {a : Nat} (h : a % 8 = 0) : wordsOf a 8 = [a] := by
  have h1 : (a + 8 - 1) / 8 - a / 8 + 1 = 1 := by omega
  have h2 : (a / 8 + 0) * 8 = a := by omega
  simp only [wordsOf, h1, List.range_one, List.map_cons, List.map_nil, h2]
  rfl

/-- A read of a clean aligned word of an instruction memory returns it and changes nothing. -/
theorem localLoad_imem_clean {e : EngNo} {off : Nat} {s : State} (ho : off % 8 = 0) (h : s.mark (imemBase e.val + off) = .clean) :
    localLoad .imem e off 8 s = (some (s.load (imemBase e.val + off) 8), s) := by
  have ha : (imemBase e.val + off) % 8 = 0 := by
    have := imemBase_aligned e.val
    omega
  simp [localLoad, LocalMem.base, wordsOf_aligned ha, localCheck, h]

/-! ## HASH (R57, R58) -/

/-- What a token that HASH accepts moves on as: with its node word, its companion slot and its set. -/
def hashedTok (s : State) (e : EngNo) (t : Tok) : HashTok :=
  { tok := t, word := nodeWord s e.val (tagNode t.flit.tag)
    comp := s.load (imemBase e.val + 8 * (((tagNode t.flit.tag).toNat + 1) % 4096)) 8
    set := setOf s e.val (tagNode t.flit.tag) (tagCtx t.flit.tag)
      (if nwSticky (nodeWord s e.val (tagNode t.flit.tag)) then 0 else tagIter t.flit.tag) }

section
variable (s : State) (e : EngNo) (t : Tok)

theorem hashedTok_word : (hashedTok s e t).word = s.load (imemBase e.val + 8 * (tagNode t.flit.tag).toNat) 8 := by
  simp only [hashedTok, nodeWord]

theorem hashedTok_comp :
    (hashedTok s e t).comp = s.load (imemBase e.val + 8 * (((tagNode t.flit.tag).toNat + 1) % 4096)) 8 := by
  simp only [hashedTok]

theorem hashedTok_parts :
    { tok := t, word := (hashedTok s e t).word, comp := (hashedTok s e t).comp
      set := setOf s e.val (tagNode t.flit.tag) (tagCtx t.flit.tag)
        (if nwSticky (hashedTok s e t).word = true then 0 else tagIter t.flit.tag) } = hashedTok s e t := by
  simp only [hashedTok]
  rfl

/-- What decoding reads is no part of an engine. -/
theorem hashedTok_modEng (n : Nat) (g : Engine → Engine) : hashedTok (s.modEng n g) e t = hashedTok s e t := by
  have hload (a : Nat) : (s.modEng n g).load a 8 = s.load a 8 := rfl
  have hset (n' c i) : setOf (s.modEng n g) e.val n' c i = setOf s e.val n' c i := rfl
  simp only [hashedTok, nodeWord, hload, hset]
  rfl

end

/-- Nothing keeps a token at HASH: its node word and companion slot are clean and legal, and its node uses its port (R57,
R94, R95). -/
structure HashAccepts (s : State) (e : EngNo) (t : Tok) (sh : Shape) : Prop where
  node : s.mark (imemBase e.val + 8 * (tagNode t.flit.tag).toNat) = .clean
  next : s.mark (imemBase e.val + 8 * (((tagNode t.flit.tag).toNat + 1) % 4096)) = .clean
  legal : illegalCause s e.val (hashedTok s e t).word (hashedTok s e t).comp = none
  shape : nodeShape s e.val (nwOpc (hashedTok s e t).word).toNat = some sh
  uses : usesPort sh (hashedTok s e t).word (tagPort t.flit.tag) = true

theorem HashAccepts.modEng {s : State} {e : EngNo} {t : Tok} {sh : Shape} (h : HashAccepts s e t sh) (n : Nat)
    (g : Engine → Engine) : HashAccepts (s.modEng n g) e t sh := by
  have hcause (w c : Word) : illegalCause (s.modEng n g) e.val w c = illegalCause s e.val w c := rfl
  have hshape (c : Nat) : nodeShape (s.modEng n g) e.val c = nodeShape s e.val c := rfl
  obtain ⟨hnode, hnext, hlegal, hsh, huses⟩ := h
  exact ⟨hnode, hnext, by rwa [hashedTok_modEng, hcause], by rwa [hashedTok_modEng, hshape], by rwa [hashedTok_modEng]⟩

/-- A token that HASH accepts moves on. -/
theorem hashToken_moves {e : EngNo} {t : Tok} {s : State} {sh : Shape} (h : HashAccepts s e t sh) :
    hashToken e t s = s.modEng e (fun x => { x with hash := some (hashedTok s e t) }) := by
  obtain ⟨hnode, hnext, hlegal, hsh, huses⟩ := h
  have hload : localLoad .imem e (8 * (tagNode t.flit.tag).toNat) 8 s = (some (hashedTok s e t).word, s) := by
    rw [localLoad_imem_clean (by omega) hnode, hashedTok_word]
  have hload' : localLoad .imem e (8 * (((tagNode t.flit.tag).toNat + 1) % 4096)) 8 s = (some (hashedTok s e t).comp, s) := by
    rw [localLoad_imem_clean (by omega) hnext, hashedTok_comp]
  -- The reads are made opaque: the kernel would evaluate them when it compares the branches.
  conv in hashToken => delta hashToken
  obtain ⟨load, hl⟩ := exists_eq (a' := @localLoad)
  rw [← hl] at hload hload' ⊢
  simp only [hload, hload', ← hashedTok_comp, ite_self, hlegal, hsh, Option.getD_some, huses, Bool.not_true, Bool.false_eq_true,
    if_false, hashedTok_parts]

/-! ## IN (R55, R56) -/

section
variable {s : State} {e : EngNo} {f : Flit} {rest : List Flit}

theorem intakeFails_poison (h : f.poison = true) : intakeFails s e.val f = some 0x14 := if_pos h

theorem intakeFails_malformed (h : f.poison = false) (hbad : tagPort f.tag = 3 ∨ tagCtx f.tag = 0xFFFF) :
    intakeFails s e.val f = some 0x12 := by
  rw [intakeFails, if_neg (by simp [h]), if_pos hbad]

theorem intakeFails_stale (h : f.poison = false) (hport : tagPort f.tag ≠ 3) (hctx : tagCtx f.tag ≠ 0xFFFF)
    (halloc : ctxAllocated s (e.val / 17) (tagCtx f.tag) = false) : intakeFails s e.val f = some 0x13 := by
  rw [intakeFails, if_neg (by simp [h]), if_neg (not_or.mpr ⟨hport, hctx⟩), if_pos (by simp [halloc])]

theorem intakeFails_none (h : f.poison = false) (hport : tagPort f.tag ≠ 3) (hctx : tagCtx f.tag ≠ 0xFFFF)
    (halloc : ctxAllocated s (e.val / 17) (tagCtx f.tag) = true) : intakeFails s e.val f = none := by
  rw [intakeFails, if_neg (by simp [h]), if_neg (not_or.mpr ⟨hport, hctx⟩), if_neg (by simp [halloc])]

/-- The engine once IN has taken the head of its P3 lane. -/
def tookP3 (rest : List Flit) (x : Engine) : Engine := { x with inP3 := rest }

/-- IN takes the head of the P3 lane that waits for it (R55). -/
theorem takeIn_waits (h : TokenWaits s e f rest) :
    takeIn s e.val = some ({ flit := f, refill := none }, tookP3 rest (s.eng e.val)) := by
  obtain ⟨-, -, -, hlane, hkey⟩ := h
  simp only [takeIn, laneHead, hlane, hkey, Bool.false_eq_true, if_false, List.drop_succ_cons, List.drop_zero]
  rfl

/-- IN hands the token that waits to HASH, unless intake refuses it (R55, R56). -/
theorem tokenIn_waits (h : TokenWaits s e f rest) :
    exec (.tokenIn e .clean) s = .next ((intakeFails s e.val f).elim
      (hashToken e { flit := f, refill := none } (s.modEng e.val (tookP3 rest)))
      (fun c => detect (tokenDetect c e f 0) (s.modEng e.val (tookP3 rest)))) := by
  have htake := takeIn_waits h
  obtain ⟨hin, hhalt, hhash, -, -⟩ := h
  have hexec : exec (.tokenIn e .clean) s = execTokenIn e .clean s := rfl
  have hclean (a : Nat) : s.upset a .clean = s := rfl
  have htook : s.setEng e.val (tookP3 rest (s.eng e.val)) = s.modEng e.val (tookP3 rest) := rfl
  have hfails : intakeFails (s.modEng e.val (tookP3 rest)) e.val f = intakeFails s e.val f := rfl
  rw [hexec, execTokenIn]
  -- HASH is made opaque, for the kernel as above.
  obtain ⟨hash, hh⟩ := exists_eq (a' := @hashToken)
  rw [← hh]
  simp only [hin, hhalt, hhash, htake, hclean, htook, hfails, Option.isSome_none, Bool.not_true, Bool.false_eq_true, or_self,
    if_false]
  cases intakeFails s e.val f with
  | none => simp only [Option.elim_none]
  | some c => simp only [Option.elim_some]

/-- A token that intake and decoding accept moves to HASH, and nothing else changes. -/
theorem tokenIn_accepts {sh : Shape} (h : TokenAccepted s e f rest sh) :
    ∃ t, exec (.tokenIn e .clean) s = .next t ∧ OnlyEngine e s t ∧
      t.eng e.val = { s.eng e.val with inP3 := rest, hash := some (hashedTok s e { flit := f, refill := none }) } := by
  obtain ⟨hwaits, hpoison, hport, hctx, halloc, hnode, hnext, hlegal, hshape, huses⟩ := h
  have hfails := intakeFails_none hpoison hport hctx halloc
  have hword : (hashedTok s e { flit := f, refill := none }).word = nodeWord s e.val (tagNode f.tag) := by simp only [hashedTok]
  have haccepts : HashAccepts s e { flit := f, refill := none } sh :=
    ⟨hnode, hnext, by rwa [hword, hashedTok_comp], by rwa [hword], by rwa [hword]⟩
  refine ⟨_, by rw [tokenIn_waits hwaits, hfails, Option.elim_none, hashToken_moves (haccepts.modEng ..)],
    ⟨rfl, fun k hk => ?_⟩, ?_⟩
  · rw [State.eng_modEng_ne _ hk, State.eng_modEng_ne _ hk]
  · rw [State.eng_modEng_same, State.eng_modEng_same, hashedTok_modEng]
    rfl

/-- A token that intake refuses is gone, with its record where the collector is free. -/
theorem tokenIn_gone (h : TokenWaits s e f rest) {c : BitVec 8} (hc : intakeFails s e.val f = some c) :
    ∃ t, exec (.tokenIn e .clean) s = .next t ∧ t.eng e.val = { s.eng e.val with inP3 := rest } ∧ SameMemories s t ∧
      (CollectorFree (tokenDetect c e f 0) s → RecordOpened (tokenDetect c e f 0) s t) := by
  refine ⟨_, by rw [tokenIn_waits h, hc, Option.elim_some], ?_, ?_, fun hfree => detect_opens_after hfree⟩
  · rw [eng_detect, State.eng_modEng_same]
    rfl
  · exact ((KeepsOthers.modEng ..).trans (.detect e.val _ _)).mem

end

/-- Settles O19: what IN and HASH do with a token that they accept, and what intake does with one that it refuses. -/
theorem tokenIntake : Obligations.TokenIntake := by
  intro s e f rest
  refine ⟨fun sh h => tokenIn_accepts h, fun h => ⟨fun hpoison => ?_, fun hpoison hbad => ?_, fun hpoison hport hctx halloc => ?_⟩⟩
  · exact tokenIn_gone h (intakeFails_poison hpoison)
  · exact tokenIn_gone h (intakeFails_malformed hpoison hbad)
  · exact tokenIn_gone h (intakeFails_stale hpoison hport hctx halloc)

/-! ## The set index (R58, R59) -/

/-- The rotation of R58 is a rotation left by five. -/
theorem rot5_eq (v : BitVec 10) : rot5 v = v.rotateLeft 5 := by
  ext i hi
  rw [rot5, BitVec.getElem_append, BitVec.getElem_rotateLeft]
  split
  · simp [bits, BitVec.getLsbD_eq_getElem (show 5 + i < 10 by omega)]
  · simp [bits, BitVec.getLsbD_eq_getElem (show i - 5 < 10 by omega)]

/-- Settles O18: the set that HASH gives an accepted token, under each profile. -/
theorem setIndexOfTokens : Obligations.SetIndexOfTokens := by
  intro s e f rest sh h
  obtain ⟨t, hexec, -, heng⟩ := tokenIn_accepts h
  refine ⟨t, hashedTok s e { flit := f, refill := none }, hexec, by rw [heng], fun hq => ?_, fun hq => ?_⟩
  · cases hp : s.profile with
    | p0100 => exact absurd hp hq
    | _ => simp only [hashedTok, setOf, setIndex, hp, rot5_eq]; rfl
  · simp only [hashedTok, setOf, setIndex, hq]
    rfl

end Sys2Proof.Machine
end

section
/-! SUPPORT. Steps that write registers alone. -/

namespace Sys2Proof.Machine

theorem OnlyRegs.refl (s : State) : OnlyRegs [] s s := ⟨rfl, fun _ _ => rfl⟩

theorem OnlyRegs.trans {as bs : List Nat} {s t u : State} (h : OnlyRegs as s t) (k : OnlyRegs bs t u) : OnlyRegs (as ++ bs) s u := by
  obtain ⟨ht, hr⟩ := h
  obtain ⟨hu, hr'⟩ := k
  refine ⟨by rw [hu, ht], fun a ha => ?_⟩
  rw [List.mem_append, not_or] at ha
  rw [hr' a ha.2, hr a ha.1]

theorem OnlyRegs.mono {as bs : List Nat} {s t : State} (h : OnlyRegs as s t) (hab : ∀ a, a ∈ as → a ∈ bs) : OnlyRegs bs s t :=
  ⟨h.1, fun a ha => h.2 a fun h => ha (hab a h)⟩

theorem OnlyRegs.wr (s : State) (a : Nat) (v : Reg32) : OnlyRegs [a] s (s.wr a v) :=
  ⟨rfl, fun _ hb => State.rd_wr_ne s (List.ne_of_not_mem_cons hb) v⟩

theorem OnlyRegs.setFlag (s : State) (a i : Nat) (b : Bool) : OnlyRegs [a] s (s.setFlag a i b) := .wr ..

theorem OnlyRegs.setFld (s : State) (a lo len n : Nat) : OnlyRegs [a] s (s.setFld a lo len n) := .wr ..

theorem OnlyRegs.satAdd (s : State) (a lo len n : Nat) : OnlyRegs [a] s (s.satAdd a lo len n) := .wr ..

theorem OnlyRegs.satInc (s : State) (a lo len : Nat) : OnlyRegs [a] s (s.satInc a lo len) := .wr ..

/-- What is no register is the same in both states. -/
theorem OnlyRegs.get {α : Type} {as : List Nat} {s t : State} (h : OnlyRegs as s t) (g : State → α)
    (hg : ∀ s r, g { s with regs := r } = g s := by intros; rfl) : g t = g s := by
  rw [h.1, hg]

theorem KeepsOthers.of_regs {as : List Nat} {s t : State} (h : OnlyRegs as s t) (e : Nat) : KeepsOthers e s t :=
  .of_same (h.get (·.mem)) (h.get (·.pres)) (h.get (·.ucode)) (h.get (·.engines))

theorem SameMemories.trans {s t u : State} (h : SameMemories s t) (k : SameMemories t u) : SameMemories s u := by
  obtain ⟨hm, hp, hu⟩ := h
  obtain ⟨km, kp, ku⟩ := k
  exact ⟨km.trans hm, kp.trans hp, ku.trans hu⟩

/-- No register of the Sieve is one of an engine's slot. -/
theorem sieve_ne_ereg (e : EngNo) {o o' : Nat} (ho : o < 0x8000) : breg .sieve o' ≠ ereg e.val o := by
  have := e.isLt
  simp only [ereg, slotBase, plotWin, breg, Blk.base]
  omega

/-- A reaction depends on the Sieve and its registers alone. -/
theorem reactOf_congr {s t : State} (hs : t.sieve = s.sieve) (hr : ∀ o, t.rd (breg .sieve o) = s.rd (breg .sieve o)) (c : Nat) :
    reactOf t c = reactOf s c := by
  rw [reactOf, reactOf, hs, hr]

end Sys2Proof.Machine
end

section
/-! SUPPORT. The matching store: what reading, renumbering and dropping the ways of a set leave, and what MATCH finds of a
key (R60 to R62, R66). -/

namespace Sys2Proof.Machine

theorem KeepsOthers.of_reports {s t : State} (h : Reports s t) (e : Nat) : KeepsOthers e s t :=
  .of_same (h.get (·.mem)) (h.get (·.pres)) (h.get (·.ucode)) (h.get (·.engines))

/-! ## The ways of a set -/

section
variable (x : Engine) (set w : Nat) (n : Entry)

@[simp] theorem wayAt_setWay_same : wayAt (setWay x set w n) set w = n := SMap.get_set_same ..

theorem wayAt_setWay_ne {v : Nat} (h : v ≠ w) : wayAt (setWay x set w n) set v = wayAt x set v :=
  SMap.get_set_ne _ (by omega) ..

end

theorem mem_ways {w : Nat} : w ∈ ways ↔ w < 4 := by
  simp only [ways, List.mem_cons, List.not_mem_nil, or_false]
  omega

theorem mem_validWays {x : Engine} {set w : Nat} : w ∈ validWays x set ↔ w < 4 ∧ enV (wayAt x set w) = true := by
  rw [validWays, List.mem_filter, mem_ways]

theorem mem_entriesAt {x : Engine} {set : Nat} {n : Entry} : n ∈ entriesAt x set ways ↔ ∃ w, w < 4 ∧ wayAt x set w = n := by
  simp only [entriesAt, List.mem_map, mem_ways]

/-- The engines differ in the matching store alone. -/
def OnlyMs (x y : Engine) : Prop := y = { x with ms := y.ms }

theorem OnlyMs.refl (x : Engine) : OnlyMs x x := rfl

theorem OnlyMs.trans {x y z : Engine} (h : OnlyMs x y) (k : OnlyMs y z) : OnlyMs x z := by
  unfold OnlyMs at *
  rw [k, h]

theorem OnlyMs.setWay (x : Engine) (set w : Nat) (n : Entry) : OnlyMs x (setWay x set w n) := rfl

theorem OnlyMs.foldl {β : Type} {f : Engine → β → Engine} (h : ∀ x b, OnlyMs x (f x b)) : ∀ (l : List β) (x : Engine),
    OnlyMs x (l.foldl f x)
  | [], x => .refl x
  | b :: l, x => (h x b).trans (OnlyMs.foldl h l (f x b))

/-- Ways that are written one after the other each hold what was written. -/
theorem wayAt_foldl_setWay (set : Nat) (g : Nat → Entry) (v : Nat) : ∀ (ws : List Nat) (x : Engine),
    wayAt (ws.foldl (fun y w => setWay y set w (g w)) x) set v = if v ∈ ws then g v else wayAt x set v
  | [], x => by simp
  | w :: ws, x => by
    rw [List.foldl_cons, wayAt_foldl_setWay set g v ws]
    by_cases hv : v = w
    · subst hv
      simp
    · rw [wayAt_setWay_ne _ _ _ _ hv]
      simp [hv]

/-! ## AGE (R62) -/

/-- A renumbering changes the AGE of valid ways alone. -/
theorem wayAt_renumber (x : Engine) (set : Nat) (fresh : Option Nat) (v : Nat) :
    wayAt (renumber x set fresh) set v = if v ∈ validWays x set then
      put (wayAt x set v) 117 (BitVec.ofNat 2 ((validWays x set).filter (fun u => younger x set fresh u v)).length)
      else wayAt x set v :=
  wayAt_foldl_setWay ..

theorem OnlyMs.renumber (x : Engine) (set : Nat) (fresh : Option Nat) : OnlyMs x (renumber x set fresh) := by
  unfold Machine.renumber
  exact OnlyMs.foldl (fun _ _ => .setWay ..) _ _

section
variable (x : Engine) (set : Nat) (fresh : Option Nat) (v : Nat)

/-- A field of an entry that does not meet AGE is the same after a renumbering. -/
theorem bits_renumber {lo len : Nat} (h : lo + len ≤ 117 ∨ 119 ≤ lo) :
    bits (wayAt (renumber x set fresh) set v) lo len = bits (wayAt x set v) lo len := by
  rw [wayAt_renumber]
  split
  · exact bits_put_disjoint _ _ _ _ _ (by omega)
  · rfl

theorem enV_renumber : enV (wayAt (renumber x set fresh) set v) = enV (wayAt x set v) := by
  rw [wayAt_renumber]
  split
  · exact bit_put_out _ _ _ _ (by omega)
  · rfl

theorem holdsKey_renumber (key : BitVec 40) :
    holdsKey (wayAt (renumber x set fresh) set v) key = holdsKey (wayAt x set v) key := by
  simp only [holdsKey, enV_renumber, enType, enKey, bits_renumber x set fresh v (by omega : 125 + 2 ≤ 117 ∨ 119 ≤ 125),
    bits_renumber x set fresh v (by omega : 64 + 40 ≤ 117 ∨ 119 ≤ 64)]

theorem enCtx_renumber : enCtx (wayAt (renumber x set fresh) set v) = enCtx (wayAt x set v) :=
  bits_renumber x set fresh v (by omega)

end

/-! ## Ways that are dropped -/

theorem enV_dropWay (x : Engine) (set w : Nat) : enV (wayAt (dropWay x set w) set w) = false := by
  rw [dropWay, wayAt_setWay_same]
  exact bit_putBit_same _ _ _ (by omega)

/-- Of the ways of a set, those of a list that is dropped are invalid, and the others are as before. -/
theorem wayAt_foldl_dropWay (set v : Nat) : ∀ (ws : List Nat) (x : Engine),
    (v ∉ ws → wayAt (ws.foldl (fun y w => dropWay y set w) x) set v = wayAt x set v) ∧
      (v ∈ ws ∨ enV (wayAt x set v) = false → enV (wayAt (ws.foldl (fun y w => dropWay y set w) x) set v) = false)
  | [], x => by simp
  | w :: ws, x => by
    obtain ⟨hkeep, hdrop⟩ := wayAt_foldl_dropWay set v ws (dropWay x set w)
    rw [List.foldl_cons]
    by_cases hv : v = w
    · subst hv
      exact ⟨fun h => absurd List.mem_cons_self h, fun _ => hdrop (.inr (enV_dropWay ..))⟩
    · have hne : wayAt (dropWay x set w) set v = wayAt x set v := wayAt_setWay_ne _ _ _ _ hv
      rw [hne] at hkeep hdrop
      refine ⟨fun h => hkeep fun h' => h (List.mem_cons_of_mem _ h'), fun h => hdrop (h.imp_left fun h => ?_)⟩
      exact (List.mem_cons.mp h).resolve_left hv

/-- A way that is not dropped is the same but for its AGE. -/
theorem wayAt_kept {x : Engine} {set v : Nat} {p : Nat → Bool} (hp : p v = false) (ws : List Nat) :
    wayAt ((ws.filter p).foldl (fun y w => dropWay y set w) x) set v = wayAt x set v :=
  (wayAt_foldl_dropWay set v _ x).1 fun h => by simp [hp] at h

theorem OnlyMs.dropWays (set : Nat) (ws : List Nat) (x : Engine) : OnlyMs x (ws.foldl (fun y w => dropWay y set w) x) :=
  OnlyMs.foldl (fun _ _ => .setWay ..) _ _

/-- The engine without a key's entries differs in what holds entries and in the keys of mixed EPOCH. -/
theorem dropKey_frame (x : Engine) (set : Nat) (key : BitVec 40) :
    dropKey x set key = { x with
      ms := (dropKey x set key).ms, mixed := x.mixed.filter (· != key), p3ovf := x.p3ovf.filter (fun n => !holdsKey n key) } := by
  have hdrop := OnlyMs.dropWays set (ways.filter (fun w => holdsKey (wayAt x set w) key)) x
  unfold dropKey
  dsimp only
  generalize (ways.filter (fun w => holdsKey (wayAt x set w) key)).foldl (fun y w => dropWay y set w) x = y at hdrop ⊢
  rw [OnlyMs] at hdrop
  have hren := OnlyMs.renumber { y with p3ovf := y.p3ovf.filter (fun n => !holdsKey n key), mixed := y.mixed.filter (· != key) }
    set none
  rw [OnlyMs] at hren
  rw [hren, hdrop]

theorem not_holdsKey_of_invalid {n : Entry} (h : enV n = false) (key : BitVec 40) : holdsKey n key = false := by simp [holdsKey, h]

/-- Nothing of a set holds a key that has been dropped (R62). -/
theorem not_holdsKey_dropKey (x : Engine) (set : Nat) (key : BitVec 40) {w : Nat} (hw : w < 4) :
    holdsKey (wayAt (dropKey x set key) set w) key = false := by
  unfold dropKey
  dsimp only
  rw [holdsKey_renumber]
  show holdsKey (wayAt ((ways.filter (fun w => holdsKey (wayAt x set w) key)).foldl (fun y w => dropWay y set w) x) set w) key = false
  cases hk : holdsKey (wayAt x set w) key with
  | true =>
    have hv := (wayAt_foldl_dropWay set w (ways.filter (fun w => holdsKey (wayAt x set w) key)) x).2
      (.inl (List.mem_filter.mpr ⟨mem_ways.mpr hw, hk⟩))
    exact not_holdsKey_of_invalid hv key
  | false => rw [wayAt_kept hk, hk]

/-! ## What MATCH finds of a key (R62, R67) -/

theorem primaryIn_none {ns : List Entry} {key : BitVec 40} (h : ∀ n, n ∈ ns → holdsKey n key = false) :
    primaryIn ns key = none := by
  have h1 : ns.find? (fun n => holdsKey n key && enType n == 0) = none := List.find?_eq_none.mpr fun n hn => by simp [h n hn]
  have h2 : ns.find? (fun n => holdsKey n key) = none := List.find?_eq_none.mpr fun n hn => by simp [h n hn]
  simp only [primaryIn, h1, h2]

/-- MATCH finds nothing of a key that neither the set nor the overflow buffer holds. -/
theorem findKey_none {x : Engine} {set : Nat} {key : BitVec 40} (hset : ∀ w, w < 4 → holdsKey (wayAt x set w) key = false)
    (hovf : ∀ n, n ∈ x.p3ovf → holdsKey n key = false) : findKey x set key [] = none := by
  have h1 : primaryIn (entriesAt x set ways) key = none := primaryIn_none fun n hn => by
    obtain ⟨w, hw, rfl⟩ := mem_entriesAt.mp hn
    exact hset w hw
  have h2 : primaryIn x.p3ovf key = none := primaryIn_none hovf
  have h3 : primaryIn [] key = none := primaryIn_none fun n hn => absurd hn List.not_mem_nil
  simp only [findKey, h1, h2, h3, Option.map_none]

/-- MATCH finds nothing of a key that has been dropped. -/
theorem findKey_dropKey (x : Engine) (set : Nat) (key : BitVec 40) : findKey (dropKey x set key) set key [] = none := by
  refine findKey_none (fun w hw => not_holdsKey_dropKey x set key hw) fun n hn => ?_
  rw [dropKey_frame] at hn
  simpa using (List.mem_filter.mp hn).2

/-- What MATCH finds depends on what holds entries alone. -/
theorem findKey_congr {x y : Engine} (hm : y.ms = x.ms) (ho : y.p3ovf = x.p3ovf) (set : Nat) (key : BitVec 40) (ret : List Entry) :
    findKey y set key ret = findKey x set key ret := by
  simp only [findKey, entriesAt, wayAt, hm, ho]

/-! ## A set that is read (R60, R85) -/

/-- The address of an entry's lower half. -/
def wayAddr (e set w : Nat) : Nat := msBase e + 16 * (4 * set + w)

theorem wayMark_clean {s : State} {e set w : Nat} :
    wayMark s e set w = .clean ↔ s.mark (wayAddr e set w) = .clean ∧ s.mark (wayAddr e set w + 8) = .clean := by
  unfold wayMark wayAddr
  dsimp only
  cases s.mark (msBase e + 16 * (4 * set + w)) <;> cases s.mark (msBase e + 16 * (4 * set + w) + 8) <;> simp

/-- A clean word stays clean where others are made clean. -/
theorem mark_cleanWay {s : State} {a : Nat} (h : s.mark a = .clean) (e set w : Nat) : (cleanWay e set w s).mark a = .clean := by
  have hset {u : State} (hu : u.mark a = .clean) (b : Nat) : (u.setMark b .clean).mark a = .clean := by
    by_cases hb : a = b
    · rw [hb, State.mark_setMark_same]
    · rw [State.mark_setMark_ne _ hb, hu]
  exact hset (hset h _) _

/-- One way is read. -/
def readWay (e : EngNo) (set : Nat) (f : Flit) (s : State) (w : Nat) : State :=
  if !enV (wayAt (s.eng e) set w) then cleanWay e set w s
  else match wayMark s e set w with
    | .clean => s
    | .single => cleanWay e set w (detect (msDetect 0x01 e set w f s) s)
    | .double =>
      let s := cleanWay e set w (detect (msDetect 0x02 e set w f s) s)
      seeRefusals (e.val / 17) (s.modEng e (fun x => renumber (dropWay x set w) set none))

theorem readSet_eq (e : EngNo) (set : Nat) (f : Flit) (s : State) : readSet e set f s = ways.foldl (readWay e set f) s := rfl

/-- The second state is the first but for the check bits. -/
def OnlyMarks (s t : State) : Prop := t = { s with marks := t.marks }

/-- Ways that are invalid or clean are read with no effect but on check bits. -/
theorem readWays_onlyMarks (e : EngNo) (set : Nat) (f : Flit) : ∀ (ws : List Nat) (s : State),
    (∀ w, w ∈ ws → enV (wayAt (s.eng e) set w) = true → wayMark s e set w = .clean) → OnlyMarks s (ws.foldl (readWay e set f) s)
  | [], _, _ => rfl
  | w :: ws, s, h => by
    have hw := h w List.mem_cons_self
    have hws := fun v hv => h v (List.mem_cons_of_mem w hv)
    rw [List.foldl_cons]
    cases hv : enV (wayAt (s.eng e) set w) with
    | true =>
      have hread : readWay e set f s w = s := by simp [readWay, hv, hw hv]
      rw [hread]
      exact readWays_onlyMarks e set f ws s hws
    | false =>
      have hread : readWay e set f s w = cleanWay e set w s := by simp [readWay, hv]
      have ih := readWays_onlyMarks e set f ws (cleanWay e set w s) fun v hvs hvv => by
        obtain ⟨h1, h2⟩ := wayMark_clean.mp (hws v hvs hvv)
        exact wayMark_clean.mpr ⟨mark_cleanWay h1 .., mark_cleanWay h2 ..⟩
      rw [hread, OnlyMarks, ih]
      rfl

theorem readSet_onlyMarks {e : EngNo} {set : Nat} {s : State}
    (h : ∀ w, w < 4 → enV (wayAt (s.eng e) set w) = true → wayMark s e set w = .clean) (f : Flit) :
    OnlyMarks s (readSet e set f s) :=
  readWays_onlyMarks e set f ways s fun w hw => h w (mem_ways.mp hw)

/-! ## Occupancy (R81, R224, R225) -/

theorem alert_reports (p : Nat) (s : State) : Reports s (alert p s) := by
  unfold alert
  exact .ite (raiseEvent_reports ..) (.refl s)

theorem KeepsOthers.seeRefusals (e p : Nat) (s : State) : KeepsOthers e s (seeRefusals p s) := by
  unfold Machine.seeRefusals
  have h := KeepsOthers.of_reports (alert_reports p s) e
  exact (KeepsOthers.ite h (.refl e s)).trans (.of_same rfl rfl rfl rfl)

@[simp] theorem eng_seeRefusals (p : Nat) (s : State) (k : Nat) : (seeRefusals p s).eng k = s.eng k := by
  simp only [State.eng, (seeRefusals_keepsSlots p s).engines]

theorem raiseHwm_reports (e : Nat) (s : State) : Reports s (raiseHwm e s) := by
  unfold raiseHwm
  exact .ite (.wr ..) (.refl s)

/-- A look at the occupancy changes an engine's spill-down order at most (R224). -/
theorem eng_seeTotal (e before : Nat) (s : State) : ∃ o, (seeTotal e before s).eng e = { s.eng e with order := o } := by
  have hwm : (raiseHwm e s).eng e = s.eng e := (raiseHwm_reports e s).get (·.eng e)
  unfold seeTotal
  dsimp only
  rw [eng_seeRefusals]
  split
  · rw [(raiseEvent_reports ..).get (·.eng e), State.eng_modEng_same, hwm]
    exact ⟨_, rfl⟩
  · exact ⟨(s.eng e).order, hwm⟩

theorem KeepsOthers.seeTotal (e before : Nat) (s : State) : KeepsOthers e s (seeTotal e before s) := by
  have hwm := KeepsOthers.of_reports (raiseHwm_reports e s) e
  unfold Machine.seeTotal
  refine .after (.seeRefusals ..) (.ite (.after (.of_reports (raiseEvent_reports ..) e) (.after (.modEng ..) hwm)) hwm)

end Sys2Proof.Machine
end

section
/-! PROOFS. MATCH (R61 to R67, R73): O20 and O21. -/

namespace Sys2Proof.Machine

/-! ## Fires (R33, R73, R445) -/

theorem modeSet_reports (s : State) (ep : Bool) : Reports s (modeSet s ep).2 := by
  unfold modeSet
  split
  · exact .refl s
  · exact (Reports.wr ..).trans (raiseEvent_reports ..)

theorem fireSet_reports (p : Nat) (eps : List Bool) (s : State) : Reports s (fireSet p eps s).2 := by
  unfold fireSet
  split
  · exact .refl s
  · split
    · split
      · exact .refl s
      · exact modeSet_reports ..
    · exact .refl s

/-- Tokens of differing EPOCH fire under the plot's current one (R33). -/
theorem fireSet_mixed {p : Nat} {ep : Bool} {rest : List Bool} {s : State} (h : rest.any (· != ep) = true) :
    (fireSet p (ep :: rest) s).1 = (s.plot p).epoch := by
  have hall : rest.all (· == ep) = false := by
    rw [Bool.eq_false_iff]
    intro hall
    obtain ⟨b, hb, hne⟩ := List.any_eq_true.mp h
    have := List.all_eq_true.mp hall b hb
    simp_all
  simp only [fireSet, hall, Bool.false_eq_true, if_false]

/-- What a fire is made of: the token's node, key and word, the two operands, the priority and the mode set (R73). -/
structure FireOf (h : HashTok) (l r : Word) (iter : BitVec 12) (pri : BitVec 2) (mset : Bool) (g : Fire) : Prop where
  l : g.l = l
  r : g.r = r
  ctx : g.ctx = tagCtx h.tok.flit.tag
  iter : g.iter = iter
  pri : g.pri = pri
  node : g.node = tagNode h.tok.flit.tag
  word : g.word = h.word
  mset : g.mset = mset

section
variable (e : EngNo) (h : HashTok) (l r : Word) (iter : BitVec 12) (pri : BitVec 2) (eps : List Bool) (s : State)

/-- A token that completes a fire leaves HASH for FIRE. -/
theorem makeFire_fires : ∃ g, (makeFire e h l r iter pri eps s).eng e.val = { s.eng e.val with hash := none, fire := some g } ∧
    FireOf h l r iter pri (fireSet (e.val / 17) eps s).1 g := by
  unfold makeFire
  dsimp only
  rw [State.eng_modEng_same]
  have heng (c : Prop) [Decidable c] (u : State) : (if c then u.satInc (breg .upk 0x6C) 16 16 else u).eng e.val = u.eng e.val := by
    split <;> rfl
  rw [heng, (fireSet_reports ..).get (·.eng e.val)]
  exact ⟨_, rfl, ⟨rfl, rfl, rfl, rfl, rfl, rfl, rfl, rfl⟩⟩

theorem makeFire_keepsOthers : KeepsOthers e.val s (makeFire e h l r iter pri eps s) := by
  have hset := KeepsOthers.of_reports (fireSet_reports (e.val / 17) eps s) e.val
  unfold makeFire
  exact .after (.modEng ..) (.ite (hset.trans (.of_same rfl rfl rfl rfl)) hset)

end

/-! ## MATCH_TOKEN -/

/-- The state in which MATCH decides on a token: its set is read, unless its node is a bypass node (R60, R64). -/
def matchView (e : EngNo) (h : HashTok) (sh : Shape) (s : State) : State :=
  if isBypass sh h.word then s else readSet e h.set.toNat h.tok.flit s

section
variable {s : State} {e : EngNo} {h : HashTok} {sh : Shape}

/-- The token in HASH leaves it with its outcome, or is held there. -/
theorem matchToken_hashed (hh : (s.eng e.val).hash = some h) (hs : nodeShape s e.val (nwOpc h.word).toNat = some sh) :
    exec (.matchToken e .clean) s =
      .next ((matchOutcome e h sh (matchView e h sh s)).elim (matchView e h sh s) (hashDone e.val)) := by
  have hexec : exec (.matchToken e .clean) s = execMatchToken e .clean s := rfl
  have hclean (a : Nat) : s.upset a .clean = s := rfl
  rw [hexec, execMatchToken]
  simp only [hh, hs, hclean]
  cases validWays (s.eng e.val) h.set.toNat with
  | nil =>
    simp only [← matchView.eq_1]
    cases matchOutcome e h sh (matchView e h sh s) with
    | none => rfl
    | some t => rfl
  | cons w ws =>
    simp only [← matchView.eq_1]
    cases matchOutcome e h sh (matchView e h sh s) with
    | none => rfl
    | some t => rfl

theorem matchView_onlyMarks (hset : ∀ w, w < 4 → enV (wayAt (s.eng e.val) h.set.toNat w) = true →
    wayMark s e.val h.set.toNat w = .clean) : OnlyMarks s (matchView e h sh s) := by
  unfold matchView
  split
  · rfl
  · exact readSet_onlyMarks hset _


/-- What is no check bit is the same in both states. -/
theorem OnlyMarks.get {α : Type} {s t : State} (h : OnlyMarks s t) (g : State → α)
    (hg : ∀ s m, g { s with marks := m } = g s := by intros; rfl) : g t = g s := by
  rw [h, hg]

theorem KeepsOthers.of_marks {s t : State} (h : OnlyMarks s t) (e : Nat) : KeepsOthers e s t :=
  .of_same (h.get (·.mem)) (h.get (·.pres)) (h.get (·.ucode)) (h.get (·.engines))

@[simp] theorem eng_hashDone (e : Nat) (s : State) : (hashDone e s).eng e = { s.eng e with hash := none } := State.eng_modEng_same ..

theorem KeepsOthers.hashDone (e : Nat) (s : State) : KeepsOthers e s (hashDone e s) := .modEng ..

/-! ## The outcomes (R62 to R65) -/

/-- The key under which MATCH looks for a token's entry. -/
def tokKey (h : HashTok) : BitVec 40 := keyOf h.word (tagNode h.tok.flit.tag) (tagCtx h.tok.flit.tag) (tagIter h.tok.flit.tag)

/-- A fire that waits holds the token (R54, R73). -/
theorem matchOutcome_held (hf : (s.eng e.val).fire.isSome = true) : matchOutcome e h sh s = none := if_pos hf

/-- A bypass token fires (R64). -/
theorem matchOutcome_bypass (hf : (s.eng e.val).fire = none) (hb : isBypass sh h.word = true) :
    matchOutcome e h sh s = some (matchBypass e h s) := by
  simp [matchOutcome, hf, hb]

section
variable (hf : (s.eng e.val).fire = none) (hb : isBypass sh h.word = false)
  (hport : ¬ (tagPort h.tok.flit.tag = 1 ∧ nwSticky h.word = true)) (hr : h.tok.refill = none)
include hf hb hport hr

/-- A port that the entry has is a duplicate (R65). -/
theorem matchOutcome_dup {r : Found} (hk : findKey (s.eng e.val) h.set.toNat (tokKey h) [] = some r)
    (hdup : enPorts r.primary &&& portBit (tagPort h.tok.flit.tag) ≠ 0) : matchOutcome e h sh s = matchDup e h r s := by
  rw [tokKey] at hk
  simp only [matchOutcome, hf, hb, hport, hr, hk, Option.getD_none, List.isEmpty_nil, Option.isSome_none, Bool.false_eq_true,
    if_false, if_true, if_pos hdup]

/-- The last matching port completes the entry (R62). -/
theorem matchOutcome_hit {r : Found} (hk : findKey (s.eng e.val) h.set.toNat (tokKey h) [] = some r)
    (hnew : enPorts r.primary &&& portBit (tagPort h.tok.flit.tag) = 0)
    (hall : (enPorts r.primary ||| portBit (tagPort h.tok.flit.tag)) &&& matchPorts sh h.word = matchPorts sh h.word) :
    matchOutcome e h sh s = some (matchHit e h (tokKey h) (some r) s) := by
  rw [tokKey] at hk ⊢
  simp only [matchOutcome, hf, hb, hport, hr, hk, hnew, hall, Option.getD_none, List.isEmpty_nil, Option.isSome_none,
    Bool.false_eq_true, if_false, if_true, ne_eq, not_true_eq_false]

/-- A token that finds nothing of its key, spilled entries included, misses while a port is missing (R62). -/
theorem matchOutcome_miss (hk : findKey (s.eng e.val) h.set.toNat (tokKey h) [] = none)
    (hmore : portBit (tagPort h.tok.flit.tag) &&& matchPorts sh h.word ≠ matchPorts sh h.word)
    (hsp : spillCount (s.eng e.val) h.set = 0) : matchOutcome e h sh s = matchMiss e h (tokKey h) s := by
  have hand (p : BitVec 3) : (0 : BitVec 3) &&& p = 0 := BitVec.zero_and
  have hor (p : BitVec 3) : (0 : BitVec 3) ||| p = p := BitVec.zero_or
  rw [tokKey] at hk ⊢
  simp only [matchOutcome, hf, hb, hport, hr, hk, hsp, Option.getD_none, List.isEmpty_nil, Option.isSome_none, Bool.false_eq_true,
    if_false, if_true, hand, hor, hmore, ne_eq, not_true_eq_false, false_and]

end
end

/-! ## New entries (R62, R66) -/

/-- An entry finds its way without a victim while the set has room for it. -/
theorem placeNew_room {set : BitVec 10} {news : List Entry} {x : Engine} (h : news.length ≤ (freeWays x set.toNat).length)
    (own : Option Nat) (rank : Rank) (prot : Bool) (fuel : Nat) (sp : List SpillUnit) :
    placeNew set news own rank prot (fuel + 1) x sp = .placed (writeNew x set.toNat news) sp := by
  simp only [placeNew, h, if_true]

theorem cleanWays_onlyMarks (e set : Nat) : ∀ (ws : List Nat) (s : State), OnlyMarks s (ws.foldl (fun s w => cleanWay e set w s) s)
  | [], _ => rfl
  | w :: ws, s => by
    rw [List.foldl_cons, OnlyMarks, cleanWays_onlyMarks e set ws]
    rfl

/-- An entry that finds room is written, its check bits clean, and the occupancy is looked at. -/
theorem storeNew_room {e : EngNo} {set : BitVec 10} {news : List Entry} {s : State}
    (h : news.length ≤ (freeWays (s.eng e.val) set.toNat).length) (hl : spillLevel (s.eng e.val) ≤ 8) (own : Option Nat) (rank : Rank)
    (prot : Bool) (refusedBy : State → State) :
    ∃ u, OnlyMarks s u ∧ storeNew e set news own rank prot refusedBy s =
      some (seeTotal e.val (msTotal (s.eng e.val)) (u.setEng e.val (writeNew (s.eng e.val) set.toNat news))) := by
  have hlevel : ¬ 8 < spillLevel (s.eng e.val) + (([] : List SpillUnit).map (fun u => u.entries.length)).sum := by
    simp only [List.map_nil, List.sum_nil]
    omega
  refine ⟨_, cleanWays_onlyMarks e.val set.toNat (ways.filter (fun w =>
    wayAt (s.eng e.val) set.toNat w != wayAt (writeNew (s.eng e.val) set.toNat news) set.toNat w)) s, ?_⟩
  simp only [storeNew, placeNew_room h, if_neg hlevel]
  rfl

/-- A set without a valid way offers all four. -/
theorem freeWays_empty {x : Engine} {set : Nat} (h : ∀ w, w < 4 → enV (wayAt x set w) = false) : freeWays x set = ways :=
  List.filter_eq_self.mpr fun w hw => by simp [h w (mem_ways.mp hw)]

/-- The only valid way of a set has AGE 0 once it is renumbered (R62). -/
theorem wayAt_renumber_alone {x : Engine} {set : Nat} (h : validWays x set = [0]) :
    wayAt (renumber x set (some 0)) set 0 = put (wayAt x set 0) 117 (0 : BitVec 2) := by
  rw [wayAt_renumber, h]
  simp [younger]

theorem validWays_setWay_empty {x : Engine} {set : Nat} {n : Entry} (h : ∀ w, w < 4 → enV (wayAt x set w) = false)
    (hn : enV n = true) : validWays (setWay x set 0 n) set = [0] := by
  have h1 := wayAt_setWay_ne x set 0 n (v := 1) (by decide)
  have h2 := wayAt_setWay_ne x set 0 n (v := 2) (by decide)
  have h3 := wayAt_setWay_ne x set 0 n (v := 3) (by decide)
  simp [validWays, ways, h1, h2, h3, h, hn]

section
variable (type : BitVec 2) (ports : BitVec 3) (pri : BitVec 2) (epoch dport : Bool) (key : BitVec 40) (data : Word)

theorem getLsbD_mkEntry (i : Nat) : (mkEntry type ports pri epoch dport key data).getLsbD i =
    ((1 : BitVec 1) ++ type ++ ports ++ pri ++ BitVec.ofBool epoch ++ (0 : BitVec 2) ++ BitVec.ofBool dport ++
      (0 : BitVec 12) ++ key ++ data : BitVec (1 + 2 + 3 + 2 + 1 + 2 + 1 + 12 + 40 + 64)).getLsbD i := rfl

theorem enV_mkEntry : enV (mkEntry type ports pri epoch dport key data) = true := by
  rw [enV, bit, getLsbD_mkEntry]
  simp only [BitVec.getLsbD_append]
  rfl

/-- A new entry has AGE 0. -/
theorem put_age_mkEntry :
    put (mkEntry type ports pri epoch dport key data) 117 (0 : BitVec 2) = mkEntry type ports pri epoch dport key data := by
  apply BitVec.eq_of_getLsbD_eq
  intro i hi
  rw [getLsbD_put]
  split
  · next h =>
    have : i = 117 ∨ i = 118 := by omega
    rw [getLsbD_mkEntry]
    simp only [BitVec.getLsbD_append]
    obtain rfl | rfl := this <;> rfl
  · rfl

end

/-- The first entry of a set goes to way 0 (R66). -/
theorem writeNew_empty {x : Engine} {set : Nat} (h : ∀ w, w < 4 → enV (wayAt x set w) = false) (n : Entry) :
    writeNew x set [n] = renumber (setWay x set 0 n) set (some 0) := by
  simp [writeNew, freeWays_empty h, ways]

/-- No other set changes as an entry is written to one. -/
theorem ms_renumber_out (x : Engine) (set : Nat) (fresh : Option Nat) {i : Nat} (h : i / 4 ≠ set) :
    SMap.get (renumber x set fresh).ms i 0 = SMap.get x.ms i 0 := by
  have hfold (g : Nat → Entry) : ∀ (ws : List Nat) (y : Engine), (∀ w, w ∈ ws → w < 4) →
      SMap.get (ws.foldl (fun y w => setWay y set w (g w)) y).ms i 0 = SMap.get y.ms i 0 := by
    intro ws
    induction ws with
    | nil => intro y _; rfl
    | cons w ws ih =>
      intro y hw
      have := hw w List.mem_cons_self
      rw [List.foldl_cons, ih _ fun v hv => hw v (List.mem_cons_of_mem _ hv)]
      exact SMap.get_set_ne _ (by omega) ..
  exact hfold _ _ _ fun w hw => (mem_validWays.mp hw).1

/-- The first entry of a set is stored in way 0 with AGE 0; no other set changes, and nothing fires (R62, R66). -/
theorem storeNew_empty {e : EngNo} {set : BitVec 10} {n : Entry} {s : State}
    (h : ∀ w, w < 4 → enV (wayAt (s.eng e.val) set.toNat w) = false) (hl : spillLevel (s.eng e.val) ≤ 8) (hn : enV n = true)
    (own : Option Nat) (rank : Rank) (prot : Bool) (refusedBy : State → State) :
    ∃ t, storeNew e set [n] own rank prot refusedBy s = some t ∧ KeepsOthers e.val s t ∧
      (t.eng e.val).fire = (s.eng e.val).fire ∧ wayAt (t.eng e.val) set.toNat 0 = put n 117 (0 : BitVec 2) ∧
      ∀ i, i / 4 ≠ set.toNat → SMap.get (t.eng e.val).ms i 0 = SMap.get (s.eng e.val).ms i 0 := by
  obtain ⟨u, hu, hstore⟩ := storeNew_room (news := [n]) (by rw [freeWays_empty h]; exact Nat.le_of_ble_eq_true rfl) hl own rank prot
    refusedBy
  rw [writeNew_empty h] at hstore
  have hms : OnlyMs (s.eng e.val) (renumber (setWay (s.eng e.val) set.toNat 0 n) set.toNat (some 0)) :=
    (OnlyMs.setWay ..).trans (.renumber ..)
  have hway := wayAt_renumber_alone (validWays_setWay_empty (n := n) h hn)
  rw [wayAt_setWay_same] at hway
  have hout (i : Nat) (hi : i / 4 ≠ set.toNat) := (ms_renumber_out (setWay (s.eng e.val) set.toNat 0 n) set.toNat (some 0) hi).trans
    (SMap.get_set_ne (s.eng e.val).ms (show i ≠ 4 * set.toNat + 0 by omega) n 0 0)
  generalize renumber (setWay (s.eng e.val) set.toNat 0 n) set.toNat (some 0) = y at *
  obtain ⟨o, ho⟩ := eng_seeTotal e.val (msTotal (s.eng e.val)) (u.setEng e.val y)
  rw [State.eng_setEng_same] at ho
  refine ⟨_, hstore, .after (.seeTotal ..) (.after (.setEng ..) (.of_marks hu _)), ?_, ?_, ?_⟩
  · rw [ho, hms]
  · rw [ho]
    exact hway
  · rw [ho]
    exact hout

/-- A port that is not all the matching ports leaves one missing (R57). -/
theorem port_misses {sh : Shape} {w : Word} {port : BitVec 2} (hp : port = 0 ∨ port = 1) (h : portBit port ≠ matchPorts sh w) :
    portBit port &&& matchPorts sh w ≠ matchPorts sh w := by
  unfold matchPorts at *
  generalize (sh != .l && !nwConst w && !nwSticky w) = b at *
  generalize nwTrig w = c at *
  obtain rfl | rfl := hp <;> revert h <;> cases b <;> cases c <;> decide

section
variable {s : State} {e : EngNo} {h : HashTok} {sh : Shape}

/-- A bypass token fires with its own data, the constant beside it, its own key and its priority, and the matching store is as
it was (R64). -/
theorem matchToken_bypass (hh : (s.eng e.val).hash = some h) (hs : nodeShape s e.val (nwOpc h.word).toNat = some sh)
    (hb : isBypass sh h.word = true) (hf : (s.eng e.val).fire = none) :
    ∃ t g, exec (.matchToken e .clean) s = .next t ∧ t.eng e.val = { s.eng e.val with hash := none, fire := some g } ∧
      FireOf h h.tok.flit.data (if nwConst h.word then h.comp else 0) (tagIter h.tok.flit.tag) h.tok.flit.pri
        (fireSet (e.val / 17) [h.tok.flit.epoch] s).1 g ∧ KeepsOthers e.val s t := by
  have hview : matchView e h sh s = s := if_pos hb
  have hexec := matchToken_hashed hh hs
  rw [hview, matchOutcome_bypass hf hb, Option.elim_some] at hexec
  obtain ⟨g, heng, hg⟩ := makeFire_fires e h h.tok.flit.data (if nwConst h.word then h.comp else 0) (tagIter h.tok.flit.tag)
    h.tok.flit.pri [h.tok.flit.epoch] s
  refine ⟨_, g, hexec, ?_, hg, .after (.hashDone ..) (makeFire_keepsOthers ..)⟩
  rw [eng_hashDone, matchBypass, heng]

/-- A token of a node that is no bypass node, in an empty set with nothing spilled, becomes an operand entry in way 0
(R62). -/
theorem matchToken_miss (hh : (s.eng e.val).hash = some h) (hs : nodeShape s e.val (nwOpc h.word).toNat = some sh)
    (hempty : ∀ w, w < 4 → enV (wayAt (s.eng e.val) h.set.toNat w) = false) (hovf : (s.eng e.val).p3ovf = [])
    (hr : h.tok.refill = none) (hl : spillLevel (s.eng e.val) ≤ 8) (hb : isBypass sh h.word = false)
    (hf : (s.eng e.val).fire = none) (hsp : spillCount (s.eng e.val) h.set = 0)
    (hmore : portBit (tagPort h.tok.flit.tag) ≠ matchPorts sh h.word)
    (hport : tagPort h.tok.flit.tag = 0 ∨ (tagPort h.tok.flit.tag = 1 ∧ nwSticky h.word = false)) :
    ∃ t, exec (.matchToken e .clean) s = .next t ∧ (t.eng e.val).hash = none ∧ (t.eng e.val).fire = none ∧
      wayAt (t.eng e.val) h.set.toNat 0 = mkEntry 0 (portBit (tagPort h.tok.flit.tag)) h.tok.flit.pri h.tok.flit.epoch
        (tagPort h.tok.flit.tag == 1) (tokKey h) h.tok.flit.data ∧
      (∀ i, i / 4 ≠ h.set.toNat → SMap.get (t.eng e.val).ms i 0 = SMap.get (s.eng e.val).ms i 0) ∧ KeepsOthers e.val s t := by
  have hmarks : OnlyMarks s (matchView e h sh s) := matchView_onlyMarks fun w hw hv => by simp [hempty w hw] at hv
  have hexec := matchToken_hashed hh hs
  generalize matchView e h sh s = u at hmarks hexec
  have hu : u.eng e.val = s.eng e.val := hmarks.get (·.eng e.val)
  have hnokey : findKey (u.eng e.val) h.set.toNat (tokKey h) [] = none := by
    rw [hu]
    exact findKey_none (fun w hw => not_holdsKey_of_invalid (hempty w hw) _) fun n hn => by simp [hovf] at hn
  have hdata : isData h.tok.flit = true := by
    obtain hp | ⟨hp, -⟩ := hport <;> rw [isData, hp] <;> rfl
  have hnosticky : ¬ (tagPort h.tok.flit.tag = 1 ∧ nwSticky h.word = true) := by
    obtain hp | ⟨-, hst⟩ := hport
    · simp [hp]
    · simp [hst]
  have hmiss := matchOutcome_miss (by rw [hu, hf]) hb hnosticky hr hnokey (port_misses (hport.imp_right And.left) hmore)
    (by rw [hu, hsp])
  have hv : (freshKey e.val (tokKey h) u).eng e.val = { s.eng e.val with mixed := (s.eng e.val).mixed.filter (· != tokKey h) } := by
    rw [freshKey, State.eng_modEng_same, hu]
  obtain ⟨t, hstore, hkeep, hfire, hway, hout⟩ := storeNew_empty (e := e) (set := h.set) (s := freshKey e.val (tokKey h) u)
    (by rw [hv]; exact hempty) (by rw [hv]; exact hl) (enV_mkEntry 0 (portBit (tagPort h.tok.flit.tag)) h.tok.flit.pri
      h.tok.flit.epoch (tagPort h.tok.flit.tag == 1) (tokKey h) h.tok.flit.data) none { pri := h.tok.flit.pri.toNat, age := 0 }
    (h.tok.flit.pri == 3) (p3Refused e h.tok.flit h.set.toNat)
  rw [hv] at hfire hout
  rw [hmiss, matchMiss] at hexec
  simp only [hdata, if_true, hstore, Option.elim_some] at hexec
  refine ⟨_, hexec, by rw [eng_hashDone], ?_, ?_, ?_, ?_⟩
  · rw [eng_hashDone]
    exact hfire.trans hf
  · rw [eng_hashDone]
    exact hway.trans (put_age_mkEntry ..)
  · rw [eng_hashDone]
    exact hout
  · exact .after (.hashDone ..) (hkeep.after (.after (.modEng ..) (.of_marks hmarks _)))

end

/-- Settles O20: a bypass token fires, a miss in an empty set becomes an entry, and a fire that waits holds the token. -/
theorem matchMissAndBypass : Obligations.MatchMissAndBypass := by
  intro s e h sh x f key hh hs hempty hovf hr hl
  refine ⟨fun hb hf => ?_, fun hb hf hsp hmore hport => ?_, fun hf => ?_⟩
  · obtain ⟨t, g, hexec, heng, hg, hkeep⟩ := matchToken_bypass hh hs hb hf
    exact ⟨t, g, hexec, by rw [heng], by rw [heng], by rw [heng], hg.l, hg.r, hg.ctx, hg.iter, hg.pri, hg.node, hg.word, hkeep.mem,
      hkeep.eng⟩
  · obtain ⟨t, hexec, hhash, hfire, hway, hms, hkeep⟩ := matchToken_miss hh hs hempty hovf hr hl hb hf hsp hmore hport
    exact ⟨t, hexec, hhash, hfire, hkeep.mem.1, hway, fun i _ => (em (i / 4 = h.set.toNat)).symm.imp_left (hms i), hkeep.eng⟩
  · have hmarks : OnlyMarks s (matchView e h sh s) := matchView_onlyMarks fun w hw hv =>
      (Bool.false_ne_true ((hempty w hw).symm.trans hv)).elim
    have hexec := matchToken_hashed hh hs
    generalize matchView e h sh s = u at hmarks hexec
    have hu : u.eng e.val = s.eng e.val := hmarks.get (·.eng e.val)
    rw [matchOutcome_held (by rw [hu]; exact hf), Option.elim_none] at hexec
    have hkeep := KeepsOthers.of_marks hmarks e.val
    exact ⟨u, hexec, hu, hmarks.get (·.regs), hkeep.mem, hkeep.eng⟩

/-! ## The last matching port (R62, R73) -/

/-- ITER of a token's key is the token's, but for a node with a sticky right port (R58). -/
theorem bits_tokKey_iter {h : HashTok} (hst : nwSticky h.word = false) : bits (tokKey h) 0 12 = tagIter h.tok.flit.tag := by
  simp only [tokKey, keyOf, hst, Bool.false_eq_true, if_false, bits]
  exact BitVec.extractLsb'_append_eq_right ..

/-- An entry with one data port holds the word of that port. -/
theorem dataOf_own {n : Entry} {port : Bool} (hd : hasData n = true) (hp : enDport n = port) : dataOf n none port = some (enData n) := by
  simp [dataOf, hd, hp]

/-- The EPOCHs that a fire brings together: its token's, a differing one if a token of the key before had it, and the
entry's (R33). -/
def hitEpochs (x : Engine) (h : HashTok) (key : BitVec 40) (n : Entry) : List Bool :=
  h.tok.flit.epoch :: ((if x.mixed.contains key then [!h.tok.flit.epoch] else []) ++ [enEpoch n])

theorem hitEpochs_mixed {x : Engine} {h : HashTok} {key : BitVec 40} {n : Entry}
    (hm : x.mixed.contains key = true ∨ enEpoch n ≠ h.tok.flit.epoch) :
    ((if x.mixed.contains key then [!h.tok.flit.epoch] else []) ++ [enEpoch n]).any (· != h.tok.flit.epoch) = true := by
  obtain hm | hm := hm
  · simp only [hm, if_true]
    cases h.tok.flit.epoch <;> rfl
  · simp [hm]

section
variable {s : State} {e : EngNo} {h : HashTok} {n : Entry} {r : Found}

/-- A node of shape L R with no constant, sticky or trigger port fires with the token's word on its side and the stored one
on the other; the key's entries are dropped. -/
theorem matchHit_pair (key : BitVec 40) (hs : nodeShape s e.val (nwOpc h.word).toNat = some .lr) (hc : nwConst h.word = false)
    (hst : nwSticky h.word = false) (hn : r.primary = n) (hcomp : r.companion = none)
    (hp : tagPort h.tok.flit.tag = 0 ∧ dataOf n none true = some (enData n) ∨
      tagPort h.tok.flit.tag = 1 ∧ dataOf n none false = some (enData n)) :
    matchHit e h key (some r) s = seeTotal e.val (msTotal (s.eng e.val))
      (makeFire e h (if tagPort h.tok.flit.tag = 0 then h.tok.flit.data else enData n)
        (if tagPort h.tok.flit.tag = 0 then enData n else h.tok.flit.data) (bits key 0 12)
        (maxPri h.tok.flit.pri (enPri n)) (hitEpochs (s.eng e.val) h key n)
        (s.modEng e.val (fun x => dropKey x h.set.toNat key))) := by
  unfold matchHit
  obtain ⟨hp, hd⟩ | ⟨hp, hd⟩ := hp
  · have hdata : isData h.tok.flit = true := by rw [isData, hp]; rfl
    have hport : (tagPort h.tok.flit.tag == 1) = false := by rw [hp]; rfl
    simp [hs, hc, hst, hn, hcomp, hp, hd, hdata, hitEpochs]
  · have hdata : isData h.tok.flit = true := by rw [isData, hp]; rfl
    simp [hs, hc, hst, hn, hcomp, hp, hd, hdata, hitEpochs]

end

/-- The token of HASH fires, and the entries of its key leave the store. -/
theorem hashDone_fire_dropKey (e : EngNo) (h : HashTok) (l r : Word) (iter : BitVec 12) (pri : BitVec 2) (eps : List Bool)
    (key : BitVec 40) (before : Nat) (s : State) :
    ∃ t g o, hashDone e.val (seeTotal e.val before (makeFire e h l r iter pri eps
        (s.modEng e.val (fun x => dropKey x h.set.toNat key)))) = t ∧
      t.eng e.val = { dropKey (s.eng e.val) h.set.toNat key with hash := none, fire := some g, order := o } ∧
      FireOf h l r iter pri (fireSet (e.val / 17) eps (s.modEng e.val (fun x => dropKey x h.set.toNat key))).1 g ∧
      KeepsOthers e.val s t := by
  have hdrop : (s.modEng e.val (fun x => dropKey x h.set.toNat key)).eng e.val = dropKey (s.eng e.val) h.set.toNat key :=
    State.eng_modEng_same ..
  have hkeep : KeepsOthers e.val s (s.modEng e.val (fun x => dropKey x h.set.toNat key)) := .modEng ..
  generalize s.modEng e.val (fun x => dropKey x h.set.toNat key) = u at hdrop hkeep ⊢
  obtain ⟨g, heng, hg⟩ := makeFire_fires e h l r iter pri eps u
  obtain ⟨o, ho⟩ := eng_seeTotal e.val before (makeFire e h l r iter pri eps u)
  refine ⟨_, g, o, rfl, ?_, hg, .after (.hashDone ..) (.after (.seeTotal ..) (hkeep.trans (makeFire_keepsOthers ..)))⟩
  rw [eng_hashDone, ho, heng, hdrop]

/-- The other of the two data ports has arrived before the token's (R61, R62). -/
def OtherPortStored (n : Entry) (port : BitVec 2) : Prop :=
  port = 0 ∧ enPorts n = 2 ∧ enDport n = true ∨ port = 1 ∧ enPorts n = 4 ∧ enDport n = false

theorem OtherPortStored.completes {n : Entry} {port : BitVec 2} (h : OtherPortStored n port) :
    enPorts n &&& portBit port = 0 ∧ enPorts n ||| portBit port = 6 := by
  obtain ⟨hp, hn, -⟩ | ⟨hp, hn, -⟩ := h <;> rw [hp, hn] <;> exact ⟨rfl, rfl⟩

theorem OtherPortStored.word {n : Entry} {port : BitVec 2} (h : OtherPortStored n port) :
    port = 0 ∧ dataOf n none true = some (enData n) ∨ port = 1 ∧ dataOf n none false = some (enData n) := by
  have hdata {p : BitVec 3} (hn : enPorts n = p) (hp : (bit p 2 || bit p 1) = true) : hasData n = true := by rw [hasData, hn, hp]
  obtain ⟨hp, hn, hd⟩ | ⟨hp, hn, hd⟩ := h
  · exact .inl ⟨hp, dataOf_own (hdata hn rfl) hd⟩
  · exact .inr ⟨hp, dataOf_own (hdata hn rfl) hd⟩

section
variable {s : State} {e : EngNo} {h : HashTok} {n : Entry} {w : Option Nat}

/-- An entry with one data port, of the side the token is not for, is completed by the token (R62). -/
theorem matchToken_pair (hh : (s.eng e.val).hash = some h) (hs : nodeShape s e.val (nwOpc h.word).toNat = some .lr)
    (hc : nwConst h.word = false) (hst : nwSticky h.word = false) (ht : nwTrig h.word = false) (hf : (s.eng e.val).fire = none)
    (hr : h.tok.refill = none) (hm : ∀ k, k < 4 → wayMark s e.val h.set.toNat k = .clean)
    (hk : findKey (s.eng e.val) h.set.toNat (tokKey h) [] =
      some { primary := n, companion := none, way := w, inOvf := false, returned := false })
    (hp : OtherPortStored n (tagPort h.tok.flit.tag)) :
    ∃ t g o m, exec (.matchToken e .clean) s = .next t ∧
      t.eng e.val = { dropKey (s.eng e.val) h.set.toNat (tokKey h) with hash := none, fire := some g, order := o } ∧
      FireOf h (if tagPort h.tok.flit.tag = 0 then h.tok.flit.data else enData n)
        (if tagPort h.tok.flit.tag = 0 then enData n else h.tok.flit.data) (tagIter h.tok.flit.tag)
        (maxPri h.tok.flit.pri (enPri n)) m g ∧ KeepsOthers e.val s t ∧
      ((s.eng e.val).mixed.contains (tokKey h) = true ∨ enEpoch n ≠ h.tok.flit.epoch → m = (s.plot (e.val / 17)).epoch) := by
  have hmarks : OnlyMarks s (matchView e h .lr s) := matchView_onlyMarks fun w hw _ => hm w hw
  have hexec := matchToken_hashed hh hs
  generalize matchView e h .lr s = u at hmarks hexec
  have hu : u.eng e.val = s.eng e.val := hmarks.get (·.eng e.val)
  have hsu : nodeShape u e.val (nwOpc h.word).toNat = some .lr := (hmarks.get (nodeShape · e.val (nwOpc h.word).toNat)).trans hs
  have hbyp : isBypass .lr h.word = false := by simp [isBypass, hc, hst]
  have hports : matchPorts .lr h.word = 6 := by
    rw [matchPorts, hc, hst, ht]
    rfl
  have hnosticky : ¬ (tagPort h.tok.flit.tag = 1 ∧ nwSticky h.word = true) := by simp [hst]
  obtain ⟨hnew, hall⟩ := hp.completes
  have hall6 : (enPorts n ||| portBit (tagPort h.tok.flit.tag)) &&& matchPorts .lr h.word = matchPorts .lr h.word := by
    rw [hports, hall]
    rfl
  rw [← hu] at hf hk
  have hhit := matchOutcome_hit hf hbyp hnosticky hr hk hnew hall6
  have hpair := matchHit_pair (r := { primary := n, companion := none, way := w, inOvf := false, returned := false }) (tokKey h) hsu hc
    hst rfl rfl hp.word
  rw [bits_tokKey_iter hst] at hpair
  rw [hpair] at hhit
  rw [hhit, Option.elim_some] at hexec
  obtain ⟨t, g, o, ht, heng, hg, hkeep⟩ := hashDone_fire_dropKey e h (if tagPort h.tok.flit.tag = 0 then h.tok.flit.data else enData n)
    (if tagPort h.tok.flit.tag = 0 then enData n else h.tok.flit.data) (tagIter h.tok.flit.tag)
    (maxPri h.tok.flit.pri (enPri n)) (hitEpochs (u.eng e.val) h (tokKey h) n) (tokKey h) (msTotal (u.eng e.val)) u
  rw [ht] at hexec
  rw [hu] at heng hg
  refine ⟨t, g, o, _, hexec, heng, hg, (KeepsOthers.of_marks hmarks _).trans hkeep, fun hmix => ?_⟩
  rw [hitEpochs, fireSet_mixed (hitEpochs_mixed hmix), State.plot_modEng]
  exact hmarks.get fun s => (s.plot (e.val / 17)).epoch

/-- The duplicate is counted and flagged (R65). -/
def dupCounted (e : EngNo) (s : State) : State := (s.satInc (ereg e 0x40) 16 8).setFlag (ereg e 8) 10 true

theorem dupCounted_onlyRegs (e : EngNo) (s : State) : OnlyRegs [ereg e.val 0x40, ereg e.val 8] s (dupCounted e s) :=
  (OnlyRegs.satInc ..).trans (.setFlag ..)

theorem dupCounted_cnt (e : EngNo) (s : State) :
    (dupCounted e s).fld (ereg e.val 0x40) 16 8 = min 255 (s.fld (ereg e.val 0x40) 16 8 + 1) := by
  have hne : ereg e.val 0x40 ≠ ereg e.val 8 := fun h => absurd (ereg_offset_inj h) (by decide)
  rw [dupCounted, State.fld_congr (State.rd_setFlag_ne _ hne ..)]
  exact State.fld_satInc_same _ _ _ _ (by decide)

theorem dupCounted_flag (e : EngNo) (s : State) : (dupCounted e s).flag (ereg e.val 8) 10 = true :=
  State.flag_setFlag_same _ _ _ _ (by decide)

/-- A duplicate is counted, flagged and recorded (R65). -/
theorem matchDup_set {r : Found} (hr : r.returned = false) :
    matchDup e h r s = some (detect (tokenDetect 0x09 e h.tok.flit (msLocus h.set.toNat (r.way.getD 0))) (dupCounted e s)) := by
  rw [matchDup, hr]
  rfl

/-- A token that is a duplicate of an entry in the set or the overflow buffer is discarded (R65). -/
theorem matchToken_dup {sh : Shape} {r : Found} (hh : (s.eng e.val).hash = some h)
    (hs : nodeShape s e.val (nwOpc h.word).toNat = some sh) (hb : isBypass sh h.word = false) (hf : (s.eng e.val).fire = none)
    (hport : ¬ (tagPort h.tok.flit.tag = 1 ∧ nwSticky h.word = true))
    (hm : ∀ k, k < 4 → wayMark s e.val h.set.toNat k = .clean) (hr : h.tok.refill = none)
    (hk : findKey (s.eng e.val) h.set.toNat (tokKey h) [] = some r) (hret : r.returned = false)
    (hdup : enPorts r.primary &&& portBit (tagPort h.tok.flit.tag) ≠ 0) :
    ∃ u, OnlyMarks s u ∧ exec (.matchToken e .clean) s =
      .next (hashDone e.val (detect (tokenDetect 0x09 e h.tok.flit (msLocus h.set.toNat (r.way.getD 0))) (dupCounted e u))) := by
  have hmarks : OnlyMarks s (matchView e h sh s) := matchView_onlyMarks fun w hw _ => hm w hw
  have hexec := matchToken_hashed hh hs
  generalize matchView e h sh s = u at hmarks hexec
  have hu : u.eng e.val = s.eng e.val := hmarks.get (·.eng e.val)
  rw [matchOutcome_dup (hu ▸ hf) hb hport hr (hu ▸ hk) hdup, matchDup_set hret, Option.elim_some] at hexec
  exact ⟨u, hmarks, hexec⟩

end

/-- Settles O21: the last matching port fires the node, and a duplicate is discarded. -/
theorem matchHitsAndDuplicates : Obligations.MatchHitsAndDuplicates := by
  constructor
  · intro s e h n w x f key set hh hs hc hst ht hf hr hm hk hp
    obtain ⟨t, g, o, m, hexec, heng, hg, hkeep, hmix⟩ := matchToken_pair hh hs hc hst ht hf hr hm hk hp
    have hgone : findKey (t.eng e.val) set key [] = none := by
      rw [heng]
      exact (findKey_congr rfl rfl ..).trans (findKey_dropKey ..)
    exact ⟨t, g, hexec, by rw [heng], by rw [heng], hg.l, hg.r, hg.ctx, hg.iter, hg.node, hg.word, hg.pri, hgone, hkeep.mem.1,
      fun h => hg.mset.trans (hmix h), hkeep.eng⟩
  · intro s e h sh r x f key set hh hs hb hf hport hm hr hk hret hdup
    obtain ⟨u, hmarks, hexec⟩ := matchToken_dup hh hs hb hf hport hm hr hk hret hdup
    have hcode : (tokenDetect 0x09 e f (msLocus set (r.way.getD 0))).code ≠ 0x4E := (by decide : (0x09 : BitVec 8) ≠ 0x4E)
    have hcount := dupCounted_onlyRegs e u
    have hrec := KeepsOthers.detect e.val (tokenDetect 0x09 e f (msLocus set (r.way.getD 0))) (dupCounted e u)
    have hkeep := (((KeepsOthers.of_marks hmarks e.val).trans (.of_regs hcount _)).trans hrec).trans (.hashDone ..)
    have heng : (dupCounted e u).eng e.val = x := (hcount.get (·.eng e.val)).trans (hmarks.get (·.eng e.val))
    refine ⟨_, hexec, ?_, ?_, ?_, hkeep.mem.1, hkeep.mem.2.1, hkeep.eng, ?_⟩
    · rw [eng_hashDone, eng_detect, heng]
    · refine (State.fld_congr (rd_detect_ereg hcode e (by decide) _) ..).trans ((dupCounted_cnt e u).trans ?_)
      rw [hmarks.get (·.fld (ereg e.val 0x40) 16 8)]
    · exact (State.flag_congr (rd_detect_ereg hcode e (by decide) _) _).trans (dupCounted_flag e u)
    · intro d hfree
      have hreact := reactOf_congr ((hcount.get (·.sieve)).trans (hmarks.get (·.sieve)))
        (fun o => (hcount.2 _ (by simp [sieve_ne_ereg])).trans (hmarks.get (·.rd (breg .sieve o)))) d.code.toNat
      exact detect_opens_after hfree ((hcount.get (·.sieve)).trans (hmarks.get (·.sieve))) hreact
        ((hcount.get (·.opState)).trans (hmarks.get (·.opState))) ((hcount.get (·.time)).trans (hmarks.get (·.time)))

end Sys2Proof.Machine
end

section
/-! PROOFS. The engine registers with writes of their own and the debug path to the matching store (R81 to R84): O25. -/

namespace Sys2Proof.Machine

/-! ## The notice link (R307) -/

/-- A notice joins those of its plot, and nothing else changes. -/
theorem notify_frame (p : Nat) (n : Notice) (s : State) : notify p n s = { s with plots := (notify p n s).plots } ∧
    (notify p n s).regs = s.regs ∧ (∀ k, k ≠ p → (notify p n s).plot k = s.plot k) ∧
    ((notify p n s).plot p).notices = (s.plot p).notices ++ [n] := by
  refine ⟨rfl, rfl, fun k hk => State.plot_modPlot_ne _ hk _, ?_⟩
  rw [notify, State.plot_modPlot_same]

/-- ENG_CTRL takes its bits, and a change of STR_HALT sends one HALT notice (R81). -/
structure CtrlTaken (e : EngNo) (new : Reg32) (s t : State) : Prop where
  reg : t.rd (ereg e.val 4) = new
  regs : RegsBut [ereg e.val 4] s t
  rest : t = { s with regs := t.regs, plots := t.plots }
  plots : ∀ k, k ≠ e.val / 17 → t.plot k = s.plot k
  notices : (t.plot (e.val / 17)).notices = (s.plot (e.val / 17)).notices ++
    (if bit new 1 = s.flag (ereg e.val 4) 1 then [] else (logicalOf s e.val).toList.map (fun l => .halt l (bit new 1)))

theorem setEngCtrl_taken (e : EngNo) (new : Reg32) (s : State) : CtrlTaken e new s (setEngCtrl e new s) := by
  have hw : OnlyRegs [ereg e.val 4] s (s.wr (ereg e.val 4) new) := .wr ..
  have hrd : (s.wr (ereg e.val 4) new).rd (ereg e.val 4) = new := State.rd_wr_same ..
  have hl : logicalOf (s.wr (ereg e.val 4) new) e = logicalOf s e.val :=
    logicalOf_congr (State.rd_wr_ne _ (ereg_ne_preg (by decide) (by decide)).symm _)
  unfold setEngCtrl
  dsimp only
  rw [hl]
  generalize s.wr (ereg e.val 4) new = u at hw hrd ⊢
  obtain ⟨hu, hregs⟩ := hw
  have hplots : u.plots = s.plots := by rw [hu]
  have hplot (k : Nat) : u.plot k = s.plot k := by rw [State.plot, State.plot, hplots]
  have hsame : u = { s with regs := u.regs, plots := u.plots } := by
    rw [hplots]
    exact hu
  by_cases hb : bit new 1 = s.flag (ereg e.val 4) 1
  · rw [if_pos hb]
    exact ⟨hrd, hregs, hsame, fun k _ => hplot k, by rw [if_pos hb, hplot, List.append_nil]⟩
  · rw [if_neg hb]
    cases hlog : logicalOf s e.val with
    | none => exact ⟨hrd, hregs, hsame, fun k _ => hplot k, by rw [if_neg hb, hplot, hlog]; simp⟩
    | some l =>
      obtain ⟨hrest, hregs', hplots', hnew⟩ := notify_frame (e.val / 17) (.halt l (bit new 1)) u
      have hsame' : ∀ a, (notify (e.val / 17) (.halt l (bit new 1)) u).rd a = u.rd a := fun a => by rw [State.rd, State.rd, hregs']
      dsimp only
      generalize notify (e.val / 17) (.halt l (bit new 1)) u = t at *
      exact ⟨(hsame' _).trans hrd, fun a ha => (hsame' a).trans (hregs a ha), by rw [hrest, hu],
        fun k hk => (hplots' k hk).trans (hplot k), by rw [hnew, if_neg hb, hplot, hlog]; rfl⟩

/-! ## Register writes (R81, R83) -/

section
variable {s : State} {e : EngNo} {req : Requester} (hreach : reaches s req e.val = true) (hserved : unserved req s = false)
include hreach hserved

/-- A requester that reaches the slot writes ENG_CTRL; both halt bits stay 1 in BOOT (R81, R82). -/
theorem engCtrlWrite_served (hd : s.sieve.diverged = []) (v : Reg32) : exec (.engCtrlWrite req e v) s =
      .next (setEngCtrl e (if s.opState = .boot then (v &&& 7) ||| 3 else v &&& 7) s) := by
  have hexec : exec (.engCtrlWrite req e v) s = execEngCtrlWrite req e v s := rfl
  rw [hexec]
  simp [execEngCtrlWrite, hreach, hserved, hd]

theorem engArbWrite_weights {v : Reg32} (hv : bits v 0 8 ≠ 0) :
    exec (.engArbWrite req e v) s = .next (s.wr (ereg e.val 0x10) (v &&& 0x1FFF)) := by
  have hexec : exec (.engArbWrite req e v) s = execEngArbWrite req e v s := rfl
  rw [hexec]
  simp only [execEngArbWrite, hreach, hserved, hv, Bool.not_true, Bool.false_eq_true, if_false]

/-- Weights that are both 0 are reserved (R10, R81). -/
theorem engArbWrite_reserved {v : Reg32} (hv : bits v 0 8 = 0) :
    exec (.engArbWrite req e v) s = .next (s.setFld (ereg e.val 0x10) 8 5 (bits v 8 5).toNat).rsvd := by
  have hexec : exec (.engArbWrite req e v) s = execEngArbWrite req e v s := rfl
  rw [hexec]
  simp only [execEngArbWrite, hreach, hserved, hv, Bool.not_true, Bool.false_eq_true, if_false, if_true]

theorem engMatchCfgWrite_eq (v : Reg32) : exec (.engMatchCfgWrite req e v) s =
    if quiet s e.val = true ∧ msTotal (s.eng e.val) = 0 ∧ (s.eng e.val).p3ovf = [] ∧ (s.eng e.val).spillCnt = [] then
      .next (s.wr (ereg e.val 0x14) (v &&& 0x3FF))
    else .next (cfgDrop e.val s) := by
  have hexec : exec (.engMatchCfgWrite req e v) s = execEngMatchCfgWrite req e v s := rfl
  rw [hexec]
  simp only [execEngMatchCfgWrite, hreach, hserved, Bool.not_true, Bool.false_eq_true, if_false, List.isEmpty_iff]

/-! ## The matching-store window (R84) -/

theorem msDebugRead_served (off : BitVec 16) : exec (.msDebugRead req e off) s =
    .next (answer req ((bits (wayAt (s.eng e.val) (off.toNat / 64) (off.toNat / 16 % 4)) (32 * (off.toNat % 16 / 4)) 32).setWidth 64)
      (debugSee e (off.toNat / 64) (off.toNat / 16 % 4) s)) := by
  have hexec : exec (.msDebugRead req e off) s = execMsDebugRead req e off s := rfl
  have hat : 8 * (off.toNat % 16 / 4 * 4) = 32 * (off.toNat % 16 / 4) := by omega
  rw [hexec]
  simp only [execMsDebugRead, hreach, hserved, Bool.not_true, Bool.false_eq_true, if_false, entryWord, hat]

theorem msDebugWrite_busy (hq : quiet s e.val = false) (off : BitVec 16) (v : Reg32) :
    exec (.msDebugWrite req e off v) s = .next (cfgDrop e.val s) := by
  have hexec : exec (.msDebugWrite req e off v) s = execMsDebugWrite req e off v s := rfl
  rw [hexec]
  simp only [execMsDebugWrite, hreach, hserved, hq, Bool.not_true, Bool.not_false, Bool.false_eq_true, if_false, if_true]

end

/-- An answer goes to its requester and leaves the rest. -/
theorem answer_keeps (req : Requester) (v : Word) (s : State) : (answer req v s).engines = s.engines ∧
    (answer req v s).marks = s.marks ∧ SameMemories s (answer req v s) := ⟨rfl, rfl, rfl, rfl, rfl⟩

/-- An answer leaves the records. -/
theorem RecordOpened.answer {d : Detection} {s t : State} (h : RecordOpened d s t) (req : Requester) (v : Word) :
    RecordOpened d s (answer req v t) := h.of_same rfl rfl rfl rfl rfl

theorem debugSee_clean {e : EngNo} {set w : Nat} {s : State}
    (h : enV (wayAt (s.eng e.val) set w) = false ∨ wayMark s e set w = .clean) : debugSee e set w s = s := by
  unfold debugSee
  obtain h | h := h
  · simp [h]
  · cases hv : enV (wayAt (s.eng e.val) set w) <;> simp [h]

theorem debugSee_upset {e : EngNo} {set w : Nat} {s : State} (hv : enV (wayAt (s.eng e.val) set w) = true)
    (hm : wayMark s e set w ≠ .clean) :
    debugSee e set w s = detect (msDetect (if wayMark s e.val set w = .single then 0x01 else 0x02) e set w 0 s) s := by
  simp only [debugSee, hv, Bool.not_true, Bool.false_eq_true, if_false]
  cases h : wayMark s e.val set w with
  | clean => exact absurd h hm
  | single => rfl
  | double => rfl

/-- A field that is written back as it was is no change. -/
theorem put_bits_self {n : Nat} (v : BitVec n) (lo len : Nat) : put v lo (bits v lo len) = v := by
  apply BitVec.eq_of_getLsbD_eq
  intro i hi
  rw [getLsbD_put]
  split
  · next h =>
    have hlo : lo + (i - lo) = i := by omega
    rw [bits, BitVec.getLsbD_extractLsb', hlo, decide_eq_true (by omega), Bool.true_and]
  · rfl

/-- A word below the entry's top one takes a write without a change of the bits that are never written. -/
theorem put_lowWord {n : Entry} {i : Nat} (hi : i < 3) (v : Reg32) :
    put (put n (32 * i) v) 104 (bits n 104 12) = put n (32 * i) v := by
  rw [← bits_put_disjoint n (32 * i) v 104 12 (by omega), put_bits_self]

theorem enType_put_lowWord {n : Entry} {i : Nat} (hi : i < 3) (v : Reg32) : enType (put n (32 * i) v) = enType n :=
  bits_put_disjoint _ _ _ _ _ (by omega)

/-- An entry is written with clean check bits, and the occupancy is looked at (R84). -/
def writeWay (e : EngNo) (set w : Nat) (n : Entry) (s : State) : State :=
  seeTotal e (msTotal (s.eng e)) (cleanWay e set w (freshKey e (enKey n) (s.setEng e (setWay (s.eng e) set w n))))

theorem cleanWay_onlyMarks (e set w : Nat) (s : State) : OnlyMarks s (cleanWay e set w s) := rfl

theorem writeWay_keepsOthers (e : EngNo) (set w : Nat) (n : Entry) (s : State) : KeepsOthers e.val s (writeWay e set w n s) := by
  have hset := (KeepsOthers.setEng e.val (setWay (s.eng e) set w n) s).trans
    (.modEng e.val (fun x => { x with mixed := x.mixed.filter (· != enKey n) }) _)
  exact (hset.trans (.of_marks (cleanWay_onlyMarks e set w _) _)).trans (.seeTotal ..)

theorem wayAt_writeWay (e : EngNo) (set w : Nat) (n : Entry) (s : State) : wayAt ((writeWay e set w n s).eng e.val) set w = n := by
  have hclean (u : State) : (cleanWay e set w u).eng e.val = u.eng e.val := rfl
  obtain ⟨o, ho⟩ := eng_seeTotal e.val (msTotal (s.eng e))
    (cleanWay e set w (freshKey e (enKey n) (s.setEng e (setWay (s.eng e) set w n))))
  rw [hclean, freshKey, State.eng_modEng_same, State.eng_setEng_same] at ho
  rw [writeWay, freshKey, ho]
  exact wayAt_setWay_same ..

/-- A debug write of a word below the entry's top one writes that word (R84). -/
theorem msDebugWrite_quiet {s : State} {e : EngNo} {req : Requester} {off : BitVec 16} {v : Reg32}
    (hreach : reaches s req e.val = true) (hserved : unserved req s = false) (hq : quiet s e.val = true)
    (hlow : off.toNat % 16 / 4 < 3) (htype : enType (wayAt (s.eng e.val) (off.toNat / 64) (off.toNat / 16 % 4)) ≠ 3) :
    exec (.msDebugWrite req e off v) s = .next (writeWay e (off.toNat / 64) (off.toNat / 16 % 4)
      (put (wayAt (s.eng e.val) (off.toNat / 64) (off.toNat / 16 % 4)) (32 * (off.toNat % 16 / 4)) v) s) := by
  have hexec : exec (.msDebugWrite req e off v) s = execMsDebugWrite req e off v s := rfl
  have hat : 8 * (off.toNat % 16 / 4 * 4) = 32 * (off.toNat % 16 / 4) := by omega
  rw [hexec, writeWay]
  rw [← enType_put_lowWord hlow v] at htype
  simp only [execMsDebugWrite, hreach, hserved, hq, hat, put_lowWord hlow, if_neg htype, Bool.not_true, Bool.false_eq_true, if_false]

/-- Settles O25: the registers with writes of their own, and the debug path to the matching store. -/
theorem engineRegisterWrites : Obligations.EngineRegisterWrites := by
  intro s e req v hreach hserved x rsvd
  have hdrop : OnlyRegs [ereg e.val 8] s (cfgDrop e.val s) := .setFlag ..
  have hcfg := engMatchCfgWrite_eq hreach hserved v
  refine ⟨fun hd => ?_, fun hv => ?_, fun hv => ?_, fun hq hms hovf hsp => ?_, fun hbusy => ?_,
    fun off => ⟨fun hclean => ?_, fun hv hm => ?_⟩,
    fun off hq hlow htype => ⟨_, msDebugWrite_quiet hreach hserved hq hlow htype, (writeWay_keepsOthers ..).mem.1, wayAt_writeWay ..⟩⟩
  · obtain ⟨hreg, hregs, hrest, hplots, hnot⟩ := setEngCtrl_taken e (if s.opState = .boot then (v &&& 7) ||| 3 else v &&& 7) s
    exact ⟨_, engCtrlWrite_served hreach hserved hd v, hreg, hregs, hrest, hplots, hnot⟩
  · exact ⟨_, engArbWrite_weights hreach hserved hv, State.rd_wr_same .., .wr ..⟩
  · have hne : ereg e.val 0x10 ≠ breg .dev 0x10 := by
      simp only [ereg, slotBase, plotWin, breg, Blk.base]
      have := e.isLt
      omega
    refine ⟨_, engArbWrite_reserved hreach hserved hv, ?_, ?_, ?_, (OnlyRegs.setFld ..).trans (.satInc ..)⟩
    · rw [State.fld_congr (State.rd_rsvd_ne _ hne), State.fld_setFld_same _ _ _ _ _ (by decide), Nat.mod_eq_of_lt (bits v 8 5).isLt]
    · rw [State.fld_congr (State.rd_rsvd_ne _ hne), State.fld_setFld_disjoint _ _ _ _ _ _ _ (by decide)]
    · rw [State.rd_rsvd, State.setFld, State.rd_wr_ne _ hne.symm]
  · rw [if_pos ⟨hq, hms, hovf, hsp⟩] at hcfg
    exact ⟨_, hcfg, State.rd_wr_same .., .wr ..⟩
  · have hno : ¬ (quiet s e.val = true ∧ msTotal (s.eng e.val) = 0 ∧ (s.eng e.val).p3ovf = [] ∧ (s.eng e.val).spillCnt = []) := by
      rintro ⟨hq, hms, hovf, hsp⟩
      obtain h | h | h | h := hbusy
      · simp [hq] at h
      · exact h hms
      · exact h hovf
      · exact h hsp
    rw [if_neg hno] at hcfg
    exact ⟨_, hcfg, State.rd_wr_same .., hdrop, fun hq off => msDebugWrite_busy hreach hserved hq off v⟩
  · refine ⟨_, msDebugRead_served hreach hserved off, ?_, get_rdata_answer ..⟩
    rw [debugSee_clean hclean]
    rfl
  · refine ⟨_, msDebugRead_served hreach hserved off, ?_⟩
    rw [debugSee_upset hv hm]
    generalize msDetect (if wayMark s e.val (off.toNat / 64) (off.toNat / 16 % 4) = .single then 0x01 else 0x02) e (off.toNat / 64)
      (off.toNat / 16 % 4) 0 s = d
    obtain ⟨heng, hmarks, hmem⟩ := answer_keeps req
      ((bits (wayAt x (off.toNat / 64) (off.toNat / 16 % 4)) (32 * (off.toNat % 16 / 4)) 32).setWidth 64) (detect d s)
    exact ⟨heng.trans (detect_engines ..), hmarks.trans (detect_marks ..), (KeepsOthers.detect 0 d s).mem.trans hmem,
      get_rdata_answer .., fun hfree => (detect_opens hfree).answer req _⟩

end Sys2Proof.Machine
end

section
/-! PROOFS. Spill-down, spill placement, refill answers, sweeps and the return of a context (R68 to R72, R224, R232, R235):
O26. -/

namespace Sys2Proof.Machine

theorem OnlyEngine.setEng (s : State) (e : EngNo) (x : Engine) : OnlyEngine e s (s.setEng e.val x) :=
  ⟨rfl, fun _ hk => State.eng_setEng_ne s hk x⟩

theorem OnlyEngine.modEng (s : State) (e : EngNo) (g : Engine → Engine) : OnlyEngine e s (s.modEng e.val g) := .setEng ..

/-! ## SPILL_DOWN_SPILL (R224) -/

/-- An order ends at or below LO, and when HI is 0. -/
theorem spillDownSpill_ends {s : State} {e : EngNo} {o : SpillOrder} (ho : (s.eng e.val).order = some o)
    (hlow : msHi s e.val = 0 ∨ msTotal (s.eng e.val) ≤ min (s.fld (preg (e.val / 17) 0x108) 0 13) (msHi s e.val - 1)) :
    exec (.spillDownSpill e) s = .next (s.modEng e.val (fun x => { x with order := none })) := by
  have hexec : exec (.spillDownSpill e) s = execSpillDownSpill e s := rfl
  rw [hexec]
  simp only [execSpillDownSpill, ho, hlow, if_true]

/-! ## REFILL_ANSWER (R69, R71) -/

section
variable {s : State} {e : EngNo} {head body : Flit} {rest : List Flit} {m : Pending}

/-- The engine once a lookup's answer has come: the answer and the waiting token are taken, and the set's spill count is
written. -/
def refillTaken (rest : List Flit) (set : BitVec 10) (remain : Nat) (x : Engine) : Engine :=
  { x with refillIn := rest, mpb := [], spillCnt := SMap.set x.spillCnt set.toNat remain 0 }

/-- The entry that an answer of one body flit returns, as it is stored (R69). -/
def refillBack (body : Flit) : List Entry := ([body.payload].filter enV).map (fun p => p &&& ~~~((0xFFF : BitVec 128) <<< 104))

theorem length_refillBack (body : Flit) : (refillBack body).length = if enV body.payload then 1 else 0 := by
  cases h : enV body.payload <;> simp [refillBack, h]

theorem spillCount_refillTaken (rest : List Flit) (set : BitVec 10) (remain : Nat) (x : Engine) :
    spillCount (refillTaken rest set remain x) set = remain := SMap.get_set_same ..

theorem refillAnswer_asked (hre : (s.eng e.val).reentry = none) (hin : takePacket (s.eng e.val).refillIn = ([head, body], rest))
    (hm : (s.eng e.val).mpb = [m]) (hslot : m.slot = (tagXid head.tag).toNat) (hasked : m.asked = true) :
    exec (.refillAnswer e) s =
      if (m.stale || !ctxAllocated s (e.val / 17) (tagCtx m.tok.tok.flit.tag)) = true then
        .next (detect (tokenDetect 0x13 e m.tok.tok.flit 0)
          (s.setEng e.val (refillTaken rest m.tok.set (bits body.payload 112 4).toNat (s.eng e.val))))
      else .next (s.setEng e.val { refillTaken rest m.tok.set (bits body.payload 112 4).toNat (s.eng e.val) with
        reentry := some { flit := m.tok.tok.flit, refill := some (refillBack body) } }) := by
  have hexec : exec (.refillAnswer e) s = execRefillAnswer e s := rfl
  rw [hexec]
  have hfind : [m].find? (fun k => k.slot == (tagXid head.tag).toNat && k.asked) = some m := by simp [hslot, hasked]
  have hgone : [m].filter (fun k => k.slot != m.slot) = [] := by simp
  simp only [execRefillAnswer, hin, hre, hm, hfind, hgone, refillTaken, Option.isSome_none, Bool.false_eq_true, if_false,
    List.map_cons, List.map_nil]
  rfl

end

/-! ## CONTEXT_SWEEP_VISIT (R71) -/

theorem OnlyMs.of_eq {x y : Engine} (h : y = x) : OnlyMs x y := h ▸ .refl x

/-- A set that is read changes the matching store of its engine, check bits and records alone (R60). -/
theorem readSet_effect (e : EngNo) (set : Nat) (f : Flit) (s : State) :
    KeepsOthers e.val s (readSet e set f s) ∧ OnlyMs (s.eng e.val) ((readSet e set f s).eng e.val) := by
  have hway (s : State) (w : Nat) : KeepsOthers e.val s (readWay e set f s w) ∧
      OnlyMs (s.eng e.val) ((readWay e set f s w).eng e.val) := by
    have hclean (u : State) : KeepsOthers e.val u (cleanWay e set w u) := .of_marks (cleanWay_onlyMarks ..) _
    have hcleaned (u : State) : (cleanWay e set w u).eng e.val = u.eng e.val := rfl
    have hdet (d : Detection) (u : State) : KeepsOthers e.val u (cleanWay e set w (detect d u)) := (KeepsOthers.detect ..).trans (hclean _)
    have hdeted (d : Detection) (u : State) : (cleanWay e set w (detect d u)).eng e.val = u.eng e.val := eng_detect ..
    unfold readWay
    split
    · exact ⟨hclean s, .refl _⟩
    · cases wayMark s e.val set w with
      | clean => exact ⟨.refl .., .refl _⟩
      | single => exact ⟨hdet .., .of_eq (hdeted ..)⟩
      | double =>
        refine ⟨.after (.seeRefusals ..) (.after (.modEng ..) (hdet ..)), ?_⟩
        rw [eng_seeRefusals, State.eng_modEng_same, hdeted]
        exact (OnlyMs.setWay ..).trans (.renumber ..)
  have hall : ∀ (l : List Nat) (s : State), KeepsOthers e.val s (l.foldl (readWay e set f) s) ∧
      OnlyMs (s.eng e.val) ((l.foldl (readWay e set f) s).eng e.val) := by
    intro l
    induction l with
    | nil => intro s; exact ⟨.refl .., .refl _⟩
    | cons w l ih =>
      intro s
      exact ⟨(hway s w).1.trans (ih _).1, (hway s w).2.trans (ih _).2⟩
  rw [readSet_eq]
  exact hall ways s

/-- A sweep of a set leaves no valid entry of its CTX there and touches nothing but the set. -/
theorem sweepSet_effect (x : Engine) (ctx : BitVec 16) (set : Nat) : OnlyMs x (sweepSet x ctx set).1 ∧
    ∀ k, k < 4 → enV (wayAt (sweepSet x ctx set).1 set k) = true → enCtx (wayAt (sweepSet x ctx set).1 set k) ≠ ctx := by
  have hfst : (sweepSet x ctx set).1 = renumber (((validWays x set).filter (fun w => enCtx (wayAt x set w) == ctx)).foldl
      (fun y w => dropWay y set w) x) set none := rfl
  rw [hfst]
  refine ⟨(OnlyMs.dropWays ..).trans (.renumber ..), fun k hk hv hctx => ?_⟩
  rw [enV_renumber] at hv
  rw [enCtx_renumber] at hctx
  obtain ⟨hkeep, hdrop⟩ := wayAt_foldl_dropWay set k ((validWays x set).filter (fun w => enCtx (wayAt x set w) == ctx)) x
  by_cases hgone : k ∈ (validWays x set).filter (fun w => enCtx (wayAt x set w) == ctx) ∨ enV (wayAt x set k) = false
  · exact Bool.false_ne_true ((hdrop hgone).symm.trans hv)
  · rw [not_or, Bool.not_eq_false] at hgone
    rw [hkeep hgone.1] at hctx
    exact hgone.1 (List.mem_filter.mpr ⟨mem_validWays.mpr ⟨hk, hgone.2⟩, beq_iff_eq.mpr hctx⟩)

section
variable {s : State} {e : EngNo} {w : Sweep} {ws : List Sweep} (hw : (s.eng e.val).sweeps = w :: ws)
include hw

theorem contextSweepVisit_set (hlt : w.visit < 1024) : exec (.contextSweepVisit e) s =
    .next (seeRefusals (e.val / 17) (((readSet e w.visit 0 s).setEng e.val
      { (sweepSet ((readSet e w.visit 0 s).eng e.val) w.ctx w.visit).1 with sweeps := { w with visit := w.visit + 1 } :: ws }).satAdd
        (ereg e.val 0x40) 0 16 (sweepSet ((readSet e w.visit 0 s).eng e.val) w.ctx w.visit).2)) := by
  have hexec : exec (.contextSweepVisit e) s = execContextSweepVisit e s := rfl
  have hlt' : w.visit < 1025 := by omega
  rw [hexec]
  simp only [execContextSweepVisit, hw, if_pos hlt, if_pos hlt']

theorem contextSweepVisit_last (hlast : w.visit = 1025) : exec (.contextSweepVisit e) s =
    .next (seeRefusals (e.val / 17) ((s.setEng e.val { s.eng e.val with
      sweeps := ws
      mpb := (s.eng e.val).mpb.map (fun m => { m with stale := m.stale || tagCtx m.tok.tok.flit.tag == w.ctx }) }).satAdd
        (ereg e.val 0x40) 0 16 0)) := by
  have hexec : exec (.contextSweepVisit e) s = execContextSweepVisit e s := rfl
  have h1 : ¬ w.visit < 1024 := by omega
  have h2 : ¬ w.visit = 1024 := by omega
  have h3 : ¬ w.visit < 1025 := by omega
  rw [hexec]
  unfold execContextSweepVisit
  dsimp only
  rw [hw]
  simp only [if_neg h1, if_neg h2, if_neg h3]

/-- A visit of a set removes the entries of its CTX there and moves to the next (R71). -/
theorem contextSweepVisit_set_effect (hlt : w.visit < 1024) : ∃ t, exec (.contextSweepVisit e) s = .next t ∧
    (t.eng e.val).sweeps = { w with visit := w.visit + 1 } :: ws ∧
    (∀ k, k < 4 → enV (wayAt (t.eng e.val) w.visit k) = true → enCtx (wayAt (t.eng e.val) w.visit k) ≠ w.ctx) ∧
    KeepsOthers e.val s t := by
  have hexec := contextSweepVisit_set hw hlt
  have hread := (readSet_effect e w.visit 0 s).1
  generalize readSet e w.visit 0 s = u at hexec hread
  have hsweep := (sweepSet_effect (u.eng e.val) w.ctx w.visit).2
  generalize sweepSet (u.eng e.val) w.ctx w.visit = r at hexec hsweep
  refine ⟨_, hexec, ?_, ?_, .after (.seeRefusals ..) (.after (.of_regs (.satAdd ..) _) (hread.trans (.setEng ..)))⟩
  · rw [eng_seeRefusals, State.eng_satAdd, State.eng_setEng_same]
  · rw [eng_seeRefusals, State.eng_satAdd, State.eng_setEng_same]
    exact hsweep

end

/-! ## CONTEXT_RETURN (R72) -/

theorem OnlyPlot.modPlot (s : State) (p : PlotNo) (g : Plot → Plot) : OnlyPlot p s (s.modPlot p.val g) :=
  ⟨rfl, fun _ hk => State.plot_modPlot_ne s hk g⟩

/-- A context that awaits return is neither 0x0000 nor 0xFFFF, and takes the status it is given (R38). -/
theorem ctxStatus_setCtx {s : State} {p : Nat} {c : BitVec 16} (h : ctxStatus s p c = 2) (v : BitVec 2) :
    ctxStatus (setCtx p c v s) p c = v := by
  have h0 : c ≠ 0 := by
    rintro rfl
    simp [ctxStatus] at h
  have hf : c ≠ 0xFFFF := by
    rintro rfl
    simp [ctxStatus] at h
  simp only [ctxStatus, if_neg h0, if_neg hf, setCtx, State.plot_modPlot_same, SMap.get_set_same]

theorem contextReturn_done {s : State} {p : PlotNo} {c : BitVec 16} (h : ctxStatus s p.val c = 2)
    (hp : (s.plot p.val).purges.contains c = false) (hs : ∀ i, i < 17 → (s.eng (17 * p.val + i)).sweeps = []) :
    exec (.contextReturn p c) s = .next (setCtx p.val c 0 s) := by
  have hexec : exec (.contextReturn p c) s = execContextReturn p c s := rfl
  have hbusy : (List.range 17).any (fun i => (s.eng (17 * p.val + i)).sweeps.any (fun w => w.ctx == c)) = false := by
    rw [List.any_eq_false]
    intro i hi
    simp [hs i (List.mem_range.mp hi)]
  rw [hexec]
  unfold execContextReturn
  dsimp only
  rw [hbusy, hp, h]
  rfl

/-! ## SPILL_DRAIN (R68, R232) -/

section
variable {s : State} {p : Nat}

theorem probes_none (h : bucketBits s p = 0) (i : BitVec 4) (set : BitVec 10) : probes s p i set = [] := by
  rw [probes, if_pos h]

theorem unitSlots_none (h : bucketBits s p = 0) (i : BitVec 4) (u : SpillUnit) : unitSlots s p i u = none := by
  rw [unitSlots, probes_none h]
  rfl

theorem placeUnit_none (h : bucketBits s p = 0) (i : BitVec 4) (u : SpillUnit) : placeUnit p i u s = none := by
  rw [placeUnit, unitSlots_none h]
  rfl

theorem unitWords_none (h : bucketBits s p = 0) (i : BitVec 4) (u : SpillUnit) : unitWords s p i u = [] := by
  rw [unitWords, unitSlots_none h]
  rfl

theorem lookupWaits_none (h : bucketBits s p = 0) : lookupWaits s p = false := by
  have hused (i : BitVec 4) (set : BitVec 10) : usedProbes s p i set = [] := by
    rw [usedProbes, probes_none h]
    rfl
  simp [lookupWaits, hused]

end

/-- Activity in a plot writes the two registers of quiescence (R243, R244). -/
theorem stir_onlyRegs (p : Nat) (s : State) : OnlyRegs [preg p 0x118, breg .mesh 0x4008] s (stir p s) :=
  (OnlyRegs.setFlag ..).trans (.setFlag ..)

theorem preg_ne_mesh (p : PlotNo) {o o' : Nat} (h : o < 0x800000) : preg p.val o ≠ breg .mesh o' := by
  have := p.isLt
  simp only [preg, plotWin, breg, Blk.base]
  omega

/-- Activity in a plot leaves its registers but PLOT_QUIESCE. -/
theorem rd_stir_preg (p : PlotNo) {o : Nat} (h : o < 0x800000) (hne : o ≠ 0x118) (s : State) :
    (stir p.val s).rd (preg p.val o) = s.rd (preg p.val o) := by
  refine (stir_onlyRegs p.val s).2 _ ?_
  have hreg : preg p.val o ≠ preg p.val 0x118 := by
    simp only [preg]
    omega
  simp only [List.mem_cons, hreg, preg_ne_mesh p h, List.not_mem_nil, or_self, not_false_iff]

/-- A spill queue gives up its oldest unit. -/
def unitTaken (k : Nat) (us : List SpillUnit) (s : State) : State := s.modEng k (fun x => { x with spillQ := us })

/-- With no bucket array, the unit of the first engine that has one is held in the spill intake and counted (R68, R232). -/
theorem spillDrain_held {s : State} {p : PlotNo} {i : BitVec 4} {k : Nat} {u : SpillUnit} {us : List SpillUnit}
    (hin : (s.plot p.val).spillIn = []) (hb : bucketBits s p.val = 0)
    (hfirst : (localEngines s p.val).find? (fun r => !(s.eng r.2).spillQ.isEmpty) = some (i, k))
    (hq : (s.eng k).spillQ = u :: us) :
    exec (.spillDrain p) s = .next (((stir p.val (unitTaken k us s)).satInc (preg p.val 0x124) 16 16).modPlot p.val
      (fun x => { x with spillIn := x.spillIn ++ [(i, u)] })) := by
  have hexec : exec (.spillDrain p) s = execSpillDrain p s := rfl
  have hb' : bucketBits (stir p.val (unitTaken k us s)) p.val = 0 :=
    (State.fld_congr (rd_stir_preg p (by decide) (by decide) _) ..).trans hb
  have hfind : (localEngines s p.val).find? (fun r => !(s.eng r.2).spillQ.isEmpty && !false) = some (i, k) := by
    simpa only [Bool.not_false, Bool.and_true] using hfirst
  rw [hexec]
  unfold execSpillDrain
  simp only [lookupWaits_none hb, hin, List.flatMap_nil, List.isEmpty_nil, List.findSome?_nil, List.any_nil, hfind, hq,
    unitWords_none hb, ← unitTaken.eq_1, placeUnit_none hb', Bool.not_true, Bool.false_eq_true, if_false]

/-- The activity of a spill and its count in PLOT_PRN_COUNT.SPILLBLK (R224, R243). -/
def spillCounted (p : Nat) (s : State) : State := (stir p s).satInc (preg p 0x124) 16 16

theorem spillCounted_onlyRegs (p : Nat) (s : State) :
    OnlyRegs [preg p 0x118, breg .mesh 0x4008, preg p 0x124] s (spillCounted p s) := (stir_onlyRegs p s).trans (.satInc ..)

theorem spillCounted_count (p : PlotNo) (s : State) :
    (spillCounted p.val s).fld (preg p.val 0x124) 16 16 = min 65535 (s.fld (preg p.val 0x124) 16 16 + 1) := by
  rw [spillCounted, State.fld_satInc_same _ _ _ _ (by decide), State.fld_congr (rd_stir_preg p (by decide) (by decide) s)]
  norm_num

theorem KeepsOthers.modPlot (e p : Nat) (g : Plot → Plot) (s : State) : KeepsOthers e s (s.modPlot p g) :=
  .of_same rfl rfl rfl rfl

/-- What a unit that is held in the spill intake leaves. -/
theorem unitHeld_effect (s : State) (p : PlotNo) (k : Nat) (us : List SpillUnit) (g : Plot → Plot) :
    ∃ t, (spillCounted p.val (unitTaken k us s)).modPlot p.val g = t ∧
      t.eng k = { s.eng k with spillQ := us } ∧ t.plot p.val = g (s.plot p.val) ∧ KeepsOthers k s t ∧
      t.fld (preg p.val 0x124) 16 16 = min 65535 (s.fld (preg p.val 0x124) 16 16 + 1) := by
  have htake : (unitTaken k us s).eng k = { s.eng k with spillQ := us } := State.eng_modEng_same ..
  have hothers : KeepsOthers k s (unitTaken k us s) := .modEng ..
  have hplot : (unitTaken k us s).plot p.val = s.plot p.val := State.plot_modEng ..
  have hrd : (unitTaken k us s).rd (preg p.val 0x124) = s.rd (preg p.val 0x124) := State.rd_modEng ..
  have hregs := spillCounted_onlyRegs p.val (unitTaken k us s)
  have hcnt := spillCounted_count p (unitTaken k us s)
  rw [State.fld_congr hrd] at hcnt
  generalize spillCounted p.val (unitTaken k us s) = r at hregs hcnt ⊢
  refine ⟨_, rfl, ?_, ?_, hothers.trans ((KeepsOthers.of_regs hregs k).trans (.modPlot ..)), ?_⟩
  · rw [State.eng_modPlot, hregs.get (·.eng k), htake]
  · rw [State.plot_modPlot_same, hregs.get (·.plot p.val), hplot]
  · exact (State.fld_congr (State.rd_modPlot ..) ..).trans hcnt

/-! ## OVERFLOW_PURGE (R235) -/

/-- A plot that stores nothing: no bucket slot, no waiting unit or token, no window and no deposit. -/
structure NothingStored (x : Plot) : Prop where
  buckets : x.buckets = []
  spillIn : x.spillIn = []
  holdIn : x.holdIn = []
  waitChain : x.waitChain = []
  deposit : x.deposit = []
  windows : x.windows = []
  mode : x.depositMode = false

/-- A plot without a context's waiting units and tokens, its purge off the list. -/
def purgedPlot (c : BitVec 16) (cs : List (BitVec 16)) (x : Plot) : Plot :=
  { x with
    spillIn := x.spillIn.filter (fun w => !(w.2.entries.any (fun n => enCtx n == c)))
    holdIn := x.holdIn.filter (fun h => h.ctx != c), waitChain := x.waitChain.filter (fun q => q.1 != c), purges := cs }

theorem NothingStored.purged {x : Plot} (h : NothingStored x) (c : BitVec 16) (cs : List (BitVec 16)) :
    NothingStored (purgedPlot c cs x) := by
  constructor <;> simp [purgedPlot, h.buckets, h.spillIn, h.holdIn, h.waitChain, h.deposit, h.windows, h.mode]

/-- The counts of a purge that finds nothing. -/
def purgedNothing (p : Nat) (s : State) : State :=
  purgePool p [] (purgePool p [] (countPurged p 0 (countPurged p 0 (countPurged p 0 s))))

theorem plot_countPurged (p n k : Nat) (s : State) : (countPurged p n s).plot k = s.plot k :=
  (OnlyRegs.satAdd s (preg p 0x128) 16 16 n).get (·.plot k)

theorem plot_purgePool_nil (p : Nat) (s : State) : (purgePool p [] s).plot p = s.plot p := by
  rw [purgePool, plot_countPurged, State.plot_modPlot_same]
  rfl

theorem plot_purgedNothing (p : Nat) (s : State) : (purgedNothing p s).plot p = s.plot p := by
  simp only [purgedNothing, plot_purgePool_nil, plot_countPurged]

theorem KeepsOthers.purgedNothing (e p : Nat) (s : State) : KeepsOthers e s (purgedNothing p s) := by
  have hcount (n : Nat) (u : State) : KeepsOthers e u (countPurged p n u) := .of_regs (OnlyRegs.satAdd u (preg p 0x128) 16 16 n) e
  have hpool (u : State) : KeepsOthers e u (purgePool p [] u) := (KeepsOthers.modPlot ..).trans (hcount ..)
  exact ((((hcount ..).trans (hcount ..)).trans (hcount ..)).trans (hpool _)).trans (hpool _)

theorem engines_purgedNothing (p : Nat) (s : State) : (purgedNothing p s).engines = s.engines := by
  have hcount (n : Nat) (u : State) : (countPurged p n u).engines = u.engines := (OnlyRegs.satAdd u (preg p 0x128) 16 16 n).get (·.engines)
  have hpool (u : State) : (purgePool p [] u).engines = u.engines := (hcount ..).trans (State.modPlot_engines ..)
  rw [purgedNothing, hpool, hpool, hcount, hcount, hcount]

section
variable {s : State} {p : PlotNo} (h : NothingStored (s.plot p.val))
include h

theorem lookupWaits_empty : lookupWaits s p = false := by
  have hused (i : BitVec 4) (set : BitVec 10) : usedProbes s p i set = [] := by
    simp [usedProbes, slotUsed, h.buckets, SMap.get]
  simp [lookupWaits, hused]

/-- With nothing stored there is no deposit to end and no window to free. -/
theorem freeWindow_empty (c : BitVec 16) : freeWindow p c (endDeposit p s) = s := by
  have hend : endDeposit p s = s := by simp [endDeposit, h.mode]
  rw [hend, freeWindow, windowOf, h.windows, List.find?_nil]

end

/-- A purge of a context with nothing stored takes it off the list alone (R235). -/
theorem overflowPurge_empty {s : State} {p : PlotNo} {c : BitVec 16} {cs : List (BitVec 16)} (h : NothingStored (s.plot p.val))
    (hc : (s.plot p.val).purges = c :: cs) (hw : placementWaits s p.val = false) :
    exec (.overflowPurge p) s = .next (seeRefusals p.val ((purgedNothing p.val s).modPlot p.val (purgedPlot c cs))) := by
  have hexec : exec (.overflowPurge p) s = execOverflowPurge p s := rfl
  have hd : depositWaits s p = false := by rw [depositWaits, h.mode]; rfl
  have hr : reinjectWaits s p = false := by rw [reinjectWaits, h.deposit]
  have hrel : releaseWaits s p = false := by rw [releaseWaits, h.windows]; rfl
  have hend : NothingStored (((purgedNothing p.val s).modPlot p.val (purgedPlot c cs)).plot p.val) := by
    rw [State.plot_modPlot_same, plot_purgedNothing]
    exact h.purged c cs
  rw [← freeWindow_empty hend c, hexec]
  unfold execOverflowPurge
  simp only [hc, lookupWaits_empty h, hw, hd, hr, hrel, h.buckets, h.spillIn, h.holdIn, h.waitChain, h.deposit, bucketsHeld,
    poolHeld, waitSlots, dropLost, dropLostDeposits, relink, chainLinks, depositOf, plot_countPurged, plot_purgePool_nil,
    ← purgedNothing.eq_1, Bool.or_self, Bool.false_eq_true, if_false, List.map_nil, List.flatMap_nil, List.filter_nil, List.append_nil,
    List.isEmpty_nil, Bool.not_true, List.foldl_nil, List.length_nil, List.sum_nil, List.contains_nil, Bool.not_false, List.filter_true]
  rfl

theorem purges_seeRefusals (p : Nat) (s : State) : ((seeRefusals p s).plot p).purges = (s.plot p).purges := by
  have halert : (alert p s).plot p = s.plot p := (alert_reports p s).get (·.plot p)
  unfold seeRefusals
  dsimp only
  rw [State.plot_modPlot_same]
  split
  · rw [halert]
  · rfl

/-- Settles O26: spill-down, the held spill, refill answers, sweeps, and the return and the purge of a context. -/
theorem spillRefillSweep : Obligations.SpillRefillSweep := by
  intro s e p ctx x
  refine ⟨fun o ho hlow => ?_, fun i k u us hin hb hfirst hq => ?_, fun head body rest m hre hin hm hslot hasked => ?_,
    fun w ws hw => ⟨fun hlt => ?_, fun hlast => ?_⟩, fun hc hp hs => ?_, fun cs hplot hw => ?_⟩
  · exact ⟨_, spillDownSpill_ends ho hlow, .modEng .., State.eng_modEng_same ..⟩
  · obtain ⟨t, ht, hk, hplot, hkeep, hcnt⟩ := unitHeld_effect s p k us (fun x => { x with spillIn := x.spillIn ++ [(i, u)] })
    refine ⟨t, (spillDrain_held hin hb hfirst hq).trans (congrArg _ ht), hk, ?_, hkeep.eng, hkeep.mem, hcnt⟩
    rw [hplot, hin]
    rfl
  · have hexec := refillAnswer_asked hre hin hm hslot hasked
    refine ⟨fun hst hal => ?_, fun hgone => ?_⟩
    · rw [if_neg (by simp [hst, hal])] at hexec
      refine ⟨_, hexec, .setEng .., ?_⟩
      rw [State.eng_setEng_same]
      exact ⟨rfl, rfl, spillCount_refillTaken rest .., _, rfl, length_refillBack body⟩
    · rw [if_pos (by rcases hgone with h | h <;> simp [h])] at hexec
      refine ⟨_, hexec, ?_, ?_, ?_, ⟨detect_mem .., detect_pres .., detect_ucode ..⟩, ?_⟩
      · rw [eng_detect, State.eng_setEng_same]
        rfl
      · rw [eng_detect, State.eng_setEng_same]
        rfl
      · rw [eng_detect, State.eng_setEng_same]
        exact hre
      · intro d hfree
        exact detect_opens_after hfree
  · obtain ⟨t, hexec, hsweeps, hset, hkeep⟩ := contextSweepVisit_set_effect hw hlt
    exact ⟨t, hexec, hsweeps, hkeep.mem, hset, hkeep.eng⟩
  · refine ⟨_, contextSweepVisit_last hw hlast, ?_⟩
    rw [eng_seeRefusals, State.eng_satAdd, State.eng_setEng_same]
  · exact ⟨_, contextReturn_done hc hp hs, .modPlot .., ctxStatus_setCtx hc 0⟩
  · have hempty : NothingStored (s.plot p.val) := by
      rw [hplot]
      exact ⟨rfl, rfl, rfl, rfl, rfl, rfl, rfl⟩
    have hkeep := ((KeepsOthers.purgedNothing 0 p.val s).trans (.modPlot 0 p.val (purgedPlot ctx cs) _)).trans (.seeRefusals 0 p.val _)
    refine ⟨_, overflowPurge_empty hempty (by rw [hplot]) hw, ?_, ?_, hkeep.mem⟩
    · rw [purges_seeRefusals, State.plot_modPlot_same]
      rfl
    · exact (seeRefusals_keepsSlots ..).engines.trans ((State.modPlot_engines ..).trans (engines_purgedNothing ..))

end Sys2Proof.Machine
end

section
/-! PROOFS. EXEC_ISSUE of an engine with no strand, and EMIT of one result (R30, R33, R35, R73 to R78, R81, R185 to R187): O22. -/

namespace Sys2Proof.Machine

/-! ## What a cycle of issue leaves -/

/-- A step of one engine's issue: the engine, its plot, and the two words of ENG_FIRES at most; its strand and the flags it
has still to raise are as before. -/
structure IssueFrame (e : EngNo) (s t : State) : Prop where
  rest : t = { s with engines := t.engines, regs := t.regs, plots := t.plots }
  regs : RegsBut [ereg e.val 0x30, ereg e.val 0x34] s t
  engs : ∀ k, k ≠ e.val → t.eng k = s.eng k
  plots : ∀ k, k ≠ e.val / 17 → t.plot k = s.plot k
  strand : (t.eng e.val).strand = (s.eng e.val).strand
  raises : (t.eng e.val).raises = (s.eng e.val).raises

theorem IssueFrame.refl (e : EngNo) (s : State) : IssueFrame e s s := ⟨rfl, fun _ _ => rfl, fun _ _ => rfl, fun _ _ => rfl, rfl, rfl⟩

theorem IssueFrame.trans {e : EngNo} {s t u : State} (h : IssueFrame e s t) (k : IssueFrame e t u) : IssueFrame e s u :=
  ⟨by rw [k.rest, h.rest], fun a ha => (k.regs a ha).trans (h.regs a ha), fun j hj => (k.engs j hj).trans (h.engs j hj),
    fun j hj => (k.plots j hj).trans (h.plots j hj), k.strand.trans h.strand, k.raises.trans h.raises⟩

theorem IssueFrame.modEng (e : EngNo) (g : Engine → Engine) (s : State) (hs : (g (s.eng e.val)).strand = (s.eng e.val).strand)
    (hr : (g (s.eng e.val)).raises = (s.eng e.val).raises) : IssueFrame e s (s.modEng e.val g) :=
  ⟨rfl, fun _ _ => rfl, fun _ hk => State.eng_modEng_ne s hk g, fun _ _ => rfl, by rw [State.eng_modEng_same, hs],
    by rw [State.eng_modEng_same, hr]⟩

theorem IssueFrame.modPlot (e : EngNo) (g : Plot → Plot) (s : State) : IssueFrame e s (s.modPlot (e.val / 17) g) :=
  ⟨rfl, fun _ _ => rfl, fun _ _ => rfl, fun _ hk => State.plot_modPlot_ne s hk g, rfl, rfl⟩

theorem IssueFrame.sameMemories {e : EngNo} {s t : State} (h : IssueFrame e s t) : SameMemories s t := by
  rw [h.rest]
  exact ⟨rfl, rfl, rfl⟩

/-- A 64-bit counter writes its two words. -/
theorem OnlyRegs.inc64 (s : State) (a : Nat) : OnlyRegs [a, a + 4] s (s.inc64 a) := (OnlyRegs.wr ..).trans (.wr ..)

theorem IssueFrame.of_onlyRegs {e : EngNo} {s t : State} (h : OnlyRegs [ereg e.val 0x30, ereg e.val 0x34] s t) : IssueFrame e s t := by
  have heng := h.get (·.eng e.val)
  refine ⟨?_, h.2, fun k _ => h.get (·.eng k), fun k _ => h.get (·.plot k), by rw [heng], by rw [heng]⟩
  rw [h.get (·.engines), h.get (·.plots)]
  exact h.1

theorem IssueFrame.inc64 (e : EngNo) (s : State) : IssueFrame e s (s.inc64 (ereg e.val 0x30)) :=
  .of_onlyRegs (OnlyRegs.inc64 s (ereg e.val 0x30))

theorem rd64_wr64 (s : State) (a : Nat) (v : Word) : (s.wr64 a v).rd64 a = v := by
  have hne : a ≠ a + 4 := by omega
  rw [State.rd64, State.wr64, State.rd_wr_same, State.rd_wr_ne _ hne, State.rd_wr_same]
  apply BitVec.eq_of_getLsbD_eq
  intro i hi
  rw [BitVec.getLsbD_append]
  by_cases h : i < 32
  · rw [if_pos h, getLsbD_bits, decide_eq_true h, Bool.true_and, Nat.zero_add]
  · rw [if_neg h, getLsbD_bits, decide_eq_true (by omega), Bool.true_and, show 32 + (i - 32) = i by omega]

theorem rd64_inc64 (s : State) (a : Nat) : (s.inc64 a).rd64 a = s.rd64 a + 1 := rd64_wr64 ..

/-! ## The unit a fire takes (R166, R168, R170, R204) -/

/-- What an operation that enters its unit in cycle `c` for `lam` cycles takes, by the unit it holds. -/
structure UnitTaken (e : EngNo) (holds : ExecUnit → Prop) (c lam : Nat) (s t : State) : Prop where
  div : holds .div → (t.eng e.val).divFree = c + lam
  noDiv : ¬ holds .div → (t.eng e.val).divFree = (s.eng e.val).divFree
  mul : holds .mul → (t.eng e.val).mulAt = some c
  noMul : ¬ holds .mul → (t.eng e.val).mulAt = (s.eng e.val).mulAt
  micro : holds .micro → (t.eng e.val).fmaFree = c + lam ∧ (t.eng e.val).seqFree = c + lam
  noMicro : ¬ holds .micro → (t.eng e.val).fmaFree = (s.eng e.val).fmaFree ∧ (t.eng e.val).seqFree = (s.eng e.val).seqFree
  iter : ∀ g, holds .b64iter → (s.eng e.val).b64grant = some g → (t.plot (e.val / 17)).b64iter = g.cycle + 1 + lam - 4
  noIter : ¬ holds .b64iter → t.plots = s.plots
  exec : (t.eng e.val).exec = (s.eng e.val).exec
  fire : (t.eng e.val).fire = (s.eng e.val).fire
  cycle : (t.eng e.val).cycle = (s.eng e.val).cycle
  seqr : (t.eng e.val).seqr = (s.eng e.val).seqr
  regs : t.regs = s.regs

theorem UnitTaken.nothing {e : EngNo} {holds : ExecUnit → Prop} {c lam : Nat} {s : State} (h : ∀ u, ¬ holds u) :
    UnitTaken e holds c lam s s :=
  ⟨fun k => absurd k (h _), fun _ => rfl, fun k => absurd k (h _), fun _ => rfl, fun k => absurd k (h _), fun _ => ⟨rfl, rfl⟩,
    fun _ k => absurd k (h _), fun _ => rfl, rfl, rfl, rfl, rfl, rfl⟩

theorem UnitTaken.congr {e : EngNo} {holds holds' : ExecUnit → Prop} {c lam : Nat} {s t : State} (k : UnitTaken e holds c lam s t)
    (h : ∀ u, holds' u ↔ holds u) : UnitTaken e holds' c lam s t := by
  obtain rfl : holds' = holds := funext fun u => propext (h u)
  exact k

/-- The grant of the plot's binary64 unit lasts one cycle (R170). -/
def ungranted (x : Engine) : Engine := { x with b64grant := none }

theorem ungranted_frame (e : EngNo) (s : State) : IssueFrame e s (s.modEng e.val ungranted) := .modEng e ungranted s rfl rfl

theorem UnitTaken.ungranted {e : EngNo} {holds : ExecUnit → Prop} {c lam : Nat} {s t : State} (h : UnitTaken e holds c lam s t) :
    UnitTaken e holds c lam s (t.modEng e.val ungranted) := by
  have heng : (t.modEng e.val Machine.ungranted).eng e.val = Machine.ungranted (t.eng e.val) := State.eng_modEng_same ..
  have hplot : (t.modEng e.val Machine.ungranted).plot (e.val / 17) = t.plot (e.val / 17) := rfl
  have hplots : (t.modEng e.val Machine.ungranted).plots = t.plots := rfl
  have hregs : (t.modEng e.val Machine.ungranted).regs = t.regs := rfl
  generalize t.modEng e.val Machine.ungranted = u at *
  constructor <;> simp only [heng, hplot, hplots, hregs, Machine.ungranted]
  exacts [h.div, h.noDiv, h.mul, h.noMul, h.micro, h.noMicro, h.iter, h.noIter, h.exec, h.fire, h.cycle, h.seqr, h.regs]

theorem occupy_frame (e : EngNo) (strand : Bool) (opc c lam : Nat) (s : State) : IssueFrame e s (occupy e strand opc c lam s) := by
  unfold occupy
  cases unitOfOpc opc with
  | mul => exact .modEng _ _ _ rfl rfl
  | div => exact .modEng _ _ _ rfl rfl
  | micro => exact .modEng _ _ _ rfl rfl
  | b64iter =>
    cases (s.eng e.val).b64grant with
    | some g => exact .modPlot ..
    | none => exact .refl ..
  | alu => exact .refl ..
  | fma => exact .refl ..
  | b64 => exact .refl ..
  | b64cmp => exact .refl ..

theorem occupy_takes (e : EngNo) (strand : Bool) (opc c lam : Nat) (s : State) :
    UnitTaken e (unitOfOpc opc = ·) c lam s (occupy e strand opc c lam s) := by
  unfold occupy
  cases unitOfOpc opc with
  | mul => constructor <;> simp
  | div => constructor <;> simp
  | micro => constructor <;> simp
  | b64iter =>
    cases hg : (s.eng e.val).b64grant with
    | some g => constructor <;> simp [hg, plotOf]
    | none => constructor <;> simp [hg]
  | alu => constructor <;> simp
  | fma => constructor <;> simp
  | b64 => constructor <;> simp
  | b64cmp => constructor <;> simp

/-! ## EXEC_ISSUE with no strand (R73, R74) -/

/-- Arbitration changes an engine's credits and turn alone (R74). -/
theorem arbitrate_credits (tw sw : Nat) (t3 t str kernel : Bool) (x : Engine) :
    ∃ a b r, (arbitrate tw sw t3 t str kernel x).2 = { x with tc := a, sc := b, turn := r } := by
  unfold arbitrate
  dsimp only
  repeat' split
  all_goals exact ⟨_, _, _, rfl⟩

/-- What enters EXEC where no strand runs. -/
def issuePick (e : EngNo) (c : Nat) (s : State) : State :=
  match (chooseIssue s e c).1, (s.eng e).fire with
  | .fire, some f => issueFire e c f (chooseIssue s e c).2 s
  | _, _ => s.setEng e (chooseIssue s e c).2

theorem issueFire_frame {e : EngNo} {x : Engine} {s : State} (c : Nat) (f : Fire) (hs : x.strand = (s.eng e.val).strand)
    (hr : x.raises = (s.eng e.val).raises) : IssueFrame e s (issueFire e c f x s) := by
  have hfire : IssueFrame e s ((s.setEng e.val { x with fire := none, exec := some { f with issued := c } }).inc64 (ereg e.val 0x30)) :=
    (IssueFrame.modEng e (fun _ => { x with fire := none, exec := some { f with issued := c } }) s hs hr).trans (.inc64 ..)
  unfold issueFire
  dsimp only
  split
  · exact hfire
  · exact hfire.trans (occupy_frame ..)

theorem issuePick_frame (e : EngNo) (c : Nat) (s : State) : IssueFrame e s (issuePick e c s) := by
  obtain ⟨a, b, r, hx⟩ : ∃ a b r, (chooseIssue s e c).2 = { s.eng e.val with tc := a, sc := b, turn := r } := arbitrate_credits ..
  unfold issuePick
  split
  · exact issueFire_frame c _ (by rw [hx]) (by rw [hx])
  · exact .modEng e (fun _ => (chooseIssue s e c).2) s (by rw [hx]) (by rw [hx])

theorem noteEvent_frame (e : EngNo) (s : State) : IssueFrame e s (noteEvent e s) := by
  unfold noteEvent
  split
  · exact .modEng _ _ _ rfl rfl
  · exact .refl ..

/-- The engine as arbitration finds it: a switch that is due is noted with its cycle (R318). -/
def switchSeen (c : Nat) (x : Engine) : Engine :=
  if switchDue x then { x with dueAt := some (x.dueAt.getD c) }
  else { x with dueAt := none, strand := x.strand.map (fun t => { t with fullWait := false }) }

/-- The engine in its next cycle. -/
def cycleBegun (x : Engine) : Engine := { x with cycle := x.cycle + 1, strand := none }

theorem strand_switchSeen (c : Nat) {x : Engine} (h : x.strand = none) : (switchSeen c x).strand = none := by
  unfold switchSeen
  split
  · exact h
  · simp only [h, Option.map_none]

theorem raises_switchSeen (c : Nat) (x : Engine) : (switchSeen c x).raises = x.raises := by
  unfold switchSeen
  split <;> rfl

section
variable {s : State} {e : EngNo} (hs : (s.eng e.val).strand = none)
include hs

theorem fenceSlotStep_noStrand : fenceSlotStep e s = s := by simp only [fenceSlotStep, hs]

theorem advance_noStrand (c : Nat) : advance e c s = s := by simp only [advance, hs]

theorem strandHas_noStrand (c : Nat) : strandHas s e c = none := by simp only [strandHas, hs]

/-- A cycle of issue with no strand raises what is due and picks a fire, or nothing. -/
theorem execIssue_noStrand (hin : inService s e.val = true) {u : State}
    (hu : raiseDue e ((s.eng e.val).cycle + 1) (s.modEng e.val cycleBegun) = u) (hus : (u.eng e.val).strand = none) :
    exec (.execIssue e) s = .next (noteEvent e ((issuePick e ((s.eng e.val).cycle + 1)
      (skipDone e (u.modEng e.val (switchSeen ((s.eng e.val).cycle + 1))))).modEng e.val ungranted)) := by
  have hexec : exec (.execIssue e) s = execExecIssue e s := rfl
  have hbegin : s.modEng e.val (fun x => { x with
      cycle := (s.eng e.val).cycle + 1, strand := x.strand.map (commitDue ((s.eng e.val).cycle + 1 - 2)) }) =
      s.modEng e.val cycleBegun := by
    simp only [State.modEng, cycleBegun, hs, Option.map_none]
  have hsw : ((u.modEng e.val (switchSeen ((s.eng e.val).cycle + 1))).eng e.val).strand = none := by
    rw [State.eng_modEng_same, strand_switchSeen _ hus]
  have hskip : ((skipDone e (u.modEng e.val (switchSeen ((s.eng e.val).cycle + 1)))).eng e.val).strand = none := by
    rw [skipDone, modStrand, State.eng_modEng_same, hsw, Option.map_none]
  rw [hexec]
  unfold execExecIssue
  simp only [hin, hbegin, hu, ← switchSeen.eq_1, fenceSlotStep_noStrand hsw, Bool.not_true, Bool.false_eq_true, if_false]
  generalize skipDone e (u.modEng e.val (switchSeen ((s.eng e.val).cycle + 1))) = v at hskip ⊢
  have hpick := (issuePick_frame e ((s.eng e.val).cycle + 1) v).strand
  rw [hskip] at hpick
  simp only [strandHas_noStrand hskip]
  show Host.Outcome.next (noteEvent e ((advance e _ (issuePick e _ v)).modEng e.val ungranted)) = _
  rw [advance_noStrand hpick]

end

/-! ## A fire enters EXEC (R73, R74, R81) -/

/-- One engine has become `x`, and nothing else has changed. -/
structure EngineIs (e : EngNo) (x : Engine) (s t : State) : Prop where
  only : OnlyEngine e s t
  eng : t.eng e.val = x

theorem EngineIs.self (e : EngNo) (s : State) : EngineIs e (s.eng e.val) s s := ⟨⟨rfl, fun _ _ => rfl⟩, rfl⟩

theorem IssueFrame.of_engineIs {e : EngNo} {x : Engine} {s t : State} (h : EngineIs e x s t) (hs : x.strand = (s.eng e.val).strand)
    (hr : x.raises = (s.eng e.val).raises) : IssueFrame e s t := by
  obtain ⟨⟨ht, hk⟩, he⟩ := h
  have hregs : t.regs = s.regs := by rw [ht]
  have hplots : t.plots = s.plots := by rw [ht]
  refine ⟨?_, fun a _ => by rw [State.rd, State.rd, hregs], hk, fun k _ => by rw [State.plot, State.plot, hplots], by rw [he, hs],
    by rw [he, hr]⟩
  rw [hregs, hplots]
  exact ht

theorem EngineIs.modEng {e : EngNo} {x : Engine} {s t : State} (h : EngineIs e x s t) (g : Engine → Engine) :
    EngineIs e (g x) s (t.modEng e.val g) := by
  obtain ⟨⟨ht, hk⟩, he⟩ := h
  refine ⟨⟨?_, fun k hne => (State.eng_modEng_ne t hne g).trans (hk k hne)⟩, by rw [State.eng_modEng_same, he]⟩
  rw [ht]
  rfl

/-- Whether a fire can enter EXEC depends on its engine, the plots and the registers alone (R73). -/
theorem fireReady_congr {s t : State} {e : Nat} (he : t.eng e = s.eng e) (hp : t.plots = s.plots) (hr : t.regs = s.regs) (c : Nat)
    (f : Fire) : fireReady t e c f = fireReady s e c f := by
  have hrd (a : Nat) : t.rd a = s.rd a := by rw [State.rd, State.rd, hr]
  have hplot (k : Nat) : t.plot k = s.plot k := by rw [State.plot, State.plot, hp]
  have hfld (a lo len : Nat) : t.fld a lo len = s.fld a lo len := State.fld_congr (hrd a) ..
  have hent (k : Nat) : uentry t e k = uentry s e k := hrd _
  have hheld : unitsHeld t e = unitsHeld s e := by simp only [unitsHeld, he, hent]
  have hhold (p : Nat) (ctx : BitVec 16) (j : BitVec 12) : wouldHold t p ctx j = wouldHold s p ctx j := by
    simp only [wouldHold, newWindow, hplot, hfld]
  have hlog : logicalD t e = logicalD s e := by rw [logicalD, logicalD, logicalOf_congr (hrd _)]
  simp only [fireReady, customerReady, routineReady, unitReady, he, hent, hheld, hhold, hlog, hplot]

/-- A fire that can enter EXEC does when nothing else asks (R74). -/
theorem chooseIssue_fire {s : State} {e : EngNo} {c : Nat} {f : Fire} (hf : (s.eng e.val).fire = some f)
    (hs : (s.eng e.val).strand = none) (hb : (s.eng e.val).standby = none) (hr : fireReady s e c f = true) :
    chooseIssue s e c = (.fire, s.eng e) := by
  have hhas : strandHas s e c = none := strandHas_noStrand hs c
  have hinc : incomingPri (s.eng e) c = none := by rw [incomingPri, hb, hs]
  simp only [chooseIssue, hf, hhas, hinc, hr]
  cases f.pri == 3 <;> rfl

/-- What `issueFire` makes of an engine, its unit apart. -/
def fireEntered (e : EngNo) (c : Nat) (f : Fire) (x : Engine) (s : State) : State :=
  (s.setEng e { x with fire := none, exec := some { f with issued := c } }).inc64 (ereg e 0x30)

theorem fireEntered_frame (e : EngNo) (c : Nat) (f : Fire) (x : Engine) (s : State) :
    OnlyRegs [ereg e.val 0x30, ereg e.val 0x34] (s.setEng e.val { x with fire := none, exec := some { f with issued := c } })
      (fireEntered e c f x s) := OnlyRegs.inc64 _ (ereg e.val 0x30)

theorem issueFire_eq (e : EngNo) (c : Nat) (f : Fire) (x : Engine) (s : State) : issueFire e c f x s =
    if f.closed = true ∨ 0xE0 ≤ (nwOpc f.word).toNat then fireEntered e c f x s
    else occupy e false (nwOpc f.word).toNat c (latencyOf (fireEntered e c f x s).profile (nwOpc f.word).toNat f.ftz f.l f.r)
      (fireEntered e c f x s) := rfl

theorem issueFire_takes (e : EngNo) (c : Nat) (f : Fire) (x : Engine) (s : State) :
    UnitTaken e (fun u => f.closed = false ∧ (nwOpc f.word).toNat < 0xE0 ∧ unitOfOpc (nwOpc f.word).toNat = u) c
      (latencyOf s.profile (nwOpc f.word).toNat f.ftz f.l f.r) (fireEntered e c f x s) (issueFire e c f x s) := by
  have hprofile : (fireEntered e c f x s).profile = s.profile := (fireEntered_frame e c f x s).get (·.profile)
  rw [issueFire_eq, hprofile]
  generalize fireEntered e c f x s = v
  by_cases h : f.closed = true ∨ 0xE0 ≤ (nwOpc f.word).toNat
  · rw [if_pos h]
    refine .nothing fun u ⟨hc, ho, _⟩ => ?_
    obtain h | h := h
    · simp [hc] at h
    · omega
  · rw [if_neg h]
    rw [not_or, Bool.not_eq_true, Nat.not_le] at h
    exact (occupy_takes e false _ c _ _).congr fun u => ⟨fun k => k.2.2, fun k => ⟨h.1, h.2, k⟩⟩

/-- The engine in its next cycle, as arbitration finds it. -/
def nextCycle (x : Engine) : Engine := { x with cycle := x.cycle + 1, dueAt := none }

/-- The engine with no flags left to raise. -/
def raised (x : Engine) : Engine := { x with raises := [] }

theorem EngineIs.skipDone {e : EngNo} {x : Engine} {s t : State} (h : EngineIs e x s t) (hx : x.strand = none) :
    EngineIs e x s (skipDone e t) := by
  have hid (g : Strand → Strand) : { x with strand := x.strand.map g } = x := by rw [hx, Option.map_none, ← hx]
  unfold Machine.skipDone modStrand
  have hmod := h.modEng (fun x => { x with strand := x.strand.map (fun t => match t.read with
    | some i =>
      if bit t.ctx.flags 12 ∧ t.ctx.rpc = 0 then
        { t with read := none, ctx := { t.ctx with pc := i.pc + 4, flags := putBit t.ctx.flags 12 false } }
      else t
    | none => t) })
  rw [hid] at hmod
  exact hmod

section
variable {s : State} {e : EngNo}

theorem raiseDue_none (hr : (s.eng e.val).raises = []) (hs : (s.eng e.val).strand = none) (c : Nat) :
    raiseDue e c s = s.modEng e.val raised := by
  have hs' : ((s.modEng e.val raised).eng e.val).strand = none := by rw [State.eng_modEng_same]; exact hs
  simp only [raiseDue, hr, List.dropWhile_nil, List.takeWhile_nil, List.foldl_nil, ← raised.eq_1, hs']

theorem noteEvent_noRoutine (hq : (s.eng e.val).seqr = none) : noteEvent e s = s := by simp only [noteEvent, hq]

theorem eng_fireEntered (e : EngNo) (c : Nat) (f : Fire) (x : Engine) (s : State) :
    (fireEntered e c f x s).eng e.val = { x with fire := none, exec := some { f with issued := c } } :=
  ((fireEntered_frame e c f x s).get (·.eng e.val)).trans (State.eng_setEng_same ..)

section
variable {f : Fire} (hin : inService s e.val = true) (hf : (s.eng e.val).fire = some f) (hs : (s.eng e.val).strand = none)
  (hb : (s.eng e.val).standby = none) (hq : (s.eng e.val).seqr = none) (hr : (s.eng e.val).raises = [])
  (hready : fireReady (s.modEng e.val nextCycle) e.val ((s.eng e.val).cycle + 1) f = true)
include hin hf hs hb hq hr hready

/-- EXEC_ISSUE enters a fire that is ready where nothing else asks. -/
theorem execIssue_fire : ∃ v, EngineIs e (nextCycle (s.eng e.val)) s v ∧ exec (.execIssue e) s =
    .next ((issueFire e ((s.eng e.val).cycle + 1) f (nextCycle (s.eng e.val)) v).modEng e.val ungranted) := by
  have hbeg := (EngineIs.self e s).modEng cycleBegun
  have hu : ((s.modEng e.val cycleBegun).eng e.val).strand = none := by rw [hbeg.eng]; rfl
  have hraise := raiseDue_none (by rw [hbeg.eng]; exact hr) hu ((s.eng e.val).cycle + 1)
  have hbeg' := hbeg.modEng raised
  have hexec := execIssue_noStrand hs hin hraise (by rw [hbeg'.eng]; rfl)
  have hview := hbeg'.modEng (switchSeen ((s.eng e.val).cycle + 1))
  have hx : switchSeen ((s.eng e.val).cycle + 1) (raised (cycleBegun (s.eng e.val))) = nextCycle (s.eng e.val) := by
    simp only [switchSeen, switchDue, raised, cycleBegun, nextCycle, hs, hb, hr, Option.map_none, Bool.false_eq_true, if_false]
  rw [hx] at hview
  replace hview := hview.skipDone hs
  generalize skipDone e (((s.modEng e.val cycleBegun).modEng e.val raised).modEng e.val _) = v at hview hexec
  refine ⟨v, hview, hexec.trans ?_⟩
  have hveng := hview.eng
  have hvfire : (v.eng e.val).fire = some f := by rw [hveng]; exact hf
  have hnext := (EngineIs.self e s).modEng nextCycle
  have hvready : fireReady v e.val ((s.eng e.val).cycle + 1) f = true := by
    rw [← hready]
    refine fireReady_congr (by rw [hveng, hnext.eng]) ?_ ?_ ..
    · rw [hview.only.1]
      rfl
    · rw [hview.only.1]
      rfl
  have hch := chooseIssue_fire hvfire (by rw [hveng]; exact hs) (by rw [hveng]; exact hb) hvready
  have hpick : issuePick e ((s.eng e.val).cycle + 1) v = issueFire e ((s.eng e.val).cycle + 1) f (nextCycle (s.eng e.val)) v := by
    rw [issuePick, hch, hvfire, hveng]
  rw [hpick]
  have hseqr := (issueFire_takes e ((s.eng e.val).cycle + 1) f (nextCycle (s.eng e.val)) v).seqr
  rw [eng_fireEntered] at hseqr
  rw [noteEvent_noRoutine]
  rw [State.eng_modEng_same]
  exact hseqr.trans hq

end

end

/-- The first clause of O22: what a fire that enters EXEC leaves. -/
theorem execIssue_fire_effect {s : State} {e : EngNo} {f : Fire} (hin : inService s e.val = true)
    (hf : (s.eng e.val).fire = some f) (hs : (s.eng e.val).strand = none) (hb : (s.eng e.val).standby = none)
    (hq : (s.eng e.val).seqr = none) (hr : (s.eng e.val).raises = [])
    (hready : fireReady (s.modEng e.val nextCycle) e.val ((s.eng e.val).cycle + 1) f = true) :
    ∃ w t, exec (.execIssue e) s = .next t ∧ IssueFrame e s t ∧ t.rd64 (ereg e.val 0x30) = s.rd64 (ereg e.val 0x30) + 1 ∧
      w.plots = s.plots ∧
      w.eng e.val = { nextCycle (s.eng e.val) with fire := none, exec := some { f with issued := (s.eng e.val).cycle + 1 } } ∧
      UnitTaken e (fun u => f.closed = false ∧ (nwOpc f.word).toNat < 0xE0 ∧ unitOfOpc (nwOpc f.word).toNat = u)
        ((s.eng e.val).cycle + 1) (latencyOf s.profile (nwOpc f.word).toNat f.ftz f.l f.r) w t ∧ (t.eng e.val).b64grant = none := by
  obtain ⟨v, hv, hexec⟩ := execIssue_fire hin hf hs hb hq hr hready
  have hvf : IssueFrame e s v := .of_engineIs hv rfl rfl
  have hprofile : v.profile = s.profile := by rw [hv.only.1]
  have hregs : v.rd64 (ereg e.val 0x30) = s.rd64 (ereg e.val 0x30) := by rw [hv.only.1]; rfl
  have hplots : v.plots = s.plots := by rw [hv.only.1]
  have hwf := issueFire_frame (x := nextCycle (s.eng e.val)) ((s.eng e.val).cycle + 1) f (by rw [hv.eng]) (by rw [hv.eng])
  have htake := issueFire_takes e ((s.eng e.val).cycle + 1) f (nextCycle (s.eng e.val)) v
  have heng := eng_fireEntered e ((s.eng e.val).cycle + 1) f (nextCycle (s.eng e.val)) v
  have hcnt : (fireEntered e ((s.eng e.val).cycle + 1) f (nextCycle (s.eng e.val)) v).rd64 (ereg e.val 0x30) =
    v.rd64 (ereg e.val 0x30) + 1 := rd64_inc64 ..
  have hent := (fireEntered_frame e ((s.eng e.val).cycle + 1) f (nextCycle (s.eng e.val)) v).get (·.plots)
  rw [hprofile] at htake
  generalize issueFire e ((s.eng e.val).cycle + 1) f (nextCycle (s.eng e.val)) v = w at hexec hwf htake
  generalize fireEntered e ((s.eng e.val).cycle + 1) f (nextCycle (s.eng e.val)) v = r at htake heng hcnt hent
  refine ⟨r, _, hexec, (hvf.trans hwf).trans (ungranted_frame ..), ?_, hent.trans hplots, heng, htake.ungranted, ?_⟩
  · rw [← hregs, ← hcnt]
    show w.rd _ ++ w.rd _ = r.rd _ ++ r.rd _
    simp only [State.rd, htake.regs]
  · rw [State.eng_modEng_same]
    rfl

/-! ## The flags of an operation that has completed (R185 to R187) -/

/-- ENG_FPX once an operation has raised flags: they stay set, and PEND is set by an enabled IEEE flag that may pend. -/
def fpxAfter (fpx : Reg32) (fl : BitVec 6) (pend : Bool) : Reg32 :=
  if pend ∧ (bits fl 0 5 &&& bits fpx 8 5) ≠ 0 then putBit (fpx ||| fl.setWidth 32) 30 true else fpx ||| fl.setWidth 32

section
variable (fpx : Reg32) (fl : BitVec 6) (pend : Bool)

theorem bits_fpxAfter {lo len : Nat} (h : lo + len ≤ 30) : bits (fpxAfter fpx fl pend) lo len = bits (fpx ||| fl.setWidth 32) lo len := by
  unfold fpxAfter
  split
  · exact bits_putBit_out _ _ _ _ _ (.inr h)
  · rfl

theorem fpxAfter_sticky : (fpxAfter fpx fl pend).extractLsb' 0 6 = fpx.extractLsb' 0 6 ||| fl := by
  refine (bits_fpxAfter fpx fl pend (by decide)).trans (BitVec.eq_of_getLsbD_eq fun i hi => ?_)
  rw [getLsbD_bits, BitVec.getLsbD_or, BitVec.getLsbD_or, BitVec.getLsbD_setWidth, BitVec.getLsbD_extractLsb', Nat.zero_add]
  simp only [hi, decide_true, Bool.true_and, show i < 32 by omega]

theorem fpxAfter_fields : (fpxAfter fpx fl pend).extractLsb' 6 24 = fpx.extractLsb' 6 24 := by
  refine (bits_fpxAfter fpx fl pend (by decide)).trans (BitVec.eq_of_getLsbD_eq fun i hi => ?_)
  rw [getLsbD_bits, BitVec.getLsbD_or, BitVec.getLsbD_setWidth, BitVec.getLsbD_extractLsb', BitVec.getLsbD_of_ge fl _ (by omega),
    Bool.and_false, Bool.or_false]

theorem fpxAfter_pend : bit (fpxAfter fpx fl pend) 30 = (fpx.getLsbD 30 || (pend && decide (bits fl 0 5 &&& bits fpx 8 5 ≠ 0))) := by
  have hor : bit (fpx ||| fl.setWidth 32) 30 = fpx.getLsbD 30 := by
    rw [bit, BitVec.getLsbD_or, BitVec.getLsbD_setWidth, BitVec.getLsbD_of_ge fl _ (by decide), Bool.and_false, Bool.or_false]
  unfold fpxAfter
  split
  · next h =>
    rw [bit_putBit_same _ _ _ (by decide), h.1, decide_eq_true h.2]
    simp
  · next h =>
    rw [hor]
    cases pend with
    | false => simp
    | true =>
      rw [decide_eq_false fun h' => h ⟨rfl, h'⟩]
      simp

theorem fpxAfter_zero : fpxAfter fpx 0 pend = fpx := by
  have hno : ¬ (pend = true ∧ (bits (0 : BitVec 6) 0 5 &&& bits fpx 8 5) ≠ 0) := fun h => h.2 (BitVec.zero_and ..)
  rw [fpxAfter, if_neg hno]
  exact BitVec.or_zero ..

end

/-- The registers of an engine that raise flags: ENG_FPX and the three of ENG_FPX_FIRST. -/
def fpxRegs (e : EngNo) : List Nat := [ereg e.val 0x80, ereg e.val 0x84, ereg e.val 0x88, ereg e.val 0x8C]

/-- What an operation of a node or a strand raises (R185 to R187). -/
structure FpxRaised (e : EngNo) (fl : BitVec 6) (pend : Bool) (s t : State) : Prop where
  only : OnlyRegs (fpxRegs e) s t
  fpx : t.rd (ereg e.val 0x80) = fpxAfter (s.rd (ereg e.val 0x80)) fl pend
  first : t.flag (ereg e.val 0x84) 31 =
    (s.flag (ereg e.val 0x84) 31 || decide (fl &&& (s.rd (ereg e.val 0x80)).extractLsb' 16 6 ≠ 0))

/-- The first captured operation writes the three words of ENG_FPX_FIRST, VALID among them (R187). -/
theorem FpxRaised.capture {e : EngNo} {fl : BitVec 6} {pend : Bool} {s w : State} (h : OnlyRegs [ereg e.val 0x80] s w)
    (hw : w.rd (ereg e.val 0x80) = fpxAfter (s.rd (ereg e.val 0x80)) fl pend)
    (hcap : fl &&& (s.rd (ereg e.val 0x80)).extractLsb' 16 6 ≠ 0) {v : Reg32} (hv : bit v 31 = true) (v' v'' : Reg32) :
    FpxRaised e fl pend s (((w.wr (ereg e.val 0x84) v).wr (ereg e.val 0x88) v').wr (ereg e.val 0x8C) v'') := by
  have hne {a b : Nat} (hab : a ≠ b) : ereg e.val a ≠ ereg e.val b := fun k => hab (ereg_offset_inj k)
  refine ⟨((h.trans (.wr ..)).trans (.wr ..)).trans (.wr ..), ?_, ?_⟩
  · rw [State.rd_wr_ne _ (hne (by decide)), State.rd_wr_ne _ (hne (by decide)), State.rd_wr_ne _ (hne (by decide)), hw]
  · rw [State.flag, State.rd_wr_ne _ (hne (by decide)), State.rd_wr_ne _ (hne (by decide)), State.rd_wr_same, hv, decide_eq_true hcap,
      Bool.or_true]

theorem raiseFpx_raises (e : EngNo) {o : Origin} (ho : o ≠ .buffer) (fl : BitVec 6) (pend : Bool) (s : State) :
    FpxRaised e fl pend s (raiseFpx e o fl pend s) := by
  have hne : ereg e.val 0x84 ≠ ereg e.val 0x80 := fun k => absurd (ereg_offset_inj k) (by decide)
  have hw : OnlyRegs [ereg e.val 0x80] s (s.wr (ereg e.val 0x80) (fpxAfter (s.rd (ereg e.val 0x80)) fl pend)) := .wr ..
  have hrd : (s.wr (ereg e.val 0x80) (fpxAfter (s.rd (ereg e.val 0x80)) fl pend)).rd (ereg e.val 0x80) =
    fpxAfter (s.rd (ereg e.val 0x80)) fl pend := State.rd_wr_same ..
  have hflag : (s.wr (ereg e.val 0x80) (fpxAfter (s.rd (ereg e.val 0x80)) fl pend)).flag (ereg e.val 0x84) 31 =
    s.flag (ereg e.val 0x84) 31 := State.flag_congr (State.rd_wr_ne _ hne _) _
  by_cases hfl : fl = 0
  · subst hfl
    have hsame : raiseFpx e o 0 pend s = s := if_pos rfl
    rw [hsame]
    refine ⟨(OnlyRegs.refl s).mono (fun a ha => absurd ha List.not_mem_nil), (fpxAfter_zero ..).symm, ?_⟩
    simp
  · unfold raiseFpx
    rw [if_neg hfl]
    simp only [← fpxAfter.eq_1]
    generalize s.wr (ereg e.val 0x80) (fpxAfter (s.rd (ereg e.val 0x80)) fl pend) = w at *
    rw [hflag]
    by_cases hcap : s.flag (ereg e.val 0x84) 31 = true ∨ fl &&& bits (s.rd (ereg e.val 0x80)) 16 6 = 0
    · rw [if_pos hcap]
      refine ⟨hw.mono (by simp [fpxRegs]), hrd, ?_⟩
      rw [hflag]
      obtain h | h := hcap
      · rw [h, Bool.true_or]
      · rw [decide_eq_false fun k => k h, Bool.or_false]
    · rw [if_neg hcap]
      rw [not_or] at hcap
      cases o with
      | node node ctx iter word => exact .capture hw hrd hcap.2 (by simp only [bit, BitVec.getLsbD_append]; rfl) ..
      | strand pc desc => exact .capture hw hrd hcap.2 (by simp only [bit, BitVec.getLsbD_append]; rfl) ..
      | buffer => exact absurd rfl ho

section
variable {s : State} {e : EngNo} {k : Raise}

/-- An operation whose flags are due raises them (R185). -/
theorem raiseDue_one {c : Nat} (hr : (s.eng e.val).raises = [k]) (hdue : k.due < c) (ho : k.origin ≠ .buffer)
    (hs : (s.eng e.val).strand = none) :
    raiseDue e c s = raiseFpx e k.origin k.flags k.pend (s.modEng e.val raised) := by
  have hdrop : [k].dropWhile (fun k => decide (k.due < c)) = [] := by simp [hdue]
  have htake : [k].takeWhile (fun k => decide (k.due < c)) = [k] := by simp [hdue]
  have hs' : ((raiseFpx e k.origin k.flags k.pend (s.modEng e.val raised)).eng e.val).strand = none := by
    rw [(raiseFpx_raises e ho k.flags k.pend (s.modEng e.val raised)).only.get (·.eng e.val), State.eng_modEng_same]
    exact hs
  simp only [raiseDue, hr, hdrop, htake, List.foldl_cons, List.foldl_nil, ← raised.eq_1, hs']

theorem skipDone_frame (hs : (s.eng e.val).strand = none) : IssueFrame e s (skipDone e s) :=
  .of_engineIs ((EngineIs.self e s).skipDone hs) rfl rfl

/-- The flags of an operation that no strand waits for are raised in the cycle after it has completed (R185). -/
theorem execIssue_raises (hin : inService s e.val = true) (hr : (s.eng e.val).raises = [k]) (hdue : k.due ≤ (s.eng e.val).cycle)
    (ho : k.origin ≠ .buffer) (hs : (s.eng e.val).strand = none) : ∃ v u t, exec (.execIssue e) s = .next t ∧
      EngineIs e (raised (cycleBegun (s.eng e.val))) s v ∧ FpxRaised e k.flags k.pend v u ∧ IssueFrame e u t := by
  have hbeg := (EngineIs.self e s).modEng cycleBegun
  have hraise := raiseDue_one (c := (s.eng e.val).cycle + 1) (by rw [hbeg.eng]; exact hr) (by omega) ho (by rw [hbeg.eng]; rfl)
  have hv := hbeg.modEng raised
  generalize (s.modEng e.val cycleBegun).modEng e.val raised = v at hv hraise
  have hfpx := raiseFpx_raises e ho k.flags k.pend v
  generalize raiseFpx e k.origin k.flags k.pend v = u at hfpx hraise
  have hus : (u.eng e.val).strand = none := by
    rw [hfpx.only.get (·.eng e.val), hv.eng]
    rfl
  have hsw : IssueFrame e u (u.modEng e.val (switchSeen ((s.eng e.val).cycle + 1))) :=
    .modEng _ _ _ ((strand_switchSeen _ hus).trans hus.symm) (raises_switchSeen ..)
  refine ⟨v, u, _, execIssue_noStrand hs hin hraise hus, hv, hfpx, ?_⟩
  have hskip := hsw.trans (skipDone_frame (hsw.strand.trans hus))
  exact ((hskip.trans (issuePick_frame ..)).trans (ungranted_frame ..)).trans (noteEvent_frame ..)

end

/-! ## EMIT of one result (R76 to R78) -/

/-- Empty holding positions have nothing to move. -/
theorem flushHolds_empty {x : Engine} (h3 : x.holdP3 = []) (hm : x.holdMain = []) (t : Nat) : flushHolds t x = x := by
  cases x
  simp_all [flushHolds]

/-- The token that one single-flit proto forms. -/
theorem protoFlits_proto1 (kind : BitVec 4) (pri : BitVec 2) (tag data : BitVec 64) (epoch : Bool) (seq : BitVec 4) :
    protoFlits (proto1 kind pri tag data) epoch seq = [mkToken kind (emitPri kind pri) epoch seq tag data] := rfl

section
variable {s : State} {e : EngNo} {k : Proto} {f : Flit}

/-- An engine's SEQ rises by one with a token (R35). -/
def seqTaken (x : Engine) : Engine := { x with seq := x.seq + 1 }

/-- A token that passes the EMIT check and has no loopback leaves into the output row with the engine's SEQ (R30, R78). -/
theorem emitProto_out (hk : protoFlits k (s.plot (e.val / 17)).epoch (s.eng e.val).seq = [f]) (hm : malformed s k = false)
    (hloop : s.flag (ereg e.val 4) 2 = true) : emitProto e k s =
      (s.modEng e.val seqTaken).modEng e.val (toOutput (s.plot (e.val / 17)).xcycle f (protoP3 k)) := by
  have hback : loopsBack (s.modEng e.val seqTaken) e f = false := by
    have hflag : (s.modEng e.val seqTaken).flag (ereg e.val 4) 2 = true := hloop
    simp only [loopsBack, hflag, Bool.not_true, Bool.and_false, Bool.false_and]
  simp only [emitProto, hm, hk, ← seqTaken.eq_1, hback, Bool.false_eq_true, if_false]

end

section
variable {s : State} {e : EngNo} {r : Result} {k : Proto}

theorem pickResult_only {x : Engine} (hr : x.results = [r]) (hdue : r.due ≤ x.cycle) (h3 : x.holdP3 = []) (hm : x.holdMain = []) :
    pickResult x = some r := by
  simp [pickResult, hr, hdue, h3, hm]

/-- The engine without its result, as EMIT takes it. -/
def resultTaken (r : Result) (x : Engine) : Engine := { x with results := x.results.erase r }

/-- EMIT_RESULT takes the only result and writes its one token (R76). -/
theorem emitResult_one (hr : (s.eng e.val).results = [r]) (hdue : r.due ≤ (s.eng e.val).cycle) (htoks : r.toks = [k])
    (h3 : (s.eng e.val).holdP3 = []) (hm : (s.eng e.val).holdMain = []) :
    ∃ v, EngineIs e (resultTaken r (s.eng e.val)) s v ∧
      exec (.emitResult e) s = .next ((emitProto e k v).modEng e.val (noteHeld r.origin (resultTaken r (s.eng e.val)))) := by
  have hexec : exec (.emitResult e) s = execEmitResult e s := rfl
  have hflush := (EngineIs.self e s).modEng (flushHolds (s.plot (e.val / 17)).xcycle)
  rw [flushHolds_empty h3 hm] at hflush
  have hpick : pickResult ((s.modEng e.val (flushHolds (s.plot (e.val / 17)).xcycle)).eng e.val) = some r := by
    rw [hflush.eng]
    exact pickResult_only hr hdue h3 hm
  have htaken := hflush.modEng (resultTaken r)
  refine ⟨_, htaken, ?_⟩
  rw [hexec]
  simp only [execEmitResult, hpick, htoks, List.foldl_cons, List.foldl_nil, ← resultTaken.eq_1]
  rw [htaken.eng]

/-- Nothing of a drained store is held where the holding positions are empty (R141). -/
theorem noteHeld_empty {x : Engine} (h3 : x.holdP3 = []) (hm : x.holdMain = []) (o : Origin) (before : Engine) :
    noteHeld o before x = { x with bufHeld := [] } := by
  have hh : inHolds x = [] := by rw [inHolds, h3, hm, List.append_nil]
  simp [noteHeld, hh]

/-- A flit joins an empty lane of the output row (R76). -/
theorem toOutput_empty {x : Engine} (h3 : x.holdP3 = []) (hm : x.holdMain = []) (o3 : x.outP3 = []) (om : x.outMain = []) (t : Nat)
    (f : Flit) (p3 : Bool) : toOutput t f p3 x =
      { x with outP3 := if p3 = true then [(t, f)] else [], outMain := if p3 = true then [] else [(t, f)] } := by
  cases x
  cases p3 <;> simp_all [toOutput]

/-- A flit that joins an empty output row leaves nothing held. -/
theorem noteHeld_toOutput {x : Engine} (h3 : x.holdP3 = []) (hm : x.holdMain = []) (o3 : x.outP3 = []) (om : x.outMain = [])
    (t : Nat) (f : Flit) (c : Prop) [Decidable c] (o : Origin) (before : Engine) : noteHeld o before (toOutput t f (decide c) x) =
      { x with outP3 := if c then [(t, f)] else [], outMain := if c then [] else [(t, f)], bufHeld := [] } := by
  have hout := toOutput_empty h3 hm o3 om t f (decide c)
  rw [noteHeld_empty (by rw [hout]; exact h3) (by rw [hout]; exact hm), hout]
  simp only [decide_eq_true_eq]

end

/-- The token of the only result leaves into the output row with the plot's EPOCH and the engine's SEQ (R30, R33, R35, R76). -/
theorem emitResult_out {s : State} {e : EngNo} {r : Result} {kind : BitVec 4} {pri : BitVec 2} {tag data : BitVec 64}
    (hr : (s.eng e.val).results = [r]) (hdue : r.due ≤ (s.eng e.val).cycle) (htoks : r.toks = [proto1 kind pri tag data])
    (h3 : (s.eng e.val).holdP3 = []) (hm : (s.eng e.val).holdMain = []) (o3 : (s.eng e.val).outP3 = [])
    (om : (s.eng e.val).outMain = []) (hloop : s.flag (ereg e.val 4) 2 = true) (hmal : malformed s (proto1 kind pri tag data) = false) :
    ∃ t, exec (.emitResult e) s = .next t ∧ EngineIs e { s.eng e.val with
      results := [], seq := (s.eng e.val).seq + 1, bufHeld := []
      outP3 := if emitPri kind pri = 3 then [((s.plot (e.val / 17)).xcycle,
        mkToken kind (emitPri kind pri) (s.plot (e.val / 17)).epoch (s.eng e.val).seq tag data)] else []
      outMain := if emitPri kind pri = 3 then [] else [((s.plot (e.val / 17)).xcycle,
        mkToken kind (emitPri kind pri) (s.plot (e.val / 17)).epoch (s.eng e.val).seq tag data)] } s t := by
  obtain ⟨v, hv, hexec⟩ := emitResult_one hr hdue htoks h3 hm
  have hplot : v.plot (e.val / 17) = s.plot (e.val / 17) := by rw [hv.only.1]; rfl
  have hflag : v.flag (ereg e.val 4) 2 = true := by rw [hv.only.1]; exact hloop
  have hmal' : malformed v (proto1 kind pri tag data) = false := by rw [hv.only.1]; exact hmal
  have hflits : protoFlits (proto1 kind pri tag data) (v.plot (e.val / 17)).epoch (v.eng e.val).seq =
      [mkToken kind (emitPri kind pri) (s.plot (e.val / 17)).epoch (s.eng e.val).seq tag data] := by
    rw [protoFlits_proto1, hplot, hv.eng]
    rfl
  rw [emitProto_out hflits hmal' hflag, hplot] at hexec
  refine ⟨_, hexec, ?_⟩
  have hall := ((hv.modEng seqTaken).modEng (toOutput (s.plot (e.val / 17)).xcycle
    (mkToken kind (emitPri kind pri) (s.plot (e.val / 17)).epoch (s.eng e.val).seq tag data)
      (protoP3 (proto1 kind pri tag data)))).modEng (noteHeld r.origin (resultTaken r (s.eng e.val)))
  have hlane : protoP3 (proto1 kind pri tag data) = decide (emitPri kind pri = 3) := rfl
  rw [hlane, noteHeld_toOutput (x := seqTaken (resultTaken r (s.eng e.val))) h3 hm o3 om] at hall
  simp only [seqTaken, resultTaken, hr, List.erase_cons_head] at hall
  exact hall

/-- Settles O22: a fire enters EXEC, a result's token leaves EMIT, and an operation raises its flags. -/
theorem fireAndEmit : Obligations.FireAndEmit := by
  refine ⟨?_, ?_, ?_⟩
  · intro s e f x hin hf hs hb hq hr hready c o lam holds
    obtain ⟨w, t, hexec, hframe, hcnt, hplots, hw, htake, hgrant⟩ := execIssue_fire_effect hin hf hs hb hq hr hready
    refine ⟨t, hexec, htake.exec.trans (by rw [hw]), htake.fire.trans (by rw [hw]), htake.cycle.trans (by rw [hw]; rfl), hcnt,
      htake.div, fun h => (htake.noDiv h).trans (by rw [hw]; rfl), htake.mul, fun h => (htake.noMul h).trans (by rw [hw]; rfl),
      htake.micro, fun h => ?_, fun g h hg => htake.iter g h (by rw [hw]; exact hg), fun h => (htake.noIter h).trans hplots, hgrant,
      hframe.rest, hframe.regs, hframe.engs, hframe.plots⟩
    have hno := htake.noMicro h
    rw [hw] at hno
    exact hno
  · intro s e r kind pri tag data x pl hr hdue htoks h3 hm o3 om hloop hmal f
    obtain ⟨t, hexec, ht⟩ := emitResult_out hr hdue htoks h3 hm o3 om hloop hmal
    exact ⟨t, hexec, ht.only, ht.eng⟩
  · intro s e k x fpx hin hr hdue ho hs
    obtain ⟨v, u, t, hexec, hv, hfpx, hframe⟩ := execIssue_raises hin hr hdue ho hs
    have hvrd (a : Nat) : v.rd a = s.rd a := by rw [hv.only.1]; rfl
    have htrd {o : Nat} (h0 : o ≠ 0x30) (h1 : o ≠ 0x34) : t.rd (ereg e.val o) = u.rd (ereg e.val o) := hframe.regs _ (by
      simp only [List.mem_cons, List.not_mem_nil, or_false, not_or]
      exact ⟨fun h => h0 (ereg_offset_inj h), fun h => h1 (ereg_offset_inj h)⟩)
    have h80 : t.rd (ereg e.val 0x80) = fpxAfter fpx k.flags k.pend := by rw [htrd (by decide) (by decide), hfpx.fpx, hvrd]
    have hother (j : Nat) (hj : j ≠ e.val) : t.eng j = s.eng j :=
      (hframe.engs j hj).trans ((hfpx.only.get (·.eng j)).trans (hv.only.2 j hj))
    refine ⟨t, hexec, ?_, ?_, ?_, ?_, ?_, ?_, hother⟩
    · rw [hframe.raises, hfpx.only.get (·.eng e.val), hv.eng]
      rfl
    · rw [h80]
      exact fpxAfter_sticky ..
    · rw [h80]
      exact fpxAfter_fields ..
    · rw [State.flag, h80]
      exact fpxAfter_pend ..
    · rw [State.flag_congr (htrd (by decide) (by decide)), hfpx.first, State.flag_congr (hvrd _), hvrd]
    · have hmem : SameMemories s v := by
        rw [hv.only.1]
        exact ⟨rfl, rfl, rfl⟩
      exact (hmem.trans (KeepsOthers.of_regs hfpx.only e.val).mem).trans hframe.sameMemories

end Sys2Proof.Machine
end

section
/-! PROOFS. The intakes of acknowledgements and sheaves (R52, R56, R79, R111, R144, R149, R298): O24. -/

namespace Sys2Proof.Machine

/-! ## Words that are stored -/

theorem bytesAt_of_bytes {s : State} : ∀ {n a v : Nat}, (∀ i, i < n → s.byte (a + i) = BitVec.ofNat 8 (v / 256 ^ i)) →
    s.bytesAt a n = v % 256 ^ n
  | 0, _, _, _ => by rw [State.bytesAt, Nat.pow_zero, Nat.mod_one]
  | n + 1, a, v, h => by
    have hfirst := h 0 (Nat.succ_pos n)
    have hrest : s.bytesAt (a + 1) n = v / 256 % 256 ^ n := bytesAt_of_bytes fun i hi => by
      rw [Nat.add_assoc, Nat.add_comm 1 i, h (i + 1) (by omega), Nat.div_div_eq_div_mul, Nat.pow_succ, Nat.mul_comm 256]
    rw [Nat.add_zero, Nat.pow_zero, Nat.div_one] at hfirst
    have hpow : 256 ^ (n + 1) = 256 * 256 ^ n := Nat.pow_succ'
    rw [State.bytesAt, hfirst, hrest, BitVec.toNat_ofNat, hpow]
    exact Nat.mod_mul.symm

theorem bytesAt_congr {s t : State} : ∀ {n a : Nat}, (∀ b, a ≤ b → b < a + n → t.byte b = s.byte b) →
    t.bytesAt a n = s.bytesAt a n
  | 0, _, _ => rfl
  | n + 1, a, h => by
    rw [State.bytesAt, State.bytesAt, h a (Nat.le_refl a) (by omega), bytesAt_congr fun b hb hb' => h b (by omega) (by omega)]

/-- A word reads back as it was stored. -/
theorem load_store (s : State) (a : Nat) (v : Word) : (s.store a 8 v).load a 8 = v := by
  have hbytes : (s.store a 8 v).bytesAt a 8 = v.toNat % 256 ^ 8 := bytesAt_of_bytes fun i hi => State.byte_storeNat 8 s a v.toNat i hi
  rw [State.load, hbytes, Nat.mod_eq_of_lt (v.isLt.trans_eq (by norm_num))]
  exact BitVec.ofNat_toNat ..

theorem load_congr {s t : State} {a : Nat} (h : ∀ b, a ≤ b → b < a + 8 → t.byte b = s.byte b) : t.load a 8 = s.load a 8 := by
  rw [State.load, State.load, bytesAt_congr h]

theorem store_frame (s : State) (a : Nat) (v : Word) : s.store a 8 v = { s with mem := (s.store a 8 v).mem } :=
  State.storeNat_frame ..

/-! ## Reservations (R144) -/

/-- The engine without its reservation. -/
def resvDropped (x : Engine) : Engine :=
  { x with
    resv := none
    strand := x.strand.map (fun t => { t with
      ctx := { t.ctx with flags := putBit t.ctx.flags 13 false }
      writes := t.writes.map (fun w => if w.target = tLrv then { w with value := 0 } else w) }) }

/-- Whether a reservation is on a granule that a write touches. -/
def touches (off n : Nat) (x : Engine) : Bool := x.resv.any (fun g => decide (off / 64 ≤ g.toNat ∧ g.toNat ≤ (off + n - 1) / 64))

/-- The engine after a write to its frame store: a reservation on a granule that it touches is broken. -/
def resvBroken (off n : Nat) (x : Engine) : Engine := if touches off n x then resvDropped x else x

theorem breakResv_is {e : EngNo} {x : Engine} {s t : State} (h : EngineIs e x s t) (off n : Nat) :
    EngineIs e (resvBroken off n x) s (breakResv e off n t) := by
  have hdrop : dropResv e.val t = t.modEng e.val resvDropped := rfl
  unfold breakResv resvBroken touches
  rw [h.eng, hdrop]
  cases x.resv with
  | none => exact h
  | some g =>
    by_cases hg : off / 64 ≤ g.toNat ∧ g.toNat ≤ (off + n - 1) / 64
    · simp only [hg, Option.any_some, and_self, decide_true, if_true]
      exact h.modEng resvDropped
    · simp only [hg, Option.any_some, decide_false, if_false, Bool.false_eq_true]
      exact h

theorem resvBroken_none {x : Engine} (h : x.resv = none) (off n : Nat) : resvBroken off n x = x := by
  simp [resvBroken, touches, h]

theorem resv_resvBroken (off n : Nat) (x : Engine) :
    (resvBroken off n x).resv = if touches off n x = true then none else x.resv := by
  unfold resvBroken
  split <;> rfl

/-- A broken reservation changes nothing of the memory intake. -/
theorem resvBroken_intake (off n : Nat) (x : Engine) : (resvBroken off n x).sheafWr = x.sheafWr ∧
    (resvBroken off n x).sheafWait = x.sheafWait ∧ (resvBroken off n x).sheafTurn = x.sheafTurn := by
  unfold resvBroken
  split <;> exact ⟨rfl, rfl, rfl⟩

/-- Two words side by side touch the granules of the sixteen bytes. -/
theorem resv_resvBroken_pair {off : Nat} (h : off % 8 = 0) (x : Engine) :
    (resvBroken (off + 8) 8 (resvBroken off 8 x)).resv = if touches off 16 x = true then none else x.resv := by
  rw [resv_resvBroken]
  cases hx : x.resv with
  | none => simp [touches, resv_resvBroken, hx]
  | some g =>
    by_cases hfirst : off / 64 ≤ g.toNat ∧ g.toNat ≤ (off + 8 - 1) / 64
    · have hall : off / 64 ≤ g.toNat ∧ g.toNat ≤ (off + 16 - 1) / 64 := by omega
      simp only [touches, resv_resvBroken, hx, Option.any_some, hfirst, hall, and_self, decide_true, if_true, Option.any_none, ite_self]
    · have hsecond : ((off + 8) / 64 ≤ g.toNat ∧ g.toNat ≤ (off + 8 + 8 - 1) / 64) ↔
          (off / 64 ≤ g.toNat ∧ g.toNat ≤ (off + 16 - 1) / 64) := by omega
      simp only [touches, resv_resvBroken, hx, Option.any_some, hfirst, hsecond, decide_false, Bool.false_eq_true, if_false]

/-! ## The words of a sheaf (R56, R298) -/

/-- What a whole word written to a local memory leaves. -/
structure WordStored (m : LocalMem) (e : EngNo) (off : Nat) (v : Word) (s t : State) : Prop where
  word : t.load (m.base e + off) 8 = v
  bytes : ∀ b, b < m.base e + off ∨ m.base e + off + 8 ≤ b → t.byte b = s.byte b
  regs : t.regs = s.regs
  pres : t.pres = s.pres
  engs : ∀ k, k ≠ e.val → t.eng k = s.eng k
  eng : t.eng e.val = if m = .frame then resvBroken off 8 (s.eng e.val) else s.eng e.val

theorem base_aligned (m : LocalMem) (e : Nat) : m.base e % 8 = 0 := by
  cases m <;> simp only [LocalMem.base, frameBase, imemBase, slotBase, plotWin] <;> omega

theorem sheafWord_stored {m : LocalMem} {e : EngNo} {off : Nat} {v : Word} {s : State} (ho : off % 8 = 0) (hin : off + 8 ≤ 0x8000) :
    WordStored m e off v s (sheafWord m e off v s) := by
  have hb := base_aligned m e
  have ha : (m.base e + off) % 8 = 0 := by omega
  have hwords := wordsOf_aligned ha
  have hu : EngineIs e (if m = .frame then resvBroken off 8 (s.eng e.val) else s.eng e.val) s
      (if m = .frame then breakResv e off 8 s else s) := by
    split
    · exact breakResv_is (EngineIs.self e s) off 8
    · exact .self e s
  have hstore : sheafWord m e off v s =
      ((if m = .frame then breakResv e off 8 s else s).setMark (m.base e + off) .clean).store (m.base e + off) 8 v := by
    simp only [sheafWord, if_pos hin, localStore, hwords, ha, and_self, not_true, false_and, if_false, List.foldl_cons, List.foldl_nil]
  rw [hstore]
  generalize (if m = .frame then breakResv e off 8 s else s) = u at hu ⊢
  have hframe := store_frame (u.setMark (m.base e + off) .clean) (m.base e + off) v
  have hbytes (b : Nat) (hb : b < m.base e + off ∨ m.base e + off + 8 ≤ b) :
      ((u.setMark (m.base e + off) .clean).store (m.base e + off) 8 v).byte b = u.byte b :=
    State.byte_storeNat_ne 8 _ _ _ _ hb
  have hword := load_store (u.setMark (m.base e + off) .clean) (m.base e + off) v
  generalize (u.setMark (m.base e + off) .clean).store (m.base e + off) 8 v = t at hframe hbytes hword ⊢
  have hengs : t.engines = u.engines := by rw [hframe]; rfl
  have heng (k : Nat) : t.eng k = u.eng k := by rw [State.eng, State.eng, hengs]
  refine ⟨hword, fun b hb => (hbytes b hb).trans ?_, ?_, ?_, fun k hk => (heng k).trans (hu.only.2 k hk), (heng _).trans hu.eng⟩
  · rw [hu.only.1]
    rfl
  · rw [hframe, hu.only.1]
    rfl
  · rw [hframe, hu.only.1]
    rfl

/-- The words of a data flit are written side by side. -/
structure FlitStored (m : LocalMem) (e : EngNo) (off : Nat) (payload : Entry) (s t : State) : Prop where
  low : t.load (m.base e + off) 8 = bits payload 0 64
  high : t.load (m.base e + off + 8) 8 = bits payload 64 64
  bytes : ∀ b, b < m.base e + off ∨ m.base e + off + 16 ≤ b → t.byte b = s.byte b
  regs : t.regs = s.regs
  pres : t.pres = s.pres
  engs : ∀ k, k ≠ e.val → t.eng k = s.eng k
  eng : t.eng e.val = if m = .frame then resvBroken (off + 8) 8 (resvBroken off 8 (s.eng e.val)) else s.eng e.val

theorem sheafWords_stored {m : LocalMem} {e : EngNo} {off : Nat} {payload : Entry} {s : State} (ho : off % 8 = 0)
    (hin : off + 16 ≤ 0x8000) : FlitStored m e off payload s
      (sheafWord m e (off + 8) (bits payload 64 64) (sheafWord m e off (bits payload 0 64) s)) := by
  have h1 := sheafWord_stored (m := m) (e := e) (v := bits payload 0 64) (s := s) ho (by omega)
  generalize sheafWord m e off (bits payload 0 64) s = u at h1 ⊢
  have h2 := sheafWord_stored (m := m) (e := e) (v := bits payload 64 64) (s := u) (off := off + 8) (by omega) (by omega)
  generalize sheafWord m e (off + 8) (bits payload 64 64) u = t at h2 ⊢
  refine ⟨?_, h2.word, fun b hb => (h2.bytes b (by omega)).trans (h1.bytes b (by omega)), h2.regs.trans h1.regs,
    h2.pres.trans h1.pres, fun k hk => (h2.engs k hk).trans (h1.engs k hk), ?_⟩
  · rw [load_congr fun b hb hb' => h2.bytes b (by omega), h1.word]
  · rw [h2.eng, h1.eng]
    split <;> rfl

/-! ## SHEAF_RSP_WRITE (R56, R79, R149) -/

/-- The memory a data flit of a sheaf is written to. -/
def SheafWord.mem (w : SheafWord) : LocalMem := if w.imem then .imem else .frame

/-- The engine whose sheaf writes its next flit in this cycle. -/
def flitTaken (w : SheafWord) (ws : List SheafWord) (x : Engine) : Engine :=
  { x with sheafWr := ws, sheafWait := 0, sheafTurn := some (x.cycle, !w.imem) }

section
variable {s : State} {e : EngNo} {w : SheafWord}

theorem sheafWaits_held (hwants : strandWants s e w.imem = true)
    (h : w.imem = true ∨ (s.eng e.val).sheafWait < 4 ∨ portBegun (s.eng e.val) = true) : sheafWaits s e w = true := by
  rw [sheafWaits, hwants]
  obtain h | h | h := h <;> simp [h]

theorem sheafWaits_free (h : strandWants s e w.imem = false ∨
    (w.imem = false ∧ 4 ≤ (s.eng e.val).sheafWait ∧ portBegun (s.eng e.val) = false)) : sheafWaits s e w = false := by
  obtain h | ⟨hi, hlate, hbegun⟩ := h
  · rw [sheafWaits, h, Bool.false_and]
  · simp [sheafWaits, hi, hlate, hbegun]

end

section
variable {s : State} {e : EngNo} {w : SheafWord} {ws : List SheafWord} (hw : (s.eng e.val).sheafWr = w :: ws)
  (ht : (s.eng e.val).sheafTurn.map (·.1) ≠ some (s.eng e.val).cycle)
include hw

/-- With a sheaf in hand no other is taken. -/
theorem takeSheaf_inHand : takeSheaf e s = s := by simp [takeSheaf, hw]

include ht

theorem writeSheaf_waits (h : sheafWaits s e w = true) : writeSheaf e s = s.setEng e.val { s.eng e.val with
    sheafWait := (s.eng e.val).sheafWait + 1, sheafTurn := some ((s.eng e.val).cycle, false) } := by
  unfold writeSheaf
  dsimp only
  rw [hw]
  simp only [if_neg ht, h, if_true]

/-- A flit whose port is free writes its two words and takes the port for the cycle. -/
theorem writeSheaf_writes (h : sheafWaits s e w = false) (ho : w.off % 8 = 0) (hin : w.off + 16 ≤ 0x8000) : ∃ v,
    EngineIs e (flitTaken w ws (s.eng e.val)) s v ∧ FlitStored w.mem e w.off w.payload v (writeSheaf e s) := by
  have hwrite : writeSheaf e s = sheafWord w.mem e (w.off + 8) (bits w.payload 64 64)
      (sheafWord w.mem e w.off (bits w.payload 0 64) (s.modEng e.val (flitTaken w ws))) := by
    unfold writeSheaf
    dsimp only
    rw [hw]
    simp only [if_neg ht, h, Bool.false_eq_true, if_false]
    rfl
  rw [hwrite]
  exact ⟨_, (EngineIs.self e s).modEng (flitTaken w ws), sheafWords_stored ho hin⟩

end

/-- The engine that has taken a sheaf from one of its two channels. -/
def sheafTaken (rsp : Bool) (rest : List Flit) (ws : List SheafWord) (x : Engine) : Engine :=
  { x with
    sheafIn := if rsp then rest else x.sheafIn, sheafReq := if rsp then x.sheafReq else rest
    sheafWr := ws, sheafWait := 0 }

/-- A sheaf that is taken in hand changes nothing of what the strand side wants of the port (R79). -/
theorem strandWants_sheafTaken {e : EngNo} {rsp : Bool} {rest : List Flit} {ws : List SheafWord} {s t : State}
    (h : EngineIs e (sheafTaken rsp rest ws (s.eng e.val)) s t) (imem : Bool) : strandWants t e imem = strandWants s e imem := by
  have htest : t.testMode = s.testMode := by rw [h.only.1]
  have hpath (p : PlotNo) (a : BitVec 40) : pathRoom t p a = pathRoom s p a := by rw [h.only.1]; rfl
  have hregion (i : SIssue) (n : Nat) : memRegion t e i n = memRegion s e i n := by
    have hk : runK t e = runK s e := by
      rw [runK, h.eng]
      rfl
    simp only [memRegion, regionOf, hk, htest]
  have htakes : takesPort t e = takesPort s e := by
    simp only [takesPort, hregion, h.eng]
    rfl
  have hdrain : drainDue t e = drainDue s e := by
    simp only [drainDue, drainable, waitsNow, hregion, hpath, h.eng]
    rfl
  simp only [strandWants, portTaken, htakes, hdrain, hregion, h.eng]
  rfl

/-- A whole, good sheaf of one data flit is taken in hand (R42, R46, R47, R52, R149). -/
theorem takeSheaf_one {s : State} {e : EngNo} {f g : Flit} {fs : List Flit} {rsp : Bool} (hw : (s.eng e.val).sheafWr = [])
    (hin : takePacket (if rsp = true then (s.eng e.val).sheafIn else (s.eng e.val).sheafReq) = ([f, g], fs))
    (hrsp : rsp = false → (takePacket (s.eng e.val).sheafIn).1 = []) (hbroken : sheafBroken [f, g] = false)
    (hf : f.poison = false) (hg : g.poison = false) (hbad : badSheafRsp s f [g] = false) :
    EngineIs e (sheafTaken rsp fs (sheafWords f [g]) (s.eng e.val)) s (takeSheaf e s) := by
  have hchan : (!(takePacket (s.eng e.val).sheafIn).1.isEmpty) = rsp := by
    cases rsp with
    | false => rw [hrsp rfl]; rfl
    | true =>
      rw [if_pos rfl] at hin
      rw [hin]
      rfl
  have hpoison : [f, g].any Flit.poison = false := by simp [hf, hg]
  have hbad' (x : Engine) : badSheafRsp (s.setEng e.val x) f [g] = false := hbad
  have htake : takeSheaf e s = (s.setEng e.val (if rsp = true then { s.eng e.val with sheafIn := fs } else
      { s.eng e.val with sheafReq := fs })).modEng e.val (fun x => { x with sheafWr := sheafWords f [g], sheafWait := 0 }) := by
    unfold takeSheaf
    dsimp only
    rw [hw, hchan, hin]
    simp only [hbroken, hpoison, hbad', List.isEmpty_nil, Bool.not_true, Bool.false_eq_true, if_false]
  rw [htake]
  have his := ((EngineIs.self e s).modEng (fun x => if rsp = true then { x with sheafIn := fs } else { x with sheafReq := fs })).modEng
    (fun x => { x with sheafWr := sheafWords f [g], sheafWait := 0 })
  cases rsp <;> exact his

/-- What a data flit that is written leaves of the memory intake and of the reservation (R79, R144). -/
theorem FlitStored.intake {w : SheafWord} {e : EngNo} {s t : State} (h : FlitStored w.mem e w.off w.payload s t)
    (ho : w.off % 8 = 0) : (t.eng e.val).sheafWr = (s.eng e.val).sheafWr ∧ (t.eng e.val).sheafWait = (s.eng e.val).sheafWait ∧
      (t.eng e.val).sheafTurn = (s.eng e.val).sheafTurn ∧ (t.eng e.val).resv =
        if w.imem = false ∧ touches w.off 16 (s.eng e.val) = true then none else (s.eng e.val).resv := by
  cases hi : w.imem with
  | true =>
    have hmem : w.mem ≠ .frame := by simp [SheafWord.mem, hi]
    rw [h.eng, if_neg hmem]
    simp
  | false =>
    have hmem : w.mem = .frame := by simp [SheafWord.mem, hi]
    obtain ⟨h1, h2, h3⟩ := resvBroken_intake w.off 8 (s.eng e.val)
    obtain ⟨k1, k2, k3⟩ := resvBroken_intake (w.off + 8) 8 (resvBroken w.off 8 (s.eng e.val))
    rw [h.eng, if_pos hmem]
    refine ⟨k1.trans h1, k2.trans h2, k3.trans h3, ?_⟩
    rw [resv_resvBroken_pair ho]
    simp

/-! ## GRN_ACK_INTAKE (R52, R56, R111) -/

/-- The engine without its oldest acknowledgement. -/
def ackTaken (fs : List Flit) (x : Engine) : Engine := { x with acks := fs }

/-- An acknowledgement is counted (R111). -/
def ackCounted (x : Engine) : Engine := { x with acnt := x.acnt + 1 }

/-- With no fence waiting none completes (R111). -/
theorem completeFences_none {e : EngNo} {s : State} (h : (s.eng e.val).fences = []) (fuel : Nat) : completeFences e fuel s = s := by
  have hnone : reachedFence (s.eng e.val) = none := by rw [reachedFence, h]; rfl
  cases fuel with
  | zero => rfl
  | succ n => simp only [completeFences, hnone]

section
variable {s : State} {e : EngNo} {f : Flit} {fs : List Flit} (ha : (s.eng e.val).acks = f :: fs)
include ha

theorem grnAckIntake_eq : exec (.grnAckIntake e) s = .next (
    if f.poison = true then detect (tokenDetect 0x14 e f 0) (s.modEng e.val (ackTaken fs))
    else if badAck f.tag = true then detect (tokenDetect 0x12 e f 0) (s.modEng e.val (ackTaken fs))
    else completeFences e 4 ((s.modEng e.val (ackTaken fs)).modEng e.val ackCounted)) := by
  have hexec : exec (.grnAckIntake e) s = execGrnAckIntake e s := rfl
  rw [hexec]
  unfold execGrnAckIntake
  dsimp only
  rw [ha]
  dsimp only
  split
  · rfl
  · split <;> rfl

end

/-- An acknowledgement that is discarded leaves the queue, and its record changes no engine and no memory. -/
theorem ack_discarded (s : State) (e : EngNo) (f : Flit) (fs : List Flit) (c : BitVec 8) :
    (detect (tokenDetect c e f 0) (s.modEng e.val (ackTaken fs))).eng e.val = { s.eng e.val with acks := fs } ∧
      SameMemories s (detect (tokenDetect c e f 0) (s.modEng e.val (ackTaken fs))) := by
  refine ⟨?_, ((KeepsOthers.modEng e.val (ackTaken fs) s).trans (.detect ..)).mem⟩
  rw [eng_detect, State.eng_modEng_same]
  rfl

/-- A step of one engine alone leaves the bytes, the registers, the presence and the other engines. -/
theorem EngineIs.rest {e : EngNo} {x : Engine} {s t : State} (h : EngineIs e x s t) :
    (∀ b, t.byte b = s.byte b) ∧ t.regs = s.regs ∧ t.pres = s.pres := by
  rw [h.only.1]
  exact ⟨fun _ => rfl, rfl, rfl⟩

/-- A whole, good sheaf of one data flit for the frame store is taken and written in one cycle where the strand leaves the
port (R56, R149). -/
theorem sheafRspWrite_one {s : State} {e : EngNo} {f g : Flit} {fs : List Flit} {rsp : Bool} (hw : (s.eng e.val).sheafWr = [])
    (hin : takePacket (if rsp = true then (s.eng e.val).sheafIn else (s.eng e.val).sheafReq) = ([f, g], fs))
    (hrsp : rsp = false → (takePacket (s.eng e.val).sheafIn).1 = []) (hbroken : sheafBroken [f, g] = false)
    (hf : f.poison = false) (hg : g.poison = false) (hbad : badSheafRsp s f [g] = false) (hsp : tagSpace f.tag = 1)
    (hend : 8 * (tagAddr f.tag).toNat + 16 ≤ 0x8000)
    (ht : (s.eng e.val).sheafTurn.map (·.1) ≠ some (s.eng e.val).cycle) (hwants : strandWants s e false = false) :
    ∃ u v t, exec (.sheafRspWrite e) s = .next t ∧ EngineIs e (sheafTaken rsp fs (sheafWords f [g]) (s.eng e.val)) s u ∧
      EngineIs e { sheafTaken rsp fs [] (s.eng e.val) with sheafTurn := some ((s.eng e.val).cycle, true) } u v ∧
      FlitStored .frame e (8 * (tagAddr f.tag).toNat) g.payload v t := by
  have hexec : exec (.sheafRspWrite e) s = .next (writeSheaf e (takeSheaf e s)) := rfl
  have hu := takeSheaf_one hw hin hrsp hbroken hf hg hbad
  generalize takeSheaf e s = u at hu hexec
  have hword : sheafWords f [g] = [{ imem := false, off := 8 * (tagAddr f.tag).toNat, payload := g.payload }] := by
    simp [sheafWords, hsp]
  have hwaits : sheafWaits u e { imem := false, off := 8 * (tagAddr f.tag).toNat, payload := g.payload } = false := by
    rw [sheafWaits, strandWants_sheafTaken hu, hwants, Bool.false_and]
  obtain ⟨v, hv, ht⟩ := writeSheaf_writes (by rw [hu.eng]; exact hword) (by rw [hu.eng]; exact ht) hwaits (Nat.mul_mod_right 8 _) hend
  rw [hu.eng] at hv
  exact ⟨u, v, _, hexec, hu, hv, ht⟩

/-- Settles O24: acknowledgements are counted or discarded, and the flits of a sheaf are written or wait for their port. -/
theorem engineIntakes : Obligations.EngineIntakes := by
  intro s e f fs x
  refine ⟨fun ha hp hbad hfence => ?_, fun ha hp => ?_, fun ha hp hbad => ?_,
    fun g rsp hin hrsp hbroken hf hg hbad hsp hend hw ht hwants hr => ?_,
    fun w ws hw ht hend => ⟨fun hwants hhold => ?_, fun hfree ho => ?_⟩⟩
  · have his := ((EngineIs.self e s).modEng (ackTaken fs)).modEng ackCounted
    have hexec := grnAckIntake_eq ha
    rw [if_neg (by simp [hp]), if_neg (by simp [hbad]), completeFences_none (by rw [his.eng]; exact hfence)] at hexec
    exact ⟨_, hexec, his.only, his.eng⟩
  · have hexec := grnAckIntake_eq ha
    rw [if_pos hp] at hexec
    obtain ⟨heng, hmem⟩ := ack_discarded s e f fs 0x14
    exact ⟨_, hexec, heng, hmem, fun hfree => detect_opens_after hfree⟩
  · have hexec := grnAckIntake_eq ha
    have hbad' : badAck f.tag = true := by simpa [badAck] using hbad
    rw [if_neg (by simp [hp]), if_pos hbad'] at hexec
    obtain ⟨heng, hmem⟩ := ack_discarded s e f fs 0x12
    exact ⟨_, hexec, heng, hmem, fun hfree => detect_opens_after hfree⟩
  · obtain ⟨u, v, t, hexec, hu, hv, hst⟩ := sheafRspWrite_one hw hin hrsp hbroken hf hg hbad hsp hend ht hwants
    obtain ⟨hub, hur, hup⟩ := hu.rest
    obtain ⟨hvb, hvr, hvp⟩ := hv.rest
    have hnone : (v.eng e.val).resv = none := by rw [hv.eng]; exact hr
    refine ⟨t, hexec, ?_, hst.low, hst.high, fun b hb => (hst.bytes b hb).trans ((hvb b).trans (hub b)),
      fun k hk => (hst.engs k hk).trans ((hv.only.2 k hk).trans (hu.only.2 k hk)), hst.regs.trans (hvr.trans hur),
      hst.pres.trans (hvp.trans hup)⟩
    rw [hst.eng, if_pos rfl, resvBroken_none hnone, resvBroken_none hnone, hv.eng]
    simp only [sheafTaken, ← hw]
    rfl
  · have hexec : exec (.sheafRspWrite e) s = .next (writeSheaf e (takeSheaf e s)) := rfl
    rw [takeSheaf_inHand hw, writeSheaf_waits hw ht (sheafWaits_held hwants hhold)] at hexec
    exact ⟨_, hexec, .setEng .., State.eng_setEng_same ..⟩
  · have hexec : exec (.sheafRspWrite e) s = .next (writeSheaf e (takeSheaf e s)) := rfl
    obtain ⟨v, hv, hst⟩ := writeSheaf_writes hw ht (sheafWaits_free hfree) ho hend
    rw [takeSheaf_inHand hw] at hexec
    obtain ⟨hvb, hvr, hvp⟩ := hv.rest
    obtain ⟨hwr, hwait, hturn, hresv⟩ := hst.intake ho
    rw [hv.eng] at hwr hwait hturn hresv
    have hbase : w.mem.base e.val = if w.imem = true then imemBase e.val else frameBase e.val := by
      cases hi : w.imem <;> simp [SheafWord.mem, hi, LocalMem.base]
    have hlow := hst.low
    have hhigh := hst.high
    have hbytes := hst.bytes
    rw [hbase] at hlow hhigh hbytes
    exact ⟨_, hexec, hlow, hhigh, fun b hb => (hbytes b hb).trans (hvb b), fun k hk => (hst.engs k hk).trans (hv.only.2 k hk),
      hwr, hwait, hturn, hresv, hst.regs.trans hvr, hst.pres.trans hvp⟩

end Sys2Proof.Machine
end
